-- ==== Sys2Proof/Word.lean ====
section
/-! DEFINITION. The word and byte types of the block (R7, R10). -/
namespace Sys2Proof

/-- A 64-bit register, scalar or global address (R11, R28). -/
abbrev Word := BitVec 64

/-- One byte of memory. -/
abbrev Byte := BitVec 8

/-- An instruction word of an engine program (R107). -/
abbrev IWord := BitVec 128

/-- A tensor descriptor (R115). -/
abbrev TDesc := BitVec 256

end Sys2Proof
end

