-- ==== Sys2Proof/Types.lean ====
section
/-! DEFINITION. The plain types that commands and the state share: unit numbers (R16), completion codes (R520), memory
requests, packets (R348), flits (R344), link-control messages, frames, service-protocol messages, reports (R522) and readings. -/
namespace Sys2Proof

/-- E00-E79 (R16). -/
abbrev EngineId := Fin 80
/-- Squares, columns and routers 0-39 (R16, R19). -/
abbrev SquareId := Fin 40
/-- Pyler ports PL0-PL7 (R16). -/
abbrev PortId := Fin 8
/-- Frontage ports FR0-FR1 (R16). -/
abbrev FrId := Fin 2
/-- Control cores 0-3 (R17). -/
abbrev CoreId := Fin 4
/-- Gauges 0-63 (R36). -/
abbrev GaugeId := Fin 64
/-- Power regions: region `r` is power instance `r + 1` (R36). -/
abbrev RegionId := Fin 120
/-- Banks of one engine (R24). -/
abbrev BankId := Fin 2048
/-- Block ID (R28). -/
abbrev BlockId := BitVec 12
/-- An epoch number (R331). -/
abbrev Epoch := BitVec 32
/-- Frontage session slots (R380). -/
abbrev SlotId := Fin 64
/-- Numbered filtered inputs (R549). -/
abbrev PinId := Fin 15

/-- The completion codes of R520. -/
inductive Code where
  | ok | dataErr | targetReset | epochSkew | scaleSkew | accessDenied | unmapped | linkDown | timeout | cancelled
  deriving DecidableEq, Repr

/-- The 4-bit code of R520. -/
def Code.toNat : Code → Nat
  | .ok => 0 | .dataErr => 1 | .targetReset => 2 | .epochSkew => 3 | .scaleSkew => 4
  | .accessDenied => 5 | .unmapped => 6 | .linkDown => 7 | .timeout => 8 | .cancelled => 9

/-- The code a 4-bit value names; codes 0xA-0xF are reserved (R520). -/
def Code.ofCode : Nat → Option Code
  | 0 => some .ok | 1 => some .dataErr | 2 => some .targetReset | 3 => some .epochSkew | 4 => some .scaleSkew
  | 5 => some .accessDenied | 6 => some .unmapped | 7 => some .linkDown | 8 => some .timeout | 9 => some .cancelled
  | _ => none

/-- What other blocks answered to the accesses of one command, used only where an access leaves this block: the code and data of its reads, the
code of its writes, and the applied epoch of a unit there that answered EPOCH_SKEW (R333). -/
structure Reply where
  code : Code
  data : List Byte
  write : Code := .ok
  epoch : Epoch := 0#32
  deriving DecidableEq, Repr

/-- A read of `n` bytes or a write of bytes. -/
inductive MemOp where
  | read (n : Nat)
  | write (bytes : List Byte)
  deriving DecidableEq, Repr

/-- Bytes an access names. -/
def MemOp.size : MemOp → Nat
  | .read n => n
  | .write b => b.length

/-- Who issues a transaction (R28, R34). -/
inductive Requester where
  | core (c : CoreId)
  | engine (e : EngineId)
  | remote (b : BlockId)
  deriving DecidableEq, Repr

/-- A transaction: requester, its own number for it, address, access and the epoch it carries (R333). -/
structure MemReq where
  who : Requester
  id : Nat
  addr : Word
  op : MemOp
  epoch : Option Epoch
  deriving DecidableEq, Repr

/-- What a packet of the Avenue mesh carries (R314, R319): a request to a unit, the completion of one, a message of the synchronisation class,
or a multicast copy with the destinations still to be reached. -/
inductive MeshBody where
  | request (req : MemReq)
  | completion (dest : Requester) (id : Nat) (code : Code) (detail : Nat) (data : List Byte)
  | sync (tag : Nat) (epoch : Option Epoch)
  | multicast (who : Requester) (id : Nat) (addr : Word) (bytes : List Byte) (squares : Bool) (dests : List Nat) (epoch : Option Epoch)
  deriving DecidableEq, Repr

/-- The ports of a router (R313). -/
inductive MeshPort where
  | north | south | east | west | engineA | engineB | square | floor | roundabout
  deriving DecidableEq, Repr

/-- A packet in the mesh: the router that it is at, the port by which it came in there, the router that it goes to, its plane and what it
carries. -/
structure MeshPkt where
  at_ : SquareId
  inp : MeshPort
  dst : SquareId
  plane : Fin 2
  body : MeshBody
  deriving DecidableEq, Repr

/-- What the on-die code finds in a 128-bit word of DRAM (R252, R272, R273). -/
inductive Ecc where
  | clean | single | uncorrectable | poison
  deriving DecidableEq, Repr

/-- A storage upset met by an access: word 0-63 of the row, and what the code finds there. -/
structure Upset where
  word : Fin 64
  kind : Ecc
  deriving DecidableEq, Repr

/-- What a message to a flag of another block carries beside the flag (R324, R325, R333): the tag that its answer brings back, and the epoch of the
instruction that sent it. -/
structure FlagMsg where
  tag : BitVec 16 := 0#16
  epoch : Option Epoch := none
  deriving DecidableEq, Repr

/-- How the home of a flag answers (R324, R325, R333): the change is made or the watch ends, the watch is refused, or the message is refused with
EPOCH_SKEW and the home's applied epoch. -/
inductive FlagAns where
  | done
  | refused
  | skew (applied : Epoch)
  deriving DecidableEq, Repr

/-- A Pyler packet: the header fields of R348 and its data. `resv` is true when a bit that must be zero is set. -/
structure Pkt where
  ptype : BitVec 4
  code : BitVec 4
  len : BitVec 8
  src : BlockId
  dst : BlockId
  tag : BitVec 16
  spur : Bool
  rev : BitVec 3
  vc : Bool
  hasData : Bool
  resv : Bool
  addr : BitVec 52
  epoch : Epoch
  epochValid : Bool
  hops : BitVec 8
  aux : BitVec 56
  data : List Byte
  deriving DecidableEq, Repr

/-- The messages link-control flits carry (R356, R358, R365, R367). -/
inductive LinkCtl where
  | none
  | down (leaving : Bool)
  | lane (physical : BitVec 6) (pair : BitVec 9)
  deriving DecidableEq, Repr, Inhabited

/-- The header of a flit (R344). -/
structure FlitHdr where
  seq : Word
  ack : BitVec 32
  nak : Bool
  ftype : BitVec 2
  kphase : Bool
  cclass : BitVec 3
  cvc : Bool
  ccount : BitVec 11
  deriving DecidableEq, Repr

/-- What a codeword pair brings on the lanes of a port (R340, R342): for each physical lane its PAM4 symbols in order, each the two bits that it
carries. -/
abbrev LaneBits := List (Nat × List (BitVec 2))

/-- A HELLO (R356, R358): block ID, port role, nonce, ephemeral public key, the alias certificate and the identity certificate of its sender; and,
for a new handshake beside running traffic, the sequence number of the flit with which the sender changes to the new keys. -/
structure Hello where
  id : BlockId
  role : BitVec 3
  nonce : List Byte
  pubKey : List Byte
  alias_ : List Byte
  ident : List Byte
  toggle : Word
  deriving DecidableEq, Repr

/-- An Ethernet frame as the MAC and IP layers see it (R378, R379): addresses with their first octet in the low bits; the payload of UDP or ICMPv6;
and the codewords that the FEC corrected and could not correct since the frame before (R404). -/
structure Frame where
  size : Nat
  fcsOk : Bool
  pause : Bool
  vlan : Option (BitVec 12)
  dstMac : BitVec 48
  ipv6 : Bool
  plain : Bool
  ipLen : Nat
  nextHeader : BitVec 8
  dstIp : BitVec 128
  srcIp : BitVec 128
  srcMac : BitVec 48
  srcPort : BitVec 16
  dstPort : BitVec 16
  sumOk : Bool
  sumZero : Bool
  payload : List Byte
  corrected : Nat
  uncorrected : Nat
  deriving DecidableEq, Repr

/-- A ClientHello (R384): cipher suites, groups and signature schemes by their numbers; whether it offers connection IDs, early data, PSK resumption
and post-handshake authentication; the cookie that it returns; and the address, MAC and UDP port from which it came, first octets in the low bits. -/
structure Offer where
  suites : List (BitVec 16)
  groups : List (BitVec 16)
  schemes : List (BitVec 16)
  connId : Bool
  early : Bool
  psk : Bool
  postAuth : Bool
  cookie : Option (List Byte)
  ip : BitVec 128
  mac : BitVec 48
  port : BitVec 16
  deriving DecidableEq, Repr

/-- The space of an access of a control core: the global addresses, or the private space of the cores, whose Floor SRAM has byte parity (R380, R528). -/
inductive CoreSpace where
  | global
  | own (parity : Bool)
  deriving DecidableEq, Repr

/-- The header of a service-protocol message (R387) with its body. -/
structure FspMsg where
  version : BitVec 8
  mtype : BitVec 8
  reserved : BitVec 16
  length : BitVec 32
  seq : Word
  ack : Word
  op : Word
  body : List Byte
  deriving DecidableEq, Repr

/-- A report to the error log (R522, R523, R525). -/
structure Report where
  cls : Nat
  inst : Nat
  sub : Nat
  typ : BitVec 16
  sev : Nat
  code : Code
  detail : Nat
  btime : Nat
  deriving DecidableEq, Repr

/-- One housekeeping round (R435): readings in 1/16 degree by diode and thermistor (`none`: the reading is invalid under
R442; a sensor not listed reads as in the round before), and activity counts by model node (R445). -/
structure AdcRound where
  diodes : List (Nat × Option Int)
  therms : List (Nat × Option Int)
  counts : List (Nat × List Nat)
  deriving DecidableEq, Repr

/-- Engine-event kinds of R397. -/
inductive EngEvent where
  | suspended | halted | faulted | idle
  deriving DecidableEq, Repr

/-- Which flash image slot, or the configuration image (R480). -/
inductive ImageSlot where
  | boot (slot : Fin 2)
  | config
  deriving DecidableEq, Repr

/-- Where a unit meets a parity error: in its own structures, in the Side Street, or, for a table load, in the slot headers (R105, R195, R522). -/
inductive ParityPlace where
  | unit | sideStreet | headers
  deriving DecidableEq, Repr

/-- A parity error: its place, and the logical core whose cells hold it, where one is known (R105). -/
structure ParityHit where
  place : ParityPlace
  core : Option (Fin 128)
  deriving DecidableEq, Repr

/-- A parity error that the hardware met while a unit ran an instruction (R103, R105, R208, R250). -/
abbrev Parity := Option ParityHit

/-- Whether a bank-arithmetic step met an error of its own (R307). -/
abbrev StepErr := Bool

/-- A link-level time in 1/16 ns (R373, R374). -/
abbrev Time16 := Int

end Sys2Proof
end

