-- ==== Sys2Proof/Syntax.lean ====
section
/-! DEFINITION. The commands of the block: one constructor per row of spec/opcode_table.json, with the row's operands. -/
namespace Sys2Proof

/-- A command: a step of the part, whole and indivisible (95_what_each_step_holds.md). An operand of an environment's kind
(a reading, a completion returned by another block, whether a partner's signature verified) is what the world outside supplies. -/
inductive Instr where
  -- the sequencer of an engine (R107-R132)
  | instructionIssue (e : EngineId) (parity : Bool)
  | instructionComplete (e : EngineId) (id : Nat)
  | instructionRetire (e : EngineId)
  | enterFaulted (e : EngineId)
  | ctlNop (e : EngineId)
  | ctlBr (e : EngineId)
  | ctlLoop (e : EngineId)
  | ctlEndl (e : EngineId)
  | ctlYield (e : EngineId)
  | ctlPhase (e : EngineId)
  | ctlPage (e : EngineId) (r : Reply)
  | ctlHalt (e : EngineId)
  | ctlSets (e : EngineId)
  | ctlAlu (e : EngineId)
  | ctlCmp (e : EngineId)
  | ctlTset (e : EngineId)
  | ctlTadv (e : EngineId)
  | ctlLds (e : EngineId) (r : Reply)
  | ctlSts (e : EngineId) (r : Reply)
  -- computing instructions (R125, R126, R183-R205, R222-R245)
  | matMul (e : EngineId) (parity : Parity)
  | matCvt (e : EngineId) (parity : Parity)
  | vecBin (e : EngineId) (parity : Parity)
  | vecFma (e : EngineId) (parity : Parity)
  | vecUn (e : EngineId) (parity : Parity)
  | vecRed (e : EngineId) (parity : Parity)
  | vecSel (e : EngineId) (parity : Parity)
  | sfnEval (e : EngineId) (parity : Parity)
  | sfnLoad (e : EngineId) (parity : Parity)
  | sfnSwap (e : EngineId)
  | nrmStat (e : EngineId) (parity : Parity)
  | nrmLn (e : EngineId) (parity : Parity)
  | nrmRms (e : EngineId) (parity : Parity)
  | attRun (e : EngineId) (parity : Parity)
  | attMerge (e : EngineId) (parity : Parity)
  | attRing (e : EngineId)
  | ringChunkReady (e : EngineId) (parity : Parity)
  | ringForwardStart (e : EngineId)
  | ringForwardDone (e : EngineId) (parity : Bool) (r : Reply)
  | ringStepEnd (e : EngineId) (r : Reply)
  | ringWaitTimeout (e : EngineId)
  -- moves, broadcasts, synchronisation, configuration
  | movCopy (e : EngineId) (r : Reply)
  | movMcast (e : EngineId) (r : Reply)
  | bauAdd (e : EngineId)
  | bauAxpy (e : EngineId)
  | bauScale (e : EngineId)
  | bauFill (e : EngineId)
  | bauCopy (e : EngineId)
  | bauQnt (e : EngineId)
  | bauDqt (e : EngineId)
  | bauOpt (e : EngineId)
  | bauSum (e : EngineId)
  | bauMaxabs (e : EngineId)
  | bauWait (e : EngineId)
  | syncFence (e : EngineId)
  | syncBar (e : EngineId)
  | syncFlag (e : EngineId)
  | syncEpoch (e : EngineId)
  | cfgSet (e : EngineId)
  | cfgGet (e : EngineId)
  -- commands of ENG_CTL and what follows them (R134-R149)
  | engStart (e : EngineId) (v : Word)
  | engSuspend (e : EngineId) (v : Word)
  | engResume (e : EngineId) (v : Word)
  | engCancel (e : EngineId) (v : Word)
  | engClear (e : EngineId) (v : Word)
  | yieldSuspend (e : EngineId)
  | contextWriteDone (e : EngineId) (r : Reply)
  | contextReadDone (e : EngineId) (r : Reply)
  | cancelDrained (e : EngineId)
  | engPgcmdGo (e : EngineId) (v : Word)
  | pageLoadDone (e : EngineId) (r : Reply)
  -- streams, the result buffer and its drain (R150-R178, R217)
  | streamGrant (e : EngineId)
  | resultBufferReserve (e : EngineId)
  | streamReadReturn (e : EngineId) (id : Nat) (r : Reply)
  | drainWriteDone (e : EngineId) (code : Code)
  | scaleRecordUpdate (e : EngineId) (parity : Bool)
  | remoteAccessTimeout (e : EngineId) (id : Nat)
  | controlCoreAccess (c : CoreId) (sp : CoreSpace) (addr : Word) (op : MemOp)
  -- bank arithmetic (R280-R311)
  | broadcastAccept (e : EngineId)
  | landingRecallDone (e : EngineId)
  | waveRelease (e : EngineId)
  | checkPassDone (e : EngineId)
  | bauStep (e : EngineId) (b : BankId) (err : StepErr)
  | bauBusTransfer (e : EngineId) (layer : Fin 4)
  | bauResultWrite (e : EngineId)
  | optRecordUpdate (e : EngineId)
  | bauModeApply (e : EngineId)
  -- landings, banks and squares (R252-R279)
  | verticalChannelRequest (e : EngineId) (chan : Fin 128) (req : MemReq) (badFlag : Bool)
  | bankAccess (e : EngineId) (b : BankId) (ups : List Upset)
  | rowCloseTimeout (e : EngineId) (b : BankId)
  | refreshDue (e : EngineId) (b : BankId)
  | refresh (e : EngineId) (b : BankId)
  | refreshCatchup (e : EngineId) (b : BankId)
  | scrubRead (e : EngineId) (b : BankId) (ups : List Upset)
  | squareRequest (k : SquareId) (req : MemReq) (bad : List (Fin 64))
  | plazaFillDone (k : SquareId) (failed : Bool)
  | sqCtlWrite (k : SquareId) (v : Word)
  | windowChangeDone (k : SquareId)
  | sqFlushGo (k : SquareId) (v : Word)
  | sqFlushDone (k : SquareId)
  -- the Avenue mesh and the Roundabout (R312-R325)
  | meshPacket (k : SquareId) (plane : Fin 2) (p : Option MeshPkt)
  | multicastBranch (k : SquareId) (plane : Fin 2) (p : Option MeshPkt)
  | deliveredResetTimeout (e : EngineId)
  | barrierArrival (e : EngineId)
  | childArrival (b : Fin 64) (child : BlockId)
  | parentRelease (b : Fin 64) (gen : BitVec 12)
  | flagSet (f : Fin 256) (who : Requester) (m : FlagMsg)
  | flagClear (f : Fin 256) (who : Requester) (m : FlagMsg)
  | flagWatch (f : Fin 256) (who : BlockId) (forSet : Bool) (m : FlagMsg)
  | flagAnswer (f : Fin 256) (e : EngineId) (a : FlagAns)
  | watchRetry (f : Fin 256) (e : EngineId)
  | avBarCfgWrite (b : Fin 64) (v : Word)
  | avFlagSetWrite (i : Fin 4) (v : Word)
  | avFlagClrWrite (i : Fin 4) (v : Word)
  -- staged epochs (R331-R335)
  | avEpochCommit (v : Word)
  | epochStaged (u : Fin 208)
  | epochApply (u : Fin 208)
  | epochLate (u : Fin 208)
  | xwMarginLow (k : SquareId) (i : Fin 7) (b : Fin 16) (margin : BitVec 6)
  -- resets (R329, R330, R474-R476, R497, R553)
  | engineReset (e : EngineId)
  | engineResetRelease (e : EngineId) (sweeps : List (BitVec 64))
  | layerReset (b : Bool)
  | layerResetRelease (b : Bool) (sweeps : List (EngineId × List (BitVec 64)))
  | aonResetBlock
  | alwaysOnReset
  | alwaysOnResetExit
  | resetNAssert
  | resetNDeassert
  | vpmPgLost
  | watchdogExpiry
  | watchdogKick (v : Word)
  | watchdogEnable (v : Word)
  -- start-up (R477-R494)
  | stageRails
  | vpmPgTimeout
  | stageRom
  | stageTripTest (failed : List (Fin 48))
  | stageVpm (answers : Bool)
  | stageFuses (eccOk : Bool)
  | stageImages
  | stageRepair
  | stageCrosswalk (sweeps : List (Nat × BitVec 64))
  | stageMemory (failedChannels : List (EngineId × Fin 132))
  | stageSelfTest (badCores : List CoreId) (defects : List (BitVec 8 × Word)) (fallback : List EngineId)
  | stageFirmware
  | service
  | aonBlockIdWrite (v : Word)
  | aonMemoGo (v : Word)
  | memoSealDone (readBackOk : Bool)
  | aonLedgerGo (v : Word)
  | ledgerAppendDone (ok : Bool)
  -- Pyler ports (R339-R376)
  | plEnable (p : PortId)
  | plDisable (p : PortId)
  | plDown (p : PortId)
  | plRekey (p : PortId)
  | plTwinWinWrite (v : Word)
  | electricalDone (p : PortId) (rxBad txBad : List (Fin 34)) (memoOk : Bool)
  | alignDone (p : PortId) (ok : Bool) (asym : Time16)
  | hello (p : PortId) (h : Hello)
  | finish (p : PortId) (sig : List Byte)
  | holdoffExpiry (p : PortId)
  | flitReceive (p : PortId) (bits : LaneBits)
  | idleFlit (p : PortId)
  | keyPhaseAdvance (p : PortId)
  | rekeyTimer (p : PortId)
  | laneErrorWindow (p : PortId)
  | laneSwitch (p : PortId)
  | noFlitTimeout (p : PortId)
  | packetOriginate (who : Requester) (addr : Word) (op : MemOp) (epoch : Option Epoch)
  | remoteRequest (p : PortId)
  | remoteCompletion (p : PortId)
  | creditReturn (p : PortId) (cls : Fin 5) (vc : Bool) (cells : BitVec 11)
  | mgtProbe (p : PortId) (received : Bool) (src : BlockId)
  | probeAnswer (src : BlockId)
  | probeTimeout (b : BlockId)
  | blockLost (b : BlockId) (onPort : Option PortId)
  | plLostClear (i : Fin 64) (v : Word)
  | timeExchange (t1 : Word)
  | timeRequest (p : PortId) (t1 t2 : Word) (replayed : Bool)
  | timeReply (t2 t3 t4 : Word) (replayed : Bool)
  -- Frontage ports and the service protocol (R377-R404)
  | frEnable (p : FrId) (on : Bool)
  | frameReceive (p : FrId) (f : Frame)
  | frRxptrTail (p : FrId) (v : Word)
  | frTxptrTail (p : FrId) (v : Word)
  | txEntrySend (p : FrId)
  | frTxcapWrite (p : FrId) (v : Word)
  | clientHello (o : Offer) (cid : Word) (digest : List Byte)
  | dtlsHandshakeDone (i : SlotId) (chain : List (List Byte)) (digest sig : List Byte) (rx tx : List Byte)
  | dtlsAlert (i : SlotId)
  | keyUpdateSend (i : SlotId)
  | keyUpdateReceive (i : SlotId)
  | fspOpen (i : SlotId) (m : FspMsg)
  | fspSubmit (i : SlotId) (m : FspMsg)
  | fspStatus (i : SlotId) (m : FspMsg)
  | fspSuspend (i : SlotId) (m : FspMsg)
  | fspResume (i : SlotId) (m : FspMsg)
  | fspCancel (i : SlotId) (m : FspMsg)
  | fspClose (i : SlotId) (m : FspMsg)
  | fspAck (i : SlotId) (m : FspMsg)
  | fspRetransmit (i : SlotId)
  | keepaliveExpiry (i : SlotId)
  | keepaliveAck (i : SlotId)
  | operationStart (op : Word)
  | operationLoaded (op : Word) (code : Code)
  | operationEngineEvent (e : EngineId) (ev : EngEvent)
  -- power (R405-R433)
  | telemetryFrame (f : BitVec 80)
  | telemetryLost
  | telRetry
  | pmbAlert (words : List (BitVec 16))
  | pwrPmbGo (v : Word)
  | pmbTransactionDone (answered : Bool) (data : BitVec 16)
  | sliceFail (inst : Nat) (group : Nat) (slice : Nat)
  | sliceShed (inst : Nat) (group : Nat)
  | sliceUnshed (inst : Nat) (group : Nat)
  | regionSleep (r : RegionId) (auto : Bool)
  | regionWake (r : RegionId)
  | inrushWaitTimeout (r : RegionId)
  | regionOn (r : RegionId)
  | regionClearDone (r : RegionId)
  | pwrRgCtlWrite (r : RegionId) (v : Word)
  | pwrRgRearm (r : RegionId)
  | pwrRgVminRead (r : RegionId)
  | droopSample (r : RegionId) (mv : BitVec 10)
  | droopSkipEnd (r : RegionId)
  | currentReport (r : RegionId) (amps : BitVec 12)
  | guardDecay (r : RegionId)
  | capEvaluate (mv : List Nat)
  | preStage (e : EngineId)
  | phaseEnd (e : EngineId)
  | pwrCapWrite (v : Word)
  | pwrRgCeilWrite (r : RegionId) (v : Word)
  -- temperature (R434-R458)
  | adcRoundEnd (r : AdcRound)
  | adcFail (counts : List (Nat × List Nat))
  | flowEdge
  | flowTimeout
  | thmLimWrite (which : Fin 3) (v : Word)
  | thmSuspectClear (i : Fin 12) (v : Word)
  | thmBrokenClear (i : Fin 12) (v : Word)
  | tripFire (c : Fin 48)
  -- clocks (R459-R473)
  | clkStepReq (v : Word)
  | stepChange
  | vcoreSettleEnd
  | stepPause (found : List (Nat × BitVec 64))
  | referenceLost
  | referenceRestored
  | crystalLost
  | pllLockTimeout (e : EngineId)
  | pllLockLost (e : EngineId)
  | canaryWindow (e : EngineId) (below5 below10 : BitVec 16)
  | clkBtimeAdjWrite (v : Word)
  | clkPllFailClear (e : EngineId) (v : Word)
  -- the security unit and the TAP (R498-R519)
  | secEnroll (parity : Bool) (badFuse : Option Nat)
  | secSign (parity : Bool)
  | secExtend (parity : Bool)
  | secQuote (parity : Bool)
  | secSvnAdv (badFuse : Option Nat)
  | secNonce (fresh : BitVec 256)
  | secCert
  | secDebug (parity : Bool)
  | tapIdcode
  | tapNonceRead
  | tapTokenLoad (record : List Byte)
  | tapBypass (ir : BitVec 8)
  -- the error log and the gauges (R520-R541)
  | errorReport (r : Option Report)
  | entryClose
  | elogFlush
  | stormMaskEnd (cls inst sub : Nat)
  | elogTailWrite (v : Word)
  | gaugeSample (g : GaugeId) (value : Nat) (stamp : Word)
  | periodBoundary (g : GaugeId)
  | gaugeLatch (g : GaugeId)
  | gaugeCfgWrite (g : GaugeId) (v : Word)
  | gaugePeriodWrite (g : GaugeId) (v : Word)
  -- pins (R549-R560)
  | inputEdge (n : Fin 17) (level : Bool)
  | chatterWindowEnd
  | inputStuck (n : PinId)
  | pinFaultClear (v : Word)
  | tollRateWrite (p : PortId) (v : Word)
  -- reads that clear (R14)
  | lndCeCountRead (e : EngineId)
  | lndUeCountRead (e : EngineId)
  | lndPoisonRead (e : EngineId)
  | lndRefreshRead (e : EngineId)
  | sqRefetchRead (k : SquareId)
  | sqPoisonRead (k : SquareId)
  | bauCountsRead (e : EngineId)
  | avDiscardRead (k : SquareId)
  | plFecCountRead (p : PortId)
  | plRetryRead (p : PortId)
  | tollCountRead (p : PortId)
  | frCountRead (p : FrId)
  | frDropRead (p : FrId)
  | frFecRead (p : FrId)
  | pwrRgDroopRead (r : RegionId)
  | thmStepRead
  | clkStatusRead
  | clkStepRead
  | clkPllRead (e : EngineId)
  | clkCanaryRead (e : EngineId)
  | elogCountsRead
  | elogSumRead (i : Fin 16)
  | registerWrite (offset : BitVec 32) (v : Word)
  | vpmPowerGood
  | frontageLinkChange (p : FrId) (up : Bool)
  | securityOperationDone
  | squareGoesDark (k : SquareId)
  | vaonOrAuxAbsent
  | fspReservedType (i : SlotId) (m : FspMsg)
  deriving DecidableEq, Repr

end Sys2Proof
end

