-- ==== Sys2Proof/Decode.lean ====
section
/-! DEFINITION. The command that a word of the opcode table spells. The table gives bits to no row (spec/opcode_table.json): a command
reaches the block from outside as an event, not as a word, so no word spells one. -/
namespace Sys2Proof

/-- The command that the low `nbits` bits of a word spell by the opcode table: none, because no row of the table has bits. -/
def decodeTableWord (_nbits _w : Nat) : Option Instr := none

end Sys2Proof
end

