-- ==== Sys2Proof/Config.lean ====
section
/-! DEFINITION. What an implementation fixes and what the spec leaves open: constants without a body (free values), so that no
proof can see a value of one. -/
namespace Sys2Proof

/-- Which of the two neighbours a faithful result takes (R189): by function, argument, factor and destination format. -/
opaque Config.faithfulUp : Nat → Nat → Nat → Nat → Bool

/-- The LYS-NB1 special-function unit's value of a built-in function in the compatibility mode, as an FP32 encoding, by function and argument: the spec
does not give the Niber's tables (R199). -/
opaque Config.niberValue : Nat → Nat → BitVec 32

/-- The quotient of a merge whose weights sum to zero, as an FP32 encoding, by the bits of the dividend: the spec states no result (R239). -/
opaque Config.zeroQuotient : BitVec 32 → BitVec 32

/-- The opcode that a fault recorded before any instruction was read carries: the spec gives it no value (R130, R147). -/
opaque Config.noOpcode : Nat → BitVec 8

/-- The detail of a completion that has neither a target nor a known core, by code and instruction index: the spec gives it no value (R147). -/
opaque Config.noDetail : Nat → Nat → BitVec 38

/-- Whether a copy whose source read failed, or that timed out, has written a sector of its destination, by draw and address: the spec says that
destinations are partly written (R157, R174). -/
opaque Config.copied : Nat → Nat → Bool

/-- The set of a Plaza square that a bank row maps to (R263): the spec gives no index function. -/
opaque Config.plazaSet : Nat → Nat

/-- A register word that a region lost in OFF, by time and place: the spec says that nothing is retained (R418). -/
opaque Config.lostWord : Nat → Nat → BitVec 64

/-- A byte of DRAM whose only fresh copy was a dirty line of a square that lost its lines, by time and place (R418). -/
opaque Config.lostByte : Nat → Nat → BitVec 8

/-- The margin of a tap that the memo holds and a warm start verifies, on its narrower side, by draw and bundle: the spec gives it no value (R327, R493). -/
opaque Config.xwMargin : Nat → Nat → BitVec 6

/-- `PL_TIME.err` after an offset that its 16 bits cannot hold, by the offset in 1/32 ns: the spec states no value (R373, R375). -/
opaque Config.timeErr : Int → BitVec 16

/-- What the block uses of a sensor that is good and failed the ideality check of the round, as an FP32 encoding, by draw and sensor: the spec
states no value (R441, R442). -/
opaque Config.badReading : Nat → Nat → BitVec 32

/-- The fused default set of the thermal model, as FP32 encodings, by node and word of the record of R484: the spec gives no values (R445). -/
opaque Config.thermalDefault : Nat → Nat → BitVec 32

/-- The secret number of a signature of the alias key, by the number of signatures made before, less 1 and modulo n - 1 (R513, R517). -/
opaque Config.signNonce : Nat → Nat

/-- What a certificate says, in a form that the spec takes from X.509 and does not restate (R385, R511, R512): whether it is well formed, its public
key, whether its debug flag is 1, and whether it verifies under a public key. -/
opaque Config.certFormed : List (BitVec 8) → Bool
opaque Config.certKey : List (BitVec 8) → List (BitVec 8)
opaque Config.certDebug : List (BitVec 8) → Bool
opaque Config.certSigned : List (BitVec 8) → List (BitVec 8) → Bool

/-- The cookie of a HelloRetryRequest, by the address and UDP port of the client: the spec does not say how it is made (R384). -/
opaque Config.cookie : BitVec 128 → BitVec 16 → List (BitVec 8)

/-- The random bytes of a handshake's nonce and of its ephemeral private key, by draw and place (R356). -/
opaque Config.portNonce : Nat → Nat → BitVec 8
opaque Config.portScalar : Nat → Nat → BitVec 8

/-- How many flits after its HELLO a port changes to the keys of a handshake beside running traffic, by draw: the handshake agrees on it (R358). -/
opaque Config.rekeyLead : Nat → Nat

/-- The bytes of two HELLOs that a FINISH signs, the signer's first: the spec gives the messages no layout (R356). -/
opaque Config.helloBytes : Hello → Hello → List (BitVec 8)

/-- The info of the expansions that yield the keys of the direction from the end with the lower ID, of the other direction, and of the next key of a
direction: the spec gives it no value (R357, R358). -/
opaque Config.linkInfo : Bool → List (BitVec 8)
opaque Config.phaseInfo : List (BitVec 8)

/-- The message in the packet area of a link-control flit, and the bytes of a message: the spec gives the messages no layout (R356, R365, R367). -/
opaque Config.readCtl : List (BitVec 8) → LinkCtl
opaque Config.ctlByte : LinkCtl → Nat → BitVec 8

/-- An equaliser setting that a cold training finds, by draw and byte (R364). -/
opaque Config.equaliser : Nat → Nat → BitVec 8

/-- The alias certificate, by CDI and the octets of its extension: its length, at most 1,024, and its bytes (R511). -/
opaque Config.certLen : List (BitVec 8) → List (BitVec 8) → Fin 1025
opaque Config.certByte : List (BitVec 8) → List (BitVec 8) → Nat → BitVec 8

/-- The SHA-384 of the boot ROM, byte by byte: the spec does not give the ROM's contents (R509). -/
opaque Config.romDigest : Nat → BitVec 8

/-- Whether an address of the control cores' private space lies in Floor SRAM, outside the parts of it whose place the spec gives (R380, R510, R517,
R528). -/
opaque Config.floorSram : Nat → Bool

/-- The lowest passing tap, and the number of passing taps, of a sweep of a Crosswalk bundle that the command does not name (R327; log entry 46): by a
count and the tap's place. -/
opaque Config.xwLow : Nat → Nat → BitVec 6
opaque Config.xwRange : Nat → Nat → BitVec 6

/-- What another block answers to a read of result data (R398; log entry 48): a completion code, and the bytes. -/
opaque Config.remoteCode : Nat → Nat → BitVec 4
opaque Config.remoteByte : Nat → Nat → Byte

/-- What a byte of flash holds after a write that failed its read-back (R494): by a count and the byte's place (log entry 41). -/
opaque Config.flashByte : Nat → Nat → Byte

/-- The completion code of a report to the error log about which the spec names none, 0-9, by type and detail (R520, R525; log entry 53). -/
opaque Config.reportCode : Nat → Nat → Fin 10

end Sys2Proof
end

