-- ==== Sys2Proof/Machine/Registers.lean ====
section
/-! DEFINITION. The registers of control space, from the register tables of the spec: each register with its class, offset, instances,
reset word and writable fields (R11-R15, R36), and each field with its place. -/
namespace Sys2Proof.Machine

/-- A register, or an array of `count` registers 8 bytes apart, of one unit class. -/
structure Reg where
  cls : Nat
  off : Nat
  count : Nat
  instLo : Nat
  instHi : Nat
  reset : Nat
  /-- Bits of RW fields. -/
  rw : Nat
  /-- Bits of RWL fields. -/
  rwl : Nat
  /-- Bits of W1C fields. -/
  w1c : Nat
  /-- Bits of W1S fields. -/
  w1s : Nat
  /-- Bits of RC fields. -/
  rc : Nat
  deriving DecidableEq, Repr

/-- A field of a register: its register, lowest bit and width. -/
structure Field where
  reg : Reg
  lo : Nat
  w : Nat
  deriving DecidableEq, Repr

/-- The control-space offset (R32) of a register at an instance and an index. -/
def Reg.key (r : Reg) (inst idx : Nat) : Nat := r.cls * 0x1000000 + inst * 0x1000 + r.off + 8 * idx

/-- `AON_BLOCK_ID` (R30 of 01_stack_organisation.md). -/
def R.AON_BLOCK_ID : Reg := ⟨0x0, 0x10, 1, 0, 0, 0x0, 0x0, 0x1FFF, 0x0, 0x2000, 0x0⟩
def F.AON_BLOCK_ID.lock : Field := ⟨R.AON_BLOCK_ID, 13, 1⟩
def F.AON_BLOCK_ID.valid : Field := ⟨R.AON_BLOCK_ID, 12, 1⟩
def F.AON_BLOCK_ID.id : Field := ⟨R.AON_BLOCK_ID, 0, 12⟩
/-- `ENG_CTL` (R145 of 04_engine_instruction_set.md). -/
def R.ENG_CTL : Reg := ⟨0x10, 0x0, 1, 0, 79, 0x0, 0x3FFF30, 0x0, 0x0, 0x4F, 0x0⟩
def F.ENG_CTL.entry : Field := ⟨R.ENG_CTL, 8, 14⟩
def F.ENG_CTL.clear : Field := ⟨R.ENG_CTL, 6, 1⟩
def F.ENG_CTL.restore_ctx : Field := ⟨R.ENG_CTL, 5, 1⟩
def F.ENG_CTL.save_ctx : Field := ⟨R.ENG_CTL, 4, 1⟩
def F.ENG_CTL.cancel : Field := ⟨R.ENG_CTL, 3, 1⟩
def F.ENG_CTL.resume : Field := ⟨R.ENG_CTL, 2, 1⟩
def F.ENG_CTL.suspend : Field := ⟨R.ENG_CTL, 1, 1⟩
def F.ENG_CTL.start : Field := ⟨R.ENG_CTL, 0, 1⟩
/-- `ENG_STATUS` (R146 of 04_engine_instruction_set.md). -/
def R.ENG_STATUS : Reg := ⟨0x10, 0x8, 1, 0, 79, 0x0, 0x0, 0x0, 0xC00000, 0x0, 0x0⟩
def F.ENG_STATUS.yield_tag : Field := ⟨R.ENG_STATUS, 32, 32⟩
def F.ENG_STATUS.ctx_err : Field := ⟨R.ENG_STATUS, 23, 1⟩
def F.ENG_STATUS.bad_cmd : Field := ⟨R.ENG_STATUS, 22, 1⟩
def F.ENG_STATUS.pc : Field := ⟨R.ENG_STATUS, 8, 14⟩
def F.ENG_STATUS.last_code : Field := ⟨R.ENG_STATUS, 4, 4⟩
def F.ENG_STATUS.state : Field := ⟨R.ENG_STATUS, 0, 3⟩
/-- `ENG_FAULT` (R147 of 04_engine_instruction_set.md). -/
def R.ENG_FAULT : Reg := ⟨0x10, 0x10, 1, 0, 79, 0x0, 0x0, 0x0, 0x0, 0x0, 0x0⟩
def F.ENG_FAULT.detail : Field := ⟨R.ENG_FAULT, 26, 38⟩
def F.ENG_FAULT.opcode : Field := ⟨R.ENG_FAULT, 18, 8⟩
def F.ENG_FAULT.pc : Field := ⟨R.ENG_FAULT, 4, 14⟩
def F.ENG_FAULT.code : Field := ⟨R.ENG_FAULT, 0, 4⟩
/-- `ENG_CTX_ADDR` (R148 of 04_engine_instruction_set.md). -/
def R.ENG_CTX_ADDR : Reg := ⟨0x10, 0x18, 1, 0, 79, 0x0, 0xFFFFFFFFFFFFFFC0, 0x0, 0x0, 0x0, 0x0⟩
def F.ENG_CTX_ADDR.addr : Field := ⟨R.ENG_CTX_ADDR, 6, 58⟩
/-- `ENG_PGSRC` (R148 of 04_engine_instruction_set.md). -/
def R.ENG_PGSRC : Reg := ⟨0x10, 0x20, 1, 0, 79, 0x0, 0xFFFFFFFFFFFFFFFF, 0x0, 0x0, 0x0, 0x0⟩
def F.ENG_PGSRC.addr : Field := ⟨R.ENG_PGSRC, 0, 64⟩
/-- `ENG_EPOCH` (R148 of 04_engine_instruction_set.md). -/
def R.ENG_EPOCH : Reg := ⟨0x10, 0x30, 1, 0, 79, 0x0, 0x0, 0x0, 0x0, 0x0, 0x0⟩
def F.ENG_EPOCH.staged : Field := ⟨R.ENG_EPOCH, 32, 32⟩
def F.ENG_EPOCH.applied : Field := ⟨R.ENG_EPOCH, 0, 32⟩
/-- `ENG_ARGn` (R148 of 04_engine_instruction_set.md). -/
def R.ENG_ARG : Reg := ⟨0x10, 0x40, 4, 0, 79, 0x0, 0xFFFFFFFFFFFFFFFF, 0x0, 0x0, 0x0, 0x0⟩
def F.ENG_ARG.value : Field := ⟨R.ENG_ARG, 0, 64⟩
/-- `ENG_PGCMD` (R149 of 04_engine_instruction_set.md). -/
def R.ENG_PGCMD : Reg := ⟨0x10, 0x28, 1, 0, 79, 0x10, 0x1FF, 0x0, 0x0, 0x200, 0x0⟩
def F.ENG_PGCMD.code : Field := ⟨R.ENG_PGCMD, 11, 4⟩
def F.ENG_PGCMD.busy : Field := ⟨R.ENG_PGCMD, 10, 1⟩
def F.ENG_PGCMD.go : Field := ⟨R.ENG_PGCMD, 9, 1⟩
def F.ENG_PGCMD.count : Field := ⟨R.ENG_PGCMD, 4, 5⟩
def F.ENG_PGCMD.page : Field := ⟨R.ENG_PGCMD, 0, 4⟩
/-- `LND_STATUS` (R277 of 09_memory_system.md). -/
def R.LND_STATUS : Reg := ⟨0x13, 0x0, 1, 0, 79, 0xF, 0x0, 0x0, 0x0, 0x0, 0x0⟩
def F.LND_STATUS.recall : Field := ⟨R.LND_STATUS, 4, 1⟩
def F.LND_STATUS.fast_ref : Field := ⟨R.LND_STATUS, 0, 4⟩
/-- `LND_SCRUB` (R277 of 09_memory_system.md). -/
def R.LND_SCRUB : Reg := ⟨0x13, 0x8, 1, 0, 79, 0x1801, 0xFF01, 0x0, 0x0, 0x0, 0x0⟩
def F.LND_SCRUB.row : Field := ⟨R.LND_SCRUB, 32, 11⟩
def F.LND_SCRUB.passes : Field := ⟨R.LND_SCRUB, 16, 16⟩
def F.LND_SCRUB.hours : Field := ⟨R.LND_SCRUB, 8, 8⟩
def F.LND_SCRUB.enable : Field := ⟨R.LND_SCRUB, 0, 1⟩
/-- `LND_CE_COUNT` (R277 of 09_memory_system.md). -/
def R.LND_CE_COUNT : Reg := ⟨0x13, 0x10, 1, 0, 79, 0x0, 0x0, 0x0, 0x0, 0x0, 0xFFFFFFFFFFFFFFFF⟩
def F.LND_CE_COUNT.m (i : Nat) : Field := ⟨R.LND_CE_COUNT, 0 + 16 * i, 16⟩
/-- `LND_UE_COUNT` (R277 of 09_memory_system.md). -/
def R.LND_UE_COUNT : Reg := ⟨0x13, 0x18, 1, 0, 79, 0x0, 0x0, 0x0, 0x0, 0x0, 0xFFFFFFFFFFFFFFFF⟩
def F.LND_UE_COUNT.m (i : Nat) : Field := ⟨R.LND_UE_COUNT, 0 + 16 * i, 16⟩
/-- `LND_POISON` (R277 of 09_memory_system.md). -/
def R.LND_POISON : Reg := ⟨0x13, 0x20, 1, 0, 79, 0x0, 0x0, 0x0, 0x0, 0x0, 0xFFFFFFFFFFFFFFFF⟩
def F.LND_POISON.reads : Field := ⟨R.LND_POISON, 32, 32⟩
def F.LND_POISON.writes : Field := ⟨R.LND_POISON, 0, 32⟩
/-- `LND_ERR_ADDR` (R277 of 09_memory_system.md). -/
def R.LND_ERR_ADDR : Reg := ⟨0x13, 0x28, 1, 0, 79, 0x0, 0x0, 0x0, 0x8000000000000000, 0x0, 0x0⟩
def F.LND_ERR_ADDR.valid : Field := ⟨R.LND_ERR_ADDR, 63, 1⟩
def F.LND_ERR_ADDR.kind : Field := ⟨R.LND_ERR_ADDR, 61, 2⟩
def F.LND_ERR_ADDR.loc : Field := ⟨R.LND_ERR_ADDR, 0, 32⟩
/-- `LND_REFRESH` (R277 of 09_memory_system.md). -/
def R.LND_REFRESH : Reg := ⟨0x13, 0x30, 1, 0, 79, 0x0, 0x0, 0x0, 0x0, 0x0, 0xFFFFFFFF00000007⟩
def F.LND_REFRESH.catchups : Field := ⟨R.LND_REFRESH, 32, 32⟩
def F.LND_REFRESH.max_owed : Field := ⟨R.LND_REFRESH, 0, 3⟩
/-- `LND_ROW_LIMIT` (R277 of 09_memory_system.md). -/
def R.LND_ROW_LIMIT : Reg := ⟨0x13, 0x38, 1, 0, 79, 0x4, 0xFF, 0x0, 0x0, 0x0, 0x0⟩
def F.LND_ROW_LIMIT.limit : Field := ⟨R.LND_ROW_LIMIT, 0, 8⟩
/-- `SQ_CTL` (R279 of 09_memory_system.md). -/
def R.SQ_CTL : Reg := ⟨0x11, 0x0, 1, 0, 39, 0x0, 0x21F, 0x0, 0x0, 0x0, 0x0⟩
def F.SQ_CTL.ext_no_alloc : Field := ⟨R.SQ_CTL, 9, 1⟩
def F.SQ_CTL.busy : Field := ⟨R.SQ_CTL, 8, 1⟩
def F.SQ_CTL.ways : Field := ⟨R.SQ_CTL, 0, 5⟩
/-- `SQ_STATUS` (R279 of 09_memory_system.md). -/
def R.SQ_STATUS : Reg := ⟨0x11, 0x8, 1, 0, 39, 0x1000, 0x0, 0x0, 0x1, 0x0, 0x0⟩
def F.SQ_STATUS.ways_ok : Field := ⟨R.SQ_STATUS, 8, 5⟩
def F.SQ_STATUS.flush_busy : Field := ⟨R.SQ_STATUS, 2, 1⟩
def F.SQ_STATUS.mapped_out : Field := ⟨R.SQ_STATUS, 1, 1⟩
def F.SQ_STATUS.bad_cfg : Field := ⟨R.SQ_STATUS, 0, 1⟩
/-- `SQ_FLUSH` (R279 of 09_memory_system.md). -/
def R.SQ_FLUSH : Reg := ⟨0x11, 0x10, 1, 0, 39, 0x0, 0x2, 0x0, 0x0, 0x1, 0x0⟩
def F.SQ_FLUSH.inv : Field := ⟨R.SQ_FLUSH, 1, 1⟩
def F.SQ_FLUSH.go : Field := ⟨R.SQ_FLUSH, 0, 1⟩
/-- `SQ_REFETCH` (R279 of 09_memory_system.md). -/
def R.SQ_REFETCH : Reg := ⟨0x11, 0x18, 1, 0, 39, 0x0, 0x0, 0x0, 0x0, 0x0, 0xFFFFFFFF⟩
def F.SQ_REFETCH.count : Field := ⟨R.SQ_REFETCH, 0, 32⟩
/-- `SQ_POISON` (R279 of 09_memory_system.md). -/
def R.SQ_POISON : Reg := ⟨0x11, 0x20, 1, 0, 39, 0x0, 0x0, 0x0, 0x0, 0x0, 0xFFFFFFFF⟩
def F.SQ_POISON.held : Field := ⟨R.SQ_POISON, 32, 32⟩
def F.SQ_POISON.made : Field := ⟨R.SQ_POISON, 0, 32⟩
/-- `SQ_ERR_LOC` (R279 of 09_memory_system.md). -/
def R.SQ_ERR_LOC : Reg := ⟨0x11, 0x28, 1, 0, 39, 0x0, 0x0, 0x0, 0x8000000000000000, 0x0, 0x0⟩
def F.SQ_ERR_LOC.valid : Field := ⟨R.SQ_ERR_LOC, 63, 1⟩
def F.SQ_ERR_LOC.half : Field := ⟨R.SQ_ERR_LOC, 41, 1⟩
def F.SQ_ERR_LOC.bank : Field := ⟨R.SQ_ERR_LOC, 30, 11⟩
def F.SQ_ERR_LOC.row : Field := ⟨R.SQ_ERR_LOC, 19, 11⟩
def F.SQ_ERR_LOC.sector : Field := ⟨R.SQ_ERR_LOC, 15, 4⟩
/-- `BAU_STATUS` (R311 of 10_bank_arithmetic.md). -/
def R.BAU_STATUS : Reg := ⟨0x14, 0x0, 1, 0, 79, 0x0, 0x0, 0x0, 0x0, 0x0, 0x0⟩
def F.BAU_STATUS.active : Field := ⟨R.BAU_STATUS, 12, 12⟩
def F.BAU_STATUS.waves : Field := ⟨R.BAU_STATUS, 8, 4⟩
def F.BAU_STATUS.check : Field := ⟨R.BAU_STATUS, 3, 1⟩
def F.BAU_STATUS.inflight : Field := ⟨R.BAU_STATUS, 0, 3⟩
/-- `BAU_MODE` (R311 of 10_bank_arithmetic.md). -/
def R.BAU_MODE : Reg := ⟨0x14, 0x8, 1, 0, 79, 0x40, 0x0, 0x0, 0x0, 0x0, 0x0⟩
def F.BAU_MODE.stagger : Field := ⟨R.BAU_MODE, 4, 6⟩
def F.BAU_MODE.wave_mode : Field := ⟨R.BAU_MODE, 0, 2⟩
/-- `BAU_MODE_NEXT` (R311 of 10_bank_arithmetic.md). -/
def R.BAU_MODE_NEXT : Reg := ⟨0x14, 0x10, 1, 0, 79, 0x40, 0x3F3, 0x0, 0x0, 0x0, 0x0⟩
def F.BAU_MODE_NEXT.stagger : Field := ⟨R.BAU_MODE_NEXT, 4, 6⟩
def F.BAU_MODE_NEXT.wave_mode : Field := ⟨R.BAU_MODE_NEXT, 0, 2⟩
/-- `BAU_EPOCH` (R311 of 10_bank_arithmetic.md). -/
def R.BAU_EPOCH : Reg := ⟨0x14, 0x18, 1, 0, 79, 0x0, 0x0, 0x0, 0x0, 0x0, 0x0⟩
def F.BAU_EPOCH.staged : Field := ⟨R.BAU_EPOCH, 32, 32⟩
def F.BAU_EPOCH.applied : Field := ⟨R.BAU_EPOCH, 0, 32⟩
/-- `BAU_ERR` (R311 of 10_bank_arithmetic.md). -/
def R.BAU_ERR : Reg := ⟨0x14, 0x20, 1, 0, 79, 0x0, 0x0, 0x0, 0x8000000000000000, 0x0, 0x0⟩
def F.BAU_ERR.valid : Field := ⟨R.BAU_ERR, 63, 1⟩
def F.BAU_ERR.code : Field := ⟨R.BAU_ERR, 59, 4⟩
def F.BAU_ERR.result : Field := ⟨R.BAU_ERR, 58, 1⟩
def F.BAU_ERR.bank : Field := ⟨R.BAU_ERR, 44, 11⟩
def F.BAU_ERR.row : Field := ⟨R.BAU_ERR, 33, 11⟩
def F.BAU_ERR.pc : Field := ⟨R.BAU_ERR, 19, 14⟩
def F.BAU_ERR.opcode : Field := ⟨R.BAU_ERR, 0, 8⟩
/-- `BAU_COUNTS` (R311 of 10_bank_arithmetic.md). -/
def R.BAU_COUNTS : Reg := ⟨0x14, 0x28, 1, 0, 79, 0x0, 0x0, 0x0, 0x0, 0x0, 0xFFFFFFFFFFFFFFFF⟩
def F.BAU_COUNTS.done : Field := ⟨R.BAU_COUNTS, 32, 32⟩
def F.BAU_COUNTS.epoch_skew : Field := ⟨R.BAU_COUNTS, 16, 16⟩
def F.BAU_COUNTS.step_err : Field := ⟨R.BAU_COUNTS, 0, 16⟩
/-- `AV_STATUS` (R337 of 11_block_network_and_crossings.md). -/
def R.AV_STATUS : Reg := ⟨0x12, 0x0, 1, 0, 39, 0x0, 0x0, 0x0, 0x0, 0x0, 0x0⟩
def F.AV_STATUS.rst_b : Field := ⟨R.AV_STATUS, 2, 1⟩
def F.AV_STATUS.rst_a : Field := ⟨R.AV_STATUS, 1, 1⟩
def F.AV_STATUS.mapped_out : Field := ⟨R.AV_STATUS, 0, 1⟩
/-- `AV_MODE` (R337 of 11_block_network_and_crossings.md). -/
def R.AV_MODE : Reg := ⟨0x12, 0x8, 1, 0, 39, 0x1, 0x0, 0x0, 0x0, 0x0, 0x0⟩
def F.AV_MODE.floor_weight : Field := ⟨R.AV_MODE, 0, 4⟩
/-- `AV_MODE_NEXT` (R337 of 11_block_network_and_crossings.md). -/
def R.AV_MODE_NEXT : Reg := ⟨0x12, 0x10, 1, 0, 39, 0x1, 0xF, 0x0, 0x0, 0x0, 0x0⟩
def F.AV_MODE_NEXT.floor_weight : Field := ⟨R.AV_MODE_NEXT, 0, 4⟩
/-- `AV_EPOCH` (R337 of 11_block_network_and_crossings.md). -/
def R.AV_EPOCH : Reg := ⟨0x12, 0x18, 1, 0, 39, 0x0, 0x0, 0x0, 0x0, 0x0, 0x0⟩
def F.AV_EPOCH.staged : Field := ⟨R.AV_EPOCH, 32, 32⟩
def F.AV_EPOCH.applied : Field := ⟨R.AV_EPOCH, 0, 32⟩
/-- `AV_DISCARD` (R337 of 11_block_network_and_crossings.md). -/
def R.AV_DISCARD : Reg := ⟨0x12, 0x20, 1, 0, 39, 0x0, 0x0, 0x0, 0x0, 0x0, 0xFFFFFFFFFFFFFFFF⟩
def F.AV_DISCARD.eng_b : Field := ⟨R.AV_DISCARD, 32, 32⟩
def F.AV_DISCARD.eng_a : Field := ⟨R.AV_DISCARD, 0, 32⟩
/-- `AV_XW_TAP` (R337 of 11_block_network_and_crossings.md). -/
def R.AV_XW_TAP : Reg := ⟨0x12, 0x28, 1, 0, 39, 0x0, 0x0, 0x0, 0x0, 0x0, 0x0⟩
def F.AV_XW_TAP.ifc (i : Nat) : Field := ⟨R.AV_XW_TAP, 0 + 8 * i, 8⟩
/-- `AV_XW_MARGIN` (R337 of 11_block_network_and_crossings.md). -/
def R.AV_XW_MARGIN : Reg := ⟨0x12, 0x30, 1, 0, 39, 0x0, 0x0, 0x0, 0x0, 0x0, 0x0⟩
def F.AV_XW_MARGIN.ifc (i : Nat) : Field := ⟨R.AV_XW_MARGIN, 0 + 8 * i, 8⟩
/-- `AV_BAR_CFG` (R338 of 11_block_network_and_crossings.md). -/
def R.AV_BAR_CFG : Reg := ⟨0x12, 0x400, 64, 19, 19, 0x0, 0xBFFFFFFF80000, 0x0, 0x4000000000000, 0x0, 0x0⟩
def F.AV_BAR_CFG.gen : Field := ⟨R.AV_BAR_CFG, 52, 12⟩
def F.AV_BAR_CFG.enable : Field := ⟨R.AV_BAR_CFG, 51, 1⟩
def F.AV_BAR_CFG.broken : Field := ⟨R.AV_BAR_CFG, 50, 1⟩
def F.AV_BAR_CFG.has_parent : Field := ⟨R.AV_BAR_CFG, 49, 1⟩
def F.AV_BAR_CFG.parent : Field := ⟨R.AV_BAR_CFG, 37, 12⟩
def F.AV_BAR_CFG.children : Field := ⟨R.AV_BAR_CFG, 26, 11⟩
def F.AV_BAR_CFG.local : Field := ⟨R.AV_BAR_CFG, 19, 7⟩
def F.AV_BAR_CFG.arrived : Field := ⟨R.AV_BAR_CFG, 12, 7⟩
def F.AV_BAR_CFG.child_arrived : Field := ⟨R.AV_BAR_CFG, 1, 11⟩
/-- `AV_FLAG_SETi` (R338 of 11_block_network_and_crossings.md). -/
def R.AV_FLAG_SET : Reg := ⟨0x12, 0x600, 4, 19, 19, 0x0, 0x0, 0x0, 0x0, 0xFFFFFFFFFFFFFFFF, 0x0⟩
def F.AV_FLAG_SET.flags : Field := ⟨R.AV_FLAG_SET, 0, 64⟩
/-- `AV_FLAG_CLRi` (R338 of 11_block_network_and_crossings.md). -/
def R.AV_FLAG_CLR : Reg := ⟨0x12, 0x620, 4, 19, 19, 0x0, 0x0, 0x0, 0xFFFFFFFFFFFFFFFF, 0x0, 0x0⟩
def F.AV_FLAG_CLR.flags : Field := ⟨R.AV_FLAG_CLR, 0, 64⟩
/-- `AV_FLAG_HOMEi` (R338 of 11_block_network_and_crossings.md). -/
def R.AV_FLAG_HOME : Reg := ⟨0x12, 0x640, 4, 19, 19, 0x0, 0x8FFF8FFF8FFF8FFF, 0x0, 0x0, 0x0, 0x0⟩
def F.AV_FLAG_HOME.remote (i : Nat) : Field := ⟨R.AV_FLAG_HOME, 15 + 16 * i, 1⟩
def F.AV_FLAG_HOME.home (i : Nat) : Field := ⟨R.AV_FLAG_HOME, 0 + 16 * i, 12⟩
/-- `AV_EPOCH_COMMIT` (R338 of 11_block_network_and_crossings.md). -/
def R.AV_EPOCH_COMMIT : Reg := ⟨0x12, 0x700, 1, 19, 19, 0x0, 0xFFFFFFFF, 0x0, 0x0, 0x100000000, 0x0⟩
def F.AV_EPOCH_COMMIT.go : Field := ⟨R.AV_EPOCH_COMMIT, 32, 1⟩
def F.AV_EPOCH_COMMIT.epoch : Field := ⟨R.AV_EPOCH_COMMIT, 0, 32⟩
/-- `AV_EPOCH_STATUS` (R338 of 11_block_network_and_crossings.md). -/
def R.AV_EPOCH_STATUS : Reg := ⟨0x12, 0x708, 1, 19, 19, 0x3E80001, 0xFFFF0000, 0x0, 0x6, 0x0, 0x0⟩
def F.AV_EPOCH_STATUS.committed : Field := ⟨R.AV_EPOCH_STATUS, 32, 32⟩
def F.AV_EPOCH_STATUS.limit : Field := ⟨R.AV_EPOCH_STATUS, 16, 16⟩
def F.AV_EPOCH_STATUS.late : Field := ⟨R.AV_EPOCH_STATUS, 2, 1⟩
def F.AV_EPOCH_STATUS.bad_commit : Field := ⟨R.AV_EPOCH_STATUS, 1, 1⟩
def F.AV_EPOCH_STATUS.all : Field := ⟨R.AV_EPOCH_STATUS, 0, 1⟩
/-- `AV_APPLIEDi` (R338 of 11_block_network_and_crossings.md). -/
def R.AV_APPLIED : Reg := ⟨0x12, 0x710, 4, 19, 19, 0xFFFFFFFFFFFFFFFF, 0x0, 0x0, 0x0, 0x0, 0x0⟩
def F.AV_APPLIED.units : Field := ⟨R.AV_APPLIED, 0, 64⟩
/-- `PL_CTL` (R375 of 12_pyler_links.md). -/
def R.PL_CTL : Reg := ⟨0x20, 0x0, 1, 0, 7, 0x2, 0x7, 0x0, 0x0, 0x18, 0x0⟩
def F.PL_CTL.rekey : Field := ⟨R.PL_CTL, 4, 1⟩
def F.PL_CTL.down : Field := ⟨R.PL_CTL, 3, 1⟩
def F.PL_CTL.cold : Field := ⟨R.PL_CTL, 2, 1⟩
def F.PL_CTL.allow_half : Field := ⟨R.PL_CTL, 1, 1⟩
def F.PL_CTL.enable : Field := ⟨R.PL_CTL, 0, 1⟩
/-- `PL_STATUS` (R375 of 12_pyler_links.md). -/
def R.PL_STATUS : Reg := ⟨0x20, 0x8, 1, 0, 7, 0x0, 0x0, 0x0, 0x0, 0x0, 0x0⟩
def F.PL_STATUS.partner : Field := ⟨R.PL_STATUS, 52, 12⟩
def F.PL_STATUS.partner_valid : Field := ⟨R.PL_STATUS, 51, 1⟩
def F.PL_STATUS.trains : Field := ⟨R.PL_STATUS, 20, 16⟩
def F.PL_STATUS.cause : Field := ⟨R.PL_STATUS, 16, 4⟩
def F.PL_STATUS.memo_stale : Field := ⟨R.PL_STATUS, 8, 1⟩
def F.PL_STATUS.half : Field := ⟨R.PL_STATUS, 6, 1⟩
def F.PL_STATUS.state : Field := ⟨R.PL_STATUS, 0, 3⟩
/-- `PL_LANES` (R375 of 12_pyler_links.md). -/
def R.PL_LANES : Reg := ⟨0x20, 0x10, 1, 0, 7, 0x200000003FFFFFFF, 0xFFFF000000000000, 0x0, 0x0, 0x0, 0x0⟩
def F.PL_LANES.limit : Field := ⟨R.PL_LANES, 48, 16⟩
def F.PL_LANES.swap : Field := ⟨R.PL_LANES, 24, 6⟩
def F.PL_LANES.tx_out1 : Field := ⟨R.PL_LANES, 18, 6⟩
def F.PL_LANES.tx_out0 : Field := ⟨R.PL_LANES, 12, 6⟩
def F.PL_LANES.rx_out1 : Field := ⟨R.PL_LANES, 6, 6⟩
def F.PL_LANES.rx_out0 : Field := ⟨R.PL_LANES, 0, 6⟩
/-- `PL_FEC_COUNT` (R375 of 12_pyler_links.md). -/
def R.PL_FEC_COUNT : Reg := ⟨0x20, 0x18, 1, 0, 7, 0x0, 0x0, 0x0, 0x0, 0x0, 0xFFFFFFFFFFFFFFFF⟩
def F.PL_FEC_COUNT.corrected : Field := ⟨R.PL_FEC_COUNT, 32, 32⟩
def F.PL_FEC_COUNT.uncorrectable : Field := ⟨R.PL_FEC_COUNT, 0, 32⟩
/-- `PL_RETRY` (R375 of 12_pyler_links.md). -/
def R.PL_RETRY : Reg := ⟨0x20, 0x20, 1, 0, 7, 0x0, 0x0, 0x0, 0x0, 0x0, 0xFFFFFFFFFFFF0000⟩
def F.PL_RETRY.replays : Field := ⟨R.PL_RETRY, 32, 32⟩
def F.PL_RETRY.tag_fail : Field := ⟨R.PL_RETRY, 16, 16⟩
/-- `PL_EPOCH` (R375 of 12_pyler_links.md). -/
def R.PL_EPOCH : Reg := ⟨0x20, 0x28, 1, 0, 7, 0x0, 0x0, 0x0, 0x0, 0x0, 0x0⟩
def F.PL_EPOCH.staged : Field := ⟨R.PL_EPOCH, 32, 32⟩
def F.PL_EPOCH.applied : Field := ⟨R.PL_EPOCH, 0, 32⟩
/-- `PL_ROUTE` (R375 of 12_pyler_links.md). -/
def R.PL_ROUTE : Reg := ⟨0x20, 0x30, 1, 0, 7, 0x0, 0x0, 0x0, 0x0, 0x0, 0x0⟩
def F.PL_ROUTE.override : Field := ⟨R.PL_ROUTE, 16, 1⟩
def F.PL_ROUTE.minus_mask : Field := ⟨R.PL_ROUTE, 0, 16⟩
/-- `PL_ROUTE_NEXT` (R375 of 12_pyler_links.md). -/
def R.PL_ROUTE_NEXT : Reg := ⟨0x20, 0x38, 1, 0, 7, 0x0, 0x1FFFF, 0x0, 0x0, 0x0, 0x0⟩
def F.PL_ROUTE_NEXT.override : Field := ⟨R.PL_ROUTE_NEXT, 16, 1⟩
def F.PL_ROUTE_NEXT.minus_mask : Field := ⟨R.PL_ROUTE_NEXT, 0, 16⟩
/-- `PL_EXPRESS` (R375 of 12_pyler_links.md). -/
def R.PL_EXPRESS : Reg := ⟨0x20, 0x40, 1, 7, 7, 0x0, 0x0, 0x1FFF, 0x0, 0x0, 0x0⟩
def F.PL_EXPRESS.mode : Field := ⟨R.PL_EXPRESS, 12, 1⟩
def F.PL_EXPRESS.partner : Field := ⟨R.PL_EXPRESS, 0, 12⟩
/-- `PL_TWIN_WIN` (R375 of 12_pyler_links.md). -/
def R.PL_TWIN_WIN : Reg := ⟨0x20, 0x48, 1, 6, 6, 0x0, 0x0, 0x3FFFFFFFF, 0x0, 0x400000000, 0x0⟩
def F.PL_TWIN_WIN.lock : Field := ⟨R.PL_TWIN_WIN, 34, 1⟩
def F.PL_TWIN_WIN.size : Field := ⟨R.PL_TWIN_WIN, 17, 17⟩
def F.PL_TWIN_WIN.base : Field := ⟨R.PL_TWIN_WIN, 0, 17⟩
/-- `PL_TOPO` (R375 of 12_pyler_links.md). -/
def R.PL_TOPO : Reg := ⟨0x20, 0x100, 1, 0, 0, 0x0, 0x0, 0xFFF, 0x0, 0x0, 0x0⟩
def F.PL_TOPO.twin : Field := ⟨R.PL_TOPO, 11, 1⟩
def F.PL_TOPO.zs_m1 : Field := ⟨R.PL_TOPO, 8, 3⟩
def F.PL_TOPO.ys_m1 : Field := ⟨R.PL_TOPO, 4, 4⟩
def F.PL_TOPO.xs_m1 : Field := ⟨R.PL_TOPO, 0, 4⟩
/-- `PL_TIME` (R375 of 12_pyler_links.md). -/
def R.PL_TIME : Reg := ⟨0x20, 0x108, 1, 0, 0, 0xE, 0xF, 0x0, 0x0, 0x0, 0x0⟩
def F.PL_TIME.err : Field := ⟨R.PL_TIME, 32, 16⟩
def F.PL_TIME.locked : Field := ⟨R.PL_TIME, 15, 1⟩
def F.PL_TIME.parent : Field := ⟨R.PL_TIME, 0, 4⟩
/-- `PL_LOSTi` (R375 of 12_pyler_links.md). -/
def R.PL_LOST : Reg := ⟨0x20, 0x800, 64, 0, 0, 0x0, 0x0, 0x0, 0xFFFFFFFFFFFFFFFF, 0x0, 0x0⟩
def F.PL_LOST.lost : Field := ⟨R.PL_LOST, 0, 64⟩
/-- `TOLL_CFG` (R376 of 12_pyler_links.md). -/
def R.TOLL_CFG : Reg := ⟨0x21, 0x0, 1, 0, 7, 0xF, 0xF, 0x0, 0x0, 0x0, 0x0⟩
def F.TOLL_CFG.regions : Field := ⟨R.TOLL_CFG, 0, 4⟩
/-- `TOLL_RATE` (R376 of 12_pyler_links.md). -/
def R.TOLL_RATE : Reg := ⟨0x21, 0x8, 1, 0, 7, 0x4000008B40B40, 0xFFFFFFFFFFFFFFF, 0x0, 0x0, 0x0, 0x0⟩
def F.TOLL_RATE.mgmt : Field := ⟨R.TOLL_RATE, 48, 12⟩
def F.TOLL_RATE.twin : Field := ⟨R.TOLL_RATE, 36, 12⟩
def F.TOLL_RATE.sync : Field := ⟨R.TOLL_RATE, 24, 12⟩
def F.TOLL_RATE.completion : Field := ⟨R.TOLL_RATE, 12, 12⟩
def F.TOLL_RATE.request : Field := ⟨R.TOLL_RATE, 0, 12⟩
/-- `TOLL_CEIL` (R376 of 12_pyler_links.md). -/
def R.TOLL_CEIL : Reg := ⟨0x21, 0x10, 1, 0, 7, 0x4000008B40B40, 0x0, 0x0, 0x0, 0x0, 0x0⟩
def F.TOLL_CEIL.all : Field := ⟨R.TOLL_CEIL, 0, 64⟩
/-- `TOLL_COUNT` (R376 of 12_pyler_links.md). -/
def R.TOLL_COUNT : Reg := ⟨0x21, 0x18, 1, 0, 7, 0x0, 0x0, 0x0, 0x0, 0x0, 0xFFFFFFFFFFFFFFFF⟩
def F.TOLL_COUNT.source : Field := ⟨R.TOLL_COUNT, 48, 16⟩
def F.TOLL_COUNT.framing : Field := ⟨R.TOLL_COUNT, 32, 16⟩
def F.TOLL_COUNT.credit : Field := ⟨R.TOLL_COUNT, 16, 16⟩
def F.TOLL_COUNT.denied : Field := ⟨R.TOLL_COUNT, 0, 16⟩
/-- `TOLL_FIRST` (R376 of 12_pyler_links.md). -/
def R.TOLL_FIRST : Reg := ⟨0x21, 0x20, 1, 0, 7, 0x0, 0x0, 0x0, 0x8000000000000000, 0x0, 0x0⟩
def F.TOLL_FIRST.valid : Field := ⟨R.TOLL_FIRST, 63, 1⟩
def F.TOLL_FIRST.kind : Field := ⟨R.TOLL_FIRST, 60, 3⟩
def F.TOLL_FIRST.src : Field := ⟨R.TOLL_FIRST, 48, 12⟩
def F.TOLL_FIRST.addr : Field := ⟨R.TOLL_FIRST, 0, 48⟩
/-- `FR_CTL` (R404 of 13_frontage_service.md). -/
def R.FR_CTL : Reg := ⟨0x22, 0x0, 1, 0, 1, 0x0, 0xFFF0003, 0x0, 0x0, 0x0, 0x0⟩
def F.FR_CTL.vid : Field := ⟨R.FR_CTL, 16, 12⟩
def F.FR_CTL.vlan_en : Field := ⟨R.FR_CTL, 1, 1⟩
def F.FR_CTL.enable : Field := ⟨R.FR_CTL, 0, 1⟩
/-- `FR_STATUS` (R404 of 13_frontage_service.md). -/
def R.FR_STATUS : Reg := ⟨0x22, 0x8, 1, 0, 1, 0x0, 0x0, 0x0, 0x18, 0x0, 0x0⟩
def F.FR_STATUS.rx_full : Field := ⟨R.FR_STATUS, 4, 1⟩
def F.FR_STATUS.cap_hit : Field := ⟨R.FR_STATUS, 3, 1⟩
def F.FR_STATUS.pcs_lock : Field := ⟨R.FR_STATUS, 2, 1⟩
def F.FR_STATUS.link : Field := ⟨R.FR_STATUS, 1, 1⟩
/-- `FR_MAC` (R404 of 13_frontage_service.md). -/
def R.FR_MAC : Reg := ⟨0x22, 0x10, 1, 0, 1, 0x0, 0xFFFFFFFFFFFF, 0x0, 0x0, 0x0, 0x0⟩
def F.FR_MAC.mac : Field := ⟨R.FR_MAC, 0, 48⟩
/-- `FR_IP_HI` (R404 of 13_frontage_service.md). -/
def R.FR_IP_HI : Reg := ⟨0x22, 0x18, 1, 0, 1, 0x0, 0xFFFFFFFFFFFFFFFF, 0x0, 0x0, 0x0, 0x0⟩
def F.FR_IP_HI.addr_hi : Field := ⟨R.FR_IP_HI, 0, 64⟩
/-- `FR_IP_LO` (R404 of 13_frontage_service.md). -/
def R.FR_IP_LO : Reg := ⟨0x22, 0x20, 1, 0, 1, 0x0, 0xFFFFFFFFFFFFFFFF, 0x0, 0x0, 0x0, 0x0⟩
def F.FR_IP_LO.addr_lo : Field := ⟨R.FR_IP_LO, 0, 64⟩
/-- `FR_UDP` (R404 of 13_frontage_service.md). -/
def R.FR_UDP : Reg := ⟨0x22, 0x28, 1, 0, 1, 0x1F86, 0xFFFF, 0x0, 0x0, 0x0, 0x0⟩
def F.FR_UDP.port : Field := ⟨R.FR_UDP, 0, 16⟩
/-- `FR_RXRING` (R404 of 13_frontage_service.md). -/
def R.FR_RXRING : Reg := ⟨0x22, 0x30, 1, 0, 1, 0x0, 0xFFFFFF0, 0x0, 0x0, 0x0, 0x0⟩
def F.FR_RXRING.size : Field := ⟨R.FR_RXRING, 24, 4⟩
def F.FR_RXRING.base : Field := ⟨R.FR_RXRING, 4, 20⟩
/-- `FR_TXRING` (R404 of 13_frontage_service.md). -/
def R.FR_TXRING : Reg := ⟨0x22, 0x40, 1, 0, 1, 0x0, 0xFFFFFF0, 0x0, 0x0, 0x0, 0x0⟩
def F.FR_TXRING.size : Field := ⟨R.FR_TXRING, 24, 4⟩
def F.FR_TXRING.base : Field := ⟨R.FR_TXRING, 4, 20⟩
/-- `FR_RXPTR` (R404 of 13_frontage_service.md). -/
def R.FR_RXPTR : Reg := ⟨0x22, 0x38, 1, 0, 1, 0x0, 0x1FFFF00000000, 0x0, 0x0, 0x0, 0x0⟩
def F.FR_RXPTR.tail : Field := ⟨R.FR_RXPTR, 32, 17⟩
def F.FR_RXPTR.head : Field := ⟨R.FR_RXPTR, 0, 17⟩
/-- `FR_TXPTR` (R404 of 13_frontage_service.md). -/
def R.FR_TXPTR : Reg := ⟨0x22, 0x48, 1, 0, 1, 0x0, 0x1FFFF00000000, 0x0, 0x0, 0x0, 0x0⟩
def F.FR_TXPTR.tail : Field := ⟨R.FR_TXPTR, 32, 17⟩
def F.FR_TXPTR.head : Field := ⟨R.FR_TXPTR, 0, 17⟩
/-- `FR_TXCAP` (R404 of 13_frontage_service.md). -/
def R.FR_TXCAP : Reg := ⟨0x22, 0x50, 1, 0, 1, 0xA0100C8064, 0xFFFFFFFFFFF, 0x0, 0x0, 0x0, 0x0⟩
def F.FR_TXCAP.raw_dgrams : Field := ⟨R.FR_TXCAP, 36, 8⟩
def F.FR_TXCAP.raw_bytes : Field := ⟨R.FR_TXCAP, 28, 8⟩
def F.FR_TXCAP.dgrams : Field := ⟨R.FR_TXCAP, 12, 16⟩
def F.FR_TXCAP.bytes : Field := ⟨R.FR_TXCAP, 0, 12⟩
/-- `FR_TXCEIL` (R404 of 13_frontage_service.md). -/
def R.FR_TXCEIL : Reg := ⟨0x22, 0x58, 1, 0, 1, 0xA0100C8064, 0x0, 0x0, 0x0, 0x0, 0x0⟩
def F.FR_TXCEIL.all : Field := ⟨R.FR_TXCEIL, 0, 64⟩
/-- `FR_COUNT` (R404 of 13_frontage_service.md). -/
def R.FR_COUNT : Reg := ⟨0x22, 0x60, 1, 0, 1, 0x0, 0x0, 0x0, 0x0, 0x0, 0xFFFFFFFFFFFFFFFF⟩
def F.FR_COUNT.rx_dgrams : Field := ⟨R.FR_COUNT, 32, 32⟩
def F.FR_COUNT.tx_dgrams : Field := ⟨R.FR_COUNT, 0, 32⟩
/-- `FR_DROP` (R404 of 13_frontage_service.md). -/
def R.FR_DROP : Reg := ⟨0x22, 0x68, 1, 0, 1, 0x0, 0x0, 0x0, 0x0, 0x0, 0xFFFFFFFFFFFFFFFF⟩
def F.FR_DROP.filter : Field := ⟨R.FR_DROP, 48, 16⟩
def F.FR_DROP.auth : Field := ⟨R.FR_DROP, 32, 16⟩
def F.FR_DROP.ring_full : Field := ⟨R.FR_DROP, 16, 16⟩
def F.FR_DROP.frame : Field := ⟨R.FR_DROP, 0, 16⟩
/-- `FR_FEC` (R404 of 13_frontage_service.md). -/
def R.FR_FEC : Reg := ⟨0x22, 0x70, 1, 0, 1, 0x0, 0x0, 0x0, 0x0, 0x0, 0xFFFFFFFFFFFFFFFF⟩
def F.FR_FEC.corrected : Field := ⟨R.FR_FEC, 32, 32⟩
def F.FR_FEC.uncorrectable : Field := ⟨R.FR_FEC, 0, 32⟩
/-- `PWR_CTL` (R431 of 14_power_delivery.md). -/
def R.PWR_CTL : Reg := ⟨0x2, 0x0, 1, 0, 0, 0x1, 0x1, 0x0, 0x0, 0x2, 0x0⟩
def F.PWR_CTL.tel_retry : Field := ⟨R.PWR_CTL, 1, 1⟩
def F.PWR_CTL.shed_en : Field := ⟨R.PWR_CTL, 0, 1⟩
/-- `PWR_STATUS` (R431 of 14_power_delivery.md). -/
def R.PWR_STATUS : Reg := ⟨0x2, 0x8, 1, 0, 0, 0x28500000, 0x0, 0x0, 0x70, 0x0, 0x0⟩
def F.PWR_STATUS.p10ms : Field := ⟨R.PWR_STATUS, 48, 16⟩
def F.PWR_STATUS.p1ms : Field := ⟨R.PWR_STATUS, 32, 16⟩
def F.PWR_STATUS.squares_ok : Field := ⟨R.PWR_STATUS, 24, 6⟩
def F.PWR_STATUS.engines_ok : Field := ⟨R.PWR_STATUS, 16, 7⟩
def F.PWR_STATUS.hint_mem : Field := ⟨R.PWR_STATUS, 8, 1⟩
def F.PWR_STATUS.hint_core : Field := ⟨R.PWR_STATUS, 7, 1⟩
def F.PWR_STATUS.pmb_alert : Field := ⟨R.PWR_STATUS, 6, 1⟩
def F.PWR_STATUS.cap_hit : Field := ⟨R.PWR_STATUS, 5, 1⟩
def F.PWR_STATUS.est : Field := ⟨R.PWR_STATUS, 4, 1⟩
def F.PWR_STATUS.tel_lost : Field := ⟨R.PWR_STATUS, 3, 1⟩
def F.PWR_STATUS.cap_level : Field := ⟨R.PWR_STATUS, 0, 3⟩
/-- `PWR_CAP` (R431 of 14_power_delivery.md). -/
def R.PWR_CAP : Reg := ⟨0x2, 0x10, 1, 0, 0, 0x3209600AF00CE4, 0xFFFFFFFFFFFFFF, 0x0, 0x0, 0x0, 0x0⟩
def F.PWR_CAP.vmem_a : Field := ⟨R.PWR_CAP, 44, 12⟩
def F.PWR_CAP.vcore_a : Field := ⟨R.PWR_CAP, 32, 12⟩
def F.PWR_CAP.sust_w : Field := ⟨R.PWR_CAP, 16, 16⟩
def F.PWR_CAP.fast_w : Field := ⟨R.PWR_CAP, 0, 16⟩
/-- `PWR_CEIL` (R431 of 14_power_delivery.md). -/
def R.PWR_CEIL : Reg := ⟨0x2, 0x18, 1, 0, 0, 0x3209600AF00CE4, 0x0, 0x0, 0x0, 0x0, 0x0⟩
def F.PWR_CEIL.all : Field := ⟨R.PWR_CEIL, 0, 64⟩
/-- `PWR_ENERGY` (R431 of 14_power_delivery.md). -/
def R.PWR_ENERGY : Reg := ⟨0x2, 0x20, 1, 0, 0, 0x0, 0x0, 0x0, 0x0, 0x0, 0x0⟩
def F.PWR_ENERGY.uj : Field := ⟨R.PWR_ENERGY, 0, 64⟩
/-- `PWR_TEL` (R431 of 14_power_delivery.md). -/
def R.PWR_TEL : Reg := ⟨0x2, 0x28, 1, 0, 0, 0x0, 0x0, 0x0, 0x0, 0x0, 0x0⟩
def F.PWR_TEL.frame : Field := ⟨R.PWR_TEL, 0, 62⟩
/-- `PWR_HINT` (R431 of 14_power_delivery.md). -/
def R.PWR_HINT : Reg := ⟨0x2, 0x30, 1, 0, 0, 0x1010, 0x7F7F, 0x0, 0x0, 0x0, 0x0⟩
def F.PWR_HINT.mem_n : Field := ⟨R.PWR_HINT, 8, 7⟩
def F.PWR_HINT.core_n : Field := ⟨R.PWR_HINT, 0, 7⟩
/-- `PWR_PMB` (R431 of 14_power_delivery.md). -/
def R.PWR_PMB : Reg := ⟨0x2, 0x38, 1, 0, 0, 0x400, 0xFFFF00000FFF, 0x0, 0x0, 0x1000, 0x0⟩
def F.PWR_PMB.data : Field := ⟨R.PWR_PMB, 32, 16⟩
def F.PWR_PMB.code : Field := ⟨R.PWR_PMB, 14, 4⟩
def F.PWR_PMB.busy : Field := ⟨R.PWR_PMB, 13, 1⟩
def F.PWR_PMB.go : Field := ⟨R.PWR_PMB, 12, 1⟩
def F.PWR_PMB.two : Field := ⟨R.PWR_PMB, 11, 1⟩
def F.PWR_PMB.read : Field := ⟨R.PWR_PMB, 10, 1⟩
def F.PWR_PMB.page : Field := ⟨R.PWR_PMB, 8, 2⟩
def F.PWR_PMB.cmd : Field := ⟨R.PWR_PMB, 0, 8⟩
/-- `PWR_RG_CTL` (R432 of 14_power_delivery.md). -/
def R.PWR_RG_CTL : Reg := ⟨0x2, 0x0, 1, 1, 120, 0x3E805, 0xFFFF07, 0x0, 0x0, 0x1000000, 0x0⟩
def F.PWR_RG_CTL.rearm : Field := ⟨R.PWR_RG_CTL, 24, 1⟩
def F.PWR_RG_CTL.idle_us : Field := ⟨R.PWR_RG_CTL, 8, 16⟩
def F.PWR_RG_CTL.auto_sleep : Field := ⟨R.PWR_RG_CTL, 2, 1⟩
def F.PWR_RG_CTL.target : Field := ⟨R.PWR_RG_CTL, 0, 2⟩
/-- `PWR_RG_STATUS` (R432 of 14_power_delivery.md). -/
def R.PWR_RG_STATUS : Reg := ⟨0x2, 0x8, 1, 1, 120, 0x10000000, 0x0, 0x0, 0x0, 0x0, 0x0⟩
def F.PWR_RG_STATUS.current : Field := ⟨R.PWR_RG_STATUS, 36, 12⟩
def F.PWR_RG_STATUS.guard : Field := ⟨R.PWR_RG_STATUS, 29, 3⟩
def F.PWR_RG_STATUS.in_service : Field := ⟨R.PWR_RG_STATUS, 24, 5⟩
def F.PWR_RG_STATUS.failed : Field := ⟨R.PWR_RG_STATUS, 8, 16⟩
def F.PWR_RG_STATUS.stepdown : Field := ⟨R.PWR_RG_STATUS, 4, 1⟩
def F.PWR_RG_STATUS.degraded : Field := ⟨R.PWR_RG_STATUS, 3, 1⟩
def F.PWR_RG_STATUS.waking : Field := ⟨R.PWR_RG_STATUS, 2, 1⟩
def F.PWR_RG_STATUS.state : Field := ⟨R.PWR_RG_STATUS, 0, 2⟩
/-- `PWR_RG_CEIL` (R432 of 14_power_delivery.md). -/
def R.PWR_RG_CEIL : Reg := ⟨0x2, 0x10, 1, 1, 120, 0x1E0, 0x3FF, 0x0, 0x0, 0x0, 0x0⟩
def F.PWR_RG_CEIL.thermal : Field := ⟨R.PWR_RG_CEIL, 16, 4⟩
def F.PWR_RG_CEIL.limit : Field := ⟨R.PWR_RG_CEIL, 0, 10⟩
/-- `PWR_RG_VMIN` (R432 of 14_power_delivery.md). -/
def R.PWR_RG_VMIN : Reg := ⟨0x2, 0x18, 1, 1, 120, 0x3FF, 0x0, 0x0, 0x0, 0x0, 0x0⟩
def F.PWR_RG_VMIN.vmin : Field := ⟨R.PWR_RG_VMIN, 0, 10⟩
/-- `PWR_RG_VMIN_T` (R432 of 14_power_delivery.md). -/
def R.PWR_RG_VMIN_T : Reg := ⟨0x2, 0x20, 1, 1, 120, 0x0, 0x0, 0x0, 0x0, 0x0, 0x0⟩
def F.PWR_RG_VMIN_T.btime : Field := ⟨R.PWR_RG_VMIN_T, 0, 64⟩
/-- `PWR_RG_DROOP` (R432 of 14_power_delivery.md). -/
def R.PWR_RG_DROOP : Reg := ⟨0x2, 0x28, 1, 1, 120, 0x0, 0x3FF, 0x0, 0x0, 0x0, 0xFFFFFFFF00000000⟩
def F.PWR_RG_DROOP.count : Field := ⟨R.PWR_RG_DROOP, 32, 32⟩
def F.PWR_RG_DROOP.thresh : Field := ⟨R.PWR_RG_DROOP, 0, 10⟩
/-- `PWR_VM_FAILi` (R433 of 14_power_delivery.md). -/
def R.PWR_VM_FAIL : Reg := ⟨0x2, 0x0, 10, 121, 121, 0x0, 0x0, 0x0, 0x0, 0x0, 0x0⟩
def F.PWR_VM_FAIL.col (i : Nat) : Field := ⟨R.PWR_VM_FAIL, 0 + 16 * i, 16⟩
/-- `PWR_VM_STATE` (R433 of 14_power_delivery.md). -/
def R.PWR_VM_STATE : Reg := ⟨0x2, 0x50, 1, 121, 121, 0x0, 0x0, 0x0, 0x0, 0x0, 0x0⟩
def F.PWR_VM_STATE.dark : Field := ⟨R.PWR_VM_STATE, 0, 40⟩
/-- `PWR_FL_FAIL` (R433 of 14_power_delivery.md). -/
def R.PWR_FL_FAIL : Reg := ⟨0x2, 0x0, 1, 122, 122, 0x0, 0x0, 0x0, 0x0, 0x0, 0x0⟩
def F.PWR_FL_FAIL.grp (i : Nat) : Field := ⟨R.PWR_FL_FAIL, 0 + 16 * i, 16⟩
/-- `THM_STATUS` (R458 of 15_thermal_and_cooling.md). -/
def R.THM_STATUS : Reg := ⟨0x3, 0x0, 1, 0, 0, 0x40, 0x0, 0x0, 0x138, 0x0, 0x0⟩
def F.THM_STATUS.rounds : Field := ⟨R.THM_STATUS, 40, 24⟩
def F.THM_STATUS.suspect_n : Field := ⟨R.THM_STATUS, 30, 10⟩
def F.THM_STATUS.broken_n : Field := ⟨R.THM_STATUS, 20, 10⟩
def F.THM_STATUS.max_level : Field := ⟨R.THM_STATUS, 17, 3⟩
def F.THM_STATUS.bad_cfg : Field := ⟨R.THM_STATUS, 8, 1⟩
def F.THM_STATUS.adc_fail : Field := ⟨R.THM_STATUS, 7, 1⟩
def F.THM_STATUS.flow_unknown : Field := ⟨R.THM_STATUS, 6, 1⟩
def F.THM_STATUS.flow_low : Field := ⟨R.THM_STATUS, 5, 1⟩
def F.THM_STATUS.inlet_alarm : Field := ⟨R.THM_STATUS, 4, 1⟩
def F.THM_STATUS.outlet_alarm : Field := ⟨R.THM_STATUS, 3, 1⟩
def F.THM_STATUS.fallback : Field := ⟨R.THM_STATUS, 2, 1⟩
def F.THM_STATUS.trip_armed : Field := ⟨R.THM_STATUS, 1, 1⟩
def F.THM_STATUS.model_ok : Field := ⟨R.THM_STATUS, 0, 1⟩
/-- `THM_STEP` (R458 of 15_thermal_and_cooling.md). -/
def R.THM_STEP : Reg := ⟨0x3, 0x8, 1, 0, 0, 0x0, 0x0, 0x0, 0x0, 0x0, 0xFF00⟩
def F.THM_STEP.lowerings : Field := ⟨R.THM_STEP, 8, 8⟩
def F.THM_STEP.limit : Field := ⟨R.THM_STEP, 0, 3⟩
/-- `THM_LIM_COMP` (R458 of 15_thermal_and_cooling.md). -/
def R.THM_LIM_COMP : Reg := ⟨0x3, 0x10, 1, 0, 0, 0x7D7264, 0xFFFF, 0x0, 0x0, 0x0, 0x0⟩
def F.THM_LIM_COMP.trip : Field := ⟨R.THM_LIM_COMP, 16, 8⟩
def F.THM_LIM_COMP.full : Field := ⟨R.THM_LIM_COMP, 8, 8⟩
def F.THM_LIM_COMP.start : Field := ⟨R.THM_LIM_COMP, 0, 8⟩
/-- `THM_LIM_MEM` (R458 of 15_thermal_and_cooling.md). -/
def R.THM_LIM_MEM : Reg := ⟨0x3, 0x18, 1, 0, 0, 0x696258, 0xFFFF, 0x0, 0x0, 0x0, 0x0⟩
def F.THM_LIM_MEM.trip : Field := ⟨R.THM_LIM_MEM, 16, 8⟩
def F.THM_LIM_MEM.full : Field := ⟨R.THM_LIM_MEM, 8, 8⟩
def F.THM_LIM_MEM.start : Field := ⟨R.THM_LIM_MEM, 0, 8⟩
/-- `THM_LIM_OTHER` (R458 of 15_thermal_and_cooling.md). -/
def R.THM_LIM_OTHER : Reg := ⟨0x3, 0x20, 1, 0, 0, 0x695F695F, 0xFFFFFFFF, 0x0, 0x0, 0x0, 0x0⟩
def F.THM_LIM_OTHER.floor_full : Field := ⟨R.THM_LIM_OTHER, 24, 8⟩
def F.THM_LIM_OTHER.floor_start : Field := ⟨R.THM_LIM_OTHER, 16, 8⟩
def F.THM_LIM_OTHER.plaza_full : Field := ⟨R.THM_LIM_OTHER, 8, 8⟩
def F.THM_LIM_OTHER.plaza_start : Field := ⟨R.THM_LIM_OTHER, 0, 8⟩
/-- `THM_COOLANT` (R458 of 15_thermal_and_cooling.md). -/
def R.THM_COOLANT : Reg := ⟨0x3, 0x30, 1, 0, 0, 0xFFFF000080008000, 0x0, 0x0, 0x0, 0x0, 0x0⟩
def F.THM_COOLANT.flow : Field := ⟨R.THM_COOLANT, 48, 16⟩
def F.THM_COOLANT.outlet : Field := ⟨R.THM_COOLANT, 16, 16⟩
def F.THM_COOLANT.inlet : Field := ⟨R.THM_COOLANT, 0, 16⟩
/-- `THM_COOL_CFG` (R458 of 15_thermal_and_cooling.md). -/
def R.THM_COOL_CFG : Reg := ⟨0x3, 0x38, 1, 0, 0, 0x0, 0xFFFF, 0x0, 0x0, 0x0, 0x0⟩
def F.THM_COOL_CFG.k : Field := ⟨R.THM_COOL_CFG, 0, 16⟩
/-- `THM_EXT0` (R458 of 15_thermal_and_cooling.md). -/
def R.THM_EXT0 : Reg := ⟨0x3, 0x40, 1, 0, 0, 0x8000800080008000, 0x0, 0x0, 0x0, 0x0, 0x0⟩
def F.THM_EXT0.th (i : Nat) : Field := ⟨R.THM_EXT0, 0 + 16 * i, 16⟩
/-- `THM_EXT1` (R458 of 15_thermal_and_cooling.md). -/
def R.THM_EXT1 : Reg := ⟨0x3, 0x48, 1, 0, 0, 0x80008000, 0x0, 0x0, 0x0, 0x0, 0x0⟩
def F.THM_EXT1.th (i : Nat) : Field := ⟨R.THM_EXT1, 0 + 16 * i, 16⟩
/-- `THM_TRIP` (R458 of 15_thermal_and_cooling.md). -/
def R.THM_TRIP : Reg := ⟨0x3, 0x50, 1, 0, 0, 0x0, 0x0, 0x0, 0x8000000000000000, 0x0, 0x0⟩
def F.THM_TRIP.valid : Field := ⟨R.THM_TRIP, 63, 1⟩
def F.THM_TRIP.trips : Field := ⟨R.THM_TRIP, 8, 8⟩
def F.THM_TRIP.comp : Field := ⟨R.THM_TRIP, 0, 6⟩
/-- `THM_TRIP_T` (R458 of 15_thermal_and_cooling.md). -/
def R.THM_TRIP_T : Reg := ⟨0x3, 0x58, 1, 0, 0, 0x0, 0x0, 0x0, 0x0, 0x0, 0x0⟩
def F.THM_TRIP_T.btime : Field := ⟨R.THM_TRIP_T, 0, 64⟩
/-- `THM_LEVELi` (R458 of 15_thermal_and_cooling.md). -/
def R.THM_LEVEL : Reg := ⟨0x3, 0x60, 5, 0, 0, 0x0, 0x0, 0x0, 0x0, 0x0, 0x0⟩
def F.THM_LEVEL.level (i : Nat) : Field := ⟨R.THM_LEVEL, 0 + 4 * i, 3⟩
def F.THM_LEVEL.fb (i : Nat) : Field := ⟨R.THM_LEVEL, 3 + 4 * i, 1⟩
/-- `THM_SUSPECTi` (R458 of 15_thermal_and_cooling.md). -/
def R.THM_SUSPECT : Reg := ⟨0x3, 0x100, 12, 0, 0, 0x0, 0x0, 0x0, 0xFFFFFFFFFFFFFFFF, 0x0, 0x0⟩
def F.THM_SUSPECT.suspect (i : Nat) : Field := ⟨R.THM_SUSPECT, 0 + 1 * i, 1⟩
/-- `THM_BROKENi` (R458 of 15_thermal_and_cooling.md). -/
def R.THM_BROKEN : Reg := ⟨0x3, 0x180, 12, 0, 0, 0x0, 0x0, 0x0, 0xFFFFFFFFFFFFFFFF, 0x0, 0x0⟩
def F.THM_BROKEN.broken (i : Nat) : Field := ⟨R.THM_BROKEN, 0 + 1 * i, 1⟩
/-- `THM_DIODEi` (R458 of 15_thermal_and_cooling.md). -/
def R.THM_DIODE : Reg := ⟨0x3, 0x200, 188, 0, 0, 0x8000800080008000, 0x0, 0x0, 0x0, 0x0, 0x0⟩
def F.THM_DIODE.reading (i : Nat) : Field := ⟨R.THM_DIODE, 0 + 16 * i, 16⟩
/-- `THM_NODEi` (R458 of 15_thermal_and_cooling.md). -/
def R.THM_NODE : Reg := ⟨0x3, 0x800, 240, 0, 0, 0x8000800080008000, 0x0, 0x0, 0x0, 0x0, 0x0⟩
def F.THM_NODE.forecast (i : Nat) : Field := ⟨R.THM_NODE, 0 + 16 * i, 16⟩
/-- `CLK_STATUS` (R473 of 16_clocking.md). -/
def R.CLK_STATUS : Reg := ⟨0x4, 0x0, 1, 0, 0, 0x3, 0x0, 0x0, 0x30, 0x0, 0xFF00⟩
def F.CLK_STATUS.steps : Field := ⟨R.CLK_STATUS, 8, 8⟩
def F.CLK_STATUS.pll_fail : Field := ⟨R.CLK_STATUS, 5, 1⟩
def F.CLK_STATUS.canary_warn : Field := ⟨R.CLK_STATUS, 4, 1⟩
def F.CLK_STATUS.step_lock : Field := ⟨R.CLK_STATUS, 3, 1⟩
def F.CLK_STATUS.floor_lock : Field := ⟨R.CLK_STATUS, 2, 1⟩
def F.CLK_STATUS.xtal_ok : Field := ⟨R.CLK_STATUS, 1, 1⟩
def F.CLK_STATUS.ref_ok : Field := ⟨R.CLK_STATUS, 0, 1⟩
/-- `CLK_STEP` (R473 of 16_clocking.md). -/
def R.CLK_STEP : Reg := ⟨0x4, 0x8, 1, 0, 0, 0x77, 0x7, 0x0, 0x0, 0x0, 0xFF00⟩
def F.CLK_STEP.changes : Field := ⟨R.CLK_STEP, 8, 8⟩
def F.CLK_STEP.busy : Field := ⟨R.CLK_STEP, 7, 1⟩
def F.CLK_STEP.eff : Field := ⟨R.CLK_STEP, 4, 3⟩
def F.CLK_STEP.req : Field := ⟨R.CLK_STEP, 0, 3⟩
/-- `CLK_BTIME` (R473 of 16_clocking.md). -/
def R.CLK_BTIME : Reg := ⟨0x4, 0x10, 1, 0, 0, 0x0, 0x0, 0x0, 0x0, 0x0, 0x0⟩
def F.CLK_BTIME.ns : Field := ⟨R.CLK_BTIME, 0, 64⟩
/-- `CLK_BTIME_ADJ` (R473 of 16_clocking.md). -/
def R.CLK_BTIME_ADJ : Reg := ⟨0x4, 0x18, 1, 0, 0, 0x0, 0xFFFFFFFF, 0x0, 0x0, 0x0, 0x0⟩
def F.CLK_BTIME_ADJ.adj : Field := ⟨R.CLK_BTIME_ADJ, 0, 32⟩
/-- `CLK_BTIME_STEP` (R473 of 16_clocking.md). -/
def R.CLK_BTIME_STEP : Reg := ⟨0x4, 0x20, 1, 0, 0, 0x0, 0x0, 0x0, 0x0, 0x0, 0x0⟩
def F.CLK_BTIME_STEP.last : Field := ⟨R.CLK_BTIME_STEP, 0, 64⟩
/-- `CLK_PLL` (R473 of 16_clocking.md). -/
def R.CLK_PLL : Reg := ⟨0x4, 0x0, 1, 1, 80, 0x0, 0x0, 0x0, 0x4, 0x0, 0xFF00⟩
def F.CLK_PLL.locks : Field := ⟨R.CLK_PLL, 8, 8⟩
def F.CLK_PLL.fail : Field := ⟨R.CLK_PLL, 2, 1⟩
def F.CLK_PLL.state : Field := ⟨R.CLK_PLL, 0, 2⟩
/-- `CLK_CANARY` (R473 of 16_clocking.md). -/
def R.CLK_CANARY : Reg := ⟨0x4, 0x8, 1, 1, 80, 0x100000000, 0xFFFF00000000, 0x0, 0x1000000000000, 0x0, 0xFFFFFFFF⟩
def F.CLK_CANARY.warn : Field := ⟨R.CLK_CANARY, 48, 1⟩
def F.CLK_CANARY.limit : Field := ⟨R.CLK_CANARY, 32, 16⟩
def F.CLK_CANARY.below5 : Field := ⟨R.CLK_CANARY, 16, 16⟩
def F.CLK_CANARY.below10 : Field := ⟨R.CLK_CANARY, 0, 16⟩
/-- `AON_STATUS` (R497 of 17_startup_and_repair.md). -/
def R.AON_STATUS : Reg := ⟨0x0, 0x0, 1, 0, 0, 0x0, 0x0, 0x0, 0x0, 0x0, 0x0⟩
def F.AON_STATUS.start_ms : Field := ⟨R.AON_STATUS, 48, 16⟩
def F.AON_STATUS.boots : Field := ⟨R.AON_STATUS, 32, 16⟩
def F.AON_STATUS.cause : Field := ⟨R.AON_STATUS, 28, 4⟩
def F.AON_STATUS.held : Field := ⟨R.AON_STATUS, 27, 1⟩
def F.AON_STATUS.cold : Field := ⟨R.AON_STATUS, 26, 1⟩
def F.AON_STATUS.slot : Field := ⟨R.AON_STATUS, 25, 1⟩
def F.AON_STATUS.cfg_ok : Field := ⟨R.AON_STATUS, 24, 1⟩
def F.AON_STATUS.stage : Field := ⟨R.AON_STATUS, 20, 4⟩
def F.AON_STATUS.ignored : Field := ⟨R.AON_STATUS, 0, 20⟩
/-- `AON_BOOT` (R497 of 17_startup_and_repair.md). -/
def R.AON_BOOT : Reg := ⟨0x0, 0x8, 1, 0, 0, 0x0, 0x11, 0x0, 0x0, 0x20, 0x0⟩
def F.AON_BOOT.service : Field := ⟨R.AON_BOOT, 5, 1⟩
def F.AON_BOOT.force_cold : Field := ⟨R.AON_BOOT, 4, 1⟩
def F.AON_BOOT.fails : Field := ⟨R.AON_BOOT, 2, 2⟩
def F.AON_BOOT.slot : Field := ⟨R.AON_BOOT, 0, 1⟩
/-- `AON_RESET` (R497 of 17_startup_and_repair.md). -/
def R.AON_RESET : Reg := ⟨0x0, 0x18, 1, 0, 0, 0x0, 0x3, 0x0, 0x0, 0x8, 0x0⟩
def F.AON_RESET.block : Field := ⟨R.AON_RESET, 3, 1⟩
def F.AON_RESET.layer_b : Field := ⟨R.AON_RESET, 1, 1⟩
def F.AON_RESET.layer_a : Field := ⟨R.AON_RESET, 0, 1⟩
/-- `AON_ENG_RST0` (R497 of 17_startup_and_repair.md). -/
def R.AON_ENG_RST0 : Reg := ⟨0x0, 0x20, 1, 0, 0, 0x0, 0xFFFFFFFFFFFFFFFF, 0x0, 0x0, 0x0, 0x0⟩
def F.AON_ENG_RST0.hold : Field := ⟨R.AON_ENG_RST0, 0, 64⟩
/-- `AON_ENG_RST1` (R497 of 17_startup_and_repair.md). -/
def R.AON_ENG_RST1 : Reg := ⟨0x0, 0x28, 1, 0, 0, 0x0, 0xFFFF, 0x0, 0x0, 0x0, 0x0⟩
def F.AON_ENG_RST1.hold : Field := ⟨R.AON_ENG_RST1, 0, 16⟩
/-- `AON_ENG_FAIL0` (R497 of 17_startup_and_repair.md). -/
def R.AON_ENG_FAIL0 : Reg := ⟨0x0, 0x30, 1, 0, 0, 0x0, 0x0, 0x0, 0xFFFFFFFFFFFFFFFF, 0x0, 0x0⟩
def F.AON_ENG_FAIL0.fail : Field := ⟨R.AON_ENG_FAIL0, 0, 64⟩
/-- `AON_ENG_FAIL1` (R497 of 17_startup_and_repair.md). -/
def R.AON_ENG_FAIL1 : Reg := ⟨0x0, 0x38, 1, 0, 0, 0x0, 0x0, 0x0, 0xFFFF, 0x0, 0x0⟩
def F.AON_ENG_FAIL1.fail : Field := ⟨R.AON_ENG_FAIL1, 0, 16⟩
/-- `AON_WDOG` (R497 of 17_startup_and_repair.md). -/
def R.AON_WDOG : Reg := ⟨0x0, 0x40, 1, 0, 0, 0x2710, 0x0, 0xFFFFFFFF, 0x0, 0x300000000, 0x0⟩
def F.AON_WDOG.kick : Field := ⟨R.AON_WDOG, 33, 1⟩
def F.AON_WDOG.enable : Field := ⟨R.AON_WDOG, 32, 1⟩
def F.AON_WDOG.timeout_ms : Field := ⟨R.AON_WDOG, 0, 32⟩
/-- `AON_MEMO` (R497 of 17_startup_and_repair.md). -/
def R.AON_MEMO : Reg := ⟨0x0, 0x48, 1, 0, 0, 0x0, 0xFFFFFFFF00000000, 0x0, 0x0, 0x1, 0x0⟩
def F.AON_MEMO.src : Field := ⟨R.AON_MEMO, 32, 32⟩
def F.AON_MEMO.code : Field := ⟨R.AON_MEMO, 8, 4⟩
def F.AON_MEMO.busy : Field := ⟨R.AON_MEMO, 1, 1⟩
def F.AON_MEMO.go : Field := ⟨R.AON_MEMO, 0, 1⟩
/-- `AON_LEDGER` (R497 of 17_startup_and_repair.md). -/
def R.AON_LEDGER : Reg := ⟨0x0, 0x50, 1, 0, 0, 0x0, 0xFF0, 0x0, 0x0, 0x1, 0x0⟩
def F.AON_LEDGER.seq : Field := ⟨R.AON_LEDGER, 32, 32⟩
def F.AON_LEDGER.code : Field := ⟨R.AON_LEDGER, 12, 4⟩
def F.AON_LEDGER.kind : Field := ⟨R.AON_LEDGER, 4, 8⟩
def F.AON_LEDGER.busy : Field := ⟨R.AON_LEDGER, 1, 1⟩
def F.AON_LEDGER.go : Field := ⟨R.AON_LEDGER, 0, 1⟩
/-- `AON_LEDGER_LOC` (R497 of 17_startup_and_repair.md). -/
def R.AON_LEDGER_LOC : Reg := ⟨0x0, 0x58, 1, 0, 0, 0x0, 0xFFFFFFFFFFFFFFFF, 0x0, 0x0, 0x0, 0x0⟩
def F.AON_LEDGER_LOC.loc : Field := ⟨R.AON_LEDGER_LOC, 0, 64⟩
/-- `AON_REPAIR` (R497 of 17_startup_and_repair.md). -/
def R.AON_REPAIR : Reg := ⟨0x0, 0x60, 1, 0, 0, 0x0, 0x0, 0x0, 0x0, 0x0, 0x0⟩
def F.AON_REPAIR.rows : Field := ⟨R.AON_REPAIR, 48, 16⟩
def F.AON_REPAIR.sites : Field := ⟨R.AON_REPAIR, 32, 16⟩
def F.AON_REPAIR.ways : Field := ⟨R.AON_REPAIR, 24, 8⟩
def F.AON_REPAIR.slices : Field := ⟨R.AON_REPAIR, 16, 8⟩
def F.AON_REPAIR.lanes : Field := ⟨R.AON_REPAIR, 8, 8⟩
def F.AON_REPAIR.engines_out : Field := ⟨R.AON_REPAIR, 0, 8⟩
/-- `SEC_STATUS` (R519 of 18_trust.md). -/
def R.SEC_STATUS : Reg := ⟨0x1, 0x0, 1, 0, 0, 0x0, 0x0, 0x0, 0x0, 0x0, 0x0⟩
def F.SEC_STATUS.nonce_valid : Field := ⟨R.SEC_STATUS, 13, 1⟩
def F.SEC_STATUS.identity_ok : Field := ⟨R.SEC_STATUS, 12, 1⟩
def F.SEC_STATUS.signer : Field := ⟨R.SEC_STATUS, 10, 2⟩
def F.SEC_STATUS.owner_slot : Field := ⟨R.SEC_STATUS, 8, 2⟩
def F.SEC_STATUS.owner_valid : Field := ⟨R.SEC_STATUS, 7, 1⟩
def F.SEC_STATUS.debug_pending : Field := ⟨R.SEC_STATUS, 6, 1⟩
def F.SEC_STATUS.debug : Field := ⟨R.SEC_STATUS, 5, 1⟩
def F.SEC_STATUS.debug_disabled : Field := ⟨R.SEC_STATUS, 4, 1⟩
def F.SEC_STATUS.owner_only : Field := ⟨R.SEC_STATUS, 3, 1⟩
def F.SEC_STATUS.jtag_locked : Field := ⟨R.SEC_STATUS, 2, 1⟩
def F.SEC_STATUS.production_done : Field := ⟨R.SEC_STATUS, 1, 1⟩
def F.SEC_STATUS.otp_ok : Field := ⟨R.SEC_STATUS, 0, 1⟩
/-- `SEC_CMD` (R519 of 18_trust.md). -/
def R.SEC_CMD : Reg := ⟨0x1, 0x8, 1, 0, 0, 0x0, 0xFFFF0F00, 0x0, 0x0, 0x1, 0x0⟩
def F.SEC_CMD.len : Field := ⟨R.SEC_CMD, 48, 16⟩
def F.SEC_CMD.param : Field := ⟨R.SEC_CMD, 16, 16⟩
def F.SEC_CMD.code : Field := ⟨R.SEC_CMD, 12, 4⟩
def F.SEC_CMD.op : Field := ⟨R.SEC_CMD, 8, 4⟩
def F.SEC_CMD.busy : Field := ⟨R.SEC_CMD, 1, 1⟩
def F.SEC_CMD.go : Field := ⟨R.SEC_CMD, 0, 1⟩
/-- `SEC_ARG` (R519 of 18_trust.md). -/
def R.SEC_ARG : Reg := ⟨0x1, 0x10, 1, 0, 0, 0x0, 0xFFFFFFFFFFFFFFFF, 0x0, 0x0, 0x0, 0x0⟩
def F.SEC_ARG.dst : Field := ⟨R.SEC_ARG, 32, 32⟩
def F.SEC_ARG.src : Field := ⟨R.SEC_ARG, 0, 32⟩
/-- `SEC_NONCEi` (R519 of 18_trust.md). -/
def R.SEC_NONCE : Reg := ⟨0x1, 0x18, 4, 0, 0, 0x0, 0x0, 0x0, 0x0, 0x0, 0x0⟩
def F.SEC_NONCE.value : Field := ⟨R.SEC_NONCE, 0, 64⟩
/-- `SEC_SVN` (R519 of 18_trust.md). -/
def R.SEC_SVN : Reg := ⟨0x1, 0x38, 1, 0, 0, 0x0, 0x0, 0x0, 0x0, 0x0, 0x0⟩
def F.SEC_SVN.img_svn : Field := ⟨R.SEC_SVN, 32, 32⟩
def F.SEC_SVN.cfg : Field := ⟨R.SEC_SVN, 16, 7⟩
def F.SEC_SVN.boot : Field := ⟨R.SEC_SVN, 0, 9⟩
/-- `SEC_OWNER` (R519 of 18_trust.md). -/
def R.SEC_OWNER : Reg := ⟨0x1, 0x40, 1, 0, 0, 0x0, 0x0, 0x0, 0x0, 0x0, 0x0⟩
def F.SEC_OWNER.slot (i : Nat) : Field := ⟨R.SEC_OWNER, 0 + 4 * i, 3⟩
/-- `SEC_LOG` (R519 of 18_trust.md). -/
def R.SEC_LOG : Reg := ⟨0x1, 0x48, 1, 0, 0, 0x0, 0x0, 0x0, 0x0, 0x0, 0x0⟩
def F.SEC_LOG.entries : Field := ⟨R.SEC_LOG, 0, 11⟩
/-- `SEC_JTAG` (R519 of 18_trust.md). -/
def R.SEC_JTAG : Reg := ⟨0x1, 0x50, 1, 0, 0, 0x0, 0x0, 0x0, 0x4, 0x0, 0x0⟩
def F.SEC_JTAG.tap_denied : Field := ⟨R.SEC_JTAG, 2, 1⟩
def F.SEC_JTAG.state : Field := ⟨R.SEC_JTAG, 0, 2⟩
/-- `ELOG_CTL` (R539 of 19_health_and_errors.md). -/
def R.ELOG_CTL : Reg := ⟨0x5, 0x0, 1, 0, 0, 0x120, 0x3FF30, 0x0, 0x0, 0x1, 0x0⟩
def F.ELOG_CTL.storm_gauge : Field := ⟨R.ELOG_CTL, 12, 6⟩
def F.ELOG_CTL.irq_cores : Field := ⟨R.ELOG_CTL, 8, 4⟩
def F.ELOG_CTL.irq_sev : Field := ⟨R.ELOG_CTL, 4, 2⟩
def F.ELOG_CTL.flush : Field := ⟨R.ELOG_CTL, 0, 1⟩
/-- `ELOG_STATUS` (R539 of 19_health_and_errors.md). -/
def R.ELOG_STATUS : Reg := ⟨0x5, 0x8, 1, 0, 0, 0x0, 0x1FFF, 0x0, 0xE000000000000000, 0x0, 0x0⟩
def F.ELOG_STATUS.first_valid : Field := ⟨R.ELOG_STATUS, 63, 1⟩
def F.ELOG_STATUS.overflowed : Field := ⟨R.ELOG_STATUS, 62, 1⟩
def F.ELOG_STATUS.irq : Field := ⟨R.ELOG_STATUS, 61, 1⟩
def F.ELOG_STATUS.masked_src : Field := ⟨R.ELOG_STATUS, 48, 8⟩
def F.ELOG_STATUS.open : Field := ⟨R.ELOG_STATUS, 32, 7⟩
def F.ELOG_STATUS.head : Field := ⟨R.ELOG_STATUS, 16, 13⟩
def F.ELOG_STATUS.tail : Field := ⟨R.ELOG_STATUS, 0, 13⟩
/-- `ELOG_COUNTS` (R539 of 19_health_and_errors.md). -/
def R.ELOG_COUNTS : Reg := ⟨0x5, 0x10, 1, 0, 0, 0x0, 0x0, 0x0, 0x0, 0x0, 0xFFFFFFFFFFFFFFFF⟩
def F.ELOG_COUNTS.overflow : Field := ⟨R.ELOG_COUNTS, 32, 32⟩
def F.ELOG_COUNTS.dropped : Field := ⟨R.ELOG_COUNTS, 24, 8⟩
def F.ELOG_COUNTS.masked : Field := ⟨R.ELOG_COUNTS, 0, 24⟩
/-- `ELOG_FIRSTi` (R539 of 19_health_and_errors.md). -/
def R.ELOG_FIRST : Reg := ⟨0x5, 0x20, 4, 0, 0, 0x0, 0x0, 0x0, 0x0, 0x0, 0x0⟩
def F.ELOG_FIRST.entry : Field := ⟨R.ELOG_FIRST, 0, 64⟩
/-- `ELOG_LATESTi` (R539 of 19_health_and_errors.md). -/
def R.ELOG_LATEST : Reg := ⟨0x5, 0x40, 4, 0, 0, 0x0, 0x0, 0x0, 0x0, 0x0, 0x0⟩
def F.ELOG_LATEST.entry : Field := ⟨R.ELOG_LATEST, 0, 64⟩
/-- `ELOG_SUMi` (R539 of 19_health_and_errors.md). -/
def R.ELOG_SUM : Reg := ⟨0x5, 0x100, 16, 0, 0, 0x0, 0x0, 0x0, 0x1F, 0x0, 0xFFFFFFFF00000000⟩
def F.ELOG_SUM.reports : Field := ⟨R.ELOG_SUM, 32, 32⟩
def F.ELOG_SUM.last_inst : Field := ⟨R.ELOG_SUM, 20, 12⟩
def F.ELOG_SUM.storm : Field := ⟨R.ELOG_SUM, 4, 1⟩
def F.ELOG_SUM.sev : Field := ⟨R.ELOG_SUM, 0, 4⟩
/-- `GAUGE_CFG` (R541 of 19_health_and_errors.md). -/
def R.GAUGE_CFG : Reg := ⟨0x6, 0x0, 1, 0, 63, 0x0, 0x1FFFFFF, 0x0, 0x0, 0x0, 0x0⟩
def F.GAUGE_CFG.decim : Field := ⟨R.GAUGE_CFG, 21, 4⟩
def F.GAUGE_CFG.inst : Field := ⟨R.GAUGE_CFG, 9, 12⟩
def F.GAUGE_CFG.source : Field := ⟨R.GAUGE_CFG, 1, 8⟩
def F.GAUGE_CFG.enable : Field := ⟨R.GAUGE_CFG, 0, 1⟩
/-- `GAUGE_PERIOD` (R541 of 19_health_and_errors.md). -/
def R.GAUGE_PERIOD : Reg := ⟨0x6, 0x8, 1, 0, 63, 0x3B9ACA00, 0xFFFFFFFFFFFF, 0x0, 0x0, 0x0, 0x0⟩
def F.GAUGE_PERIOD.length : Field := ⟨R.GAUGE_PERIOD, 0, 48⟩
/-- `GAUGE_STATUS` (R541 of 19_health_and_errors.md). -/
def R.GAUGE_STATUS : Reg := ⟨0x6, 0x10, 1, 0, 63, 0x0, 0x0, 0x0, 0x8, 0x0, 0x0⟩
def F.GAUGE_STATUS.seq : Field := ⟨R.GAUGE_STATUS, 48, 16⟩
def F.GAUGE_STATUS.src_now : Field := ⟨R.GAUGE_STATUS, 8, 20⟩
def F.GAUGE_STATUS.bad_cfg : Field := ⟨R.GAUGE_STATUS, 3, 1⟩
def F.GAUGE_STATUS.partial : Field := ⟨R.GAUGE_STATUS, 2, 1⟩
def F.GAUGE_STATUS.stepped : Field := ⟨R.GAUGE_STATUS, 1, 1⟩
def F.GAUGE_STATUS.live : Field := ⟨R.GAUGE_STATUS, 0, 1⟩
/-- `GAUGE_MINMAX` (R541 of 19_health_and_errors.md). -/
def R.GAUGE_MINMAX : Reg := ⟨0x6, 0x18, 1, 0, 63, 0xFFFFFFFF, 0x0, 0x0, 0x0, 0x0, 0x0⟩
def F.GAUGE_MINMAX.max : Field := ⟨R.GAUGE_MINMAX, 32, 32⟩
def F.GAUGE_MINMAX.min : Field := ⟨R.GAUGE_MINMAX, 0, 32⟩
/-- `GAUGE_COUNT` (R541 of 19_health_and_errors.md). -/
def R.GAUGE_COUNT : Reg := ⟨0x6, 0x20, 1, 0, 63, 0x0, 0x0, 0x0, 0x0, 0x0, 0x0⟩
def F.GAUGE_COUNT.late : Field := ⟨R.GAUGE_COUNT, 32, 32⟩
def F.GAUGE_COUNT.count : Field := ⟨R.GAUGE_COUNT, 0, 32⟩
/-- `GAUGE_SUM` (R541 of 19_health_and_errors.md). -/
def R.GAUGE_SUM : Reg := ⟨0x6, 0x28, 1, 0, 63, 0x0, 0x0, 0x0, 0x0, 0x0, 0x0⟩
def F.GAUGE_SUM.sum : Field := ⟨R.GAUGE_SUM, 0, 64⟩
/-- `GAUGE_START` (R541 of 19_health_and_errors.md). -/
def R.GAUGE_START : Reg := ⟨0x6, 0x30, 1, 0, 63, 0x0, 0x0, 0x0, 0x0, 0x0, 0x0⟩
def F.GAUGE_START.btime : Field := ⟨R.GAUGE_START, 0, 64⟩
/-- `GAUGE_END` (R541 of 19_health_and_errors.md). -/
def R.GAUGE_END : Reg := ⟨0x6, 0x38, 1, 0, 63, 0x0, 0x0, 0x0, 0x0, 0x0, 0x0⟩
def F.GAUGE_END.btime : Field := ⟨R.GAUGE_END, 0, 64⟩
/-- `GAUGE_HISTi` (R541 of 19_health_and_errors.md). -/
def R.GAUGE_HIST : Reg := ⟨0x6, 0x100, 16, 0, 63, 0x0, 0x0, 0x0, 0x0, 0x0, 0x0⟩
def F.GAUGE_HIST.bin_hi : Field := ⟨R.GAUGE_HIST, 32, 32⟩
def F.GAUGE_HIST.bin_lo : Field := ⟨R.GAUGE_HIST, 0, 32⟩
/-- `PIN_STATUS` (R560 of 20_pins_and_electrical.md). -/
def R.PIN_STATUS : Reg := ⟨0x30, 0x0, 1, 0, 0, 0x4, 0x0, 0x0, 0x1, 0x0, 0x0⟩
def F.PIN_STATUS.reset_n : Field := ⟨R.PIN_STATUS, 2, 1⟩
def F.PIN_STATUS.vpm_pg : Field := ⟨R.PIN_STATUS, 1, 1⟩
def F.PIN_STATUS.pg_lost : Field := ⟨R.PIN_STATUS, 0, 1⟩
/-- `PIN_IN` (R560 of 20_pins_and_electrical.md). -/
def R.PIN_IN : Reg := ⟨0x30, 0x8, 1, 0, 0, 0x0, 0x0, 0x0, 0x0, 0x0, 0x0⟩
def F.PIN_IN.active : Field := ⟨R.PIN_IN, 0, 15⟩
/-- `PIN_FAULT` (R560 of 20_pins_and_electrical.md). -/
def R.PIN_FAULT : Reg := ⟨0x30, 0x10, 1, 0, 0, 0x0, 0x0, 0x0, 0x7FFF00007FFF, 0x0, 0x0⟩
def F.PIN_FAULT.stuck : Field := ⟨R.PIN_FAULT, 32, 15⟩
def F.PIN_FAULT.chatter : Field := ⟨R.PIN_FAULT, 0, 15⟩
/-- `PIN_EDGE` (R560 of 20_pins_and_electrical.md). -/
def R.PIN_EDGE : Reg := ⟨0x30, 0x18, 1, 0, 0, 0x0, 0x0, 0x0, 0x7FFF, 0x0, 0x0⟩
def F.PIN_EDGE.edge : Field := ⟨R.PIN_EDGE, 0, 15⟩
/-- `PIN_IRQ_EN` (R560 of 20_pins_and_electrical.md). -/
def R.PIN_IRQ_EN : Reg := ⟨0x30, 0x20, 1, 0, 0, 0x0, 0x7FFF, 0x0, 0x0, 0x0, 0x0⟩
def F.PIN_IRQ_EN.enable : Field := ⟨R.PIN_IRQ_EN, 0, 15⟩
/-- `PIN_GPIO` (R560 of 20_pins_and_electrical.md). -/
def R.PIN_GPIO : Reg := ⟨0x30, 0x28, 1, 0, 0, 0x0, 0xFFFFFF, 0x0, 0x0, 0x0, 0x0⟩
def F.PIN_GPIO.pol : Field := ⟨R.PIN_GPIO, 16, 8⟩
def F.PIN_GPIO.oe : Field := ⟨R.PIN_GPIO, 8, 8⟩
def F.PIN_GPIO.out : Field := ⟨R.PIN_GPIO, 0, 8⟩
/-- `PIN_HOLDi` (R560 of 20_pins_and_electrical.md). -/
def R.PIN_HOLD : Reg := ⟨0x30, 0x30, 4, 0, 0, 0x3E803E803E803E8, 0xFFFFFFFFFFFFFFFF, 0x0, 0x0, 0x0, 0x0⟩
def F.PIN_HOLD.hold (i : Nat) : Field := ⟨R.PIN_HOLD, 0 + 16 * i, 16⟩

/-- The registers of class 0x0. -/
def regsClass00 : List Reg := [R.AON_BLOCK_ID, R.AON_STATUS, R.AON_BOOT, R.AON_RESET, R.AON_ENG_RST0, R.AON_ENG_RST1, R.AON_ENG_FAIL0, R.AON_ENG_FAIL1, R.AON_WDOG, R.AON_MEMO, R.AON_LEDGER, R.AON_LEDGER_LOC, R.AON_REPAIR]
/-- The registers of class 0x1. -/
def regsClass01 : List Reg := [R.SEC_STATUS, R.SEC_CMD, R.SEC_ARG, R.SEC_NONCE, R.SEC_SVN, R.SEC_OWNER, R.SEC_LOG, R.SEC_JTAG]
/-- The registers of class 0x2. -/
def regsClass02 : List Reg := [R.PWR_CTL, R.PWR_STATUS, R.PWR_CAP, R.PWR_CEIL, R.PWR_ENERGY, R.PWR_TEL, R.PWR_HINT, R.PWR_PMB, R.PWR_RG_CTL, R.PWR_RG_STATUS, R.PWR_RG_CEIL, R.PWR_RG_VMIN, R.PWR_RG_VMIN_T, R.PWR_RG_DROOP, R.PWR_VM_FAIL, R.PWR_VM_STATE, R.PWR_FL_FAIL]
/-- The registers of class 0x3. -/
def regsClass03 : List Reg := [R.THM_STATUS, R.THM_STEP, R.THM_LIM_COMP, R.THM_LIM_MEM, R.THM_LIM_OTHER, R.THM_COOLANT, R.THM_COOL_CFG, R.THM_EXT0, R.THM_EXT1, R.THM_TRIP, R.THM_TRIP_T, R.THM_LEVEL, R.THM_SUSPECT, R.THM_BROKEN, R.THM_DIODE, R.THM_NODE]
/-- The registers of class 0x4. -/
def regsClass04 : List Reg := [R.CLK_STATUS, R.CLK_STEP, R.CLK_BTIME, R.CLK_BTIME_ADJ, R.CLK_BTIME_STEP, R.CLK_PLL, R.CLK_CANARY]
/-- The registers of class 0x5. -/
def regsClass05 : List Reg := [R.ELOG_CTL, R.ELOG_STATUS, R.ELOG_COUNTS, R.ELOG_FIRST, R.ELOG_LATEST, R.ELOG_SUM]
/-- The registers of class 0x6. -/
def regsClass06 : List Reg := [R.GAUGE_CFG, R.GAUGE_PERIOD, R.GAUGE_STATUS, R.GAUGE_MINMAX, R.GAUGE_COUNT, R.GAUGE_SUM, R.GAUGE_START, R.GAUGE_END, R.GAUGE_HIST]
/-- The registers of class 0x10. -/
def regsClass10 : List Reg := [R.ENG_CTL, R.ENG_STATUS, R.ENG_FAULT, R.ENG_CTX_ADDR, R.ENG_PGSRC, R.ENG_EPOCH, R.ENG_ARG, R.ENG_PGCMD]
/-- The registers of class 0x11. -/
def regsClass11 : List Reg := [R.SQ_CTL, R.SQ_STATUS, R.SQ_FLUSH, R.SQ_REFETCH, R.SQ_POISON, R.SQ_ERR_LOC]
/-- The registers of class 0x12. -/
def regsClass12 : List Reg := [R.AV_STATUS, R.AV_MODE, R.AV_MODE_NEXT, R.AV_EPOCH, R.AV_DISCARD, R.AV_XW_TAP, R.AV_XW_MARGIN, R.AV_BAR_CFG, R.AV_FLAG_SET, R.AV_FLAG_CLR, R.AV_FLAG_HOME, R.AV_EPOCH_COMMIT, R.AV_EPOCH_STATUS, R.AV_APPLIED]
/-- The registers of class 0x13. -/
def regsClass13 : List Reg := [R.LND_STATUS, R.LND_SCRUB, R.LND_CE_COUNT, R.LND_UE_COUNT, R.LND_POISON, R.LND_ERR_ADDR, R.LND_REFRESH, R.LND_ROW_LIMIT]
/-- The registers of class 0x14. -/
def regsClass14 : List Reg := [R.BAU_STATUS, R.BAU_MODE, R.BAU_MODE_NEXT, R.BAU_EPOCH, R.BAU_ERR, R.BAU_COUNTS]
/-- The registers of class 0x20. -/
def regsClass20 : List Reg := [R.PL_CTL, R.PL_STATUS, R.PL_LANES, R.PL_FEC_COUNT, R.PL_RETRY, R.PL_EPOCH, R.PL_ROUTE, R.PL_ROUTE_NEXT, R.PL_EXPRESS, R.PL_TWIN_WIN, R.PL_TOPO, R.PL_TIME, R.PL_LOST]
/-- The registers of class 0x21. -/
def regsClass21 : List Reg := [R.TOLL_CFG, R.TOLL_RATE, R.TOLL_CEIL, R.TOLL_COUNT, R.TOLL_FIRST]
/-- The registers of class 0x22. -/
def regsClass22 : List Reg := [R.FR_CTL, R.FR_STATUS, R.FR_MAC, R.FR_IP_HI, R.FR_IP_LO, R.FR_UDP, R.FR_RXRING, R.FR_TXRING, R.FR_RXPTR, R.FR_TXPTR, R.FR_TXCAP, R.FR_TXCEIL, R.FR_COUNT, R.FR_DROP, R.FR_FEC]
/-- The registers of class 0x30. -/
def regsClass30 : List Reg := [R.PIN_STATUS, R.PIN_IN, R.PIN_FAULT, R.PIN_EDGE, R.PIN_IRQ_EN, R.PIN_GPIO, R.PIN_HOLD]

/-- The registers of a unit class (R36). -/
def regsOfClass (c : Nat) : List Reg :=
  match c with
  | 0x0 => regsClass00
  | 0x1 => regsClass01
  | 0x2 => regsClass02
  | 0x3 => regsClass03
  | 0x4 => regsClass04
  | 0x5 => regsClass05
  | 0x6 => regsClass06
  | 0x10 => regsClass10
  | 0x11 => regsClass11
  | 0x12 => regsClass12
  | 0x13 => regsClass13
  | 0x14 => regsClass14
  | 0x20 => regsClass20
  | 0x21 => regsClass21
  | 0x22 => regsClass22
  | 0x30 => regsClass30
  | _ => []

/-- The register at an offset of an instance, with its index in its array. -/
def findReg (inst off : Nat) : List Reg → Option (Reg × Nat)
  | [] => none
  | r :: rs =>
    if r.instLo ≤ inst ∧ inst ≤ r.instHi ∧ r.off ≤ off ∧ off < r.off + 8 * r.count ∧ (off - r.off) % 8 = 0
    then some (r, (off - r.off) / 8) else findReg inst off rs

/-- The register that a control-space offset selects, with its instance and index (R36; none: R12, unassigned). -/
def regAt (key : Nat) : Option (Reg × Nat × Nat) :=
  let inst := key / 0x1000 % 0x1000
  (findReg inst (key % 0x1000) (regsOfClass (key / 0x1000000))).map fun p => (p.1, inst, p.2)

/-- The reset word of a register at an instance and index, where the spec gives several: `AV_APPLIED3` (R338), `TOLL_RATE` and
`TOLL_CEIL` on PL6 (R376), the square regions of the power unit (R432), `PIN_HOLD1` (R560). -/
def resetWord (r : Reg) (inst idx : Nat) : Nat :=
  if r = R.AV_APPLIED then (if idx = 3 then 0xFFFF else r.reset)
  else if r = R.TOLL_RATE then (if inst = 6 then 0x4B40008B40B40 else r.reset)
  else if r = R.TOLL_CEIL then (if inst = 6 then 0x4B40008B40B40 else r.reset)
  else if r = R.PWR_RG_CTL then (if 81 ≤ inst then 0x3E800 else r.reset)
  else if r = R.PWR_RG_STATUS then (if 81 ≤ inst then 0x8000000 else r.reset)
  else if r = R.PWR_RG_CEIL then (if 81 ≤ inst then 0xF0 else r.reset)
  else if r = R.PIN_HOLD then (if idx = 1 then 0x3E8000000003E8 else if idx = 3 then 0x3E803E803E8 else r.reset)
  else r.reset

/-- What a register that the register file does not list reads as: its reset value (R13: an unassigned offset reads zero). -/
def regReset (key : Nat) : Word :=
  match regAt key with
  | some (r, inst, idx) => BitVec.ofNat 64 (resetWord r inst idx)
  | none => 0#64

end Sys2Proof.Machine
end

