-- ==== Sys2Proof/Machine/Num.lean ====
section
/-! DEFINITION. Exact numbers with infinities and NaN, and the stored number formats, their rounding and block scales (R39-R63, R66, R67). -/
namespace Sys2Proof

/-- An exact rational number in lowest terms, denominator positive. -/
structure Q where
  num : Int
  den : Nat
  deriving DecidableEq, Repr

namespace Q

/-- Bring to lowest terms; a zero denominator, which never occurs, gives 0. -/
def norm (n : Int) (d : Nat) : Q :=
  let g := Nat.gcd n.natAbs d
  if d = 0 then ⟨0, 1⟩ else ⟨n / (g : Int), d / g⟩

def zero : Q := ⟨0, 1⟩
def one : Q := ⟨1, 1⟩
def ofInt (n : Int) : Q := ⟨n, 1⟩
def ofNat (n : Nat) : Q := ⟨(n : Int), 1⟩
def add (a b : Q) : Q := norm (a.num * b.den + b.num * a.den) (a.den * b.den)
def neg (a : Q) : Q := ⟨-a.num, a.den⟩
def sub (a b : Q) : Q := a.add b.neg
def mul (a b : Q) : Q := norm (a.num * b.num) (a.den * b.den)
/-- The reciprocal; that of 0, which no rule forms, is 0. -/
def inv (a : Q) : Q := if a.num = 0 then zero else if 0 < a.num then ⟨(a.den : Int), a.num.natAbs⟩ else ⟨-(a.den : Int), a.num.natAbs⟩
def div (a b : Q) : Q := a.mul b.inv
def abs (a : Q) : Q := ⟨(a.num.natAbs : Int), a.den⟩
def lt (a b : Q) : Bool := decide (a.num * b.den < b.num * a.den)
def le (a b : Q) : Bool := decide (a.num * b.den ≤ b.num * a.den)
def isZero (a : Q) : Bool := a.num == 0
def isNeg (a : Q) : Bool := decide (a.num < 0)
def max (a b : Q) : Q := if a.le b then b else a
def min (a b : Q) : Q := if a.le b then a else b
/-- A power of two. -/
def pow2 (k : Int) : Q := if 0 ≤ k then ⟨((2 ^ k.toNat : Nat) : Int), 1⟩ else ⟨1, 2 ^ (-k).toNat⟩
/-- Greatest integer not above. -/
def floor (a : Q) : Int := a.num / (a.den : Int)
/-- Least integer not below. -/
def ceil (a : Q) : Int := -((-a.num) / (a.den : Int))

/-- The `k` with 2^k ≤ |a| < 2^(k+1), for a not 0. -/
def log2 (a : Q) : Int :=
  let k : Int := (Nat.log2 a.num.natAbs : Int) - (Nat.log2 a.den : Int)
  if (pow2 (k + 1)).le a.abs then k + 1 else if (pow2 k).le a.abs then k else k - 1

end Q

/-- An exact value, an infinity, or NaN (R45, R61). There is one zero (R59). -/
inductive Val where
  | fin (q : Q)
  | inf (neg : Bool)
  | nan
  deriving DecidableEq, Repr

namespace Val

def zero : Val := .fin Q.zero
def isNan : Val → Bool
  | nan => true
  | _ => false
def isInf : Val → Bool
  | inf _ => true
  | _ => false
def isNeg : Val → Bool
  | fin q => q.isNeg
  | inf s => s
  | nan => false
def isZero : Val → Bool
  | fin q => q.isZero
  | _ => false

/-- Sum (R61). -/
def add : Val → Val → Val
  | fin a, fin b => fin (a.add b)
  | fin _, inf s => inf s
  | inf s, fin _ => inf s
  | inf s, inf t => if s = t then inf s else nan
  | _, _ => nan

def neg : Val → Val
  | fin a => fin a.neg
  | inf s => inf (!s)
  | nan => nan

def sub (a b : Val) : Val := a.add b.neg

/-- Product (R61). -/
def mul : Val → Val → Val
  | fin a, fin b => fin (a.mul b)
  | fin a, inf s => if a.isZero then nan else inf (a.isNeg != s)
  | inf s, fin a => if a.isZero then nan else inf (a.isNeg != s)
  | inf s, inf t => inf (s != t)
  | _, _ => nan

def abs : Val → Val
  | fin a => fin a.abs
  | inf _ => inf false
  | nan => nan

/-- Ordered less-than; false with a NaN (R63). -/
def lt : Val → Val → Bool
  | fin a, fin b => a.lt b
  | fin _, inf s => !s
  | inf s, fin _ => s
  | inf s, inf t => s && !t
  | _, _ => false

def eq : Val → Val → Bool
  | fin a, fin b => a.le b && b.le a
  | inf s, inf t => s == t
  | _, _ => false

def le (a b : Val) : Bool := a.lt b || a.eq b

/-- Maximum; NaN propagates (R62). -/
def max (a b : Val) : Val := if a.isNan || b.isNan then nan else if a.le b then b else a

/-- Minimum; NaN propagates (R62). -/
def min (a b : Val) : Val := if a.isNan || b.isNan then nan else if a.le b then a else b

end Val

/-- The stored formats (R39). -/
inductive Fmt where
  | fp32 | fp16 | bf16 | e4m3 | e5m2 | e3m2 | e2m1 | int8 | int4 | lb8 | lb4 | int32
  deriving DecidableEq, Repr

/-- The format of a 4-bit code; 0xC-0xF are reserved (R39). -/
def Fmt.ofCode : Nat → Option Fmt
  | 0 => some .fp32 | 1 => some .fp16 | 2 => some .bf16 | 3 => some .e4m3 | 4 => some .e5m2 | 5 => some .e3m2
  | 6 => some .e2m1 | 7 => some .int8 | 8 => some .int4 | 9 => some .lb8 | 10 => some .lb4 | 11 => some .int32
  | _ => none

/-- The 4-bit code of a format (R39). -/
def Fmt.code : Fmt → Nat
  | .fp32 => 0 | .fp16 => 1 | .bf16 => 2 | .e4m3 => 3 | .e5m2 => 4 | .e3m2 => 5
  | .e2m1 => 6 | .int8 => 7 | .int4 => 8 | .lb8 => 9 | .lb4 => 10 | .int32 => 11

/-- Element width in bits (R39). -/
def Fmt.width : Fmt → Nat
  | .fp32 => 32 | .fp16 => 16 | .bf16 => 16 | .e4m3 => 8 | .e5m2 => 8 | .e3m2 => 6
  | .e2m1 => 4 | .int8 => 8 | .int4 => 4 | .lb8 => 8 | .lb4 => 4 | .int32 => 32

/-- The two block formats (R42). -/
def Fmt.isBlock : Fmt → Bool
  | .lb8 => true | .lb4 => true | _ => false

/-- Integer elements: two's complement of the element width (R44). -/
def Fmt.isInt : Fmt → Bool
  | .int8 => true | .int4 => true | .int32 => true | _ => false

/-- Rounding modes (R55). -/
inductive Rnd where
  | rna | rne | rtz
  deriving DecidableEq, Repr

/-- A floating layout (R43, R45): exponent bits, fraction bits, bias, whether the top exponent holds infinities and NaN, and
whether the all-ones code alone is NaN (E4M3). -/
structure FSpec where
  ebits : Nat
  mbits : Nat
  bias : Int
  hasInf : Bool
  topNan : Bool
  deriving DecidableEq, Repr

def fsFp32 : FSpec := ⟨8, 23, 127, true, false⟩

/-- The layout of a floating format; LB4 elements are E2M1. -/
def Fmt.spec : Fmt → FSpec
  | .fp32 => fsFp32
  | .fp16 => ⟨5, 10, 15, true, false⟩
  | .bf16 => ⟨8, 7, 127, true, false⟩
  | .e4m3 => ⟨4, 3, 7, false, true⟩
  | .e5m2 => ⟨5, 2, 15, true, false⟩
  | .e3m2 => ⟨3, 2, 3, false, false⟩
  | .e2m1 => ⟨2, 1, 1, false, false⟩
  | .lb4 => ⟨2, 1, 1, false, false⟩
  | _ => fsFp32

/-- The value of a floating encoding (R43, R45, R59). -/
def FSpec.decode (f : FSpec) (bits : Nat) : Val :=
  let m := bits % 2 ^ f.mbits
  let e := bits / 2 ^ f.mbits % 2 ^ f.ebits
  let s := nbit bits (f.ebits + f.mbits)
  let top := 2 ^ f.ebits - 1
  if f.hasInf ∧ e = top then (if m = 0 then .inf s else .nan)
  else if f.topNan ∧ e = top ∧ m = 2 ^ f.mbits - 1 then .nan
  else
    let sig := if e = 0 then m else 2 ^ f.mbits + m
    let x : Int := (if e = 0 then 1 - f.bias else (e : Int) - f.bias) - f.mbits
    let q := (Q.ofNat sig).mul (Q.pow2 x)
    .fin (if s then q.neg else q)

/-- The largest finite encoding, without its sign. -/
def FSpec.maxCode (f : FSpec) : Nat :=
  if f.hasInf then (2 ^ f.ebits - 1) * 2 ^ f.mbits - 1
  else if f.topNan then 2 ^ (f.ebits + f.mbits) - 2 else 2 ^ (f.ebits + f.mbits) - 1

/-- The infinity encoding, without its sign. -/
def FSpec.infCode (f : FSpec) : Nat := (2 ^ f.ebits - 1) * 2 ^ f.mbits

/-- The canonical NaN (R45, R60): quiet NaN, all ones for E4M3, and the largest finite value where there is no NaN. -/
def FSpec.nanCode (f : FSpec) : Nat :=
  if f.hasInf then f.infCode + 2 ^ (f.mbits - 1) else if f.topNan then 2 ^ (f.ebits + f.mbits) - 1 else f.maxCode

/-- A magnitude rounded to a whole number of units (R56, R58). -/
def Q.roundUnits (a : Q) (md : Rnd) : Nat :=
  let n := a.abs.floor.toNat
  let r := a.abs.sub (Q.ofNat n)
  let half : Q := ⟨1, 2⟩
  match md with
  | .rna => if half.le r then n + 1 else n
  | .rne => if half.lt r || (half.le r && r.le half && n % 2 == 1) then n + 1 else n
  | .rtz => n

/-- Round an exact value to a floating destination (R56, R57). -/
def FSpec.round (f : FSpec) (x : Q) (md : Rnd) : Nat :=
  if x.isZero then 0
  else
    let emin : Int := 1 - f.bias
    let k := x.log2
    let q := Max.max k emin - f.mbits
    let n := (x.div (Q.pow2 q)).roundUnits md
    let sgn := if x.isNeg then 2 ^ (f.ebits + f.mbits) else 0
    if n = 0 then 0
    else
      -- n lies in 0 .. 2^p: carry into the next exponent is the sum of the fields
      let code := if n < 2 ^ f.mbits then n else ((q + f.mbits - emin).toNat) * 2 ^ f.mbits + n
      if f.maxCode < code then sgn + (if f.hasInf then f.infCode else f.maxCode) else sgn + code

/-- Write a value in a floating format (R56, R57, R60). -/
def FSpec.encode (f : FSpec) (v : Val) (md : Rnd) : Nat :=
  match v with
  | .fin q => f.round q md
  | .inf s => (if s then 2 ^ (f.ebits + f.mbits) else 0) + (if f.hasInf then f.infCode else f.maxCode)
  | .nan => f.nanCode

/-- Write a value as a two's-complement integer of `w` bits with least value `lo` (R58, R57, R60). -/
def encodeInt (w : Nat) (lo : Int) (v : Val) (md : Rnd) : Nat :=
  let hi : Int := 2 ^ (w - 1) - 1
  match v with
  | .fin q =>
    let n : Int := q.roundUnits md
    let n := if q.isNeg then -n else n
    ofSigned w (Max.max lo (Min.min hi n))
  | .inf s => ofSigned w (if s then lo else hi)
  | .nan => ofSigned w hi

/-- The value of an element as it stands, before any block scale (R43-R46). -/
def Fmt.decode (f : Fmt) (bits : Nat) : Val :=
  match f with
  | .int8 => .fin (Q.ofInt (toSigned 8 bits))
  | .lb8 => .fin (Q.ofInt (toSigned 8 bits))
  | .int4 => .fin (Q.ofInt (toSigned 4 bits))
  | .int32 => .fin (Q.ofInt (toSigned 32 bits))
  | f => f.spec.decode bits

/-- Rounding that a destination takes: RTZ only for integers and LB8 elements, else RNA (R55). -/
def Fmt.rnd (f : Fmt) (rtz : Bool) : Rnd := if rtz && (f.isInt || f == .lb8) then .rtz else .rna

/-- Write a value into a format without a block scale (R55-R60). -/
def Fmt.encode (f : Fmt) (v : Val) (md : Rnd) : Nat :=
  match f with
  | .int8 => encodeInt 8 (-128) v md
  | .lb8 => encodeInt 8 (-127) v md
  | .int4 => encodeInt 4 (-8) v md
  | .int32 => encodeInt 32 (-2147483648) v md
  | f => f.spec.encode v md

/-- FP32 shorthand: decode, and encode under RNA. -/
def ofF32 (bits : Nat) : Val := fsFp32.decode bits
def toF32 (v : Val) : Nat := fsFp32.encode v .rna

/-- One rounding to FP32, as a value (R51). -/
def Val.f32 (v : Val) : Val :=
  match v with
  | .fin q => fsFp32.decode (fsFp32.round q .rna)
  | v => v

/-! ## Block scales -/

/-- The value of a U5M3 scale (R47). -/
def u5m3 (c : Nat) : Val :=
  let e := c / 8 % 32
  let f := c % 8
  if c % 256 = 255 then .nan
  else if e = 0 then .fin ((Q.ofNat f).mul (Q.pow2 (-17)))
  else .fin ((Q.ofNat (8 + f)).mul (Q.pow2 ((e : Int) - 18)))

/-- The value of an LB8 scale byte (R46). -/
def lb8Scale (t : Nat) : Val := if t % 256 = 255 then .nan else .fin (Q.pow2 ((t % 256 : Nat) - 127 : Int))

/-- The value of an element under its block scale (R46, R47). A NaN scale makes every element NaN; a zero scale makes it zero. -/
def Fmt.decodeScaled (f : Fmt) (bits scale : Nat) : Val :=
  match f with
  | .lb8 => (lb8Scale scale).mul (f.decode bits)
  | .lb4 => (u5m3 scale).mul (f.decode bits)
  | f => f.decode bits

/-- The largest magnitude of a block of values, none of them NaN. -/
def blockMax (l : List Val) : Val := l.foldl (fun m v => Val.max m v.abs) Val.zero

/-- The smallest scale byte with m ≤ 127·2^(t−127), or 254 (R66). -/
def lb8ScaleFor (m : Val) : Nat :=
  match m with
  | .fin q =>
    if q.isZero then 0
    else
      let k := (q.div (Q.ofNat 127)).log2
      let t := if q.le ((Q.ofNat 127).mul (Q.pow2 k)) then k + 127 else k + 128
      if t < 0 then 0 else Min.min t.toNat 254
  | _ => 254

/-- The scale and elements of an LB8 block (R66). -/
def encodeLb8 (l : List Val) (md : Rnd) : Nat × List Nat :=
  if l.any Val.isNan then (255, l.map fun _ => 0)
  else
    let t := lb8ScaleFor (blockMax l)
    (t, l.map fun v => Fmt.lb8.encode (v.mul (.fin (Q.pow2 (127 - (t : Int))))) md)

/-- The smallest positive finite U5M3 code whose value is not below a positive `x`, at most 0xFE and at least 0x01 (R67). -/
def u5m3Above (x : Q) : Nat :=
  let k := Max.max x.log2 (-14)
  let n := (x.div (Q.pow2 (k - 3))).ceil.toNat
  let code := if n < 8 then n else ((k + 14).toNat) * 8 + n
  if code = 0 then 1 else Min.min code 254

/-- The scale and elements of an LB4 block (R67). -/
def encodeLb4 (l : List Val) : Nat × List Nat :=
  if l.any Val.isNan then (255, l.map fun _ => 0)
  else
    match blockMax l with
    | .fin m =>
      if m.isZero then (0, l.map fun _ => 0)
      else
        let c := u5m3Above (m.div (Q.ofNat 6))
        match u5m3 c with
        | .fin s => (c, l.map fun v => Fmt.lb4.encode (v.mul (.fin s.inv)) .rna)
        | _ => (c, l.map fun _ => 0)
    | _ => (254, l.map fun v => Fmt.lb4.encode (v.mul (.fin (Q.ofNat 114688).inv)) .rna)

/-! ## The D13 form (R48, R49) and the split of FP32 (R52) -/

/-- The D13 word of an exactly representable value (R48). -/
def Val.d13 : Val → Nat
  | .nan => 0x1FFC00
  | .inf s => (if s then 2 ^ 21 else 0) + 0x1FF800
  | .fin q =>
    if q.isZero then 0
    else
      let k := q.log2
      (if q.isNeg then 2 ^ 21 else 0) + (k + 255).toNat * 2 ^ 12 + (q.abs.div (Q.pow2 (k - 11))).floor.toNat

/-- a_hi: the value rounded to 12 significant bits (R52). -/
def Val.hi : Val → Val
  | .fin q =>
    if q.isZero then Val.zero
    else
      let u := Q.pow2 (q.log2 - 11)
      let r := (Q.ofNat ((q.div u).roundUnits .rna)).mul u
      .fin (if q.isNeg then r.neg else r)
  | v => v

/-- a_lo: the exact remainder; zero for an infinity or NaN (R52). -/
def Val.lo (v : Val) : Val :=
  match v with
  | .fin _ => v.sub v.hi
  | _ => Val.zero

end Sys2Proof
end

