-- ==== Sys2Proof/Machine/Approx.lean ====
section
/-! DEFINITION. The real functions that the spec names (exponential, logarithm, hyperbolic tangent, error function, sine, cosine, roots),
as rational approximations that lie strictly on the true side of every representable value and far inside every rounding
interval (R188, R189, R227, R239; log entry 12). Fixed-point integers carry `P` fraction bits. -/
namespace Sys2Proof.Approx

/-- An interval of fixed-point integers with `P` fraction bits. -/
structure IV where
  lo : Int
  hi : Int
  deriving DecidableEq, Repr

/-- Quotient rounded down and up by 2^P. -/
def dn (P : Nat) (x : Int) : Int := x / ((2 ^ P : Nat) : Int)
def up (P : Nat) (x : Int) : Int := -((-x) / ((2 ^ P : Nat) : Int))

def IV.add (a b : IV) : IV := ⟨a.lo + b.lo, a.hi + b.hi⟩
def IV.sub (a b : IV) : IV := ⟨a.lo - b.hi, a.hi - b.lo⟩
def IV.mul (P : Nat) (a b : IV) : IV :=
  let p := a.lo * b.lo
  let q := a.lo * b.hi
  let r := a.hi * b.lo
  let s := a.hi * b.hi
  ⟨dn P (min (min p q) (min r s)), up P (max (max p q) (max r s))⟩
/-- Divide by a positive whole number. -/
def IV.divN (a : IV) (n : Nat) : IV := ⟨a.lo / (n : Int), -((-a.hi) / (n : Int))⟩
def IV.widen (a : IV) : IV := ⟨a.lo - 1, a.hi + 1⟩
def IV.ofQ (P : Nat) (q : Q) : IV :=
  let s := q.mul (Q.pow2 P)
  ⟨s.floor, s.ceil⟩
def IV.one (P : Nat) : IV := ⟨((2 ^ P : Nat) : Int), ((2 ^ P : Nat) : Int)⟩

/-- An interval of rationals. -/
structure QI where
  lo : Q
  hi : Q
  deriving DecidableEq, Repr

def IV.toQI (P : Nat) (a : IV) (k : Int) : QI := ⟨(Q.ofInt a.lo).mul (Q.pow2 (k - P)), (Q.ofInt a.hi).mul (Q.pow2 (k - P))⟩
def QI.mid (a : QI) : Q := (a.lo.add a.hi).mul ⟨1, 2⟩
def QI.map1 (f : Q → Q) (a : QI) : QI := ⟨f a.lo, f a.hi⟩

/-- Fraction bits of the working precision. -/
def prec : Nat := 640

/-- 2·atanh(1/n) = 2·Σ 1/((2i+1)·n^(2i+1)), by terms. -/
def atanhInv (P n : Nat) : IV :=
  let one : Int := ((2 ^ P : Nat) : Int)
  let s := (List.range (P / 2 + 8)).foldl (fun (p : Int × Int) i => (p.1 + p.2 / ((2 * i + 1 : Nat) : Int), p.2 / ((n * n : Nat) : Int)))
    (0, one / (n : Int))
  ⟨2 * s.1, 2 * s.1 + 4 * (P : Int) + 64⟩

/-- ln 2 = 2·atanh(1/3). -/
def ln2 (P : Nat) : IV := atanhInv P 3

/-- atan(1/n) by its alternating series. -/
def atanInv (P n : Nat) : IV :=
  let one : Int := ((2 ^ P : Nat) : Int)
  let s := (List.range (P / 4 + 8)).foldl (fun (p : Int × Int) i => (p.1 + p.2 / ((2 * i + 1 : Nat) : Int), -(p.2 / ((n * n : Nat) : Int))))
    (0, one / (n : Int))
  ⟨s.1 - (P : Int) - 64, s.1 + (P : Int) + 64⟩

/-- π = 16·atan(1/5) − 4·atan(1/239). -/
def pi (P : Nat) : IV :=
  let a := atanInv P 5
  let b := atanInv P 239
  ⟨16 * a.lo - 4 * b.hi, 16 * a.hi - 4 * b.lo⟩

/-- Taylor sum of e^x for |x| ≤ 2^-8. -/
def expTaylor (P : Nat) (x : IV) : IV :=
  let r := (List.range (P / 8 + 8)).foldl (fun (p : IV × IV) i => (p.1.add p.2, (p.2.mul P x).divN (i + 1))) (⟨0, 0⟩, IV.one P)
  r.1.widen

/-- Square `n` times. -/
def sqN (P : Nat) : Nat → IV → IV
  | 0, x => x
  | n + 1, x => sqN P n (x.mul P x)

/-- e^u. Beyond ±3,000 a bound suffices: it lies outside every format. -/
def exp (u : Q) : QI :=
  if (Q.ofNat 3000).le u then ⟨Q.pow2 4000, Q.pow2 4001⟩
  else if u.le (Q.ofInt (-3000)) then ⟨Q.pow2 (-4001), Q.pow2 (-4000)⟩
  else
    let k := ((u.mul ⟨14427, 10000⟩).add ⟨1, 2⟩).floor
    let P := prec
    let l := ln2 P
    let kl : IV := if 0 ≤ k then ⟨k * l.lo, k * l.hi⟩ else ⟨k * l.hi, k * l.lo⟩
    let r := (IV.ofQ P u).sub kl
    let x := expTaylor P (r.divN 256)
    (sqN P 8 x).toQI P k

/-- e^x over an interval. -/
def expI (x : QI) : QI := ⟨(exp x.lo).lo, (exp x.hi).hi⟩

/-- ln of a positive rational. -/
def ln (x : Q) : QI :=
  let e := x.log2
  let m := x.mul (Q.pow2 (-e))
  let P := prec
  let z := IV.ofQ P ((m.sub Q.one).div (m.add Q.one))
  let z2 := z.mul P z
  let r := (List.range (P / 3 + 8)).foldl (fun (p : IV × IV) i => (p.1.add (p.2.divN (2 * i + 1)), p.2.mul P z2)) (⟨0, 0⟩, z)
  let l := ln2 P
  let kl : IV := if 0 ≤ e then ⟨e * l.lo, e * l.hi⟩ else ⟨e * l.hi, e * l.lo⟩
  ((IV.add ⟨2 * r.1.lo, 2 * r.1.hi⟩ kl).widen).toQI P 0

/-- ln (1 + x) for a positive small x, with relative precision. -/
def ln1p (x : Q) : QI :=
  let z := x.div (x.add (Q.ofNat 2))
  let P := prec
  let w := IV.ofQ P (z.mul z)
  -- Σ z^(2i)/(2i+1), then times 2z
  let r := (List.range (P / 3 + 8)).foldl (fun (p : IV × IV) i => (p.1.add (p.2.divN (2 * i + 1)), p.2.mul P w)) (⟨0, 0⟩, IV.one P)
  let s := r.1.widen.toQI P 0
  let k := (Q.ofNat 2).mul z
  ⟨s.lo.mul k, s.hi.mul k⟩

/-- Floor of the square root, bit by bit. -/
def isqrt (n : Nat) : Nat :=
  (List.range (Nat.log2 n / 2 + 1)).foldr (fun i r => if (r + 2 ^ i) * (r + 2 ^ i) ≤ n then r + 2 ^ i else r) 0

/-- √x of a non-negative rational: exact where it is rational, else within 2^-P relative. -/
def sqrtAt (P : Nat) (x : Q) : Q :=
  if x.isZero then Q.zero
  else
    let n := x.num.natAbs
    let rn := isqrt n
    let rd := isqrt x.den
    if rn * rn = n ∧ rd * rd = x.den then Q.norm (rn : Int) rd
    else
      let e := x.log2 / 2
      let y := x.mul (Q.pow2 (2 * ((P : Int) - e)))
      let f := isqrt y.floor.toNat
      -- strictly between f and f + 1
      ((Q.ofNat f).add ⟨1, 2⟩).mul (Q.pow2 (e - P))

/-- √x at the working precision. -/
def sqrt (x : Q) : Q := sqrtAt prec x

/-- 2/√π as an interval. -/
def twoOverSqrtPi (P : Nat) : QI :=
  let p := (pi P).toQI P 0
  ⟨(Q.ofNat 2).div (sqrtAt P p.hi), (Q.ofNat 2).div (sqrtAt P p.lo)⟩

/-- Σ (−1)^n x^(2n) / (n!·(2n+1)) by terms. -/
def erfSeries (P N : Nat) (w : IV) : IV :=
  let r := (List.range N).foldl (fun (p : IV × IV) i =>
    (if i % 2 = 0 then p.1.add (p.2.divN (2 * i + 1)) else p.1.sub (p.2.divN (2 * i + 1)), (p.2.mul P w).divN (i + 1))) (⟨0, 0⟩, IV.one P)
  r.1.widen

/-- erf x; beyond ±24 a bound suffices. -/
def erf (x : Q) : Q :=
  if (Q.ofNat 24).lt x then Q.one.sub (Q.pow2 (-800))
  else if x.lt (Q.ofInt (-24)) then (Q.pow2 (-800)).sub Q.one
  else
    let big := (Q.ofNat 6).lt x.abs
    let P := if big then 1700 else prec
    let s := (erfSeries P (if big then 2400 else 400) (IV.ofQ P (x.mul x))).toQI P 0
    (s.mid.mul x).mul (twoOverSqrtPi P).mid

/-- 1 + erf x, with relative precision for negative x; beyond 24 the distance from 0 or from 2 is below every format. -/
def erfc1 (x : Q) : Q :=
  if x.lt (Q.ofInt (-24)) then Q.pow2 (-900)
  else if (Q.ofInt 24).lt x then (Q.ofInt 2).sub (Q.pow2 (-900))
  else
    let big := (Q.ofNat 6).lt x.abs
    let P := if big then 1700 else prec
    let s := (erfSeries P (if big then 2400 else 400) (IV.ofQ P (x.mul x))).toQI P 0
    Q.one.add ((s.mid.mul x).mul (twoOverSqrtPi P).mid)

/-- Taylor sums of sine and cosine for |r| ≤ 1. -/
def sinT (P : Nat) (r : IV) : IV :=
  let w := r.mul P r
  let s := (List.range (P / 8 + 8)).foldl (fun (p : IV × IV) i =>
    (if i % 2 = 0 then p.1.add p.2 else p.1.sub p.2, (p.2.mul P w).divN ((2 * i + 2) * (2 * i + 3)))) (⟨0, 0⟩, r)
  s.1.widen
def cosT (P : Nat) (r : IV) : IV :=
  let w := r.mul P r
  let s := (List.range (P / 8 + 8)).foldl (fun (p : IV × IV) i =>
    (if i % 2 = 0 then p.1.add p.2 else p.1.sub p.2, (p.2.mul P w).divN ((2 * i + 1) * (2 * i + 2)))) (⟨0, 0⟩, IV.one P)
  s.1.widen

/-- sin u (shift 0) or cos u (shift 1), the argument reduced by quarter turns of π held to `prec` + 200 bits (R188). -/
def sinCos (u : Q) (shift : Int) : Q :=
  let P := prec + 200
  let p := pi P
  let half : Q := ((p.toQI P 0).mid).mul ⟨1, 2⟩
  let k := ((u.div half).add ⟨1, 2⟩).floor
  let kp : IV := if 0 ≤ k then ⟨k * p.lo, k * p.hi⟩ else ⟨k * p.hi, k * p.lo⟩
  let r := (IV.ofQ P u).sub (kp.divN 2)
  match ((k + shift) % 4).toNat with
  | 0 => ((sinT P r).toQI P 0).mid
  | 1 => ((cosT P r).toQI P 0).mid
  | 2 => ((sinT P r).toQI P 0).mid.neg
  | _ => ((cosT P r).toQI P 0).mid.neg

/-- 1/(1 + e^−x) from an interval of x. -/
def sigmoidI (x : QI) : Q :=
  let e := (expI ⟨x.hi.neg, x.lo.neg⟩).mid
  (Q.one.add e).inv

/-- tanh u = (1 − e^−2u)/(1 + e^−2u). -/
def tanh (u : Q) : Q :=
  let e := (exp (u.mul (Q.ofInt (-2)))).mid
  (Q.one.sub e).div (Q.one.add e)

end Sys2Proof.Approx
end

