-- ==== Sys2Proof/Machine/Operands.lean ====
section
/-! DEFINITION. The operand forms of engine instructions: tensor descriptors, rows in walk order, element packing, scale entries, and
bounding ranges (R41, R42, R70, R71, R111, R115-R118, R153, R162, R163). -/
namespace Sys2Proof.Machine

/-- A tensor descriptor taken apart (R115): sizes are element counts, strides signed bytes. -/
structure Desc where
  base : Nat
  fmtCode : Nat
  rank : Nat
  scaleT : Nat
  blk0 : Nat
  n0 : Nat
  n1 : Nat
  n2 : Nat
  n3 : Nat
  st1 : Int
  st2 : Int
  st3 : Int
  deriving DecidableEq, Repr

/-- Take a descriptor apart. Strides of dimensions at or above rank + 1 are ignored (R116). -/
def Desc.of (t : TDesc) : Desc :=
  let w := t.toNat
  let rank := nbits w 69 68
  { base := nbits w 63 0, fmtCode := nbits w 67 64, rank := rank, scaleT := nbits w 75 70, blk0 := nbits w 79 76
    n0 := nbits w 99 80 + 1, n1 := nbits w 119 100 + 1, n2 := nbits w 139 120 + 1, n3 := nbits w 159 140 + 1
    st1 := if 1 ≤ rank then toSigned 32 (nbits w 191 160) else 0
    st2 := if 2 ≤ rank then toSigned 32 (nbits w 223 192) else 0
    st3 := if 3 ≤ rank then toSigned 32 (nbits w 255 224) else 0 }

/-- The format a descriptor names. -/
def Desc.fmt (d : Desc) : Option Fmt := Fmt.ofCode d.fmtCode

/-- No size above the rank (R116, R118). -/
def Desc.sizesOk (d : Desc) : Bool := (1 ≤ d.rank || d.n1 == 1) && (2 ≤ d.rank || d.n2 == 1) && (3 ≤ d.rank || d.n3 == 1)

/-- Rows of the tensor. -/
def Desc.rows (d : Desc) : Nat := d.n1 * d.n2 * d.n3

/-- An address plus a signed distance, modulo 2^64. -/
def addrAdd (a : Nat) (x : Int) : Nat := (((a : Int) + x) % ((2 ^ 64 : Nat) : Int)).toNat

/-- Address of row (i1, i2, i3) (R116). -/
def Desc.rowAddr (d : Desc) (i1 i2 i3 : Nat) : Nat := addrAdd d.base (i1 * d.st1 + i2 * d.st2 + i3 * d.st3)

/-- The row of a walk position (R153): dimension 1 varies fastest. -/
def Desc.rowAt (d : Desc) (r : Nat) : Nat := d.rowAddr (r % d.n1) (r / d.n1 % d.n2) (r / (d.n1 * d.n2))

/-- Blocks or groups of 32 elements in a row (R42). -/
def blocksOf (n0 : Nat) : Nat := ceilDiv n0 32

/-- Bytes of a row of `n0` elements (R41, R42, R235): block formats and KV forms fill their last block. -/
def rowBytes (f : Fmt) (grouped : Bool) (n0 : Nat) : Nat :=
  if f.isBlock || grouped then blocksOf n0 * (32 * f.width / 8)
  else match f with
    | .e3m2 => 3 * ceilDiv n0 4
    | _ => ceilDiv (n0 * f.width) 8

/-- Elements of a row from its bytes (R41). -/
def unpackRow (f : Fmt) (n0 : Nat) (b : List Byte) : List Nat :=
  let x := leNat b
  (List.range n0).map fun i => getB x (i * f.width) f.width
where
  getB (x lo w : Nat) : Nat := x / 2 ^ lo % 2 ^ w

/-- The bytes of a row from its elements; unused bit positions are zero (R41). -/
def packRow (f : Fmt) (grouped : Bool) (n0 : Nat) (l : List Nat) : List Byte :=
  leBytes (rowBytes f grouped n0) (l.foldr (fun e acc => e % 2 ^ f.width + acc * 2 ^ f.width) 0)

/-- Split a list into pieces of `k`. The fuel is the length of the list. -/
def chunksOf {α : Type} (k : Nat) (fuel : Nat) (l : List α) : List (List α) :=
  match fuel with
  | 0 => []
  | f + 1 => if l.isEmpty then [] else l.take k :: chunksOf k f (l.drop k)

/-- The value of a scale entry for a KV form or an LB8 block: a power of two, or NaN (R46, R235). -/
def elemVal (f : Fmt) (kv : Bool) (bits scale : Nat) : Val :=
  if kv then (lb8Scale scale).mul (f.decode bits) else f.decodeScaled bits scale

/-- Values of a row under its scale bytes. -/
def rowVals (f : Fmt) (kv : Bool) (elems scales : List Nat) : List Val :=
  if f.isBlock || kv then
    ((chunksOf 32 elems.length elems).zip scales).flatMap fun p => p.1.map fun e => elemVal f kv e p.2
  else elems.map f.decode

/-- A scale entry: scale byte and tag (R70). -/
def scaleEntry (scale index : Nat) : Nat := scale % 256 + index % 16 * 256

/-- Whether an entry agrees with the count of its block (R71). -/
def entryOk (entry index : Nat) : Bool := entry / 256 % 16 == index % 16 && entry / 4096 == 0

/-- The detail of a SCALE_SKEW fault (R163): slot, expected tag, and index of the offending block. -/
def skewDetail (slot blk0 index : Nat) : Nat := slot * 2 ^ 35 + (blk0 + index) % 16 * 2 ^ 31 + min index 0x7FFFFFFF

/-- The first entry whose tag fails, in walk order. -/
def firstSkew (blk0 : Nat) (entries : List Nat) : Option Nat :=
  go 0 entries
where
  go (i : Nat) : List Nat → Option Nat
    | [] => none
    | e :: es => if entryOk e (blk0 + i) then go (i + 1) es else some i

/-- A bounding range (R111): block ID with selector, lowest and highest byte. -/
structure Rng where
  space : Nat
  lo : Nat
  hi : Nat
  deriving DecidableEq, Repr

/-- Two ranges overlap only in one block and region (R111). -/
def Rng.overlaps (a b : Rng) : Bool := a.space == b.space && decide (a.lo ≤ b.hi) && decide (b.lo ≤ a.hi)

/-- The range of `n` bytes at an address. -/
def Rng.at (a n : Nat) : Rng := ⟨a / 2 ^ 48, a % 2 ^ 48, a % 2 ^ 48 + n - 1⟩

/-- The range that a descriptor can touch, rows of `len` bytes. -/
def Desc.range (d : Desc) (len : Nat) : Rng :=
  let ends := [((d.n1 : Int) - 1) * d.st1, ((d.n2 : Int) - 1) * d.st2, ((d.n3 : Int) - 1) * d.st3]
  let low := ends.foldl (fun a x => a + Min.min x 0) 0
  let high := ends.foldl (fun a x => a + Max.max x 0) 0
  let b : Int := (d.base % 2 ^ 48 : Nat)
  ⟨d.base / 2 ^ 48, (b + low).toNat, (b + high).toNat + len - 1⟩

/-- Block ID of an address (R28). -/
def blockOf (a : Nat) : Nat := a / 2 ^ 52 % 4096

/-- Region selector of an address (R31). -/
def selOf (a : Nat) : Nat := a / 2 ^ 48 % 16

/-- How an instruction reads memory: address and length to code and bytes. -/
abbrev Reader := Nat → Nat → Code × List Byte

/-- What ends an instruction early: code and detail (R147). -/
abbrev Stop := Code × Nat

/-- A tensor that was read: its rows of elements, and its rows of scale bytes. -/
structure Tensor where
  fmt : Fmt
  kv : Bool
  elems : List (List Nat)
  scales : List (List Nat)
  deriving DecidableEq, Repr

/-- The exact values of a tensor, row by row in walk order. -/
def Tensor.vals (t : Tensor) : List (List Val) :=
  if t.fmt.isBlock || t.kv then (t.elems.zip t.scales).map fun p => rowVals t.fmt t.kv p.1 p.2
  else t.elems.map fun l => rowVals t.fmt t.kv l []

/-- Read rows one after another; the first failure in walk order ends the reading. -/
def readRows (rd : Reader) (len : Nat) : List Nat → Except Stop (List (List Byte))
  | [] => .ok []
  | a :: as =>
    match rd a len with
    | (.ok, b) => match readRows rd len as with
      | .ok l => .ok (b :: l)
      | .error e => .error e
    | (c, _) => .error (c, blockOf a)

/-- The addresses of the rows of a tensor in walk order. -/
def Desc.rowAddrs (d : Desc) : List Nat := (List.range d.rows).map d.rowAt

/-- 16-bit entries of a row of a scale tensor. -/
def entriesOf (n : Nat) (b : List Byte) : List Nat := (List.range n).map fun i => leNat ((b.drop (2 * i)).take 2)

/-- Read scale rows one after another, `nb` entries each, and check every tag as its row returns: the first failure in walk order ends the
reading. The first entry has index `i`. -/
def readScaleRows (rd : Reader) (nb slot blk0 i : Nat) : List Nat → Except Stop (List (List Nat))
  | [] => .ok []
  | a :: as =>
    match rd a (2 * nb) with
    | (.ok, b) =>
      match firstSkew (blk0 + i) (entriesOf nb b) with
      | some j => .error (.scaleSkew, skewDetail slot blk0 (i + j))
      | none =>
        match readScaleRows rd nb slot blk0 (i + nb) as with
        | .ok l => .ok ((entriesOf nb b).map (· % 256) :: l)
        | .error e => .error e
    | (c, _) => .error (c, blockOf a)

/-- Read the scale entries of a block-format tensor or KV operand, and check every tag (R71, R162, R163, R237). -/
def readScales (rd : Reader) (d sd : Desc) (slot : Nat) : Except Stop (List (List Nat)) :=
  readScaleRows rd (blocksOf d.n0) slot d.blk0 0 sd.rowAddrs

/-- Read a whole tensor with its scales. -/
def readTensor (rd : Reader) (f : Fmt) (kv : Bool) (d sd : Desc) (slot : Nat) : Except Stop Tensor :=
  let grouped := f.isBlock || kv
  match (if grouped then readScales rd d sd slot else .ok []) with
  | .error e => .error e
  | .ok sc =>
    match readRows rd (rowBytes f grouped d.n0) d.rowAddrs with
    | .error e => .error e
    | .ok rows => .ok ⟨f, kv, rows.map (unpackRow f d.n0), sc⟩

/-- Bytes of a destination with its scale entries (R165). -/
def destBytes (f : Fmt) (d : Desc) : Nat := d.rows * rowBytes f f.isBlock d.n0 + (if f.isBlock then d.rows * blocksOf d.n0 * 2 else 0)

/-- Writes of an instruction: address and bytes, in walk order. -/
abbrev Writes := List (Nat × List Byte)

/-- Encode one row of values in a format (R55-R60, R66, R67): elements and scale bytes. -/
def encodeRow (f : Fmt) (md : Rnd) (l : List Val) : List Nat × List Nat :=
  match f with
  | .lb8 =>
    let bs := (chunksOf 32 l.length l).map fun c => encodeLb8 c md
    (bs.flatMap Prod.snd, bs.map Prod.fst)
  | .lb4 =>
    let bs := (chunksOf 32 l.length l).map encodeLb4
    (bs.flatMap Prod.snd, bs.map Prod.fst)
  | f => (l.map fun v => f.encode v md, [])

/-- The writes that put rows of values into a destination: data rows in walk order, then its scale rows with the tags of their
places (R70, R117). -/
def writeTensor (f : Fmt) (md : Rnd) (d sd : Desc) (rows : List (List Val)) : Writes :=
  let enc := rows.map (encodeRow f md)
  let data := (d.rowAddrs.zip enc).map fun p => (p.1, packRow f f.isBlock d.n0 p.2.1)
  let nb := blocksOf d.n0
  let sc := if f.isBlock then
      ((List.range d.rows).zip (sd.rowAddrs.zip enc)).map fun p =>
        (p.2.1, ((List.range nb).zip p.2.2.2).flatMap fun q => leBytes 2 (scaleEntry q.2 (d.blk0 + p.1 * nb + q.1)))
    else []
  data ++ sc

end Sys2Proof.Machine
end

