-- ==== Sys2Proof/Machine/Lanes.lean ====
section
/-! DEFINITION. The arithmetic of the vector unit, the special-function unit and the normalisation unit (R179-R205). -/
namespace Sys2Proof.Machine

/-- What an element operation yields: a value, or the truth value of a comparison. -/
def boolVal (b : Bool) : Val := if b then .fin Q.one else Val.zero

/-- The element operations of VEC.BIN (R183). -/
def vecBin (sub : Nat) (a b : Val) : Val :=
  match sub with
  | 0 => a.add b
  | 1 => a.sub b
  | 2 => a.mul b
  | 3 => Val.max a b
  | 4 => Val.min a b
  | 5 => boolVal (a.eq b)
  | 6 => boolVal (!a.eq b)
  | 7 => boolVal (a.lt b)
  | _ => boolVal (a.le b)

/-- The element operations of VEC.UN (R183). -/
def vecUn (sub : Nat) (a : Val) : Val :=
  match sub with
  | 0 => a
  | 1 => a.abs
  | _ => a.neg

/-- The row reductions of VEC.RED (R183, R186). -/
def vecRed (sub : Nat) (l : List Val) : Val :=
  match sub with
  | 0 => l.foldl Val.add Val.zero
  | 1 => match l with
    | [] => Val.zero
    | x :: xs => xs.foldl Val.max x
  | 2 => match l with
    | [] => Val.zero
    | x :: xs => xs.foldl Val.min x
  | _ => l.foldl (fun m x => Val.max m x.abs) Val.zero

/-- VEC.SEL: a when c ≠ 0, a NaN condition included (R183, R185). -/
def vecSel (a b c : Val) : Val := if c.isZero then b else a

/-! ## Special functions -/

/-- A built-in result: special or exact, or an approximation of an irrational value (R188, R189). -/
inductive SfnRes where
  | exact (v : Val)
  | irr (q : Q)
  deriving DecidableEq, Repr

/-- √(2/π)·(u + 0.044715·u³), doubled, as an interval. -/
def geluArg2 (u : Q) : Approx.QI :=
  let p := (Approx.pi Approx.prec).toQI Approx.prec 0
  let x := (u.add ((⟨44715, 1000000⟩ : Q).mul (u.mul (u.mul u)))).mul (Q.ofNat 2)
  let lo := Approx.sqrt ((Q.ofNat 2).div p.hi)
  let hi := Approx.sqrt ((Q.ofNat 2).div p.lo)
  if x.isNeg then ⟨x.mul hi, x.mul lo⟩ else ⟨x.mul lo, x.mul hi⟩

/-- log₂ of a positive value that is a power of two. -/
def powTwo (q : Q) : Option Int :=
  let k := q.log2
  if q.le (Q.pow2 k) then some k else none

/-- A built-in function at a finite argument (R188). -/
def builtinFin (fn : Nat) (u : Q) : SfnRes :=
  let fin (q : Q) : SfnRes := .exact (.fin q)
  let ng := u.isNeg
  let z := u.isZero
  match fn with
  | 0 => if z then fin Q.one else .irr (Approx.exp u).mid
  | 1 =>
    let f := u.floor
    if u.den = 1 then (if 4000 ≤ f then fin (Q.pow2 4000) else if f ≤ -4000 then fin (Q.pow2 (-4000)) else fin (Q.pow2 f))
    else if 4000 ≤ f then .irr (Q.pow2 4000)
    else if f ≤ -4000 then .irr (Q.pow2 (-4000))
    else
      let l := (Approx.ln2 Approx.prec).toQI Approx.prec 0
      .irr (((Approx.exp ((u.sub (Q.ofInt f)).mul l.mid)).mid).mul (Q.pow2 f))
  | 2 => if z then .exact (.inf true) else if ng then .exact .nan else if u.le Q.one && Q.one.le u then fin Q.zero else .irr (Approx.ln u).mid
  | 3 =>
    if z then .exact (.inf true) else if ng then .exact .nan
    else match powTwo u with
      | some k => fin (Q.ofInt k)
      | none => .irr ((Approx.ln u).mid.div ((Approx.ln2 Approx.prec).toQI Approx.prec 0).mid)
  | 4 => if z then .exact (.inf false) else fin u.inv
  | 5 =>
    if z then .exact (.inf false) else if ng then .exact .nan
    else
      let r := Approx.sqrt u.inv
      if (r.mul r).le u.inv && u.inv.le (r.mul r) then fin r else .irr r
  | 6 =>
    if ng then .exact .nan
    else
      let r := Approx.sqrt u
      if (r.mul r).le u && u.le (r.mul r) then fin r else .irr r
  | 7 => if z then fin Q.zero else .irr (Approx.tanh u)
  | 8 => if z then fin ⟨1, 2⟩ else .irr (Approx.sigmoidI ⟨u, u⟩)
  | 9 => if z then fin Q.zero else .irr (u.mul (Approx.sigmoidI (geluArg2 u)))
  | 10 => if z then fin Q.zero else .irr ((u.mul ⟨1, 2⟩).mul (Approx.erfc1 (u.mul (Approx.sqrt ⟨1, 2⟩))))
  | 11 => if z then fin Q.zero else .irr (u.mul (Approx.sigmoidI ⟨u, u⟩))
  | 12 => if ng then .irr (Approx.ln1p (Approx.exp u).mid).mid else .irr (u.add (Approx.ln1p (Approx.exp u.neg).mid).mid)
  | 13 => if z then fin Q.zero else .irr (Approx.sinCos u 0)
  | 14 => if z then fin Q.one else .irr (Approx.sinCos u 1)
  | _ => if z then fin Q.zero else .irr (Approx.erf u)

/-- A built-in function at the infinities (R188). -/
def builtinInf (fn : Nat) (neg : Bool) : Val :=
  let pick (a b : Val) : Val := if neg then a else b
  match fn with
  | 0 => pick Val.zero (.inf false)
  | 1 => pick Val.zero (.inf false)
  | 2 => pick .nan (.inf false)
  | 3 => pick .nan (.inf false)
  | 4 => Val.zero
  | 5 => pick .nan Val.zero
  | 6 => pick .nan (.inf false)
  | 7 => boolVal true |> fun o => pick o.neg o
  | 8 => pick Val.zero (boolVal true)
  | 13 => .nan
  | 14 => .nan
  | 15 => boolVal true |> fun o => pick o.neg o
  | _ => pick Val.zero (.inf false)

/-- A built-in function of an FP32 argument (R188). -/
def builtin (fn : Nat) (u : Val) : SfnRes :=
  match u with
  | .nan => .exact .nan
  | .inf s => .exact (builtinInf fn s)
  | .fin q => builtinFin fn q

/-- The destination encodings at or below and at or above a magnitude: the neighbours of a faithful result (R189). -/
def neighbours (f : Fmt) (q : Q) : Nat × Nat :=
  let a := f.encode (.fin q) .rtz
  let v := f.decode a
  let sgn := if q.isNeg then 2 ^ (f.width - 1) else 0
  if v.isInf then (sgn + f.spec.maxCode, f.encode (.fin q) .rna)
  else if v.eq (.fin q) then (a, a)
  else
    -- the next value away from zero: halfway beyond the truncated one rounds up under RNA
    let u := if f.isInt || f == .lb8 then (if q.isNeg then Q.ofInt (-1) else Q.one)
      else
        let k := Max.max q.log2 (1 - f.spec.bias)
        let s := Q.pow2 (k - f.spec.mbits)
        if q.isNeg then s.neg else s
    match v with
    | .fin t => (a, f.encode (.fin (t.add u)) .rna)
    | _ => (a, a)

/-- The element that SFN.EVAL writes for a built-in, without a block scale (R189): exactly rounded for a narrow destination with
c = 1.0, faithful otherwise, where the choice between the neighbours is free. -/
def sfnElem (f : Fmt) (fn uBits cBits : Nat) : Nat :=
  let c := ofF32 cBits
  let exactC := cBits == 0x3F800000
  let round (q : Q) : Nat :=
    if exactC && f != .fp32 && f != .int32 then f.encode (.fin q) .rna
    else
      let p := neighbours f q
      if Config.faithfulUp fn uBits cBits f.code then p.2 else p.1
  match builtin fn (ofF32 uBits) with
  | .exact v => match v.mul c with
    | .fin q => round q
    | v => f.encode v .rna
  | .irr q => match (Val.fin q).mul c with
    | .fin q => if q.isZero then 0 else round q
    | v => f.encode v .rna

/-- The value of a built-in for a block destination (R66, R67, R189). -/
def sfnVal (fn uBits cBits : Nat) : Val :=
  match builtin fn (ofF32 uBits) with
  | .exact v => v.mul (ofF32 cBits)
  | .irr q => (Val.fin q).mul (ofF32 cBits)

/-- One block of a block destination (R66, R67, R189): its scale follows the values; its elements are rounded exactly with c = 1.0, and are
otherwise one of the two neighbours of the scaled value, where the choice is free. -/
def sfnBlock (f : Fmt) (fn cBits : Nat) (us : List Nat) : Nat × List Nat :=
  let vs := us.map fun u => sfnVal fn u cBits
  let enc := if f == .lb4 then encodeLb4 vs else encodeLb8 vs .rna
  if cBits == 0x3F800000 || enc.1 == 255 then enc
  else
    let ef := if f == .lb4 then Fmt.e2m1 else .int8
    let lim := Q.ofNat (if f == .lb4 then 6 else 127)
    let scale := if f == .lb4 then u5m3 enc.1 else lb8Scale enc.1
    (enc.1, (us.zip (vs.zip enc.2)).map fun p => match p.2.1, scale with
      | .fin q, .fin t =>
        if q.isZero || t.isZero then p.2.2
        else
          let near := neighbours ef (Q.max lim.neg (Q.min lim (q.div t)))
          if Config.faithfulUp fn p.1 cBits f.code then near.2 else near.1
      | _, _ => p.2.2)

/-- A row of a block destination of SFN.EVAL: elements and scale bytes. -/
def sfnBlocks (f : Fmt) (fn cBits : Nat) (us : List Nat) : List Nat × List Nat :=
  let bs := (chunksOf 32 us.length us).map (sfnBlock f fn cBits)
  (bs.flatMap Prod.snd, bs.map Prod.fst)

/-- The range of an image slot that holds a finite argument, and the interpolation of R193. -/
def userEval (img : List Byte) (slot : Nat) (u : Val) (md : Rnd) : Val :=
  let h := 64 * slot
  let rnd (v : Val) : Val := match v with
    | .fin q => fsFp32.decode (fsFp32.round q md)
    | v => v
  let below := ofF32 (numAt img (h + 8) 4)
  let above := ofF32 (numAt img (h + 12) 4)
  let nr := numAt img h 4 / 2 % 4
  match u with
  | .nan => .nan
  | .inf s => if s then below else above
  | .fin x =>
    let lo (r : Nat) : Q := match ofF32 (numAt img (h + 16 + 8 * r) 4) with
      | .fin q => q
      | _ => Q.zero
    let w (r : Nat) : Int := toSigned 8 (numAt img (h + 20 + 8 * r) 1)
    match (List.range (nr + 1)).find? fun r => (lo r).le x && x.lt ((lo r).add (Q.pow2 (w r))) with
    | some r =>
      let q := (x.sub (lo r)).div (Q.pow2 (w r - 8))
      let i := q.floor.toNat
      let t := rnd (.fin (q.sub (Q.ofNat i)))
      let g := 0x200 + 16384 * slot + 4096 * r + 16 * i
      let c (k : Nat) : Val := ofF32 (numAt img (g + 4 * k) 4)
      if numAt img (h + 21 + 8 * r) 1 = 0 then rnd (((c 1).mul t).add (c 0))
      else rnd (((rnd (((c 2).mul t).add (c 1))).mul t).add (c 0))
    | none => if x.lt (lo 0) then below else above
where
  numAt (b : List Byte) (off n : Nat) : Nat := leNat ((b.drop off).take n)

/-- Whether a slot header is marked valid. -/
def slotValid (img : List Byte) (slot : Nat) : Bool := nbit (leNat ((img.drop (64 * slot)).take 4)) 0

/-- The checks of one slot header (R192). -/
def headerOk (img : List Byte) (slot : Nat) : Bool :=
  let h := 64 * slot
  let n (o k : Nat) : Nat := leNat ((img.drop (h + o)).take k)
  if !slotValid img slot then true
  else
    let nr := n 0 4 / 2 % 4
    let lo (r : Nat) : Option Q := match ofF32 (n (16 + 8 * r) 4) with
      | .fin q => some q
      | _ => none
    let w (r : Nat) : Int := toSigned 8 (n (20 + 8 * r) 1)
    n 0 4 / 8 == 0 && n 4 4 == 0 && n 0x30 16 == 0 &&
    (List.range (nr + 1)).all fun r =>
      n (22 + 8 * r) 2 == 0 && (lo r).isSome && decide (-100 ≤ w r) && decide (n (21 + 8 * r) 1 ≤ 1) &&
      (r == 0 || match lo (r - 1), lo r with
        | some a, some b => (a.add (Q.pow2 (w (r - 1)))).le b
        | _, _ => false)

/-! ## Normalisation -/

/-- Round to the nearest multiple of 2^−149, ties away from zero (R202). -/
def rnd149 (q : Q) : Q :=
  let n := Q.ofNat ((q.mul (Q.pow2 149)).roundUnits .rna)
  let r := n.mul (Q.pow2 (-149))
  if q.isNeg then r.neg else r

/-- The special cases of a row (R203): a NaN or both infinities give NaN, one infinity gives itself. -/
def rowSpecial (l : List Val) : Option Val :=
  let s := l.foldl Val.add Val.zero
  match s with
  | .fin _ => none
  | v => some v

/-- Exact sum of a row of finite values. -/
def rowSum (l : List Val) : Q := l.foldl (fun a v => match v with
  | .fin q => a.add q
  | _ => a) Q.zero

/-- Mean, rounded mean and variance of a row of finite values (R202). -/
def rowStats (l : List Val) : Q × Q × Q :=
  let n := Q.ofNat l.length
  let mu := (rowSum l).div n
  let md := rnd149 mu
  let q := l.foldl (fun a v => match v with
    | .fin x => a.add ((x.sub md).mul (x.sub md))
    | _ => a) Q.zero
  (mu, md, q.div n)

/-- The exactly rounded FP32 value of 1/√v (R205). -/
def rsqrt32 (v : Val) : Val :=
  match builtin 5 v with
  | .exact x => x.f32
  | .irr q => (Val.fin q).f32

/-- NRM.STAT on one row: mean and variance (R203, R204). -/
def nrmStat (l : List Val) : List Val :=
  match rowSpecial l with
  | some v => [v, .nan]
  | none => let s := rowStats l; [.fin s.1, .fin s.2.2]

/-- The scaled and shifted element (R205). -/
def nrmOut (x r g b : Val) : Val := ((x.mul r).mul g).add b

/-- NRM.LN on one row (R205). -/
def nrmLn (l : List Val) (eps : Val) (g b : List Val) : List Val :=
  match rowSpecial l with
  | some v =>
    -- the mean is v and the variance NaN, so r is NaN (R203)
    (List.range l.length).map fun i => nrmOut ((l.getD i Val.zero).sub v) .nan (g.getD i (.fin Q.one)) (b.getD i Val.zero)
  | none =>
    let s := rowStats l
    let r := rsqrt32 (((Val.fin s.2.2).f32.add eps).f32)
    (List.range l.length).map fun i => nrmOut ((l.getD i Val.zero).sub (.fin s.2.1)) r (g.getD i (.fin Q.one)) (b.getD i Val.zero)

/-- NRM.RMS on one row (R205). -/
def nrmRms (l : List Val) (eps : Val) (g b : List Val) : List Val :=
  let q := l.foldl (fun a v => a.add (v.mul v)) Val.zero
  let m := q.mul (.fin (Q.ofNat l.length).inv)
  let r := rsqrt32 ((m.f32.add eps).f32)
  (List.range l.length).map fun i => nrmOut (l.getD i Val.zero) r (g.getD i (.fin Q.one)) (b.getD i Val.zero)

end Sys2Proof.Machine
end

