-- ==== Sys2Proof/Machine/Flags.lean ====
section
/-! DEFINITION. The flag computations of the engine: scalar comparisons (R124), the max-abs capture (R68), the INT32 saturation flag (R81),
and the scale record's flags (R214-R219). -/
namespace Sys2Proof.Machine

/-- The conditions of CTL.CMP on 64-bit values (R124); other codes are reserved. -/
def cmpCond (cond : Nat) (a b : Word) : Option Bool :=
  match cond with
  | 0 => some (a == b)
  | 1 => some (a != b)
  | 2 => some (a.slt b)
  | 3 => some (!a.slt b)
  | 4 => some (a.ult b)
  | 5 => some (!a.ult b)
  | _ => none

/-- A finite value rounded upward to FP32 (R68); +infinity beyond the largest finite value. -/
def rndUp32 (v : Val) : Val :=
  match v with
  | .fin q =>
    let r := fsFp32.decode (fsFp32.round q .rtz)
    if (Val.fin q).le r then r
    else
      let k := Max.max q.log2 (-126)
      let n := (q.div (Q.pow2 (k - 23))).ceil
      let up := (Q.ofInt n).mul (Q.pow2 (k - 23))
      match fsFp32.decode fsFp32.maxCode with
      | .fin mx => if mx.lt up then .inf false else .fin up
      | x => x
  | v => v

/-- A max-abs capture (R68): largest magnitude as a value, NaN seen, infinity seen. -/
structure Capture where
  mx : Val
  nan : Bool
  inf : Bool
  deriving DecidableEq, Repr

/-- The record at the start of an instruction (R68). -/
def Capture.start : Capture := ⟨Val.zero, false, false⟩

/-- One more value, after the clip and before rounding (R68). -/
def Capture.add (c : Capture) (v : Val) : Capture :=
  match v with
  | .nan => { c with nan := true }
  | .inf _ => { c with mx := .inf false, inf := true }
  | v => { c with mx := Val.max c.mx (rndUp32 v.abs) }

/-- The capture of every value of an instruction. -/
def captureOf (rows : List (List Val)) : Capture := rows.foldl (fun c r => r.foldl Capture.add c) Capture.start

/-- An INT32 accumulator with its saturation flag (R51, R81). -/
structure IAcc where
  v : Int
  sat : Bool
  deriving DecidableEq, Repr

/-- Add a product; once saturated, the value stays at its bound (R81). -/
def IAcc.add (a : IAcc) (p : Int) : IAcc :=
  if a.sat then a
  else
    let x := a.v + p
    if x < -2147483648 then ⟨-2147483648, true⟩ else if 2147483647 < x then ⟨2147483647, true⟩ else ⟨x, false⟩

/-! ## Scale records -/

/-- A scale record taken apart (R214). Values of `hist` and `pending` are FP32 encodings. -/
structure ScaleRec where
  hist : List Nat
  pending : Nat
  exp : Int
  step : Nat
  fmt : Nat
  margin : Nat
  flags : Nat
  resv : Nat
  skipped : Nat
  tail : List Byte
  deriving DecidableEq, Repr

/-- Number at an offset of a byte list. -/
def numAt (b : List Byte) (off n : Nat) : Nat := leNat ((b.drop off).take n)

/-- Take a record's 128 bytes apart. -/
def ScaleRec.of (b : List Byte) : ScaleRec :=
  { hist := (List.range 16).map fun i => numAt b (4 * i) 4
    pending := numAt b 0x40 4, exp := toSigned 32 (numAt b 0x44 4), step := numAt b 0x48 4, fmt := numAt b 0x4C 1
    margin := numAt b 0x4D 1, flags := numAt b 0x4E 1, resv := numAt b 0x4F 1, skipped := numAt b 0x50 4, tail := b.drop 0x54 }

/-- The 128 bytes of a record. -/
def ScaleRec.bytes (r : ScaleRec) : List Byte :=
  r.hist.flatMap (leBytes 4) ++ leBytes 4 r.pending ++ leBytes 4 (ofSigned 32 r.exp) ++ leBytes 4 r.step ++ leBytes 1 r.fmt
    ++ leBytes 1 r.margin ++ leBytes 1 r.flags ++ leBytes 1 r.resv ++ leBytes 4 r.skipped ++ r.tail

/-- A magnitude a record may hold: not NaN, not infinite, not below zero (R219). -/
def magnitudeOk (bits : Nat) : Bool :=
  match ofF32 bits with
  | .fin q => !q.isNeg
  | _ => false

/-- The checks of R219. -/
def ScaleRec.valid (r : ScaleRec) : Bool :=
  r.resv == 0 && r.tail.all (· == 0#8) && r.flags / 16 == 0 && (Fmt.ofCode r.fmt).isSome && decide (r.margin ≤ 15)
    && decide (-126 ≤ r.exp) && decide (r.exp ≤ 127) && r.hist.all magnitudeOk && magnitudeOk r.pending

/-- The scalable formats, codes 0x1-0x8 (R216). -/
def scalable (code : Nat) : Bool := decide (1 ≤ code) && decide (code ≤ 8)

/-- The largest finite value of a format (R44, R45). -/
def fmaxOf (code : Nat) : Q :=
  match Fmt.ofCode code with
  | some .int8 => Q.ofNat 127
  | some .int4 => Q.ofNat 7
  | some .int32 => Q.ofNat 2147483647
  | some .lb8 => Q.ofNat 127
  | some f => match f.spec.decode f.spec.maxCode with
    | .fin q => q
    | _ => Q.zero
  | none => Q.zero

/-- The smallest `e` with h ≤ m·2^(e − margin), for positive h and m (R216). -/
def minExp (h m : Q) (margin : Nat) : Int :=
  let r := h.div m
  let k := r.log2
  (if r.le (Q.pow2 k) then k else k + 1) + margin

/-- The finite value of an FP32 encoding. -/
def finOf (bits : Nat) : Q :=
  match ofF32 bits with
  | .fin q => q
  | _ => Q.zero

/-- The commit of R216. -/
def ScaleRec.commit (r : ScaleRec) : ScaleRec :=
  let r := if r.flags % 4 ≠ 0 then
      { r with skipped := Min.min (r.skipped + 1) 0xFFFFFFFF, flags := r.flags ||| 4 }
    else
      let sat := scalable r.fmt && ((fmaxOf r.fmt).mul (Q.pow2 r.exp)).lt (finOf r.pending)
      let hist := r.hist.set (r.step % 16) r.pending
      let h := hist.foldl (fun m x => Q.max m (finOf x)) Q.zero
      { r with
        flags := if sat then r.flags ||| 8 else r.flags
        hist := hist, step := (r.step + 1) % 2 ^ 32
        exp := if scalable r.fmt && !h.isZero then Max.max (-126) (Min.min 127 (minExp h (fmaxOf r.fmt) r.margin)) else r.exp }
  { r with pending := 0, flags := r.flags / 4 * 4 }

/-- The merge of R216. -/
def ScaleRec.merge (r : ScaleRec) (c : Capture) : ScaleRec :=
  let t := rndUp32 (c.mx.mul (.fin (Q.pow2 r.exp)))
  let r := if c.inf || t.isInf then { r with flags := r.flags ||| 2 }
    else if (ofF32 r.pending).lt t then { r with pending := toF32 t } else r
  if c.nan then { r with flags := r.flags ||| 1 } else r

/-- The update of R216: op 0 MERGE, 1 MERGE_COMMIT, 2 COMMIT_MERGE (R215). -/
def ScaleRec.update (r : ScaleRec) (op : Nat) (c : Capture) : ScaleRec :=
  let r := if op = 2 then r.commit else r
  let r := r.merge c
  if op = 1 then r.commit else r

end Sys2Proof.Machine
end

