-- ==== Sys2Proof/Machine/Matrix.lean ====
section
/-! DEFINITION. The arithmetic of the matrix array, the Side Street and the output conversion stage (R50-R53, R64-R69, R75-R77, R95, R96, R213). -/
namespace Sys2Proof.Machine

/-- An element of rows of values. -/
def at2 (l : List (List Val)) (r c : Nat) : Val := (l.getD r []).getD c Val.zero

/-- One FP32 accumulation step (R51). -/
def facc (a p : Val) : Val := (a.add p).f32

/-- A product in a pass of a lo part (R53). -/
def mulLo (lo other : Val) : Val := if lo.isZero || other.isNan || other.isInf then Val.zero else lo.mul other

/-- The products of one reduction index, pass by pass (R53): no FP32 operand, one, or two. -/
def passProducts (aF bF : Bool) : List (Val → Val → Val) :=
  match aF, bF with
  | false, false => [fun a b => a.mul b]
  | true, false => [fun a b => mulLo a.lo b, fun a b => a.hi.mul b]
  | false, true => [fun a b => mulLo b.lo a, fun a b => a.mul b.hi]
  | true, true => [fun a b => mulLo a.lo b.hi, fun a b => mulLo b.lo a.hi, fun a b => a.hi.mul b.hi]

/-- The FP32 sum of one output (R76, R92): pass after pass, reduction index after reduction index; listed outlier indices
contribute +0 (R213). -/
def fdot (aF bF : Bool) (init : Val) (terms : List (Val × Val)) : Val :=
  (passProducts aF bF).foldl (fun acc f => terms.foldl (fun acc t => facc acc (f t.1 t.2)) acc) init

/-- The integer value of an integer element. -/
def intOf (v : Val) : Int :=
  match v with
  | .fin q => q.num
  | _ => 0

/-- The INT32 sum of one output (R51, R81). -/
def idot (init : IAcc) (terms : List (Val × Val)) : IAcc := terms.foldl (fun a t => a.add (intOf t.1 * intOf t.2)) init

/-- One accumulator of an output tile. -/
inductive Acc1 where
  | f (v : Val)
  | i (a : IAcc)
  deriving DecidableEq, Repr

/-- The value an accumulator hands to the conversion stage. -/
def Acc1.val : Acc1 → Val
  | .f v => v
  | .i a => .fin (Q.ofInt a.v)

/-- The reduction pairs of output (m, n) of one batch item, without the listed outlier indices. -/
def pairs (a b : List (List Val)) (aRow bRow n k : Nat) (skip : List Nat) : List (Val × Val) :=
  ((List.range k).filter fun i => !skip.contains i).map fun i => (at2 a aRow i, at2 b (bRow + i) n)

/-- What one matrix product is made of. -/
structure MatIn where
  m : Nat
  n : Nat
  k : Nat
  batch : Nat
  bBatch : Nat
  aF32 : Bool
  bF32 : Bool
  int : Bool
  a : List (List Val)
  b : List (List Val)
  skip : List Nat
  deriving DecidableEq, Repr

/-- The accumulator of output (item, m, n), from its initial value (R76, R77). One that a continuing instruction takes over keeps its saturation flag
(R81; DESIGN CHOICE, log entry 83). -/
def MatIn.acc (x : MatIn) (init : Option Acc1) (it m n : Nat) : Acc1 :=
  let ts := pairs x.a x.b (it * x.m + m) ((if x.bBatch = 1 then 0 else it) * x.k) n x.k x.skip
  if x.int then .i (idot (match init with
    | some (.i a) => a
    | _ => ⟨0, false⟩) ts)
  else .f (fdot x.aF32 x.bF32 (match init with
    | some (.f v) => v
    | _ => Val.zero) ts)

/-- Every accumulator, in increasing item, then m, then n. -/
def MatIn.accs (x : MatIn) (init : List Acc1) : List Acc1 :=
  (List.range x.batch).flatMap fun it => (List.range x.m).flatMap fun m => (List.range x.n).map fun n =>
    x.acc (init[(it * x.m + m) * x.n + n]?) it m n

/-- The Side Street sum of an output: stream row and stationary column, in list order from +0 (R95). -/
def sideSum (tol tow : List (List Val)) (row towBase col count : Nat) : Val :=
  (List.range count).foldl (fun acc j => facc acc ((at2 tol row j).mul (at2 tow (towBase + j) col))) Val.zero

/-- The parameters of the output conversion stage (R64). -/
structure Conv where
  sa : Val
  sb : Val
  lo : Option Val
  hi : Option Val
  deriving DecidableEq, Repr

/-- v = a × scale_a × scale_b + bias, then the clips; a NaN bound is disabled (R65). -/
def Conv.apply (c : Conv) (a bias : Val) : Val :=
  let v := ((a.mul c.sa).mul c.sb).add bias
  let v := match c.lo with
    | some b => if b.isNan then v else Val.max v b
    | none => v
  match c.hi with
  | some b => if b.isNan then v else Val.min v b
  | none => v

end Sys2Proof.Machine
end

