-- ==== Sys2Proof/Machine/AttMath.lean ====
section
/-! DEFINITION. The arithmetic of the attention pipeline: scores, masks, exponentials, outputs, merge, and the fallback mode
(R226-R229, R233, R234, R239, R247). -/
namespace Sys2Proof.Machine

/-- e^x of an exact x ≤ 0 rounded to 12 significant bits; a rounded result below 2^−254, and that of −∞, is +0 (R227). -/
def expP (x : Val) : Val :=
  match x with
  | .nan => .nan
  | .inf s => if s then Val.zero else .inf false
  | .fin q =>
    if q.isZero then .fin Q.one
    else
      let p := (Val.fin (Approx.exp q).mid).hi
      if p.lt (.fin (Q.pow2 (-254))) then Val.zero else p

/-- e^x rounded exactly to FP32, with exp32(−∞) = +0 (R239). -/
def exp32 (x : Val) : Val :=
  match builtin 0 x with
  | .exact v => v.f32
  | .irr q => (Val.fin q).f32

/-- The exact quotient; with a zero divisor the spec states no result (log entry 13). -/
def quot (a b : Val) : Val :=
  if a.isNan then .nan else
  match b with
  | .fin q => if q.isZero then ofF32 (Config.zeroQuotient (BitVec.ofNat 32 (toF32 a))).toNat else a.mul (.fin q.inv)
  | .inf s => match a with
    | .fin _ => Val.zero
    | _ => if s then .nan else .nan
  | .nan => .nan

/-- The score as it is stored (R226). -/
def storeScore (v : Val) : Val :=
  match (Fmt.fp16.decode (Fmt.fp16.encode v .rna)) with
  | .inf s => .fin (if s then Q.ofInt (-65504) else Q.ofNat 65504)
  | x => x

/-- The entry of the bias table for a distance (R233). -/
def biasIndex (delta : Int) : Nat :=
  let a := min delta.natAbs 0xFFFFFFFF
  let b := if a < 64 then a else
    let e := Nat.log2 a
    64 + 16 * (e - 6) + a / 2 ^ (e - 4) % 16
  if delta < 0 then 512 + b else b

/-- Masks and positions of one attention instruction (R224, R234). -/
structure AttMask where
  causal : Bool
  win : Option Nat
  q0 : Nat
  k0 : Nat
  deriving DecidableEq, Repr

/-- The distance of a query row and a key (R224). -/
def AttMask.delta (x : AttMask) (i j : Nat) : Int := ((x.q0 + i : Nat) : Int) - ((x.k0 + j : Nat) : Int)

/-- Whether a key is masked for a row (R234); `pad` is the bitmap row of the head, `none` without padding. -/
def AttMask.masked (x : AttMask) (pad : Option (List Nat)) (i j : Nat) : Bool :=
  let d := x.delta i j
  (x.causal && decide (d < 0)) || (match x.win with
    | some w => decide (w ≤ d.natAbs)
    | none => false) || (match pad with
    | some p => !nbit (p.getD (j / 8) 0) (j % 8)
    | none => false)

/-- The result of one query row: maximum, sum and output elements before rounding into the destination. -/
structure AttRow where
  m : Val
  l : Val
  o : List Val
  deriving DecidableEq, Repr

/-- The stored scores of a row: `none` for a masked key (R226). -/
def attScores (q : List Val) (keys : List (List Val)) (sigma : Val) (bias : Int → Val) (x : AttMask) (pad : Option (List Nat)) (i : Nat) :
    List (Option Val) :=
  (List.range keys.length).map fun j =>
    if x.masked pad i j then none
    else some (storeScore (((fdot false false Val.zero (q.zip (keys.getD j []))).mul sigma).add (bias (x.delta i j))))

/-- Score as a value: −∞ for a masked key. -/
def scoreVal (s : Option Val) : Val := s.getD (.inf true)

/-- The sum of values in the FP32 accumulators of the value half, one key at a time (R228). -/
def attSum (init : Val) (n : Nat) (ps : List (Option Val)) (values : List (List Val)) : Val :=
  (ps.zip values).foldl (fun acc p => match p.1 with
    | some e => facc acc (e.mul (p.2.getD n Val.zero))
    | none => acc) init

/-- One row in normal service (R227-R229). -/
def attRow (dv : Nat) (scores : List (Option Val)) (values : List (List Val)) : AttRow :=
  let m := scores.foldl (fun m s => Val.max m (scoreVal s)) (.inf true)
  if m.isNan then ⟨.nan, .nan, List.replicate dv .nan⟩
  else if m = .inf true then ⟨m, Val.zero, List.replicate dv Val.zero⟩
  else
    let ps := scores.map fun s => s.map fun v => expP (v.sub m)
    let l := ((ps.foldl (fun a p => a.add (p.getD Val.zero)) Val.zero)).f32
    ⟨m, l, (List.range dv).map fun n => quot (attSum Val.zero n ps values) l⟩

/-- Running state of the fallback mode (R247). -/
structure FbState where
  m : Val
  l : Val
  u : List Val
  deriving DecidableEq, Repr

/-- One block of up to 128 keys in the fallback mode (R247). -/
def fbBlock (x : FbState) (scores : List (Option Val)) (values : List (List Val)) : FbState :=
  let mb := scores.foldl (fun m s => Val.max m (scoreVal s)) x.m
  let f := if mb = .inf true then Val.zero else exp32 (x.m.sub mb)
  let ps := scores.map fun s => s.map fun v => expP (v.sub mb)
  let l := ((x.l.mul f).add (ps.foldl (fun a p => a.add (p.getD Val.zero)) Val.zero)).f32
  let u := (List.range x.u.length).map fun n => attSum ((x.u.getD n Val.zero).mul f).f32 n ps values
  ⟨mb, l, u⟩

/-- One row in the fallback mode (R247, R229). -/
def fbRow (dv : Nat) (scores : List (Option Val)) (values : List (List Val)) : AttRow :=
  let blocks := (chunksOf 128 scores.length scores).zip (chunksOf 128 values.length values)
  let r := blocks.foldl (fun x b => fbBlock x b.1 b.2) ⟨.inf true, Val.zero, List.replicate dv Val.zero⟩
  if r.m.isNan then ⟨.nan, .nan, List.replicate dv .nan⟩
  else ⟨r.m, r.l, r.u.map fun u => if r.l.isZero then Val.zero else quot u r.l⟩

/-- The merge of two partial rows (R239): statistics, and outputs before rounding into the destination. -/
def attMergeRow (a b : AttRow) : AttRow :=
  let m := Val.max a.m b.m
  if m = .inf true then ⟨m, Val.zero, a.o.map fun _ => Val.zero⟩
  else
    let wa := (a.l.mul (exp32 (a.m.sub m))).f32
    let wb := (b.l.mul (exp32 (b.m.sub m))).f32
    ⟨m, (wa.add wb).f32, (a.o.zip b.o).map fun p => quot ((wa.mul p.1).add (wb.mul p.2)) (wa.add wb)⟩

end Sys2Proof.Machine
end

