-- ==== Sys2Proof/Machine/Hash.lean ====
section
/-! DEFINITION. SHA-384, HMAC-SHA-384 and HKDF-SHA-384 (FIPS 180-4, FIPS 198-1, RFC 5869), which the security unit and the link
ports use (R357, R358, R487, R492, R500, R508-R511); and SHA-256, which LMS uses (R501). -/
namespace Sys2Proof

/-- The 80 round constants of SHA-384, in four parts. -/
def shaK0 : List Word :=
  [0x428A2F98D728AE22#64, 0x7137449123EF65CD#64, 0xB5C0FBCFEC4D3B2F#64, 0xE9B5DBA58189DBBC#64, 0x3956C25BF348B538#64,
   0x59F111F1B605D019#64, 0x923F82A4AF194F9B#64, 0xAB1C5ED5DA6D8118#64, 0xD807AA98A3030242#64, 0x12835B0145706FBE#64,
   0x243185BE4EE4B28C#64, 0x550C7DC3D5FFB4E2#64, 0x72BE5D74F27B896F#64, 0x80DEB1FE3B1696B1#64, 0x9BDC06A725C71235#64,
   0xC19BF174CF692694#64, 0xE49B69C19EF14AD2#64, 0xEFBE4786384F25E3#64, 0x0FC19DC68B8CD5B5#64, 0x240CA1CC77AC9C65#64]
def shaK1 : List Word :=
  [0x2DE92C6F592B0275#64, 0x4A7484AA6EA6E483#64, 0x5CB0A9DCBD41FBD4#64, 0x76F988DA831153B5#64, 0x983E5152EE66DFAB#64,
   0xA831C66D2DB43210#64, 0xB00327C898FB213F#64, 0xBF597FC7BEEF0EE4#64, 0xC6E00BF33DA88FC2#64, 0xD5A79147930AA725#64,
   0x06CA6351E003826F#64, 0x142929670A0E6E70#64, 0x27B70A8546D22FFC#64, 0x2E1B21385C26C926#64, 0x4D2C6DFC5AC42AED#64,
   0x53380D139D95B3DF#64, 0x650A73548BAF63DE#64, 0x766A0ABB3C77B2A8#64, 0x81C2C92E47EDAEE6#64, 0x92722C851482353B#64]
def shaK2 : List Word :=
  [0xA2BFE8A14CF10364#64, 0xA81A664BBC423001#64, 0xC24B8B70D0F89791#64, 0xC76C51A30654BE30#64, 0xD192E819D6EF5218#64,
   0xD69906245565A910#64, 0xF40E35855771202A#64, 0x106AA07032BBD1B8#64, 0x19A4C116B8D2D0C8#64, 0x1E376C085141AB53#64,
   0x2748774CDF8EEB99#64, 0x34B0BCB5E19B48A8#64, 0x391C0CB3C5C95A63#64, 0x4ED8AA4AE3418ACB#64, 0x5B9CCA4F7763E373#64,
   0x682E6FF3D6B2B8A3#64, 0x748F82EE5DEFB2FC#64, 0x78A5636F43172F60#64, 0x84C87814A1F0AB72#64, 0x8CC702081A6439EC#64]
def shaK3 : List Word :=
  [0x90BEFFFA23631E28#64, 0xA4506CEBDE82BDE9#64, 0xBEF9A3F7B2C67915#64, 0xC67178F2E372532B#64, 0xCA273ECEEA26619C#64,
   0xD186B8C721C0C207#64, 0xEADA7DD6CDE0EB1E#64, 0xF57D4F7FEE6ED178#64, 0x06F067AA72176FBA#64, 0x0A637DC5A2C898A6#64,
   0x113F9804BEF90DAE#64, 0x1B710B35131C471B#64, 0x28DB77F523047D84#64, 0x32CAAB7B40C72493#64, 0x3C9EBE0A15C9BEBC#64,
   0x431D67C49C100D4C#64, 0x4CC5D4BECB3E42B6#64, 0x597F299CFC657E2A#64, 0x5FCB6FAB3AD6FAEC#64, 0x6C44198C4A475817#64]
def shaK : List Word := shaK0 ++ shaK1 ++ shaK2 ++ shaK3

/-- The initial hash value. -/
def shaIV : List Word :=
  [0xCBBB9D5DC1059ED8#64, 0x629A292A367CD507#64, 0x9159015A3070DD17#64, 0x152FECD8F70E5939#64,
   0x67332667FFC00B31#64, 0x8EB44A8768581511#64, 0xDB0C2E0D64F98FA7#64, 0x47B5481DBEFA4FA4#64]

/-- A big-endian number of a list of bytes, and the `n` big-endian bytes of a number. -/
def beNat (l : List Byte) : Nat := leNat l.reverse
def beBytes (n x : Nat) : List Byte := (leBytes n x).reverse

/-- Take a list apart in blocks of `n`, at most `fuel` of them. -/
def chunk {α : Type} (n : Nat) : Nat → List α → List (List α)
  | 0, _ => []
  | fuel + 1, l => l.take n :: chunk n fuel (l.drop n)

/-- The padded message: a one bit, zeros, and the length in bits in 16 bytes. -/
def shaPad (m : List Byte) : List Byte :=
  m ++ [0x80#8] ++ List.replicate ((239 - m.length % 128) % 128) 0#8 ++ beBytes 16 (8 * m.length)

/-- One more word of the message schedule, newest first. -/
def shaNext (w : List Word) : List Word :=
  let a := w.getD 14 0#64
  let b := w.getD 1 0#64
  let s0 := (a.rotateRight 1) ^^^ (a.rotateRight 8) ^^^ (a >>> 7)
  let s1 := (b.rotateRight 19) ^^^ (b.rotateRight 61) ^^^ (b >>> 6)
  (s1 + w.getD 6 0#64 + s0 + w.getD 15 0#64) :: w

/-- The message schedule of a block of 16 words. -/
def shaSchedule (b : List Word) : List Word := ((List.range 64).foldl (fun w _ => shaNext w) b.reverse).reverse

/-- One round over the eight working variables. -/
def shaRound (v : List Word) (kw : Word × Word) : List Word :=
  match v with
  | [a, b, c, d, e, f, g, h] =>
    let s1 := (e.rotateRight 14) ^^^ (e.rotateRight 18) ^^^ (e.rotateRight 41)
    let t1 := h + s1 + ((e &&& f) ^^^ (~~~e &&& g)) + kw.1 + kw.2
    let s0 := (a.rotateRight 28) ^^^ (a.rotateRight 34) ^^^ (a.rotateRight 39)
    let t2 := s0 + ((a &&& b) ^^^ (a &&& c) ^^^ (b &&& c))
    [t1 + t2, a, b, c, d + t1, e, f, g]
  | v => v

/-- One block. -/
def shaBlock (h : List Word) (b : List Byte) : List Word :=
  let w := (chunk 8 16 b).map fun x => BitVec.ofNat 64 (beNat x)
  (h.zip ((shaK.zip (shaSchedule w)).foldl shaRound h)).map fun q => q.1 + q.2

/-- SHA-384: 48 bytes. -/
def sha384 (m : List Byte) : List Byte :=
  let p := shaPad m
  (((chunk 128 (p.length / 128) p).foldl shaBlock shaIV).take 6).flatMap fun x => beBytes 8 x.toNat

/-- HMAC-SHA-384. -/
def hmac384 (key msg : List Byte) : List Byte :=
  let k := if 128 < key.length then sha384 key else key
  let k := k ++ List.replicate (128 - k.length) 0#8
  sha384 (k.map (· ^^^ 0x5C#8) ++ sha384 (k.map (· ^^^ 0x36#8) ++ msg))

/-- HKDF-Extract with SHA-384 (RFC 5869): an empty salt is 48 zero bytes. -/
def hkdfExtract (salt ikm : List Byte) : List Byte := hmac384 (if salt.isEmpty then List.replicate 48 0#8 else salt) ikm

/-- The blocks T(i), T(i + 1), … of HKDF-Expand, `fuel` of them, from the block before. -/
def hkdfBlocks (prk info : List Byte) : Nat → Nat → List Byte → List Byte
  | 0, _, _ => []
  | fuel + 1, i, prev =>
    let t := hmac384 prk (prev ++ info ++ [BitVec.ofNat 8 i])
    t ++ hkdfBlocks prk info fuel (i + 1) t

/-- HKDF-Expand with SHA-384 (RFC 5869), `n` bytes. -/
def hkdfExpand (prk info : List Byte) (n : Nat) : List Byte := (hkdfBlocks prk info (ceilDiv n 48) 1 []).take n

/-- HKDF-SHA-384 with an empty salt, `n` bytes (R508). -/
def hkdf384 (seed info : List Byte) (n : Nat) : List Byte := hkdfExpand (hkdfExtract [] seed) info n

/-- The bytes of a word of ASCII text. -/
def ascii (l : List Nat) : List Byte := l.map fun c => BitVec.ofNat 8 c

/-! ## SHA-256 (FIPS 180-4) -/

/-- A 32-bit word. -/
abbrev Word32 := BitVec 32

/-- The 64 round constants of SHA-256: the high halves of the first 64 of SHA-384. -/
def sha256K : List Word32 := (shaK.take 64).map fun k => BitVec.ofNat 32 (k.toNat / 2 ^ 32)

/-- The initial hash value. -/
def sha256IV : List Word32 :=
  [0x6A09E667#32, 0xBB67AE85#32, 0x3C6EF372#32, 0xA54FF53A#32, 0x510E527F#32, 0x9B05688C#32, 0x1F83D9AB#32, 0x5BE0CD19#32]

/-- One more word of the message schedule, newest first. -/
def sha256Next (w : List Word32) : List Word32 :=
  let a := w.getD 14 0#32
  let b := w.getD 1 0#32
  let s0 := (a.rotateRight 7) ^^^ (a.rotateRight 18) ^^^ (a >>> 3)
  let s1 := (b.rotateRight 17) ^^^ (b.rotateRight 19) ^^^ (b >>> 10)
  (s1 + w.getD 6 0#32 + s0 + w.getD 15 0#32) :: w

/-- One round over the eight working variables. -/
def sha256Round (v : List Word32) (kw : Word32 × Word32) : List Word32 :=
  match v with
  | [a, b, c, d, e, f, g, h] =>
    let s1 := (e.rotateRight 6) ^^^ (e.rotateRight 11) ^^^ (e.rotateRight 25)
    let t1 := h + s1 + ((e &&& f) ^^^ (~~~e &&& g)) + kw.1 + kw.2
    let s0 := (a.rotateRight 2) ^^^ (a.rotateRight 13) ^^^ (a.rotateRight 22)
    let t2 := s0 + ((a &&& b) ^^^ (a &&& c) ^^^ (b &&& c))
    [t1 + t2, a, b, c, d + t1, e, f, g]
  | v => v

/-- One block. -/
def sha256Block (h : List Word32) (b : List Byte) : List Word32 :=
  let w := (chunk 4 16 b).map fun x => BitVec.ofNat 32 (beNat x)
  let sched := ((List.range 48).foldl (fun w _ => sha256Next w) w.reverse).reverse
  (h.zip ((sha256K.zip sched).foldl sha256Round h)).map fun q => q.1 + q.2

/-- SHA-256: 32 bytes. -/
def sha256 (m : List Byte) : List Byte :=
  let p := m ++ [0x80#8] ++ List.replicate ((119 - m.length % 64) % 64) 0#8 ++ beBytes 8 (8 * m.length)
  ((chunk 64 (p.length / 64) p).foldl sha256Block sha256IV).flatMap fun x => beBytes 4 x.toNat

end Sys2Proof
end

