-- ==== Sys2Proof/Machine/Cipher.lean ====
section
/-! DEFINITION. AES-256 (FIPS 197) and its Galois/counter mode (NIST SP 800-38D), which protect the flits of the links and the records of the Frontage
(R343, R357, R380-R382). -/
namespace Sys2Proof

/-! ## AES-256 -/

/-- Multiply by x in GF(2^8), and the product of two elements. -/
def xtime (a : Nat) : Nat := if a < 128 then 2 * a else (2 * a) ^^^ 0x11B
def gmul8 (a b : Nat) : Nat :=
  ((List.range 8).foldl (fun (r : Nat × Nat) i => (if nbit b i then r.1 ^^^ r.2 else r.1, xtime r.2)) (0, a)).1

/-- The inverse in GF(2^8), as the power 254; zero stays zero. -/
def ginv8 (a : Nat) : Nat :=
  let a2 := gmul8 a a
  let a4 := gmul8 a2 a2
  let a8 := gmul8 a4 a4
  let a16 := gmul8 a8 a8
  let a32 := gmul8 a16 a16
  let a64 := gmul8 a32 a32
  gmul8 (gmul8 (gmul8 a2 a4) (gmul8 a8 a16)) (gmul8 (gmul8 a32 a64) (gmul8 a64 a64))

/-- The S-box: the inverse, then the affine map. -/
def sboxNat (a : Nat) : Nat :=
  let b := ginv8 a
  let rot (k : Nat) : Nat := (b * 2 ^ k) % 256 + b / 2 ^ (8 - k)
  b ^^^ rot 1 ^^^ rot 2 ^^^ rot 3 ^^^ rot 4 ^^^ 0x63

/-- The S-box as a table. -/
def sboxTable : List Byte := (List.range 256).map fun i => BitVec.ofNat 8 (sboxNat i)
def sbox (b : Byte) : Byte := sboxTable.getD b.toNat 0#8

/-- The exclusive or of two lists of bytes, as long as the shorter one. -/
def xorBytes (a b : List Byte) : List Byte := List.zipWith (fun x y => x ^^^ y) a b

/-- One more word of the key schedule of a 256-bit key: words newest first, the number of the new one. -/
def keyNext (w : List (List Byte)) (i : Nat) : List (List Byte) :=
  let t := w.getD 0 []
  let t :=
    if i % 8 = 0 then xorBytes ((t.drop 1 ++ t.take 1).map sbox) [BitVec.ofNat 8 (2 ^ (i / 8 - 1)), 0#8, 0#8, 0#8]
    else if i % 8 = 4 then t.map sbox
    else t
  xorBytes (w.getD 7 []) t :: w

/-- The fifteen round keys of a 256-bit key. -/
def roundKeys (key : List Byte) : List (List Byte) :=
  let w := (List.range 52).foldl (fun w i => keyNext w (i + 8)) (chunk 4 8 key).reverse
  (chunk 4 15 w.reverse).map List.flatten

/-- Where each byte of the state comes from when the rows shift: byte r of column c from column c + r. -/
def shiftRows (s : List Byte) : List Byte := (List.range 16).map fun i => s.getD ((i + 4 * (i % 4)) % 16) 0#8

/-- One column times the fixed polynomial. -/
def mixColumn (c : List Byte) : List Byte :=
  let a (i : Nat) : Nat := (c.getD (i % 4) 0#8).toNat
  (List.range 4).map fun i => BitVec.ofNat 8 (xtime (a i) ^^^ (xtime (a (i + 1)) ^^^ a (i + 1)) ^^^ a (i + 2) ^^^ a (i + 3))

/-- A round but for its key: the last round mixes no columns. -/
def aesRound (last : Bool) (s k : List Byte) : List Byte :=
  let s := shiftRows (s.map sbox)
  xorBytes (if last then s else (chunk 4 4 s).flatMap mixColumn) k

/-- The cipher of one block of 16 bytes under fifteen round keys. -/
def aesBlock (ks : List (List Byte)) (b : List Byte) : List Byte :=
  match ks with
  | [] => b
  | k :: ks => (List.range ks.length).foldl (fun s i => aesRound (i + 1 == ks.length) s (ks.getD i [])) (xorBytes b k)

/-- AES-256 of one block. -/
def aes256 (key b : List Byte) : List Byte := aesBlock (roundKeys key) b

/-! ## Galois/counter mode -/

/-- The product of two elements of GF(2^128), bit 127 of a number the first bit of its block. -/
def ghashMul (x y : Nat) : Nat :=
  ((List.range 128).foldl (fun (r : Nat × Nat) i =>
    (if nbit x (127 - i) then r.1 ^^^ r.2 else r.1, if r.2 % 2 = 1 then (r.2 / 2) ^^^ (0xE1 * 2 ^ 120) else r.2 / 2)) (0, y)).1

/-- The blocks of 16 bytes of a list, the last one padded with zeros. -/
def blocks16 (b : List Byte) : List (List Byte) := (chunk 16 (ceilDiv b.length 16) b).map fun x => x ++ List.replicate (16 - x.length) 0#8

/-- GHASH over blocks. -/
def ghash (h : Nat) (l : List (List Byte)) : Nat := l.foldl (fun y b => ghashMul (y ^^^ beNat b) h) 0

/-- The `n`-th counter block of a 96-bit IV. -/
def ctrBlock (iv : List Byte) (n : Nat) : List Byte := iv.take 12 ++ beBytes 4 n

/-- The key stream of a number of bytes, from counter 2. -/
def gcmStream (ks : List (List Byte)) (iv : List Byte) (n : Nat) : List Byte :=
  ((List.range (ceilDiv n 16)).flatMap fun i => aesBlock ks (ctrBlock iv (i + 2))).take n

/-- The tag of a ciphertext and its additional data. -/
def gcmTag (ks : List (List Byte)) (iv aad ct : List Byte) : List Byte :=
  let h := beNat (aesBlock ks (List.replicate 16 0#8))
  let s := ghash h (blocks16 aad ++ blocks16 ct ++ [beBytes 8 (8 * aad.length) ++ beBytes 8 (8 * ct.length)])
  xorBytes (beBytes 16 s) (aesBlock ks (ctrBlock iv 1))

/-- AES-256-GCM: ciphertext and tag of 16 bytes. -/
def gcmSeal (key iv aad pt : List Byte) : List Byte × List Byte :=
  let ks := roundKeys key
  let ct := xorBytes pt (gcmStream ks iv pt.length)
  (ct, gcmTag ks iv aad ct)

/-- The plaintext where the tag verifies. -/
def gcmOpen (key iv aad ct tag : List Byte) : Option (List Byte) :=
  let ks := roundKeys key
  if gcmTag ks iv aad ct = tag then some (xorBytes ct (gcmStream ks iv ct.length)) else none

end Sys2Proof
end

