-- ==== Sys2Proof/Machine/Fec.lean ====
section
/-! DEFINITION. The codewords of a Pyler port: RS(272,257) over GF(2^10), and the places of their symbols on the lanes (R341, R342). -/
namespace Sys2Proof

/-! ## GF(2^10) with x^10 + x^3 + 1 -/

/-- Multiply by α, and the product of two elements. -/
def gfAlpha (a : Nat) : Nat := if a < 512 then 2 * a else (2 * a) ^^^ 0x409
def gfMul (a b : Nat) : Nat :=
  ((List.range 10).foldl (fun (r : Nat × Nat) i => (if nbit b i then r.1 ^^^ r.2 else r.1, gfAlpha r.2)) (0, a)).1

/-- The power of an element, over the low `n` bits of the exponent. -/
def gfPow (a e : Nat) : Nat → Nat
  | 0 => 1
  | n + 1 =>
    let r := gfPow a (e / 2) n
    let r := gfMul r r
    if e % 2 = 1 then gfMul r a else r

/-- The powers of α, which has the order 1,023; and the inverse of an element that is not zero, as its power 1,022. -/
def gfAlphaPow (n : Nat) : Nat := gfPow 2 (n % 1023) 10
def gfInv (a : Nat) : Nat := gfPow a 1022 10

/-- The value of a polynomial whose coefficients stand highest degree first. -/
def gfEval (l : List Nat) (x : Nat) : Nat := l.foldl (fun y c => gfMul y x ^^^ c) 0

/-! ## The code -/

/-- Multiply by x − r: coefficients highest degree first. -/
def timesRoot (p : List Nat) (r : Nat) : List Nat := List.zipWith (fun a b => a ^^^ gfMul b r) (p ++ [0]) (0 :: p)

/-- The generator: the product of x − α^i for i = 0-14, highest degree first. -/
def rsGenerator : List Nat := (List.range 15).foldl (fun p i => timesRoot p (gfAlphaPow i)) [1]

/-- One data symbol enters the division by the generator; the remainder stands highest degree first. -/
def rsShift (r : List Nat) (d : Nat) : List Nat :=
  let f := d ^^^ r.headD 0
  List.zipWith (fun a g => a ^^^ gfMul f g) (r.drop 1 ++ [0]) (rsGenerator.drop 1)

/-- A codeword (R341): 257 data symbols, first the one of the highest degree, and their 15 check symbols. -/
def rsEncode (data : List Nat) : List Nat := data ++ data.foldl rsShift (List.replicate 15 0)

/-- The syndromes S0-S14 of a received word. -/
def rsSyndromes (w : List Nat) : List Nat := (List.range 15).map fun i => gfEval w (gfAlphaPow i)

/-- The state of the search for the error locator: the locator and the one before its last change, lowest degree first; the number of errors, the
steps since that change, and the discrepancy then. -/
structure Locator where
  c : List Nat
  b : List Nat
  len : Nat
  m : Nat
  d : Nat

/-- The exclusive or of two polynomials, lowest degree first. -/
def gfAdd (a b : List Nat) : List Nat := (List.range (max a.length b.length)).map fun i => a.getD i 0 ^^^ b.getD i 0

/-- One step of the search (Berlekamp and Massey), with the syndromes in order. -/
def Locator.step (syn : List Nat) (x : Locator) (n : Nat) : Locator :=
  let d := (List.range (x.len + 1)).foldl (fun s i => s ^^^ gfMul (x.c.getD i 0) (if i ≤ n then syn.getD (n - i) 0 else 0)) 0
  if d = 0 then { x with m := x.m + 1 }
  else
    let c := gfAdd x.c (List.replicate x.m 0 ++ x.b.map fun y => gfMul (gfMul d (gfInv x.d)) y)
    if 2 * x.len ≤ n then ⟨c, x.c, n + 1 - x.len, 1, d⟩ else { x with c := c, m := x.m + 1 }

/-- The error locator of a word, and the number of its errors. -/
def rsLocator (syn : List Nat) : Locator := (List.range 15).foldl (Locator.step syn) ⟨[1], [1], 0, 1, 1⟩

/-- The places, counted from the first symbol, at which a locator finds errors. -/
def Locator.places (x : Locator) : List Nat := (List.range 272).filter fun j => gfEval x.c.reverse (gfAlphaPow (1023 - (271 - j))) == 0

/-- The error at a place (Forney): the value of the evaluator over x times the derivative of the locator, at the inverse of the place. -/
def Locator.error (syn : List Nat) (x : Locator) (j : Nat) : Nat :=
  let xi := gfAlphaPow (1023 - (271 - j))
  let omega := (List.range 15).map fun n => (List.range (n + 1)).foldl (fun s i => s ^^^ gfMul (x.c.getD i 0) (syn.getD (n - i) 0)) 0
  let slope := x.c.mapIdx fun i c => if i % 2 = 1 then c else 0
  gfMul (gfEval omega.reverse xi) (gfInv (gfEval slope.reverse xi))

/-- A received word with its errors taken out, and their places: none where more than seven symbols are wrong (R341). -/
def rsDecode (w : List Nat) : Option (List Nat × List Nat) :=
  let syn := rsSyndromes w
  if syn.all fun x => x == 0 then some (w, [])
  else
    let x := rsLocator syn
    let ps := x.places
    let r := ps.foldl (fun w j => w.set j (w.getD j 0 ^^^ x.error syn j)) w
    if x.len ≤ 7 ∧ ps.length = x.len ∧ (rsSyndromes r).all (fun y => y == 0) = true then some (r, ps) else none

/-! ## Symbols of a flit, and their lanes -/

/-- The 257 data symbols of a codeword: the 2,560 bits of a flit, the least significant bit of byte 0 first, and the marker of codeword `c` of a pair
(R341). -/
def dataSymbols (flit : List Byte) (c pair : Nat) : List Nat :=
  let x := leNat flit
  (List.range 256).map (fun i => x / 2 ^ (10 * i) % 1024) ++ [c % 2 + 2 * (pair % 512)]

/-- The flit and the marker of 257 data symbols. -/
def flitOf (d : List Nat) : List Byte × Nat :=
  (leBytes 320 ((d.take 256).reverse.foldl (fun n x => 1024 * n + x) 0), d.getD 256 0)

/-- The logical lane and the position of symbol `s` of codeword `c` of a pair (R342). -/
def lanePlace (half : Bool) (c s : Nat) : Nat × Nat := if half then (s % 16, 17 * c + s / 16) else (2 * (s % 16) + c, s / 16)

/-- The five PAM4 symbols of a position, the least significant bits first, and back (R342). -/
def pamOf (x : Nat) : List (BitVec 2) := (List.range 5).map fun i => BitVec.ofNat 2 (x / 4 ^ i)
def symbolOf (l : List (BitVec 2)) : Nat := l.reverse.foldl (fun n x => 4 * n + x.toNat) 0

/-- What codeword `c` puts on the lanes, whose physical numbers stand in logical order: sixteen lanes with seventeen positions each. -/
def onLanes (half : Bool) (lanes : List Nat) (c : Nat) (word : List Nat) : LaneBits :=
  (List.range 16).map fun i =>
    (lanes.getD (lanePlace half c i).1 0, (List.range 17).flatMap fun j => pamOf (word.getD (16 * j + i) 0))

/-- Codeword `c` of a pair as the lanes bring it. -/
def fromLanes (half : Bool) (lanes : List Nat) (bits : LaneBits) (c : Nat) : List Nat :=
  (List.range 272).map fun s =>
    let q := lanePlace half c s
    let l := ((bits.find? fun b => b.1 == lanes.getD q.1 0).map Prod.snd).getD []
    symbolOf ((l.drop (5 * q.2)).take 5)

end Sys2Proof
end

