-- ==== Sys2Proof/Machine/Wire.lean ====
section
/-! DEFINITION. The layout of flits and packets on a Pyler link, and the protection of a flit (R343, R344, R348-R350, R357, R360). -/
namespace Sys2Proof

/-! ## Flits (R343, R344, R357) -/

/-- The 16 bytes of a flit header. -/
def FlitHdr.bytes (h : FlitHdr) : List Byte :=
  leBytes 16 (h.seq.toNat + h.ack.toNat * 2 ^ 64 + b2n h.nak * 2 ^ 96 + h.ftype.toNat * 2 ^ 97 + b2n h.kphase * 2 ^ 99
    + h.cclass.toNat * 2 ^ 100 + b2n h.cvc * 2 ^ 103 + h.ccount.toNat * 2 ^ 104)

/-- The header of a flit. -/
def FlitHdr.of (flit : List Byte) : FlitHdr :=
  let x := leNat (flit.take 16)
  { seq := BitVec.ofNat 64 x, ack := BitVec.ofNat 32 (x / 2 ^ 64), nak := nbit x 96, ftype := BitVec.ofNat 2 (x / 2 ^ 97), kphase := nbit x 99
    cclass := BitVec.ofNat 3 (x / 2 ^ 100), cvc := nbit x 103, ccount := BitVec.ofNat 11 (x / 2 ^ 104) }

/-- The key and the salt of a direction (R357); empty before the first handshake. -/
structure LinkKey where
  key : List Byte
  salt : List Byte
  deriving DecidableEq, Repr

/-- The key of a direction that has none. -/
def LinkKey.none : LinkKey := ⟨[], []⟩

/-- The IV of a flit: the salt of its direction, then its sequence number. -/
def LinkKey.iv (k : LinkKey) (seq : Word) : List Byte := k.salt ++ leBytes 8 seq.toNat

/-- The area of 288 bytes: bytes padded with zeros. -/
def areaOf (b : List Byte) : List Byte := (b ++ List.replicate (288 - b.length) 0#8).take 288

/-- A flit of 320 bytes (R343): its packet area is encrypted, its header is authenticated; in clear, without a tag, where there is no key yet. -/
def flitBytes (k : LinkKey) (h : FlitHdr) (area : List Byte) : List Byte :=
  if k = LinkKey.none then h.bytes ++ area ++ List.replicate 16 0#8
  else
    let r := gcmSeal k.key (k.iv h.seq) h.bytes area
    h.bytes ++ r.1 ++ r.2

/-- The packet area of a flit whose tag verifies under a key. -/
def openFlit (k : LinkKey) (flit : List Byte) : Option (List Byte) :=
  if k = LinkKey.none then none
  else gcmOpen k.key (k.iv (FlitHdr.of flit).seq) (flit.take 16) ((flit.drop 16).take 288) (flit.drop 304)

/-! ## Packets (R348-R350) -/

/-- The class of a packet type (R349): 0 request, 1 completion, 2 sync, 3 twin, 4 management. -/
def classOf (t : Nat) : Nat := if t = 3 then 1 else if 4 ≤ t ∧ t ≤ 6 then 2 else if t = 7 then 3 else if t = 8 then 4 else 0

/-- Whether a packet is a request: RD, WR or TWR. -/
def isRequest (k : Pkt) : Bool := k.ptype == 1 || k.ptype == 2 || k.ptype == 7

/-- The cells of a packet: its header and its data padded to 16 bytes (R348). -/
def cellsOf (k : Pkt) : Nat := 2 + ceilDiv k.data.length 16

/-- The bytes of a packet (R348). -/
def pktBytes (k : Pkt) : List Byte :=
  leBytes 8 (k.ptype.toNat + k.code.toNat * 2 ^ 4 + k.len.toNat * 2 ^ 8 + k.src.toNat * 2 ^ 16 + k.dst.toNat * 2 ^ 28 + k.tag.toNat * 2 ^ 40
      + b2n k.spur * 2 ^ 56 + k.rev.toNat * 2 ^ 57 + b2n k.vc * 2 ^ 60 + b2n k.hasData * 2 ^ 61)
    ++ leBytes 8 k.addr.toNat ++ leBytes 8 (k.epoch.toNat + b2n k.epochValid * 2 ^ 32) ++ leBytes 8 (k.hops.toNat + k.aux.toNat * 2 ^ 8)
    ++ k.data ++ List.replicate (16 * ceilDiv k.data.length 16 - k.data.length) 0#8

/-- The bits of aux that a type gives a meaning (R349). -/
def auxMask (t : Nat) : Nat :=
  if t = 4 then 0xFFFFF else if t = 5 then 0x7FF else if t = 6 then 1 else if t = 8 then 0xFFFF else 0

/-- Bits of a packet that must be zero: reserved ones, the completion code of another type, the address of a completion, what a type does not use of
aux, and the padding of the data (R348, R349; log entry 76). -/
def zeroBits (w0 w1 w2 w3 : Nat) (pad : List Byte) : Bool :=
  let t := w0 % 16
  decide (w0 < 2 ^ 62) && decide (w1 < 2 ^ 52) && decide (w2 < 2 ^ 33) && (t == 3 || w0 / 16 % 16 == 0) && (t != 3 || w1 == 0)
    && (auxMask t ||| (w3 / 256)) == auxMask t && pad.all fun x => x == 0#8

/-- The packet at the front of bytes, with the number of its cells: its data are those that len names. -/
def pktOf (b : List Byte) : Pkt × Nat :=
  let w (i : Nat) : Nat := leNat ((b.drop (8 * i)).take 8)
  let n := if nbit (w 0) 61 then w 0 / 256 % 256 + 1 else 0
  let pad := ((b.drop (32 + n)).take (16 * ceilDiv n 16 - n))
  ({ ptype := BitVec.ofNat 4 (w 0), code := BitVec.ofNat 4 (w 0 / 2 ^ 4), len := BitVec.ofNat 8 (w 0 / 2 ^ 8), src := BitVec.ofNat 12 (w 0 / 2 ^ 16)
     dst := BitVec.ofNat 12 (w 0 / 2 ^ 28), tag := BitVec.ofNat 16 (w 0 / 2 ^ 40), spur := nbit (w 0) 56, rev := BitVec.ofNat 3 (w 0 / 2 ^ 57)
     vc := nbit (w 0) 60, hasData := nbit (w 0) 61, resv := !zeroBits (w 0) (w 1) (w 2) (w 3) pad, addr := BitVec.ofNat 52 (w 1)
     epoch := BitVec.ofNat 32 (w 2), epochValid := nbit (w 2) 32, hops := BitVec.ofNat 8 (w 3), aux := BitVec.ofNat 56 (w 3 / 2 ^ 8)
     data := (b.drop 32).take n }, 2 + ceilDiv n 16)

/-- What stands next in a packet area: nothing more (with the rest all zero or not), or a packet with its cells, which may cross the end. -/
inductive NextPkt where
  | done (clean : Bool)
  | pkt (k : Pkt) (cells : Nat)
  deriving DecidableEq, Repr

/-- The next packet of an area: a cell whose first byte is zero ends them, and every later byte must be zero (R348). -/
def nextPkt (b : List Byte) : NextPkt :=
  match b with
  | [] => .done true
  | x :: rest => if x = 0#8 then .done (rest.all fun y => y == 0#8) else let r := pktOf b; .pkt r.1 r.2

end Sys2Proof
end

