-- ==== Sys2Proof/Machine/Units.lean ====
section
/-! DEFINITION. The plain data of each unit of the block, beside its registers: what the spec gives the unit to hold. -/
namespace Sys2Proof.Machine

/-- What the block sends outward or signals to firmware, in order. -/
inductive Output where
  /-- The log interrupts the cores of `ELOG_CTL.irq_cores` (R532). -/
  | logInterrupt (cores : Nat)
  /-- An accepted edge interrupts control core 0 (R559). -/
  | pinInterrupt (input : Nat)
  /-- An engine signals the control cores on entering a state (R134). -/
  | engineSignal (e : Nat) (state : Nat)
  /-- The address and bytes of a write sent to another block, and the epoch that it carries (R157, R243, R251, R333). -/
  | remoteWrite (addr : Nat) (bytes : List Byte) (epoch : Option Nat)
  /-- VOUT_COMMAND of VCORE in millivolts on the PMBus (R409). -/
  | voutCommand (mv : Nat)
  /-- A transaction is answered: its code, its detail and its data. -/
  | reply (who : Requester) (id : Nat) (code : Code) (detail : Nat) (data : List Byte)
  /-- A watch of another block is refused; the spec gives the refusal no packet form (R325). -/
  | watchRefused (block : Nat) (flag : Nat) (tag : Nat)
  /-- A flit of 320 bytes leaves a port in a codeword, whose PAM4 symbols go on its physical lanes (R341-R343). -/
  | flit (p : PortId) (bytes : List Byte) (bits : LaneBits)
  /-- A HELLO or the signature of a FINISH leaves a port in link-control flits (R356). -/
  | sendHello (p : PortId) (h : Hello)
  | sendFinish (p : PortId) (sig : List Byte)
  /-- A packet of the sync or management class is handed to its unit, from a port or from this block itself: the unit's own row says what it does
  there. -/
  | handed (p : Option PortId) (k : Pkt)
  /-- An event is raised to the control cores: a port lost its partner, a block is lost (R368, R370). -/
  | portLost (p : PortId) (partner : Nat) (cause : Nat)
  | blockLost (block : Nat)
  /-- A message, a handshake message or an alert leaves for a client; a frame leaves a Frontage port (R382-R384). -/
  | fsp (s : SlotId) (m : FspMsg)
  | helloRetry (cookie : List Byte)
  | alert (internal : Bool)
  | keyUpdate (s : SlotId)
  | frame (p : FrId) (bytes : List Byte)
  /-- The block authenticates in a handshake: its certificate chain and its signature (R385). -/
  | serverAuth (s : SlotId) (chain sig : List Byte)
  /-- The TAP shifts out a value (R514). -/
  | tap (value : Nat)
  /-- A synchronisation message reached the Roundabout's port (R313). -/
  | syncDelivered (tag : Nat)
  /-- A PMBus command of the controller: PAGE, command code, whether it reads, and the data it writes (R408, R431). -/
  | pmbus (page : Nat) (cmd : Nat) (read : Bool) (data : Nat)
  deriving DecidableEq, Repr

/-! ## The error log and the gauges (R520-R541) -/

/-- An open entry of the error log (R524). -/
structure LogEntry where
  firstT : Nat
  lastDt : Nat
  count : Nat
  source : Nat
  typ : Nat
  code : Nat
  sev : Nat
  storm : Bool
  differ : Bool
  detail : Nat
  deriving DecidableEq, Repr

/-- A masked source, with the `BTIME` at which its mask ends and the gauge that bounds it (R529). -/
structure StormMask where
  source : Nat
  endT : Nat
  gauge : Option GaugeId
  deriving DecidableEq, Repr

/-- The error log beside its registers. -/
structure Elog where
  /-- Reports waiting for acceptance, oldest first, at most 256 (R526). -/
  queue : List Report
  /-- Open entries, oldest first, at most 64 (R527). -/
  opened : List LogEntry
  /-- The millisecond of `BTIME` that is being counted, and the counts by source, at most 256 (R529). -/
  ms : Nat
  counts : List (Nat × Nat)
  masks : List StormMask
  deriving DecidableEq, Repr

/-- The statistics of one gauge period (R534-R536). -/
structure GaugeStats where
  start : Nat
  mn : Nat
  mx : Nat
  sum : Nat
  count : Nat
  late : Nat
  /-- Events seen in the period, for `decim`. -/
  events : Nat
  bins : Tbl Nat
  deriving DecidableEq, Repr

/-- A gauge beside its registers: the period being counted, the ended period that waits 2 µs for its latch (R536) with its
end, and the length and decimation in force (R537). -/
structure Gauge where
  live : GaugeStats
  ended : Option (GaugeStats × Nat)
  lenNow : Nat
  decimNow : Nat
  deriving DecidableEq, Repr

/-- A gauge period that begins at `t`. -/
def GaugeStats.fresh (t : Nat) : GaugeStats := ⟨t, 0xFFFFFFFF, 0, 0, 0, 0, 0, []⟩

/-! ## Pins (R549-R560) -/

/-- The pin unit beside its registers: the accepted level of each filtered input (0-14, 15 RESET_N, 16 VPM_PG), the edges of
each input in the present 10 ms window, and the lands that no register shows. -/
structure Pins where
  levels : Vector Bool 17
  edges : Vector Nat 15
  /-- VPM_EN driven high (R552). -/
  vpmEn : Bool
  /-- THERMTRIP_N held low (R455). -/
  thermtrip : Bool
  /-- VAON or AUX absent (R554). -/
  absent : Bool
  deriving DecidableEq, Repr

/-! ## Clocks (R459-R473) -/

/-- The parts of a step change (R464, R409). -/
inductive StepPhase where
  /-- VCORE raised, its 25 µs wait runs. -/
  | settle
  /-- The clocks may change. -/
  | pause
  deriving DecidableEq, Repr

/-- A step change in progress. -/
structure StepChange where
  target : Nat
  phase : StepPhase
  deriving DecidableEq, Repr

/-- The clock unit beside its registers. -/
structure Clock where
  /-- The 104-bit accumulator of block time, 40 fraction bits (R470). -/
  acc : Nat
  /-- Cycles of the 1 GHz time clock since the whole-block reset ended, which no step moves (R470, R479). -/
  ticks : Nat
  /-- The integral term f of R471. -/
  integral : Int
  change : Option StepChange
  /-- Steps whose Crosswalk taps have been verified or calibrated since start-up (R468). -/
  verified : List Nat
  /-- VCORE set point and region voltage in millivolts (R409, R463). -/
  vcoreMv : Nat
  regionMv : Nat
  deriving DecidableEq, Repr

/-! ## Engines (R107-R149) -/

/-- A loop register with its recorded bounds (R113). -/
structure LoopReg where
  count : Nat
  start : Nat
  stop : Nat
  deriving DecidableEq, Repr

/-- The queues of the sequencer (R108). -/
inductive Unt where
  | seq | array | vector | sfn | nrm | stream | bau | sync
  deriving DecidableEq, Repr

/-- A capture to be joined to a scale record: address, update op (R215) and what was captured (R68). -/
structure CapReq where
  addr : Nat
  op : Nat
  cap : Capture
  deriving DecidableEq, Repr

/-- An instruction in flight. -/
structure Entry where
  id : Nat
  /-- The engine that runs it, and its index (R107). -/
  eng : EngineId
  idx : Nat
  word : IWord
  unit : Unt
  /-- S registers and tensor descriptors copied at issue (R110). -/
  sr : Vector Word 32
  tr : Vector TDesc 64
  /-- The applied epoch at issue (R141). -/
  epoch : Nat
  /-- Stream engines granted (R151), result-buffer space reserved (R165). -/
  granted : Bool
  reserved : Bool
  /-- Operands read by STREAM_READ_RETURN, by operand slot. -/
  operands : List (Nat × Tensor)
  /-- Bytes read that are no tensor: lists, images, records, scalars. -/
  raw : List (Nat × List Byte)
  /-- The unit has done its work. -/
  done : Bool
  code : Code
  detail : Nat
  /-- Results in the result buffer, and the capture for the scale record. -/
  writes : Writes
  cap : Option CapReq
  /-- It has begun writing its destination (R132). -/
  wrote : Bool
  /-- INSTRUCTION_COMPLETE has happened (R166). -/
  completed : Bool
  /-- For SYNC: the generation waited for, and whether an arrival, answer or watch stands out. -/
  gen : Option Nat
  sent : Bool
  deriving DecidableEq, Repr

/-- A released drain (R166-R168): the writes left, the scale record to update last, the ranges of its destination, which count until it has
finished, and the epoch that the writes of an attention instruction carry (R333). -/
structure Drain where
  id : Nat
  idx : Nat
  writes : Writes
  cap : Option CapReq
  failed : Bool
  rngs : List Rng
  epoch : Option Nat
  deriving DecidableEq, Repr

/-- The last matrix instruction in the array (R94). -/
structure AccState where
  batch : Nat
  m : Nat
  n : Nat
  int : Bool
  /-- It was output-stationary; it was neither faulted nor cancelled. -/
  os : Bool
  ok : Bool
  deriving DecidableEq, Repr

/-- The shadow weight registers of the array (R80, R86, R93): nothing, the stationary tile of a later instruction, or the finished accumulators
of an output-stationary one that drain. -/
inductive Shadow where
  | empty
  | tile (id : Nat) (t : Tensor)
  | drain (accs : List Acc1)
  deriving DecidableEq, Repr

/-- A table bank: valid slots as bits, and the image they came from (R190). -/
structure SfnBank where
  valid : Nat
  img : List Byte
  deriving DecidableEq, Repr

/-- The forward of a Ring Road step. -/
inductive RingFwd where
  | none | started | done
  deriving DecidableEq, Repr

/-- A running ATT.RING (R241, R243). -/
structure Ring where
  id : Nat
  record : Nat
  prev : Nat
  next : Nat
  length : Nat
  position : Nat
  stride : Int
  step : Nat
  attended : Bool
  fwd : RingFwd
  running : List AttRow
  deriving DecidableEq, Repr

/-- A context record in transfer (R136, R138). -/
inductive CtxJob where
  | write | read
  deriving DecidableEq, Repr

/-- The phase of a broadcast (R285): the recall, the check pass, the main pass. -/
inductive BcPhase where
  | recall
  | check
  | main
  deriving DecidableEq, Repr

/-- A bank's sequence in the present pass of a broadcast (R281, R284): steps done, the working latch, the sixteen lanes of a reduction
(R296), the largest magnitudes of the two moments (R301), and whether it has finished or ended by an error. -/
structure BankSeq where
  pos : Nat
  latch : List Nat
  lanes : List Val
  mMax : Val
  vMax : Val
  fin : Bool
  err : Bool
  deriving DecidableEq, Repr

/-- A sequence that has not begun. -/
def BankSeq.start : BankSeq := ⟨0, [], [], Val.zero, Val.zero, false, false⟩

/-- A broadcast that a port has accepted and that has not finished (R284-R288). -/
structure Broadcast where
  id : Nat
  idx : Nat
  op : Nat
  /-- Operand words S[sa], S[sb], S[sc], S[sd] (R289). -/
  a : Nat
  b : Nat
  c : Nat
  d : Nat
  /-- The source bank of an inter-bank copy (R294). -/
  src : Option Nat
  /-- Addressed banks, in increasing order. -/
  banks : List Nat
  /-- The OPT record as read (R298). -/
  opt : List Byte
  phase : BcPhase
  /-- Waves of the present pass that are released (R286). -/
  released : List Nat
  seqs : Tbl BankSeq
  /-- Check-pass failures: bank, slot, index, expected tag (R287), and banks whose check read failed. -/
  skews : List (Nat × Nat × Nat × Nat)
  bads : List Nat
  /-- Layers to which the bus carried the OPT parameters, and layers whose results it gathered (R297). -/
  sent : List Nat
  gathered : List Nat
  /-- Inter-bank copy: the unit last read from the source, its bytes, and whether the bus has carried them (R294). -/
  srcPos : Nat
  bus : Option (List Byte)
  busGone : Bool
  /-- Its instruction has completed; its engine was reset meanwhile (R309). -/
  complete : Bool
  orphan : Bool
  deriving DecidableEq, Repr

/-- An engine beside its registers. -/
structure Engine where
  s : Vector Word 32
  t : Vector TDesc 64
  p : Vector Bool 8
  l : Vector LoopReg 4
  cfg : Vector Word 8
  imem : Tbl IWord
  /-- Pages that hold no valid instructions, and pages that are loading (R129). -/
  pageBad : Vector Bool 16
  pageLoading : Vector Bool 16
  inflight : List Entry
  nextId : Nat
  drains : List Drain
  /-- Drain failures not delivered yet, oldest first (R168). -/
  fails : List Code
  /-- The first fault, from the moment it arises until FAULTED (R132). -/
  bound : Option Word
  ctx : Option CtxJob
  /-- Index and opcode of the yield at which the engine suspends, or suspended (R136, R138). -/
  yieldAt : Option Nat
  pgLoad : Option (Nat × Nat × Nat)
  acc : Option AccState
  /-- The accumulators at their last value, with their saturation flags, in the order of the output; cells beyond the list hold +0, as every cell does
  at reset (R77, R80; log entry 65). -/
  accs : List Acc1
  /-- The active weight registers: the stationary operand that the array last swapped in; none, every cell zero, at reset (R80, R86; log entry 65). -/
  weights : Option Tensor
  shadow : Shadow
  sfnActive : SfnBank
  sfnShadow : SfnBank
  ring : Option Ring
  inReset : Bool
  mappedOut : Bool
  dramOut : Bool
  /-- The fallback mode of R246. -/
  fallback : Bool
  /-- Generations of the engine's arrivals, by barrier (R322). -/
  arrivals : List (Nat × Nat)
  /-- The next index lies beyond the last one (R130); the recorded fault came from a fetch. -/
  beyond : Bool
  boundFetch : Bool
  /-- Broadcasts that the port holds, in issue order, and step errors not delivered yet: broadcast, bank (0x7FF for a result), code
  and detail core (R308). -/
  bcs : List Broadcast
  bauErrs : List (Nat × Nat × Code × Nat)
  /-- Requests to the Roundabout and to other blocks' flags that had left when the engine was reset: they run to completion, and their answers are
  discarded (R329). -/
  orphans : List Entry
  deriving DecidableEq, Repr

/-- An engine as R114 leaves it for a start, with nothing in flight and every table empty. An instruction word that nothing has loaded reads 0, a CTL.NOP
without a parity error (R107; DESIGN CHOICE, log entry 84). -/
def Engine.fresh : Engine :=
  { s := Vector.replicate 32 0#64, t := Vector.replicate 64 0#256, p := Vector.replicate 8 false, l := Vector.replicate 4 ⟨0, 0, 0⟩
    cfg := (Vector.replicate 8 0#64).set 1 1000#64, imem := [], pageBad := Vector.replicate 16 false
    pageLoading := Vector.replicate 16 false, inflight := [], nextId := 0, drains := [], fails := [], bound := none, ctx := none
    yieldAt := none, pgLoad := none, acc := none, accs := [], weights := none, shadow := .empty, sfnActive := ⟨0, []⟩, sfnShadow := ⟨0, []⟩, ring := none, inReset := false
    mappedOut := false, dramOut := false, fallback := false, arrivals := [], beyond := false, boundFetch := false, bcs := [], bauErrs := []
    orphans := [] }

/-- The registers of R113 and the configuration at their values for a start (R114, R139). -/
def Engine.clearRegs (g : Engine) : Engine :=
  { g with s := Vector.replicate 32 0#64, t := Vector.replicate 64 0#256, p := Vector.replicate 8 false
           l := Vector.replicate 4 ⟨0, 0, 0⟩, cfg := (Vector.replicate 8 0#64).set 1 1000#64 }

/-! ## Phase hints (R422, R423) -/

/-- The last hint that an engine delivered: its kind, lead and duration in microseconds, the `BTIME` of its arrival, whether its phase counts
for the VPM hints (active, or starting within 10 µs), and whether it has been pre-staged. -/
structure Hint where
  kind : Nat
  lead : Nat
  duration : Nat
  arrived : Nat
  near : Bool
  staged : Bool
  deriving DecidableEq, Repr

/-- A hint that an engine issued: its kind, lead and duration, and the `BTIME` of its issue. -/
structure Announce where
  kind : Nat
  lead : Nat
  duration : Nat
  issued : Nat
  deriving DecidableEq, Repr

/-- The hints of an engine: the last delivered one, and one that waits until 1 µs has passed without another (R140). -/
structure Hints where
  last : Option Hint
  next : Option Announce
  deriving DecidableEq, Repr

/-! ## Landings, banks and squares (R252-R279) -/

/-- A bank: open row, refreshes owed, next row to refresh (R255, R259, R261), and whose turn it is. -/
structure Bank where
  openRow : Option Nat
  owed : Nat
  next : Nat
  /-- The port that the bank serves next where several wait: vertical channels 0-127, and 128 for the square port (R254). -/
  turn : Nat
  deriving DecidableEq, Repr

/-- A bank with no row open that owes nothing. -/
def Bank.idle : Bank := ⟨none, 0, 0, 0⟩

/-- Patrol scrub of an engine's banks: the bank read next in the present row (R270), and when that read is due, in units of 1/(2,048·1,568) of a
nanosecond of `BTIME` (R262). -/
structure ScrubAt where
  bank : Nat
  due : Nat
  deriving DecidableEq, Repr

/-- The replacement class of a line (R169, R266). -/
inductive LineClass where
  | normal | keep | transient
  deriving DecidableEq, Repr

/-- A cached line (R263): its physical sector, way, class and state, and when it was last used. Its data is the block's one value
of those bytes (R269). -/
structure Line where
  sector : Nat
  way : Nat
  cls : LineClass
  dirty : Bool
  poison : Bool
  used : Nat
  deriving DecidableEq, Repr

/-- An access that waits at a landing for its bank (R253, R254, R262): its port, and whether it is the read of a fill, which returns by
PLAZA_FILL_DONE. -/
structure LandReq where
  eng : EngineId
  req : MemReq
  port : Nat
  fill : Bool
  deriving DecidableEq, Repr

/-- A fill that a square waits for: the request, the sector, and the class that its line takes, as the policy was when the access began
(R169). -/
structure Fill where
  req : MemReq
  sector : Nat
  cls : LineClass
  deriving DecidableEq, Repr

/-- A square beside its registers. -/
structure Square where
  lines : List Line
  fills : List Fill
  clock : Nat
  /-- Ways in service, by number. -/
  ways : List Nat
  /-- Direct-window bytes whose parity fails, and the 8-byte words of them already logged (R171). -/
  badBytes : List Nat
  logged : List Nat
  /-- Lines that were dirty when a flush began (R279). -/
  flushing : List Nat
  flushInv : Bool
  /-- The number of window ways before a change in progress. -/
  oldWays : Nat
  deriving DecidableEq, Repr

/-- A square with every way in service and nothing in it. -/
def Square.fresh : Square := ⟨[], [], 0, List.range 16, [], [], [], false, 0⟩

/-! ## The Roundabout (R321-R325) -/

/-- A barrier beside `AV_BAR_CFG`: the count kept for the next generation, the blocks whose arrival was counted in this one, and whether the
arrival for this generation was sent to the parent. -/
structure Bar where
  next : Nat
  children : List Nat
  parentSent : Bool
  deriving DecidableEq, Repr

/-- A watch from another block (R324, R325). -/
structure Watch where
  flag : Nat
  block : Nat
  forSet : Bool
  /-- The tag that its answer brings back. -/
  tag : Nat
  deriving DecidableEq, Repr

/-! ## Pyler ports (R339-R376) -/

/-- A flit in the replay buffer: its header, its packet area and the key that protects it, which give the same bytes each time it is sent; and how
often it has been replayed (R345). -/
structure SentFlit where
  hdr : FlitHdr
  area : List Byte
  key : LinkKey
  replays : Nat
  deriving DecidableEq, Repr

/-- The bytes of a flit in the replay buffer. -/
def SentFlit.bytes (f : SentFlit) : List Byte := flitBytes f.key f.hdr f.area

/-- A packet queued for a port: the port that it came in on (none: this block sends it), the packet before its routing, and as it leaves
(R352-R355). -/
structure OutPkt where
  inp : Option PortId
  orig : Pkt
  out : Pkt
  deriving DecidableEq, Repr

/-- A lane repair under way (R365): the physical lane, the spare (none: half width), and the codeword pair at which both ends switch. -/
structure LaneRepair where
  old : Nat
  spare : Option Nat
  pair : Nat
  deriving DecidableEq, Repr

/-- The key store of a port (R356-R358): the keys in force, the receiving key before the last change with the first sequence number after it, and the
keys of a new handshake with the sequence numbers at which each direction changes to them; this block's HELLO and ephemeral private key of the
handshake in progress. -/
structure KeyStore where
  tx : LinkKey
  rx : LinkKey
  prev : Option LinkKey
  first : Nat
  nextTx : Option (LinkKey × Nat)
  nextRx : Option (LinkKey × Nat)
  mine : Option Hello
  scalar : Nat
  deriving DecidableEq, Repr

/-- The key store before the first handshake. -/
def KeyStore.empty : KeyStore := ⟨LinkKey.none, LinkKey.none, none, 0, none, none, none, 0⟩

/-- A port beside its registers. Credits and buffers count 16-byte cells by 2·class + channel. -/
structure Port where
  /-- Next sequence numbers to send and to accept (R344, R345). -/
  txSeq : Nat
  rxNext : Nat
  nakSent : Bool
  /-- Flits not acknowledged yet, oldest first, at most 1,024. -/
  replay : List SentFlit
  txq : List OutPkt
  txCred : Vector Nat 10
  /-- Credits returned to the partner and not used yet; cells of the receive buffers free and not promised; the time of the last return of
  credits (R347, R362). -/
  rxCred : Vector Nat 10
  rxFree : Vector Nat 10
  credT : Vector Nat 10
  /-- Key phases, and the first sequence number of the sending phase (R358). -/
  kphaseTx : Bool
  kphaseRx : Bool
  phaseStart : Nat
  /-- `BTIME` of the tag failures of the last 1 ms (R359). -/
  tagFails : List Nat
  /-- Flits sent since the last idle flit (R346). -/
  sinceIdle : Nat
  /-- The partner's HELLO of the handshake in progress, and whether that runs beside traffic (R356, R358). -/
  hello : Option Hello
  rekeying : Bool
  keys : KeyStore
  /-- Codewords sent, and codeword pairs received, modulo 1,024 and 512 (R341). -/
  txWord : Nat
  rxPair : Nat
  /-- Physical lanes mapped out in each direction: two at full width, up to eighteen at half width (R340, R363). -/
  rxOut : List Nat
  txOut : List Nat
  /-- The equaliser settings in use, as the port record holds them (R364). -/
  eq : List Byte
  /-- Symbols corrected in this millisecond, by logical lane (R365). -/
  laneErrs : Tbl Nat
  /-- The measured asymmetry in 1/16 ns (R363). -/
  asym : Int
  /-- The present training uses the memo record; it ended with too few good lanes (R363, R364). -/
  warm : Bool
  failed : Bool
  /-- The training came out at half width. -/
  narrow : Bool
  repair : Option LaneRepair
  /-- The transmit lane that the partner replaces (0x3F: half width), and the codeword pair at which this port follows (R365). -/
  follow : Option (Nat × Nat)
  /-- Requests and completions for this block that passed the Tollgate, oldest first (R360). -/
  inq : List Pkt
  compq : List Pkt
  /-- The millisecond in which a Tollgate failure was last logged (R360). -/
  tollMs : Option Nat
  deriving DecidableEq, Repr

/-- A port that has no partner. -/
def Port.fresh : Port :=
  { txSeq := 0, rxNext := 0, nakSent := false, replay := [], txq := [], txCred := Vector.replicate 10 0, rxCred := Vector.replicate 10 0
    rxFree := Vector.replicate 10 0, credT := Vector.replicate 10 0, kphaseTx := false, kphaseRx := false, phaseStart := 0, tagFails := []
    sinceIdle := 0, hello := none, rekeying := false, keys := KeyStore.empty, txWord := 0, rxPair := 0, rxOut := [], txOut := [], eq := [], laneErrs := []
    asym := 0, warm := false, failed := false, narrow := false, repair := none, follow := none, inq := [], compq := [], tollMs := none }

/-- A piece of an access of this block that is outstanding (R350): its tag, its requester with its own number for the access, the router from whose
Floor port it came and its plane (none: the command names its way), the access that it is a piece of, the port that it left through, its destination,
and its completion once that has come: code, detail and data. -/
structure OutReq where
  tag : Nat
  who : Requester
  id : Nat
  via : Option (SquareId × Fin 2)
  access : Nat
  port : Option PortId
  dst : Nat
  reply : Option (Code × Nat × List Byte)
  deriving DecidableEq, Repr

/-- The Floor router, the lost-partner logic and the time client (R350, R369, R373). -/
structure Net where
  ports : Vector Port 8
  outs : List OutReq
  /-- The number of the next access; accesses count from 2^32, so that none has the number of an instruction. -/
  nextAccess : Nat
  /-- Partners whose port was lost and whose fate is being decided. -/
  suspects : List Nat
  /-- The TIME request that stands out: t1. -/
  t1 : Option Nat
  /-- Whether an exchange has been made, and exchanges in a row with an offset below 1 ns. -/
  timed : Bool
  goodRuns : Nat
  /-- Packets for which there was no way, that are neither requests nor answers to one (R354). -/
  dropped : Nat
  /-- Where the turn of the inputs stands at each output of the Avenue routers, by router, plane, output and class: the input served last, and how
  often in a row (R314). -/
  turns : Tbl (Nat × Nat)
  deriving DecidableEq, Repr

/-- The links at reset. -/
def Net.fresh : Net := ⟨Vector.replicate 8 Port.fresh, [], 2 ^ 32, [], none, false, 0, 0, []⟩

/-! ## Start-up (R474-R497) -/

/-- A defect recorded by the fuse list or by an effective repair entry of the ledger: its kind and its location (R485-R487). -/
structure Defect where
  kind : Nat
  loc : Nat
  deriving DecidableEq, Repr

/-- The start-up controller and the control cores beside their registers. -/
structure Boot where
  /-- The always-on reset is in force; RESET_N, a lost reference, or a trip or Floor slice loss keeps the block in its whole-block reset. -/
  aonReset : Bool
  holdN : Bool
  holdRef : Bool
  holdAon : Bool
  /-- The flash offset of the training memo in use: none on a cold start. -/
  memo : Option Nat
  /-- Defects whose repairs are in force (R485). -/
  defects : List Defect
  /-- Lanes that the fuse list and the ledger map out: port, transmit or not, physical lane (R485). -/
  lanes : List (Nat × Bool × Nat)
  /-- Flash offset of the boot image that runs, and the configuration image's security version when it verified (R482, R504). -/
  image : Option Nat
  cfgSvn : Nat
  /-- Control cores that stay disabled (R491), and those that run firmware. -/
  coresOff : Vector Bool 4
  firmware : Bool
  /-- Watchdog: `BTIME` of its last restart (R497). -/
  kicked : Nat
  /-- What a seal and an append work on, as their go found it: the source of the body, the kind and the location (R488, R494, R561). -/
  memoSrc : Nat
  append : Nat × Nat
  deriving DecidableEq, Repr

/-- The start-up controller in the always-on reset. -/
def Boot.fresh : Boot :=
  { aonReset := true, holdN := false, holdRef := false, holdAon := false, memo := none, defects := []
    lanes := [], image := none, cfgSvn := 0, coresOff := Vector.replicate 4 false, firmware := false, kicked := 0
    memoSrc := 0, append := (0, 0) }

/-! ## Trust (R498-R519) -/

/-- A mailbox operation that was started, with the fields that stood then (R517, R561). -/
structure SecReq where
  op : Nat
  param : Nat
  src : Nat
  dst : Nat
  deriving DecidableEq, Repr

/-- A mailbox operation that has been done and waits for its completion: code and bytes written (R517). -/
structure SecJob where
  code : Code
  len : Nat
  deriving DecidableEq, Repr

/-- The security unit beside its registers. -/
structure Sec where
  /-- OTP words of 32 bits by number (R499). -/
  otp : Tbl (BitVec 32)
  /-- MR0-MR7 (R509). -/
  mrs : Vector (List Byte) 8
  /-- The operation that runs, what it has done, and how many signatures were made. -/
  req : Option SecReq
  job : Option SecJob
  signed : Nat
  /-- CDI, from which the alias key comes, and the alias certificate (R511); empty before the end of stage 10. -/
  cdi : List Byte
  cert : List Byte
  /-- What the TAP shifted out last (R514). -/
  tapOut : Nat
  deriving DecidableEq, Repr

/-- The security unit with clear measurements over an OTP array. -/
def Sec.fresh (otp : Tbl (BitVec 32)) : Sec := ⟨otp, Vector.replicate 8 (List.replicate 48 0), none, none, 0, [], [], 0⟩

/-! ## Frontage (R377-R404) -/

/-- The phase of a session (R392); a slot without a session is free. -/
inductive SessPhase where
  | free | handshake | established | owner | observer
  deriving DecidableEq, Repr

/-- A session (R389, R392, R393). -/
structure Session where
  phase : SessPhase
  cid : Nat
  /-- The public key of the client's certificate, and the address, MAC and UDP port of the client (R380, R385). -/
  key : List Byte
  ip : Nat
  mac : Nat
  port : Nat
  /-- The traffic secrets of the two directions (R381, R386). -/
  rxSecret : List Byte
  txSecret : List Byte
  keepalive : Nat
  rto : Nat
  rtoOpen : Nat
  /-- Last seq acted on, next seq to send, and messages sent and not acknowledged with their resends, oldest first. -/
  rxSeq : Nat
  txSeq : Nat
  unacked : List (FspMsg × Nat)
  /-- Messages that wait for the window of 64, oldest first: type, op and body. -/
  waiting : List (Nat × Nat × List Byte)
  /-- Records sent and received under the present keys (R386). -/
  sent : Nat
  received : Nat
  deriving DecidableEq, Repr

/-- A free slot. -/
def Session.none : Session :=
  { phase := .free, cid := 0, key := [], ip := 0, mac := 0, port := 0, rxSecret := [], txSecret := [], keepalive := 10000, rto := 2000
    rtoOpen := 2000, rxSeq := 0, txSeq := 1, unacked := [], waiting := [], sent := 0, received := 0 }

/-- The token buckets of a port (R402): encrypted bytes and raw bytes in quarters of a byte, encrypted and raw datagrams in units of 10^-5, and the
`BTIME` of the last refill. -/
structure Buckets where
  bytes : Nat
  dgrams : Nat
  rawBytes : Nat
  rawDgrams : Nat
  t : Nat
  deriving DecidableEq, Repr

/-- Full buckets: a burst of 64 KiB or 64 datagrams. -/
def Buckets.full : Buckets := ⟨262144, 6400000, 262144, 6400000, 0⟩

/-- The states of an operation (R397). -/
inductive OpPhase where
  | queued | loading | running | suspending | suspended | cancelling | done
  deriving DecidableEq, Repr

/-- An operation (R395-R398). -/
structure Operation where
  id : Nat
  engines : List EngineId
  pgSrc : Nat
  page : Nat
  count : Nat
  entry : Nat
  flags : Nat
  args : List Nat
  ctxBase : Nat
  inAddr : Nat
  outAddr : Nat
  inline : List Byte
  outLen : Nat
  tag : Nat
  phase : OpPhase
  /-- The session that submitted it, while it lasts (R394). -/
  slot : Option SlotId
  /-- Engines were started; `BTIME` of the first start. -/
  started : Bool
  tStart : Nat
  /-- A suspend recorded during loading (R399), the code that ends it, and the engines that faulted with `ENG_FAULT`. -/
  suspendAsked : Bool
  code : Option Code
  faulted : List (Nat × Nat)
  deriving DecidableEq, Repr

/-- The Frontage: the token buckets of the ports; in firmware, sessions by slot, operations in increasing ID, the next ID, held RESULTs, and what was dropped or discarded. -/
structure Front where
  buckets : Vector Buckets 2
  sessions : Vector Session 64
  ops : List Operation
  nextOp : Nat
  held : List (Nat × List Byte)
  dropped : Nat
  discarded : Nat
  deriving DecidableEq, Repr

/-- The Frontage firmware at a whole-block reset. -/
def Front.fresh : Front := ⟨Vector.replicate 2 Buckets.full, Vector.replicate 64 Session.none, [], 1, [], 0, 0⟩

/-! ## Temperature (R434-R458) -/

/-- The rounds that the step limit, the fallback of a region and the coolant alarms count (R440, R451, R452). -/
structure FallbackCount where
  /-- Control temperatures of the last two rounds, newest first. -/
  temps : List Val
  sevens : Nat
  below : Nat
  deriving DecidableEq, Repr

/-- The thermal controller beside its registers. -/
structure Thermal where
  /-- Temperatures of the 960 nodes, empty before the first round (R446). -/
  nodes : List (BitVec 32)
  /-- Coefficients of the configuration image, 16 words for each node; empty: the fused default set (R445, R484). -/
  coefs : List (BitVec 32)
  /-- Rounds in a row with an invalid reading, by sensor (diodes 0-751, thermistors 752-757), and with a reading below P by more than 12 degrees
  (R442, R443). -/
  invalid : Tbl Nat
  low : Tbl Nat
  /-- `BTIME` in microseconds of the last two edges of FLOW, newest first, and whether 1 s has passed since the last (R437). -/
  edges : List Nat
  flowStopped : Bool
  inletRounds : Nat
  outletRounds : Nat
  flowRounds : Nat
  /-- Memory level of each column (R449). -/
  memLevels : Vector Nat 40
  fallback : Vector FallbackCount 120
  /-- Rounds in a row with 20 or more engines at level 5 or more, and with a Floor level of 1 or more; rounds since the last lowering; rounds in a
  row that ask for a higher limit (R451). -/
  hot : Nat
  hotFloor : Nat
  sinceLow : Nat
  cool : Nat
  deriving DecidableEq, Repr

/-- The thermal controller at reset. -/
def Thermal.fresh : Thermal :=
  ⟨[], [], [], [], [], false, 0, 0, 0, Vector.replicate 40 0, Vector.replicate 120 ⟨[], 0, 0⟩, 0, 0, 4, 0⟩

/-! ## Power (R405-R433) -/

/-- A turn-on (R420): none, waiting for its turn in the column, waiting for the segment, in its inrush window, whose end is given in cycles of the
time clock (`late`: after the whole 200 µs wait), or starting its clock. -/
inductive WakePhase where
  | none | queued | waiting
  | closing (late : Bool) (stop : Nat)
  | starting
  deriving DecidableEq, Repr

/-- Whether a turn-on holds the turn of its column: it waits for the segment, or has not finished its inrush window (R420). -/
def WakePhase.holdsTurn : WakePhase → Bool
  | .waiting | .closing _ _ => true
  | _ => false

/-- Whether a turn-on has passed its wait: its switches close, or its clock starts. -/
def WakePhase.goesOn : WakePhase → Bool
  | .closing _ _ | .starting => true
  | _ => false

/-- A power region beside its registers. -/
structure Region where
  phase : WakePhase
  /-- Zeroing after OFF (R418). -/
  clearing : Bool
  /-- The stamp of `vmin`, and the millisecond of the last logged droop (R421). -/
  vminT : Nat
  droopLog : Option Nat
  droopSkip : Bool
  /-- The inrush skipping of R420. -/
  inrush : Bool
  /-- Consecutive reports above the ceiling (R424). -/
  overs : Nat
  /-- A square region above its ceiling takes requests on every other cycle (R424). -/
  halfRate : Bool
  /-- Half of the healthy slices carry the load (R414). -/
  shed : Bool
  /-- A square whose group lost a second slice writes its dirty lines back before it goes dark (R417). -/
  dying : Bool
  deriving DecidableEq, Repr

/-- A region at rest. -/
def Region.fresh : Region := ⟨.none, false, 0, none, false, false, 0, false, false, false⟩

/-- One microsecond of telemetry: power in units of 50 µW, and the currents of VCORE and VMEM in units of 0.1 A (R425). -/
structure PwrSample where
  p : Nat
  core : Nat
  mem : Nat
  deriving DecidableEq, Repr

/-- The power controller beside its registers. -/
structure Power where
  regions : Vector Region 120
  /-- VMEM groups that run on half of their slices (R414). -/
  vmShed : Vector Bool 40
  /-- The sequence number of the last accepted frame, and frames accepted in a row since a retry (R411). -/
  lastSeq : Option Nat
  retry : Option Nat
  /-- Samples, newest first, at most 10,000 (R425). -/
  samples : List PwrSample
  /-- Energy below 1 µJ in units of 50 pJ (R429). -/
  frac : Nat
  /-- Evaluations since the last rise while a 10 ms average exceeds its limit, and since every average fell below 97 % (R426). -/
  ups : Nat
  under : Nat
  /-- Milliseconds of the last logged rise and of the last logged frame fault (R411, R426). -/
  capLog : Option Nat
  faultLog : Option Nat
  /-- Whether the mailbox transaction that runs is a read, and of two bytes (R431, R561). -/
  pmb : Bool × Bool
  deriving DecidableEq, Repr

/-- The power controller at reset. -/
def Power.fresh : Power :=
  ⟨Vector.replicate 120 Region.fresh, Vector.replicate 40 false, none, none, [], 0, 0, 0, none, none, (false, false)⟩

end Sys2Proof.Machine
end

