-- ==== Sys2Proof/Machine/State.lean ====
section
/-! DEFINITION. The state of the block, why a command can stop, and the state right after the always-on reset. -/
namespace Sys2Proof.Machine

/-- Why the block stops. -/
inductive Fault where
  /-- The block has no VAON or AUX (R554): raised by the start-up events of an absent block. Safe: an absent block does nothing. -/
  | noPower
  deriving DecidableEq, Repr

/-- Why a command has no meaning in a state. -/
inductive Refusal where
  /-- The command has no meaning yet: raised by the arms of Dispatch.lean alone. Safe. -/
  | notModelled (mnemonic : String)
  /-- A TAP instruction other than the four that R514 describes, in OPEN or DEBUG: it acts on a debug unit that the spec does not describe. Raised by
  TAP_BYPASS. Safe. -/
  | tapInstruction (ir : Nat)
  /-- The event cannot occur in this state (a completion of an access that nobody made, the end of a wait that nobody waits): raised by the
  meanings of events. Safe: the model answers no next state for what the spec gives no occasion to happen. -/
  | notEnabled (why : String)
  deriving DecidableEq, Repr

/-- The state of the block: what the spec names, and the commands that wait. -/
structure State where
  /-- Registers of control space by their offset (R32, R36); one that is not listed holds its reset value. -/
  regs : Tbl Word
  /-- Bytes of every memory by physical key, in canonical form; one that is not listed reads as `memDefault`. -/
  mem : List Host.Cell
  clock : Clock
  pins : Pins
  /-- Engines E00-E79 (R16). -/
  engines : Vector Engine 80
  /-- The hints of each engine (R140, R422). -/
  hints : Vector Hints 80
  /-- Banks that are not idle, by 2,048·engine + bank. -/
  banks : Tbl Bank
  /-- What the on-die code finds in a 128-bit word of DRAM that is not clean: 1 a single-bit error, 2 uncorrectable, 3 poison, by
  bank-linear offset div 16 (R252, R272, R273). -/
  marks : Tbl Nat
  /-- Accesses that wait at the landings, oldest first (R254, R262). -/
  landq : List LandReq
  /-- Where patrol scrub stands, by engine (R262, R270). -/
  scrubAt : Vector ScrubAt 80
  /-- Rows that a spare replaces, by bank-linear row: the number of the spare, 1,536-1,567, or 0 for none (R252, R275). -/
  spareRow : Tbl Nat
  squares : Vector Square 40
  /-- Packets in the Avenue mesh, in order of arrival at their routers, and packets delivered to an engine that have not completed (R314-R320,
  R329). -/
  mesh : List MeshPkt
  parked : List MeshPkt
  /-- Barriers 0-63 and the watches of other blocks, in order of arrival (R321-R325). -/
  bars : Vector Bar 64
  watches : List Watch
  /-- Units already logged as late for the committed epoch (R334). -/
  lateLogged : List Nat
  /-- Crosswalk taps (plus 1; 0 before calibration) and margins by bundle and step (R326, R327, R468, R563). -/
  taps : Tbl Nat
  margins : Tbl Nat
  power : Power
  net : Net
  boot : Boot
  sec : Sec
  front : Front
  thermal : Thermal
  elog : Elog
  gauges : Vector Gauge 64
  /-- What the block sent outward or signalled to firmware, in order. -/
  outbox : List Output
  /-- The model's own: the number of free values drawn so far. -/
  drawn : Nat
  /-- Commands that wait, first in, first out. -/
  pending : List Instr
  deriving DecidableEq, Repr

/-- A gauge at reset: a period of one second, no samples (R541). -/
def Gauge.fresh : Gauge := ⟨GaugeStats.fresh 0, none, 1000000000, 0⟩

/-- The pins at the always-on reset: the numbered inputs at their inactive levels, RESET_N high, VPM_PG low, VPM_EN driven low (R549,
R552, R554). -/
def Pins.fresh : Pins :=
  { levels := Vector.ofFn fun i => decide (1 ≤ i.val ∧ i.val ≤ 6) || i.val == 15
    edges := Vector.replicate 15 0, vpmEn := false, thermtrip := false, absent := false }

/-- The clock unit at reset: `BTIME` 0, no step change in progress, no rail commanded (R470, R471). -/
def Clock.fresh : Clock := ⟨0, 0, 0, none, [], 0, 0⟩

/-- The error log at reset. -/
def Elog.fresh : Elog := ⟨[], [], 0, [], []⟩

/-- The block right after the always-on reset: every register at its reset value, nothing in any queue, every memory unwritten. -/
def State.reset : State :=
  { regs := [], mem := [], clock := Clock.fresh, pins := Pins.fresh, engines := Vector.replicate 80 Engine.fresh
    hints := Vector.replicate 80 ⟨none, none⟩, banks := [], marks := [], landq := [], scrubAt := Vector.replicate 80 ⟨0, 0⟩, spareRow := []
    squares := Vector.replicate 40 Square.fresh, mesh := [], parked := [], bars := Vector.replicate 64 ⟨0, [], false⟩, watches := []
    lateLogged := [], taps := [], margins := [], power := Power.fresh, net := Net.fresh, boot := Boot.fresh, sec := Sec.fresh []
    front := Front.fresh, thermal := Thermal.fresh, elog := Elog.fresh, gauges := Vector.replicate 64 Gauge.fresh, outbox := [], drawn := 0
    pending := [] }

end Sys2Proof.Machine
end

