-- ==== Sys2Proof/Machine/Ops.lean ====
section
/-! DEFINITION. The named operations that every meaning shares: fields of registers, counters, guards, outputs, reports. -/
namespace Sys2Proof.Machine

/-- The outcome of a command. -/
abbrev Out := Host.Outcome State Fault Refusal

/-- Go on where an event can occur; refuse it by name where the state does not allow it to occur. -/
def need (b : Bool) (why : String) (k : Out) : Out := if b then k else .refused (.notEnabled why)

/-- Go on with a value that must exist. -/
def needSome {α : Type} (o : Option α) (why : String) (k : α → Out) : Out :=
  match o with
  | some a => k a
  | none => .refused (.notEnabled why)

/-- A number with `w` bits at `lo` replaced. -/
def putBits (x lo w v : Nat) : Nat := x % 2 ^ lo + (v % 2 ^ w) * 2 ^ lo + x / 2 ^ (lo + w) * 2 ^ (lo + w)

/-- The `w` bits of a number at `lo`. -/
def getBits (x lo w : Nat) : Nat := x / 2 ^ lo % 2 ^ w

/-- The stored value of the register at a control-space key. -/
def State.rd (s : State) (key : Nat) : Nat := (Tbl.get regReset s.regs key).toNat

/-- Store a register by its control-space key. -/
def State.wr (s : State) (key v : Nat) : State := { s with regs := Tbl.set regReset s.regs key (BitVec.ofNat 64 v) }

/-- Read a field of a register. -/
def State.get (s : State) (f : Field) (inst : Nat := 0) (idx : Nat := 0) : Nat :=
  getBits (s.rd (f.reg.key inst idx)) f.lo f.w

/-- Read a one-bit field. -/
def State.on (s : State) (f : Field) (inst : Nat := 0) (idx : Nat := 0) : Bool := s.get f inst idx == 1

/-- Write a field of a register (a hardware update, or the field of a software write). -/
def State.put (s : State) (f : Field) (v : Nat) (inst : Nat := 0) (idx : Nat := 0) : State :=
  s.wr (f.reg.key inst idx) (putBits (s.rd (f.reg.key inst idx)) f.lo f.w v)

/-- Add to a counter that saturates at its largest value (R539, R277, R375). -/
def State.count (s : State) (f : Field) (k : Nat) (inst : Nat := 0) (idx : Nat := 0) : State :=
  s.put f (min (s.get f inst idx + k) (2 ^ f.w - 1)) inst idx

/-- Advance a counter that wraps. -/
def State.bump (s : State) (f : Field) (inst : Nat := 0) (idx : Nat := 0) : State := s.put f (s.get f inst idx + 1) inst idx

/-- A whole register of 64 bits. -/
def State.reg (s : State) (r : Reg) (inst : Nat := 0) (idx : Nat := 0) : Nat := s.rd (r.key inst idx)

/-- Store a whole register. -/
def State.setReg (s : State) (r : Reg) (v : Nat) (inst : Nat := 0) (idx : Nat := 0) : State := s.wr (r.key inst idx) v

/-- Put a register back to its reset value. -/
def State.resetReg (s : State) (r : Reg) (inst : Nat := 0) (idx : Nat := 0) : State :=
  s.wr (r.key inst idx) (resetWord r inst idx)

/-- The writable bits of a register at an index (`PIN_HOLD3` has no input 15: R560). -/
def Reg.rwMask (r : Reg) (idx : Nat) : Nat := if r = R.PIN_HOLD ∧ idx = 3 then 0xFFFFFFFFFFFF else r.rw

/-- The word after a software write of `v` over `old` (R11, R14, R15): RW fields take the new value, RWL fields too unless locked,
W1C bits written as 1 clear, W1S bits written as 1 set, RO and RC fields stay. -/
def Reg.written (r : Reg) (idx old v : Nat) (locked : Bool) : Nat :=
  let take := r.rwMask idx ||| (if locked then 0 else r.rwl)
  let kept := old &&& (0xFFFFFFFFFFFFFFFF ^^^ take)
  let merged := kept ||| (v &&& take)
  let cleared := merged &&& (0xFFFFFFFFFFFFFFFF ^^^ (v &&& r.w1c))
  cleared ||| (v &&& r.w1s)

/-- Software write of a register without side effects beyond its own fields (R15). -/
def State.swWrite (s : State) (r : Reg) (v : Nat) (inst idx : Nat) (locked : Bool) : State :=
  s.setReg r (r.written idx (s.reg r inst idx) v locked) inst idx

/-- Software write of a register whose W1S bits read as 0: they are commands, and nothing stores them (R14). -/
def State.swFields (s : State) (r : Reg) (v inst : Nat) (idx : Nat := 0) (locked : Bool := true) : State :=
  s.swWrite r (v &&& (0xFFFFFFFFFFFFFFFF ^^^ r.w1s)) inst idx locked

/-- A read of a register: the value before, and the RC fields cleared (R14). -/
def State.swRead (s : State) (r : Reg) (inst idx : Nat) : State × Nat :=
  let v := s.reg r inst idx
  (s.setReg r (v &&& (0xFFFFFFFFFFFFFFFF ^^^ r.rc)) inst idx, v)

/-- `BTIME` in nanoseconds: the upper 64 bits of the 104-bit accumulator (R470). -/
def State.btime (s : State) : Nat := s.clock.acc / 2 ^ 40 % 2 ^ 64

/-- What a byte that nothing has written reads as: erased flash is 0xFF, every other memory 0 (log entry 3). -/
def memDefault (key : Nat) : Byte := if key / 2 ^ 48 = 4 then 0xFF#8 else 0#8

/-- The memories of the block: DRAM by bank and row, core stores, direct windows, the private SRAM of the Floor, the flash. -/
def spDram : Nat := 0
def spCore : Nat := 2 ^ 48
def spWin : Nat := 2 * 2 ^ 48
def spSram : Nat := 3 * 2 ^ 48
def spFlash : Nat := 4 * 2 ^ 48

/-- One byte of memory by its physical key. -/
def State.byte (s : State) (key : Nat) : Byte := Tbl.get memDefault s.mem key

/-- Store one byte of memory. -/
def State.setByte (s : State) (key : Nat) (b : Byte) : State := { s with mem := Tbl.set memDefault s.mem key b }

/-- `n` bytes from a key upward. -/
def State.bytes (s : State) (key n : Nat) : List Byte := (List.range n).map fun i => s.byte (key + i)

/-- Store bytes from a key upward. -/
def State.setBytes (s : State) (key : Nat) : List Byte → State
  | [] => s
  | b :: bs => (s.setByte key b).setBytes (key + 1) bs

/-- Bytes of the Floor's private SRAM (R382, R528). -/
def State.readSram (s : State) (addr n : Nat) : List Byte := s.bytes (spSram + addr) n

/-- Store bytes in the Floor's private SRAM. -/
def State.writeSram (s : State) (addr : Nat) (b : List Byte) : State := s.setBytes (spSram + addr) b

/-- Send something outside the block, or signal firmware. -/
def State.emit (s : State) (o : Output) : State := { s with outbox := s.outbox ++ [o] }

/-- A free value is drawn: the next one is another. -/
def State.draw (s : State) : State := { s with drawn := s.drawn + 1 }

/-- The 28-bit source field of a report (R524). -/
def srcOf (r : Report) : Nat := r.cls % 256 + r.inst % 4096 * 256 + r.sub % 256 * 2 ^ 20

/-- A unit sends a report: it waits in the queue of 256, or is lost and counted (R526). -/
def State.sendReport (s : State) (r : Report) : State :=
  if s.elog.queue.length < 256 then { s with elog := { s.elog with queue := s.elog.queue ++ [r] } }
  else s.count F.ELOG_COUNTS.dropped 1

/-- A unit logs an event now, with the severity of R525. -/
def State.log (s : State) (typ cls inst sev : Nat) (code : Code) (detail : Nat) (sub : Nat := 0) : State :=
  s.sendReport ⟨cls, inst, sub, BitVec.ofNat 16 typ, sev, code, detail % 2 ^ 64, s.btime⟩

/-- The completion code of a report about which the spec names none, by type and detail: a free value (R522, R525). -/
def freeCode (typ detail : Nat) : Code := (Code.ofCode (Config.reportCode typ detail).val).getD .ok

/-- A unit logs an event that completes no access. -/
def State.logEvent (s : State) (typ cls inst sev detail : Nat) : State := s.log typ cls inst sev (freeCode typ detail) detail

end Sys2Proof.Machine
end

