-- ==== Sys2Proof/Machine/Gauges.lean ====
section
/-! DEFINITION. The 64 gauges (R533-R537, R540, R541). -/
namespace Sys2Proof.Machine

/-- The sources of R533: code, number of the first and last instance, and whether the kind is event. -/
def gaugeSources : List (Nat × Nat × Nat × Bool) :=
  [(0x01, 0, 7, true), (0x02, 0, 79, true), (0x03, 0, 1, true), (0x08, 0, 39, false), (0x09, 0, 1, false), (0x0A, 0, 0, false),
   (0x10, 0, 751, false), (0x11, 0, 5, false), (0x12, 0, 959, false), (0x18, 0, 119, false), (0x19, 1, 120, false),
   (0x20, 0, 0, false), (0x21, 0, 3, false), (0x22, 1, 120, false), (0x28, 0, 79, false), (0x30, 0, 15, false),
   (0x31, 0, 7, false), (0x38, 0, 0, true)]

/-- Whether a source code and an instance lie in the table of R533. -/
def sourceOk (code inst : Nat) : Bool := gaugeSources.any fun r => r.1 == code && decide (r.2.1 ≤ inst) && decide (inst ≤ r.2.2.1)

/-- Whether a source is of kind event. -/
def sourceIsEvent (code : Nat) : Bool := gaugeSources.any fun r => r.1 == code && r.2.2.2

/-- Number of bits of a value; 0 for 0. -/
def bitlen (v : Nat) : Nat := if v = 0 then 0 else Nat.log2 v + 1

/-- The bin of a sample (R534). -/
def gaugeBin (v : Nat) : Nat := if v = 0 then 0 else min 31 (bitlen v)

/-- Set a gauge. -/
def State.setGauge (s : State) (g : GaugeId) (x : Gauge) : State := { s with gauges := vset s.gauges g x }

/-- Statistics after one more sample, with the saturations of R533 and R534. -/
def GaugeStats.add (x : GaugeStats) (v : Nat) : GaugeStats :=
  let v := min v 0xFFFFFFFF
  let b := gaugeBin v
  { x with
    mn := min x.mn v, mx := max x.mx v, sum := min (x.sum + v) (2 ^ 64 - 1), count := min (x.count + 1) 0xFFFFFFFF
    bins := Tbl.set (fun _ => 0) x.bins b (min (Tbl.get (fun _ => 0) x.bins b + 1) 0xFFFFFFFF) }

/-- One event of a source: with decimation, only every 2^decim-th event of the period gives a sample (R533). -/
def GaugeStats.event (x : GaugeStats) (decim : Nat) (isEvent : Bool) (v : Nat) : GaugeStats :=
  let x := { x with events := x.events + 1 }
  if isEvent && x.events % 2 ^ decim != 0 then x else x.add v

/-- Copy statistics into the latched registers (R536, R541). -/
def State.latch (s : State) (g : GaugeId) (x : GaugeStats) (endT : Nat) (stepped part : Bool) : State :=
  let i := g.val
  let s := (s.put F.GAUGE_MINMAX.max x.mx i).put F.GAUGE_MINMAX.min x.mn i
  let s := (s.put F.GAUGE_COUNT.late x.late i).put F.GAUGE_COUNT.count x.count i
  let s := ((s.setReg R.GAUGE_SUM x.sum i).setReg R.GAUGE_START x.start i).setReg R.GAUGE_END endT i
  let s := (List.range 16).foldl (fun s j =>
    s.setReg R.GAUGE_HIST (Tbl.get (fun _ => 0) x.bins (2 * j) + Tbl.get (fun _ => 0) x.bins (2 * j + 1) * 2 ^ 32) i j) s
  ((s.put F.GAUGE_STATUS.partial (b2n part) i).put F.GAUGE_STATUS.stepped (b2n stepped) i).bump F.GAUGE_STATUS.seq i

/-- Latch the ended period that waits for its 2 µs, where there is one. -/
def State.latchEnded (s : State) (g : GaugeId) : State :=
  match (vget s.gauges g).ended with
  | some (x, e) => (s.latch g x e false false).setGauge g { vget s.gauges g with ended := none }
  | none => s

/-- The masks that a gauge's period bounds end with it (R529). -/
def State.endGaugeMasks (s : State) (g : GaugeId) : State :=
  let l := s.elog.masks.filter fun m => m.gauge != some g
  { s with elog := { s.elog with masks := l } }.put F.ELOG_STATUS.masked_src (min l.length 255)

/-- The source of `GAUGE_CFG` comes into force; one outside the table of R533 sets `bad_cfg` (R537). -/
def State.applySource (s : State) (g : GaugeId) : State :=
  let i := g.val
  let src := s.get F.GAUGE_CFG.source i
  let ins := s.get F.GAUGE_CFG.inst i
  let s := s.put F.GAUGE_STATUS.src_now (src * 2 ^ 12 + ins) i
  let s := s.setGauge g { vget s.gauges g with decimNow := s.get F.GAUGE_CFG.decim i }
  if sourceOk src ins then s else s.put F.GAUGE_STATUS.bad_cfg 1 i

/-- Code and instance of the source in force. -/
def State.srcNow (s : State) (g : GaugeId) : Nat × Nat :=
  let v := s.get F.GAUGE_STATUS.src_now g.val
  (v / 2 ^ 12, v % 2 ^ 12)

/-- A sample reaches its gauge (R535, R536). -/
def State.sample (s : State) (g : GaugeId) (v stamp : Nat) : State :=
  let x := vget s.gauges g
  let src := s.srcNow g
  if s.on F.GAUGE_STATUS.live g.val = false ∨ sourceOk src.1 src.2 = false then s
  else if x.live.start ≤ stamp then s.setGauge g { x with live := x.live.event x.decimNow (sourceIsEvent src.1) v }
  else match x.ended with
    | some (p, e) =>
      if p.start ≤ stamp then s.setGauge g { x with ended := some (p.event x.decimNow (sourceIsEvent src.1) v, e) }
      else s.setGauge g { x with live := { x.live with late := min (x.live.late + 1) 0xFFFFFFFF } }
    | none => s.setGauge g { x with live := { x.live with late := min (x.live.late + 1) 0xFFFFFFFF } }

/-- The boundary at which the next period of a gauge begins (R535). -/
def State.nextBoundary (s : State) (g : GaugeId) : Nat :=
  let x := vget s.gauges g
  if s.on F.GAUGE_STATUS.live g.val then (x.live.start / x.lenNow + 1) * x.lenNow
  else if s.btime % x.lenNow = 0 then s.btime else (s.btime / x.lenNow + 1) * x.lenNow

/-- A period ends at a boundary and the next one begins; settings that waited come into force (R535, R537). -/
def State.boundary (s : State) (g : GaugeId) : State :=
  let t := s.nextBoundary g
  let s := s.latchEnded g
  let x := vget s.gauges g
  let e := if s.on F.GAUGE_STATUS.live g.val then some (x.live, t) else none
  let s := s.setGauge g { x with live := GaugeStats.fresh t, ended := e, lenNow := s.get F.GAUGE_PERIOD.length g.val }
  let s := s.endGaugeMasks g
  (s.put F.GAUGE_STATUS.live 1 g.val).applySource g

/-- A `BTIME` step ends the live period at the step; a new one begins at the stepped time (R537). -/
def State.gaugeStepOne (s : State) (before after : Nat) (g : GaugeId) : State :=
  if s.on F.GAUGE_STATUS.live g.val then
    let s := s.latchEnded g
    let s := s.latch g (vget s.gauges g).live before true false
    (s.setGauge g { vget s.gauges g with live := GaugeStats.fresh after }).endGaugeMasks g
  else s

/-- Every gauge latches at a `BTIME` step (R537). -/
def State.gaugeStep (s : State) (before after : Nat) : State :=
  (List.finRange 64).foldl (fun s g => s.gaugeStepOne before after g) s

/-- Whether a sensor is broken, and whether a diode is suspect (R441): diodes are 0-751, thermistors 752-757. -/
def State.isBroken (s : State) (n : Nat) : Bool := nbit (s.reg R.THM_BROKEN 0 (n / 64)) (n % 64)
def State.isSuspect (s : State) (n : Nat) : Bool := nbit (s.reg R.THM_SUSPECT 0 (n / 64)) (n % 64)

/-- What a gauge counts of a sample: none of a broken sensor (R533), and a suspect diode as above every threshold, in the last bin (R444; log entry
80). -/
def State.gaugeValue (s : State) (g : GaugeId) (v : Nat) : Option Nat :=
  let src := s.srcNow g
  if src.1 = 0x10 ∧ s.isBroken src.2 = true ∨ src.1 = 0x11 ∧ s.isBroken (752 + src.2) = true then none
  else if src.1 = 0x10 ∧ s.isSuspect src.2 = true then some 0xFFFFFFFF
  else some v

/-- GAUGE_SAMPLE (R444, R533-R536): a sample with its stamp. -/
def execGaugeSample (g : GaugeId) (value : Nat) (stamp : Word) (s : State) : Out :=
  match s.gaugeValue g value with
  | some v => .next (s.sample g v stamp.toNat)
  | none => .next s

/-- PERIOD_BOUNDARY (R535): `BTIME` reaches a boundary of an enabled gauge. -/
def execPeriodBoundary (g : GaugeId) (s : State) : Out :=
  need (s.on F.GAUGE_CFG.enable g.val) "the gauge is not enabled" (.next (s.boundary g))

/-- GAUGE_LATCH (R536): 2 µs after its end, a period is latched. -/
def execGaugeLatch (g : GaugeId) (s : State) : Out :=
  need (vget s.gauges g).ended.isSome "no ended period waits" (.next (s.latchEnded g))

/-- A write of `GAUGE_CFG` (R537). -/
def State.writeGaugeCfg (s : State) (g : GaugeId) (v : Nat) : State :=
  let i := g.val
  let wasLive := s.on F.GAUGE_STATUS.live i
  let s := s.swWrite R.GAUGE_CFG v i 0 false
  if wasLive then
    if nbit v 0 then s
    else
      let s := s.latchEnded g
      let s := s.latch g (vget s.gauges g).live s.btime false true
      ((s.put F.GAUGE_STATUS.live 0 i).setGauge g { vget s.gauges g with live := GaugeStats.fresh s.btime }).endGaugeMasks g
  else s.applySource g

/-- GAUGE_CFG_WRITE (R537). -/
def execGaugeCfgWrite (g : GaugeId) (v : Word) (s : State) : Out := .next (s.writeGaugeCfg g v.toNat)

/-- A write of `GAUGE_PERIOD`: below 10,000 stores 10,000; it takes effect at the next boundary of the old length (R537, R541). -/
def State.writeGaugePeriod (s : State) (g : GaugeId) (v : Nat) : State :=
  s.put F.GAUGE_PERIOD.length (max (v % 2 ^ 48) 10000) g.val

/-- GAUGE_PERIOD_WRITE (R537). -/
def execGaugePeriodWrite (g : GaugeId) (v : Word) (s : State) : Out := .next (s.writeGaugePeriod g v.toNat)

end Sys2Proof.Machine
end

