-- ==== Sys2Proof/Machine/Hints.lean ====
section
/-! DEFINITION. Phase hints as the power controller holds them, and the two hint lands of the VPM (R140, R422, R423). -/
namespace Sys2Proof.Machine

/-- Phases that count for a rail: kind bit 0 is matrix-heavy, bit 1 memory-heavy (R124). -/
def State.phaseCount (s : State) (bit : Nat) : Nat :=
  (s.hints.toList.filter fun q => match q.last with
    | some h => h.near && nbit h.kind bit
    | none => false).length

/-- VPM_HINT0 and VPM_HINT1 follow the counts of phases (R423). -/
def State.vpmHints (s : State) : State :=
  (s.put F.PWR_STATUS.hint_core (b2n (decide (s.get F.PWR_HINT.core_n ≤ s.phaseCount 0)))).put F.PWR_STATUS.hint_mem
    (b2n (decide (s.get F.PWR_HINT.mem_n ≤ s.phaseCount 1)))

/-- The last hint that an engine delivered. -/
def State.hint (s : State) (e : EngineId) : Option Hint := (vget s.hints e).last

/-- Replace an engine's hint, and the lands follow. -/
def State.setHint (s : State) (e : EngineId) (h : Option Hint) : State := { s with hints := vset s.hints e { vget s.hints e with last := h } }.vpmHints

/-- An engine issues a hint: one that it issued less than 1 µs before is not delivered (R140). -/
def State.announce (s : State) (e : EngineId) (kind lead duration : Nat) : State :=
  { s with hints := vset s.hints e { vget s.hints e with next := some ⟨kind, lead, duration, s.btime⟩ } }

/-- A hint arrives (R140, R422, R423): the last one of an engine stands, a light hint ends the earlier phase, and a phase that starts within
10 µs counts from its arrival. -/
def State.hintDelivered (s : State) (e : EngineId) (a : Announce) : State :=
  { s with hints := vset s.hints e ⟨if a.kind = 0 then none else some ⟨a.kind, a.lead, a.duration, s.btime, decide (a.lead ≤ 10), false⟩, none⟩ }.vpmHints

/-- A hint is delivered once 1 µs has passed without another (R140). -/
def State.hintDue (s : State) (e : EngineId) : State :=
  match (vget s.hints e).next with
  | some a => if a.issued + 1000 ≤ s.btime then s.hintDelivered e a else s
  | none => s

/-- Every hint that is due is delivered. -/
def State.hintsDue (s : State) : State := (List.finRange 80).foldl State.hintDue s

/-- An engine leaves RUN: a phase without a duration ends, delivered or not (R422). -/
def State.leaveRun (s : State) (e : EngineId) : State :=
  let q := vget s.hints e
  let keep (kind duration : Nat) : Bool := kind == 0 || duration != 0
  if (q.last.all fun h => keep h.kind h.duration) && (q.next.all fun a => keep a.kind a.duration) then s
  else { s with hints := vset s.hints e ⟨q.last.filter fun h => keep h.kind h.duration, q.next.filter fun a => keep a.kind a.duration⟩ }.vpmHints

end Sys2Proof.Machine
end

