-- ==== Sys2Proof/Machine/Memory.lean ====
section
/-! DEFINITION. The address map, and one access to a memory of this block: mapping, permissions, the state of the target, errors
(R28-R35, R170, R171, R257, R258, R272-R274, R333). -/
namespace Sys2Proof.Machine

/-- Set an engine. -/
def State.setEng (s : State) (e : EngineId) (x : Engine) : State := { s with engines := vset s.engines e x }

/-- An engine. -/
def State.eng (s : State) (e : EngineId) : Engine := vget s.engines e

/-- Change an engine. -/
def State.modEng (s : State) (e : EngineId) (f : Engine → Engine) : State := s.setEng e (f (s.eng e))

/-- A write that reaches the registers of an engine: one in reset answers TARGET_RESET and one mapped out UNMAPPED, and nothing is written
(R35, R38). -/
def State.engReach (s : State) (e : EngineId) (k : Out) : Out := if (s.eng e).inReset || (s.eng e).mappedOut then .next s else k

/-- A square, and setting one. -/
def State.sq (s : State) (k : SquareId) : Square := vget s.squares k
def State.setSq (s : State) (k : SquareId) (x : Square) : State := { s with squares := vset s.squares k x }

/-- The column of an engine (R18). -/
def columnOf (e : EngineId) : SquareId := ⟨e.val % 40, Nat.mod_lt _ (by decide)⟩

/-- A number as an engine or a square, where it is one. -/
def engineOf? (n : Nat) : Option EngineId := if h : n < 80 then some ⟨n, h⟩ else none
def squareOf? (n : Nat) : Option SquareId := if h : n < 40 then some ⟨n, h⟩ else none

/-- Whether an address is local (R29). -/
def State.isLocal (s : State) (a : Nat) : Bool :=
  if s.on F.AON_BLOCK_ID.valid then blockOf a == s.get F.AON_BLOCK_ID.id else blockOf a == 0

/-- The interleave hash (R257): bank, row and byte of an engine offset. -/
def interleave (o : Nat) : Nat × Nat × Nat :=
  let r := o / 2 ^ 21
  let sct := o / 2 ^ 17 % 16
  let lo := o / 2 ^ 6 % 2 ^ 11
  let b0 := (lo % 4) * 2 ^ 9 + lo / 4
  let x := ((r ^^^ sct) % 4) * 2 ^ 9 + ((r / 4) ^^^ (sct / 4 * 2 ^ 7)) % 2 ^ 9
  (b0 ^^^ x, r, sct * 64 + o % 64)

/-- The unit that a local address selects (R32). -/
inductive Target where
  | dram (e : EngineId)
  | core (e : EngineId)
  | window (k : SquareId)
  | control (off : Nat)
  deriving DecidableEq, Repr

/-- Bytes of a square's direct window (R267). -/
def State.windowBytes (s : State) (k : SquareId) : Nat := 3 * 2 ^ 20 * s.get F.SQ_CTL.ways k.val

/-- The mapped unit of `n` bytes at a local address; none when any byte falls outside the one unit (R31-R33). -/
def State.target (s : State) (a n : Nat) : Option Target :=
  let off := a % 2 ^ 48
  match selOf a with
  | 0 =>
    let o := off % 0xC0000000
    if o + n ≤ 0xC0000000 then (engineOf? (off / 0xC0000000)).map Target.dram else none
  | 1 =>
    if off / 2 ^ 39 = 0 ∧ nbits off 20 10 < 1536 ∧ off % 1024 + n ≤ 1024 then (engineOf? (nbits off 38 32)).map Target.dram else none
  | 2 =>
    if off / 2 ^ 32 = 0 then
      match squareOf? (nbits off 31 26) with
      | some k => if off % 2 ^ 26 + n ≤ s.windowBytes k then some (.window k) else none
      | none => none
    else none
  | 3 =>
    if off / 2 ^ 32 = 0 ∧ off % 2 ^ 18 + n ≤ 2 ^ 18 then (engineOf? (nbits off 31 25)).map Target.core else none
  | 15 => some (.control off)
  | _ => none

/-- The physical key of a byte of regions 0x0-0x3: DRAM bytes by their bank-linear offset, so both views are one byte (R258). -/
def physKey (a : Nat) : Nat :=
  let off := a % 2 ^ 48
  match selOf a with
  | 0 =>
    let p := interleave (off % 0xC0000000)
    spDram + off / 0xC0000000 * 2 ^ 32 + p.1 * 2 ^ 21 + p.2.1 * 2 ^ 10 + p.2.2
  | 1 => spDram + off
  | 2 => spWin + off
  | _ => spCore + off

/-- The keys of `n` bytes at an address. -/
def physKeys (a n : Nat) : List Nat := (List.range n).map fun i => physKey (a + i)

/-- The kind of an unclean word: 0 clean, 1 single, 2 uncorrectable, 3 poison. -/
def State.markOf (s : State) (word : Nat) : Nat := Tbl.get (fun _ => 0) s.marks word

/-- Mark a word. -/
def State.setMark (s : State) (word m : Nat) : State := { s with marks := Tbl.set (fun _ => 0) s.marks word m }

/-- Words of DRAM that keys touch. -/
def wordsOf (keys : List Nat) : List Nat := (keys.map (· / 16)).eraseDups

/-! ## Crossings between layers (R27, R326, R563) -/

/-- Whether a bundle is present at an interface (R563). -/
def xwPresent (i b : Nat) : Bool :=
  if b < 8 then decide (i ≤ 3)
  else if b < 12 then i == 0 || i == 1 || decide (4 ≤ i ∧ i ≤ 6)
  else if b < 16 then i == 2 || i == 3 || decide (4 ≤ i ∧ i ≤ 6)
  else false

/-- The key of a bundle's tap and margin at a step. -/
def xwKey (k i b step : Nat) : Nat := ((k * 7 + i) * 16 + b) * 8 + step

/-- A tap plus 1, or 0 before calibration. -/
def State.tapOf (s : State) (key : Nat) : Nat := Tbl.get (fun _ => 0) s.taps key

/-- Whether every one of these bundles of a column is calibrated at the step in force: a crossing that is not carries no traffic (R27). -/
def State.carries (s : State) (k : SquareId) (l : List (Nat × Nat)) : Bool :=
  l.all fun p => s.tapOf (xwKey k.val p.1 p.2 (s.get F.CLK_STEP.eff)) != 0

/-- The compute-layer bundles that serve an engine, as interface and bundle (R328, R563). -/
def engBundles (e : EngineId) : List (Nat × Nat) :=
  if e.val < 40 then [0, 1].flatMap fun i => [8, 9, 10, 11].map fun b => (i, b) else [2, 3].flatMap fun i => [12, 13, 14, 15].map fun b => (i, b)

/-- The bundles between memory layers that carry an engine's banks (R563). -/
def bankBundles (e : EngineId) : List (Nat × Nat) :=
  [4, 5, 6].flatMap fun i => (if e.val < 40 then [8, 9, 10, 11] else [12, 13, 14, 15]).map fun b => (i, b)

/-- The through-lane bundles of an interface (R26, R563). -/
def throughLanes (i : Nat) : List (Nat × Nat) := (List.range 8).map fun b => (i, b)

/-- Whether an engine's crossings carry its signals, its square port and its vertical channels (R27, R563). -/
def State.engineLinked (s : State) (e : EngineId) : Bool :=
  s.carries (columnOf e) (throughLanes 0 ++ throughLanes 1 ++ throughLanes 2 ++ throughLanes 3 ++ engBundles e)

/-- Whether the crossings between a column's square, an engine's landing and its banks carry traffic (R27, R563). -/
def State.landingLinked (s : State) (e : EngineId) : Bool :=
  s.carries (columnOf e) (throughLanes 2 ++ throughLanes 3 ++ bankBundles e)

/-- Whether a line of the home square holds a sector. -/
def State.lineOf (s : State) (k : SquareId) (sector : Nat) : Option Line := (s.sq k).lines.find? fun l => l.sector == sector

/-- A line is used (R266). -/
def State.touch (s : State) (k : SquareId) (sector : Nat) : State :=
  let q := s.sq k
  s.setSq k { q with lines := q.lines.map fun l => if l.sector = sector then { l with used := q.clock } else l, clock := q.clock + 1 }

/-- Whether a square takes accesses: its region is ON, or its storage is mapped out and its path to the landings stands (R317, R419). -/
def State.squareOn (s : State) (k : SquareId) : Bool :=
  s.on F.SQ_STATUS.mapped_out k.val || (s.get F.PWR_RG_STATUS.state (81 + k.val) == 0 && !s.on F.PWR_RG_STATUS.waking (81 + k.val))

/-- Whether a read of these bytes of DRAM is refused: a poisoned line (R170), or an uncorrectable or poisoned word that no line covers
(R272, R273). -/
def State.dramBad (s : State) (k : SquareId) (keys : List Nat) : Bool :=
  (keys.map (· / 64)).eraseDups.any fun sc =>
    match s.lineOf k sc with
    | some l => l.poison
    | none => (wordsOf (keys.filter fun x => x / 64 == sc)).any fun w => decide (2 ≤ s.markOf w)

/-- Whether a read of window bytes meets one whose parity fails (R171). -/
def State.windowBad (s : State) (k : SquareId) (keys : List Nat) : Bool := keys.any fun x => (s.sq k).badBytes.contains (x % 2 ^ 26)

/-- Whether an engine is in reset, by itself or with its layer (R329, R330). -/
def State.resetOf (s : State) (e : EngineId) : Bool := (s.eng e).inReset

/-- Whether the engine's region is ON, with its clock running, and not being zeroed (R418, R466). -/
def State.regionOn (s : State) (e : EngineId) : Bool :=
  s.get F.PWR_RG_STATUS.state (e.val + 1) == 0 && !s.on F.PWR_RG_STATUS.waking (e.val + 1)
    && !(vget s.power.regions ⟨e.val, Nat.lt_trans e.isLt (by decide)⟩).clearing && !s.on F.CLK_PLL.fail (e.val + 1)

/-- The code of an access by the state of its target (R34, R35): OK when it is served. -/
def State.targetCode (s : State) (core : Bool) (t : Option Target) : Code :=
  match t with
  | none => .unmapped
  | some (.control _) => if core then .ok else .accessDenied
  | some (.dram e) => if (s.eng e).dramOut then .unmapped else .ok
  | some (.core e) => if (s.eng e).mappedOut then .unmapped else if s.resetOf e then .targetReset else .ok
  | some (.window k) => if s.on F.SQ_STATUS.mapped_out k.val then .unmapped else .ok

/-- Read bytes of regions 0x0-0x3 of this block: code and data (R34, R35, R170, R171, R272-R274). -/
def State.readLocal (s : State) (a n : Nat) : Code × List Byte :=
  let t := s.target a n
  match s.targetCode false t with
  | .ok =>
    let keys := physKeys a n
    let bad := match t with
      | some (.dram e) => s.dramBad (columnOf e) keys
      | some (.window k) => s.windowBad k keys
      | _ => false
    if bad then (.dataErr, []) else (.ok, keys.map s.byte)
  | c => (c, [])

/-- Words that a write covers whole (R272). -/
def coveredWords (keys : List Nat) : List Nat := (wordsOf keys).filter fun w => (List.range 16).all fun i => keys.contains (16 * w + i)

/-- Sectors that keys touch, and those that they cover whole. -/
def sectorsTouched (keys : List Nat) : List Nat := (keys.map (· / 64)).eraseDups
def sectorsCovered (keys : List Nat) : List Nat := (sectorsTouched keys).filter fun sc => (List.range 64).all fun i => keys.contains (64 * sc + i)

/-- A write meets a line of the square: the line is dirty, and a write of the whole line clears its poison (R170, R265). -/
def Line.written (l : Line) (touched whole : List Nat) : Line :=
  if touched.contains l.sector then { l with dirty := true, poison := l.poison && !whole.contains l.sector } else l

/-- A word of DRAM after a write: clean when all of it was written; a partial write corrects and counts a single-bit error, and leaves an
uncorrectable or poisoned word as it is (R272, R273). -/
def State.wordWritten (s : State) (e : EngineId) (whole : List Nat) (w : Nat) : State :=
  if whole.contains w then s.setMark w 0
  else if s.markOf w = 1 then (s.setMark w 0).count (F.LND_CE_COUNT.m (nbits (16 * w) 31 30)) 1 e.val
  else s

/-- What a write to DRAM does beside storing its bytes: in the home square's lines, and in words that no line covers. -/
def State.clearMarks (s : State) (e : EngineId) (keys : List Nat) : State :=
  let k := columnOf e
  let touched := sectorsTouched keys
  let whole := sectorsCovered keys
  let ls := (s.sq k).lines
  let gone := (ls.filter fun l => l.poison && whole.contains l.sector).length
  let s := (s.setSq k { s.sq k with lines := ls.map fun l => l.written touched whole }).put F.SQ_POISON.held
    (s.get F.SQ_POISON.held k.val - gone) k.val
  let bare := keys.filter fun x => !ls.any fun l => l.sector == x / 64
  (wordsOf bare).foldl (fun s w => s.wordWritten e (coveredWords bare) w) s

/-- Store bytes at keys, one by one. -/
def State.storeKeys (s : State) : List (Nat × Byte) → State
  | [] => s
  | (k, b) :: rest => (s.setByte k b).storeKeys rest

/-- Write bytes of regions 0x0-0x3 of this block. -/
def State.writeLocal (s : State) (a : Nat) (b : List Byte) : State × Code :=
  let t := s.target a b.length
  match s.targetCode false t with
  | .ok =>
    let keys := physKeys a b.length
    let s := s.storeKeys (keys.zip b)
    match t with
    | some (.dram e) => (s.clearMarks e keys, .ok)
    | some (.window k) =>
      -- a bad byte is good again once it is written (R171)
      let bad := (s.sq k).badBytes.filter fun x => !keys.any fun y => y % 2 ^ 26 == x
      (s.setSq k { s.sq k with badBytes := bad, logged := (s.sq k).logged.filter fun w => bad.any fun x => x / 8 == w }, .ok)
    | _ => (s, .ok)
  | c => (s, c)

/-- Bank-linear offset without the engine: bank, row, byte (R277). -/
def locOf (key : Nat) : Nat := key % 2 ^ 32

/-- Record an error location while the record is free (R277): kind 0 on read, 1 found by scrub, 2 poisoned read. -/
def State.noteErr (s : State) (e : EngineId) (key kind : Nat) : State :=
  if s.on F.LND_ERR_ADDR.valid e.val then s
  else ((s.put F.LND_ERR_ADDR.valid 1 e.val).put F.LND_ERR_ADDR.kind kind e.val).put F.LND_ERR_ADDR.loc (locOf key) e.val

/-- The memory layer of a bank-linear key: bank div 512 (R24). -/
def layerOfKey (key : Nat) : Nat := nbits key 31 30

/-- What a read of one word of DRAM leaves behind (R272-R274): error counters, the error location and reports. -/
def State.noteWord (s : State) (e : EngineId) (w : Nat) : State :=
  let key := 16 * w
  match s.markOf w with
  | 1 => s.count (F.LND_CE_COUNT.m (layerOfKey key)) 1 e.val
  | 2 => ((s.count (F.LND_UE_COUNT.m (layerOfKey key)) 1 e.val).noteErr e key 0).log 0x0201 0x13 e.val 2 .dataErr (locOf key)
  | 3 => (s.noteErr e key 2).log 0x0202 0x13 e.val 2 .dataErr (locOf key + 2 * 2 ^ 32)
  | _ => s

/-- What one read of these words of DRAM leaves behind: a read that meets poisoned words is refused, and counted, once (R273; log entry 52). -/
def State.noteWords (s : State) (e : EngineId) (ws : List Nat) : State :=
  let s := if ws.any fun w => s.markOf w == 3 then s.count F.LND_POISON.reads 1 e.val else s
  ws.foldl (fun s w => s.noteWord e w) s

/-- A window word of which a byte fails parity is logged once (R171). -/
def State.noteWindow (s : State) (k : SquareId) (w : Nat) : State :=
  if (s.sq k).logged.contains w then s
  else (s.setSq k { s.sq k with logged := (s.sq k).logged ++ [w] }).log 0x0206 0x11 k.val 2 .dataErr (8 * w)

/-- What a read of `n` bytes leaves behind. -/
def State.noteRead (s : State) (a n : Nat) : State :=
  match s.target a n with
  | some (.dram e) =>
    if s.marks.isEmpty || (s.eng e).dramOut then s
    else
      let keys := (physKeys a n).filter fun x => (s.lineOf (columnOf e) (x / 64)).isNone
      s.noteWords e (wordsOf keys)
  | some (.window k) =>
    if (s.sq k).badBytes.isEmpty then s
    else
      let met := ((physKeys a n).map fun x => x % 2 ^ 26).filter fun x => (s.sq k).badBytes.contains x
      ((met.map fun x => x / 8).eraseDups).foldl (fun s w => s.noteWindow k w) s
  | _ => s

/-- The naturally aligned 64-byte sectors, whole or partial, of `n` bytes at an address, as address and length (R152). -/
def sectorsOf (a n : Nat) : List (Nat × Nat) :=
  if n = 0 then []
  else (List.range ((a % 64 + n + 63) / 64)).map fun i =>
    let lo := if i = 0 then a else a / 64 * 64 + 64 * i
    let hi := min (a + n) (a / 64 * 64 + 64 * (i + 1))
    (lo % 2 ^ 64, hi - lo)

/-- The code of an access that would leave the block while it has no ID (R29); none when it is sent on the links. -/
def State.noRoute (s : State) : Option Code := if s.on F.AON_BLOCK_ID.valid then none else some .unmapped

/-- The epoch check of a serving unit (R333): proceed, wait, or refuse with the unit's applied epoch. -/
inductive EpochCheck where
  | proceed
  | wait
  | skew (applied : Nat)
  deriving DecidableEq, Repr

/-- Whether an epoch is newer: a signed difference above zero. -/
def epochNewer (a b : Nat) : Bool := let d := (a + 2 ^ 32 - b) % 2 ^ 32; decide (d ≠ 0) && decide (d < 2 ^ 31)

/-- Compare the carried epoch with a unit's applied and staged epochs. -/
def epochCheck (carried applied staged : Nat) : EpochCheck :=
  if carried = applied then .proceed
  else if carried = staged ∧ epochNewer carried applied then .wait
  else .skew applied

/-- The check of the unit that serves an address for an engine (R333): the home square's router, or the target engine; none down the
engine's own vertical channels. -/
def State.serveCheck (s : State) (e : EngineId) (a n carried : Nat) : EpochCheck :=
  match s.target a n with
  | some (.dram t) =>
    if t = e then .proceed else epochCheck carried (s.get F.AV_EPOCH.applied (columnOf t).val) (s.get F.AV_EPOCH.staged (columnOf t).val)
  | some (.window k) => epochCheck carried (s.get F.AV_EPOCH.applied k.val) (s.get F.AV_EPOCH.staged k.val)
  | some (.core t) => epochCheck carried (s.get F.ENG_EPOCH.applied t.val) (s.get F.ENG_EPOCH.staged t.val)
  | _ => .proceed

end Sys2Proof.Machine
end

