-- ==== Sys2Proof/Machine/Engine.lean ====
section
/-! DEFINITION. Engine instructions: their fields, reserved bits and values, register and range dependences, and the engine's registers
(R107-R125, R141, R143, R147). -/
namespace Sys2Proof.Machine

/-- Bits of an instruction (R123). -/
def fld (w : IWord) (hi lo : Nat) : Nat := nbits w.toNat hi lo

/-- The opcode of an instruction (R119). -/
def opOf (w : IWord) : Nat := fld w 7 0

/-- One bit of an instruction. -/
def bitOf (w : IWord) (i : Nat) : Bool := nbit w.toNat i

/-- S[i]; S0 reads as zero (R113). -/
def sGet (v : Vector Word 32) (i : Nat) : Word := if i % 32 = 0 then 0#64 else vget v ⟨i % 32, Nat.mod_lt _ (by decide)⟩

/-- Write S[i]; S0 ignores writes (R113). -/
def sSet (v : Vector Word 32) (i : Nat) (x : Word) : Vector Word 32 :=
  if i % 32 = 0 then v else vset v ⟨i % 32, Nat.mod_lt _ (by decide)⟩ x

/-- T[i]. -/
def tGet (v : Vector TDesc 64) (i : Nat) : TDesc := vget v ⟨i % 64, Nat.mod_lt _ (by decide)⟩

/-- P[i]; P0 reads as 1 (R113). -/
def pGet (v : Vector Bool 8) (i : Nat) : Bool := if i % 8 = 0 then true else vget v ⟨i % 8, Nat.mod_lt _ (by decide)⟩

/-- Write P[i]; P0 ignores writes (R113). -/
def pSet (v : Vector Bool 8) (i : Nat) (x : Bool) : Vector Bool 8 :=
  if i % 8 = 0 then v else vset v ⟨i % 8, Nat.mod_lt _ (by decide)⟩ x

/-- L[i]. -/
def lIdx (i : Nat) : Fin 4 := ⟨i % 4, Nat.mod_lt _ (by decide)⟩

/-- A configuration item (R143). -/
def cGet (v : Vector Word 8) (i : Nat) : Word := vget v ⟨i % 8, Nat.mod_lt _ (by decide)⟩

/-- The queue of an opcode (R108). -/
def unitOf (op : Nat) : Unt :=
  match op / 16 with
  | 0 => if op = 0x06 ∨ op = 0x0D ∨ op = 0x0E then .stream else .seq
  | 1 => .array
  | 2 => .vector
  | 3 => .sfn
  | 4 => .nrm
  | 5 => .array
  | 6 => .stream
  | 7 => .bau
  | 8 => .sync
  | _ => .seq

/-- The bits [127:16] that an opcode uses, as (highest, lowest) pairs; none for a reserved opcode (R122, R123). -/
def usedBits (op : Nat) : Option (List (Nat × Nat)) :=
  match op with
  | 0x00 => some [] | 0x01 => some [(29, 16)] | 0x02 => some [(69, 16)] | 0x03 => some [(17, 16)] | 0x04 => some [(47, 16)]
  | 0x05 => some [(41, 16)] | 0x06 => some [(29, 16)] | 0x07 => some [] | 0x08 => some [(84, 16)] | 0x09 => some [(67, 16)]
  | 0x0A => some [(64, 16)] | 0x0B => some [(28, 16)] | 0x0C => some [(59, 16)] | 0x0D => some [(25, 16)] | 0x0E => some [(25, 16)]
  | 0x10 => some [(86, 16)] | 0x11 => some [(86, 16)]
  | 0x20 => some [(50, 16)] | 0x21 => some [(50, 16)] | 0x22 => some [(50, 16)] | 0x23 => some [(50, 16)] | 0x24 => some [(50, 16)]
  | 0x30 => some [(47, 16)] | 0x31 => some [(27, 22)] | 0x32 => some []
  | 0x40 => some [(46, 16)] | 0x41 => some [(46, 16)] | 0x42 => some [(46, 16)]
  | 0x50 => some [(72, 16)] | 0x51 => some [(51, 16)] | 0x52 => some [(77, 16)]
  | 0x60 => some [(27, 16)] | 0x61 => some [(38, 16)]
  | 0x70 => some [(44, 16)] | 0x71 => some [(44, 16)] | 0x72 => some [(44, 16)] | 0x73 => some [(44, 16)] | 0x74 => some [(44, 16)]
  | 0x75 => some [(44, 16)] | 0x76 => some [(44, 16)] | 0x77 => some [(44, 16)] | 0x78 => some [(44, 16)] | 0x79 => some [(44, 16)]
  | 0x7F => some []
  | 0x80 => some [(17, 16)] | 0x81 => some [(23, 16)] | 0x82 => some [(25, 16)] | 0x83 => some [(47, 16)]
  | 0x90 => some [(23, 16)] | 0x91 => some [(23, 16)]
  | _ => none

/-- Whether every bit above the header outside the used fields is zero, and header bits [15:14] too (R119, R121). -/
def reservedClear (w : IWord) (used : List (Nat × Nat)) : Bool :=
  fld w 15 14 == 0 && used.foldl (fun x p => putBits x p.2 (p.1 + 1 - p.2) 0) (w.toNat / 2 ^ 16 * 2 ^ 16) == 0

/-- Values of small fields that are reserved (R124); shapes and operands are checked by each class. -/
def smallFieldsOk (w : IWord) : Bool :=
  match opOf w with
  | 0x09 => decide (fld w 19 16 ≤ 0xB)
  | 0x0A => decide (fld w 21 19 ≤ 5)
  | 0x10 => decide (fld w 35 34 ≤ 2)
  | 0x20 => decide (fld w 43 40 ≤ 8)
  | 0x21 => fld w 43 40 == 0
  | 0x22 => decide (fld w 43 40 ≤ 2)
  | 0x23 => decide (fld w 43 40 ≤ 3)
  | 0x24 => fld w 43 40 == 0
  | 0x30 => decide (fld w 32 28 ≤ 0x17)
  | 0x80 => decide (fld w 17 16 ≤ 2)
  | 0x81 => decide (fld w 23 22 ≤ 2)
  | 0x90 => decide (fld w 18 16 ≤ 2)
  | 0x91 => decide (fld w 18 16 ≤ 2)
  | op => if 0x70 ≤ op ∧ op ≤ 0x79 then decide (fld w 37 36 ≤ 2) else true

/-- The record of a completion, in the layout of ENG_FAULT (R131, R147). -/
def faultWord (code : Code) (idx op detail : Nat) : Word :=
  BitVec.ofNat 64 (code.toNat + idx % 2 ^ 14 * 2 ^ 4 + op % 256 * 2 ^ 18 + detail % 2 ^ 38 * 2 ^ 26)

/-- A register that an instruction reads only when a bit asks for it. -/
def readIf (b : Bool) (r : Nat) : List Nat := if b then [r] else []

/-- S registers that an instruction reads (R110, R123): a field that the instruction does not use names none. -/
def sReads (w : IWord) : List Nat :=
  match opOf w with
  | 0x02 => readIf (bitOf w 37) (fld w 36 32)
  | 0x06 => [fld w 20 16]
  | 0x09 => if fld w 19 16 = 0xB then [] else fld w 29 25 :: readIf (!bitOf w 35) (fld w 34 30)
  | 0x0A => fld w 26 22 :: readIf (!bitOf w 32) (fld w 31 27)
  | 0x0B => [fld w 28 24]
  | 0x0C => readIf (!bitOf w 27) (fld w 26 22)
  | 0x0D => [fld w 25 21]
  | 0x0E => [fld w 20 16, fld w 25 21]
  | 0x10 => [fld w 50 46, fld w 55 51] ++ readIf (bitOf w 61 || bitOf w 62) (fld w 60 56) ++ readIf (bitOf w 38) (fld w 67 63)
      ++ readIf (bitOf w 68) (fld w 85 81)
  | 0x11 => [fld w 50 46, fld w 55 51] ++ readIf (bitOf w 61 || bitOf w 62) (fld w 60 56) ++ readIf (bitOf w 38) (fld w 67 63)
  | 0x30 => [fld w 37 33, fld w 42 38, fld w 47 43]
  | 0x50 => [fld w 67 63, fld w 72 68]
  | 0x52 => [fld w 67 63, fld w 72 68, fld w 77 73]
  | 0x61 => fld w 32 28 :: readIf (!bitOf w 38) (fld w 37 33)
  | 0x90 => [fld w 23 19]
  | op =>
    if op / 16 = 2 then readIf (bitOf w 49) (fld w 48 44)
    else if op / 16 = 4 then [fld w 44 40]
    else if 0x70 ≤ op ∧ op ≤ 0x79 then [fld w 20 16, fld w 25 21, fld w 30 26, fld w 35 31] ++ readIf (fld w 37 36 == 2) (fld w 44 40)
    else []

/-- The S register that an instruction writes; 0 for none (R123). -/
def sWrite (w : IWord) : Nat :=
  match opOf w with
  | 0x08 => fld w 20 16
  | 0x09 => fld w 24 20
  | 0x0D => fld w 20 16
  | 0x91 => fld w 23 19
  | _ => 0

/-- Whether an instruction accesses memory, and so starts only after earlier fences and waits (R176, R177). -/
def touchesMemory (op : Nat) : Bool :=
  op == 0x06 || op == 0x0D || op == 0x0E || op / 16 == 1 || op / 16 == 2 || op == 0x30 || op == 0x31 || op / 16 == 4 || op / 16 == 5
    || op / 16 == 6 || (op / 16 == 7 && op != 0x7F)

/-- A descriptor register of an entry, taken apart. -/
def Entry.desc (x : Entry) (i : Nat) : Desc := Desc.of (tGet x.tr i)

/-- The scale descriptor of a descriptor. -/
def Entry.scaleDesc (x : Entry) (d : Desc) : Desc := x.desc d.scaleT

/-- Ranges of a tensor operand: its data, and its scales where it has them (R111). -/
def Entry.tensorRanges (x : Entry) (i : Nat) (kv : Bool) : List Rng :=
  let d := x.desc i
  match d.fmt with
  | none => []
  | some f =>
    let g := f.isBlock || kv
    [d.range (rowBytes f g d.n0)] ++ (if g then [(x.scaleDesc d).range (2 * blocksOf d.n0)] else [])

/-- Descriptor operands that an instruction reads, by T register (R123). -/
def srcOperands (w : IWord) : List Nat :=
  match opOf w with
  | 0x10 => [fld w 27 22, fld w 33 28] ++ (if bitOf w 39 then [fld w 45 40] else []) ++ (if bitOf w 68 then [fld w 74 69, fld w 80 75] else [])
  | 0x11 => [fld w 27 22] ++ (if bitOf w 39 then [fld w 45 40] else [])
  | 0x20 => [fld w 27 22] ++ (if bitOf w 49 then [] else [fld w 33 28])
  | 0x21 => [fld w 27 22, fld w 39 34] ++ (if bitOf w 49 then [] else [fld w 33 28])
  | 0x22 => [fld w 27 22]
  | 0x23 => [fld w 27 22]
  | 0x24 => [fld w 27 22, fld w 39 34] ++ (if bitOf w 49 then [] else [fld w 33 28])
  | 0x30 => [fld w 27 22]
  | 0x31 => [fld w 27 22]
  | 0x40 => [fld w 27 22]
  | 0x41 => [fld w 27 22] ++ (if bitOf w 45 then [fld w 33 28] else []) ++ (if bitOf w 46 then [fld w 39 34] else [])
  | 0x42 => [fld w 27 22] ++ (if bitOf w 45 then [fld w 33 28] else []) ++ (if bitOf w 46 then [fld w 39 34] else [])
  | 0x50 => [fld w 21 16, fld w 27 22, fld w 33 28] ++ (if fld w 45 40 = 0 then [] else [fld w 45 40]) ++ (if bitOf w 60 then [fld w 51 46] else [])
  | 0x52 => [fld w 21 16, fld w 27 22, fld w 33 28] ++ (if fld w 45 40 = 0 then [] else [fld w 45 40])
  | 0x51 => [fld w 27 22, fld w 33 28, fld w 39 34, fld w 45 40]
  | 0x60 => [fld w 27 22]
  | 0x61 => [fld w 27 22]
  | _ => []

/-- Descriptor operands that an instruction writes. -/
def dstOperands (w : IWord) : List Nat :=
  match opOf w with
  | 0x50 => [fld w 39 34] ++ (if bitOf w 61 then [fld w 57 52] else [])
  | 0x52 => [fld w 39 34] ++ (if bitOf w 61 then [fld w 57 52] else [])
  | 0x51 => [fld w 21 16, fld w 51 46]
  | op => if op / 16 = 1 ∨ op / 16 = 2 ∨ op = 0x30 ∨ op / 16 = 4 ∨ op / 16 = 6 then [fld w 21 16] else []

/-- Whether an operand of an attention instruction is a quantised key or value (R235). -/
def kvOperand (w : IWord) (i : Nat) : Bool :=
  (opOf w == 0x50 || opOf w == 0x52) && bitOf w 62 && (i == fld w 27 22 || i == fld w 33 28)

/-- Replace the engine or square field of an address (R172). -/
def retarget (a n : Nat) (sq : Bool) : Nat := if sq then putBits a 26 6 n else putBits a 25 7 n

/-- Destinations of a multicast (R172). -/
def mcastDests (w : IWord) (sr : Vector Word 32) : List Nat :=
  let lo := (sGet sr (fld w 32 28)).toNat
  let hi := (sGet sr (fld w 37 33)).toNat
  if bitOf w 38 then (List.range 40).filter fun i => nbit lo i
  else ((List.range 64).filter fun i => nbit lo i) ++ ((List.range 16).filter fun i => nbit hi i).map (· + 64)

/-- The mask and the record that a broadcast reads at addresses in S registers, as address and length (R283, R298). -/
def Entry.bauReads (x : Entry) : List (Nat × Nat) :=
  let w := x.word
  if 0x70 ≤ opOf w ∧ opOf w ≤ 0x79 then
    (if fld w 37 36 = 2 then [((sGet x.sr (fld w 44 40)).toNat, 256)] else [])
      ++ (if opOf w = 0x77 then [((sGet x.sr (fld w 30 26)).toNat, 256)] else [])
  else []

/-- Source ranges of an instruction (R111): its tensors, and what it reads at addresses in S registers (R150). -/
def Entry.srcRanges (x : Entry) : List Rng :=
  let w := x.word
  let sa (i : Nat) : Nat := (sGet x.sr i).toNat
  ((srcOperands w).flatMap fun i => x.tensorRanges i (kvOperand w i)) ++
  (match opOf w with
    | 0x06 => [Rng.at (sa (fld w 20 16)) (fld w 29 25 * 16384)]
    | 0x0D => [Rng.at (sa (fld w 25 21)) 8]
    | 0x10 => if bitOf w 68 then [Rng.at (sa (fld w 85 81)) 264] else []
    | 0x52 => [Rng.at (sa (fld w 77 73)) 64]
    | _ => x.bauReads.map fun p => Rng.at p.1 p.2)

/-- The range of rows of a multicast, from the lowest byte over all destinations to the highest (R173): `a` and `b` are the lowest and the highest
destination. -/
def mcastRange (sq : Bool) (a b len : Nat) (rows : List Nat) : Rng :=
  { space := rows.headD 0 / 2 ^ 48
    lo := rows.foldl (fun m r => min m (retarget r a sq % 2 ^ 48)) (2 ^ 48)
    hi := rows.foldl (fun m r => max m (retarget r b sq % 2 ^ 48 + len - 1)) 0 }

/-- The data range of a multicast's destination, and the range of its scales. -/
def Entry.mcastRanges (x : Entry) : List Rng :=
  let w := x.word
  let d := x.desc (fld w 21 16)
  let ds := mcastDests w x.sr
  match d.fmt, ds.head?, ds.getLast? with
  | some f, some a, some b =>
    [mcastRange (bitOf w 38) a b (rowBytes f f.isBlock d.n0) d.rowAddrs]
      ++ (if f.isBlock then [mcastRange (bitOf w 38) a b (2 * blocksOf d.n0) (x.scaleDesc d).rowAddrs] else [])
  | _, _, _ => []

/-- Destination ranges of an instruction (R111, R173). -/
def Entry.dstRanges (x : Entry) : List Rng :=
  let w := x.word
  match opOf w with
  | 0x0E => [Rng.at (sGet x.sr (fld w 25 21)).toNat 8]
  | 0x61 => x.mcastRanges
  | _ => (dstOperands w).flatMap fun i => x.tensorRanges i false

/-- Whether two lists of ranges overlap. -/
def overlapAny (a b : List Rng) : Bool := a.any fun x => b.any fun y => x.overlaps y

/-- Whether a new instruction waits for memory of earlier ones (R111, R167). -/
def Engine.rangeConflict (g : Engine) (x : Entry) : Bool :=
  let src := x.srcRanges
  let dst := x.dstRanges
  (g.inflight.any fun y => !y.completed && (overlapAny (src ++ dst) y.dstRanges || overlapAny dst y.srcRanges))
    || g.drains.any fun d => overlapAny (src ++ dst) d.rngs

/-- Whether an earlier instruction with catch = 1 has not retired: readers of S31 and P7 wait for it (R131). -/
def Engine.catchPending (g : Engine) : Bool := g.inflight.any fun y => bitOf y.word 12

/-- Whether a register that the instruction reads still waits for its writer (R110, R131). -/
def Engine.regConflict (g : Engine) (w : IWord) : Bool :=
  ((sReads w).any fun r => (g.inflight.any fun y => opOf y.word == 0x0D && !y.completed && fld y.word 20 16 == r && r != 0)
    || (r == 31 && g.catchPending)) || (fld w 10 8 == 7 && g.catchPending)

/-- Change the oldest entry with an identity. -/
def Engine.setEntry (g : Engine) (x : Entry) : Engine := { g with inflight := g.inflight.map fun y => if y.id = x.id then x else y }

/-- The oldest entry of a queue that its unit has not done yet: instructions of one queue start in issue order (R109). -/
def Engine.front (g : Engine) (u : Unt) : Option Entry := g.inflight.find? fun y => y.unit == u && !y.done

/-- Instructions that hold back later memory accesses: a fence, a waiting barrier, a flag wait, an epoch wait and BAU.WAIT (R176, R177). -/
def holdsLater (w : IWord) : Bool :=
  match opOf w with
  | 0x7F => true
  | 0x80 => true
  | 0x81 => fld w 23 22 != 1
  | 0x82 => decide (2 ≤ fld w 25 24)
  | 0x83 => true
  | _ => false

/-- Whether an earlier fence or wait still holds back memory accesses of an entry (R176, R177). -/
def Engine.fenced (g : Engine) (x : Entry) : Bool :=
  (g.inflight.takeWhile fun y => y.id != x.id).any fun y => !y.completed && holdsLater y.word

/-- Whether an instruction that was issued after an entry has already written an S register: program order gives that value (R110). -/
def Engine.overwritten (g : Engine) (x : Entry) (r : Nat) : Bool :=
  ((g.inflight.dropWhile fun y => y.id != x.id).drop 1).any fun y => y.completed && y.code == .ok && sWrite y.word == r

/-- The state of an engine (R134). -/
def State.engState (s : State) (e : EngineId) : Nat := s.get F.ENG_STATUS.state e.val

/-- Enter a state, with the signal that R134 gives; a phase without a duration ends with RUN (R422). -/
def State.enterState (s : State) (e : EngineId) (st : Nat) (signal : Bool) : State :=
  let s := if s.engState e = 1 then s.leaveRun e else s
  let s := s.put F.ENG_STATUS.state st e.val
  if signal then s.emit (.engineSignal e.val st) else s

/-- Whether every drain of an engine has finished (R167). -/
def Engine.drained (g : Engine) : Bool := g.drains.isEmpty

/-- Deliver drain failures to a waiting instruction: the earliest code, and none left (R168). DESIGN CHOICE (log entry 67): an instruction whose
scope leaves out some drains delivers their failures too. -/
def Engine.takeFail (g : Engine) : Engine × Code := ({ g with fails := [] }, g.fails.headD .ok)

/-- Mark an entry done and complete with a code. -/
def Entry.finish (x : Entry) (c : Code) (detail : Nat := 0) : Entry := { x with done := true, completed := true, code := c, detail := detail }

/-- Mark an entry done by its unit: its results wait for INSTRUCTION_COMPLETE (R166). -/
def Entry.result (x : Entry) (w : Writes) (cap : Option CapReq) : Entry := { x with done := true, code := .ok, writes := w, cap := cap, wrote := false }

/-- Mark an entry done with a failure: its results are discarded (R166). -/
def Entry.fail (x : Entry) (c : Code) (detail : Nat) : Entry := { x with done := true, code := c, detail := detail, writes := [], cap := none }

end Sys2Proof.Machine
end

