-- ==== Sys2Proof/Machine/BauBook.lean ====
section
/-! DEFINITION. The books of a broadcast port and the registers that follow them (R271, R284, R286, R311). -/
namespace Sys2Proof.Machine

/-- The sequence of a bank in the present pass. -/
def Broadcast.seq (x : Broadcast) (b : Nat) : BankSeq := Tbl.get (fun _ => BankSeq.start) x.seqs b

/-- Change the sequence of a bank. -/
def Broadcast.setSeq (x : Broadcast) (b : Nat) (q : BankSeq) : Broadcast := { x with seqs := Tbl.set (fun _ => BankSeq.start) x.seqs b q }

/-- Whether a bank's wave of the present pass is released (R286). -/
def Broadcast.isReleased (x : Broadcast) (b : Nat) : Bool := x.released.contains (b % 4)

/-- Whether every addressed bank has finished the present pass. -/
def Broadcast.allFin (x : Broadcast) : Bool := x.banks.all fun b => (x.seq b).fin

/-- Whether any bank's sequence ended by an error (R296, R301, R307). -/
def Broadcast.anyErr (x : Broadcast) : Bool := x.banks.any fun b => (x.seq b).err

/-- Whether a bank, addressed or the source, still waits for a broadcast to finish in it (R284, R294). -/
def Broadcast.holds (x : Broadcast) (b : Nat) : Bool :=
  (x.banks.contains b && !(x.phase == .main && (x.seq b).fin)) || (x.src == some b && !(x.phase == .main && x.allFin))

/-- Replace a broadcast, and take one out. -/
def Engine.setBc (g : Engine) (x : Broadcast) : Engine := { g with bcs := g.bcs.map fun y => if y.id = x.id then x else y }
def Engine.dropBc (g : Engine) (id : Nat) : Engine := { g with bcs := g.bcs.filter fun y => y.id != id }

/-- Banks in which a sequence has not finished, its check pass, its main pass or a wave still to come (R305, R311). -/
def Engine.activeBanks (g : Engine) : Nat :=
  ((g.bcs.filter fun x => x.phase != .recall).flatMap fun x => x.banks.filter fun b => !(x.phase == .main && (x.seq b).fin)).eraseDups.length

/-- `BAU_STATUS` follows the books, and `LND_STATUS.recall` reads 1 while a broadcast waits for its recall (R271, R311). -/
def State.bauStatus (s : State) (e : EngineId) : State :=
  let g := s.eng e
  let old := g.bcs.head?
  let s := s.put F.BAU_STATUS.inflight g.bcs.length e.val
  let s := s.put F.BAU_STATUS.check (match old with
    | some x => b2n (x.phase == .check)
    | none => 0) e.val
  let s := s.put F.BAU_STATUS.waves (match old with
    | some x => x.released.foldl (fun n w => n ||| 2 ^ w) 0
    | none => 0) e.val
  let s := s.put F.BAU_STATUS.active g.activeBanks e.val
  s.put F.LND_STATUS.recall (b2n (g.bcs.any fun x => x.phase == .recall)) e.val

/-- The registers follow a change of an engine that may have ended broadcasts. -/
def State.setEngBcs (s : State) (e : EngineId) (g : Engine) : State :=
  if (s.eng e).bcs.isEmpty then s.setEng e g else (s.setEng e g).bauStatus e

end Sys2Proof.Machine
end

