-- ==== Sys2Proof/Machine/BauOps.lean ====
section
/-! DEFINITION. Bank arithmetic in one bank: operand words, what a broadcast accepts, its steps, the optimiser step and the OPT record
(R283, R287-R302). -/
namespace Sys2Proof.Machine

/-- A row operand (R289). -/
structure RowOp where
  row : Nat
  fmtCode : Nat
  srow : Nat
  blk0 : Nat
  bstep : Nat
  deriving DecidableEq, Repr

/-- Take an operand word apart. -/
def RowOp.of (w : Nat) : RowOp := ⟨nbits w 10 0, nbits w 14 11, nbits w 26 16, nbits w 30 27, nbits w 34 31⟩

/-- Reserved bits of an operand word; the count field is zero outside S[sa] (R289). -/
def rowOpClear (w : Nat) (isA : Bool) : Bool := nbits w 41 35 == 0 && nbits w 15 15 == 0 && (isA || nbits w 63 42 == 0)

/-- The element count (R289). -/
def Broadcast.n (x : Broadcast) : Nat := nbits x.a 63 42 + 1

/-- The operands A, B and D. -/
def Broadcast.opA (x : Broadcast) : RowOp := RowOp.of x.a
def Broadcast.opB (x : Broadcast) : RowOp := RowOp.of x.b
def Broadcast.opD (x : Broadcast) : RowOp := RowOp.of x.d

/-- The format of an operand; FP32 stands for a reserved code, which no accepted broadcast has. -/
def RowOp.fmt (o : RowOp) : Fmt := (Fmt.ofCode o.fmtCode).getD .fp32

/-- Whether a destination or source is in blocks: LB8 and LB4, and INT8 and INT4 as KV forms in QNT and DQT (R292). -/
def blockUse (op : Nat) (f : Fmt) (isD : Bool) : Bool :=
  f.isBlock || (f.isInt && ((op == 0x75 && isD) || (op == 0x76 && !isD)))

/-- Formats that an operation accepts for A, B and D (R292). -/
def floatFmt (f : Fmt) : Bool := f == .fp32 || f == .fp16 || f == .bf16
def quantFmt (f : Fmt) : Bool := f == .lb8 || f == .int8 || f == .int4 || f == .lb4
def accepts (op : Nat) (which : Nat) (f : Fmt) : Bool :=
  match op, which with
  | 0x74, _ => !f.isBlock
  | 0x75, 0 => f == .fp16
  | 0x75, _ => quantFmt f
  | 0x76, 0 => quantFmt f
  | 0x76, _ => f == .fp16
  | 0x78, _ => floatFmt f || f.isBlock
  | 0x79, _ => floatFmt f || f.isBlock
  | _, _ => floatFmt f

/-- Bytes of `n` elements packed across rows (R290). -/
def dataLen (f : Fmt) (n : Nat) : Nat := rowBytes f f.isBlock n

/-- The byte ranges of an operand within its bank, data and scale entries, as lowest and end (R290). -/
def RowOp.ranges (o : RowOp) (block : Bool) (n : Nat) : List (Nat × Nat) :=
  [(1024 * o.row, 1024 * o.row + dataLen o.fmt n)] ++ (if block then [(1024 * o.srow, 1024 * o.srow + 2 * (n / 32))] else [])

/-- Whether one operand word is acceptable (R289-R292). -/
def rowOpOk (op which w n : Nat) : Bool :=
  let o := RowOp.of w
  match Fmt.ofCode o.fmtCode with
  | none => false
  | some f =>
    let blk := blockUse op f (which == 2)
    rowOpClear w (which == 0) && accepts op which f && (blk || (o.srow == 0 && o.blk0 == 0 && o.bstep == 0)) && (!blk || n % 32 == 0)
      && (o.ranges blk n).all fun r => decide (r.2 ≤ 1536 * 1024)

/-- A destination overlaps a source only where the two coincide (R291). -/
def overlapOk (op n : Nat) (src d : Nat) : Bool :=
  let o := RowOp.of src
  let t := RowOp.of d
  let hit := (t.ranges (blockUse op t.fmt true) n).any fun x => (o.ranges (blockUse op o.fmt false) n).any fun y => decide (x.1 < y.2) && decide (y.1 < x.2)
  !hit || (o.row == t.row && o.fmtCode == t.fmtCode && o.srow == t.srow)

/-! ## The OPT record (R298, R299) -/

/-- The format of a field of the record: w, g, m, v. -/
def optFmt (b : List Byte) (i : Nat) : Fmt := (Fmt.ofCode (numAt b (0x29 + i) 1)).getD .fp32

/-- Sector offset of a field. -/
def optOff (b : List Byte) (i : Nat) : Nat := numAt b (0x2E + i) 1

/-- Parameters per row divided by 32, and parameters per row. -/
def optNp32 (b : List Byte) : Nat := numAt b 0x2D 1
def optNp (b : List Byte) : Nat := 32 * optNp32 b

/-- Formats of R220. -/
def optAccepts (i : Nat) (f : Fmt) : Bool :=
  match i with
  | 0 => f == .fp32 || f == .bf16 || f == .fp16
  | 1 => f == .e5m2 || f == .lb8 || f == .bf16 || f == .fp32
  | _ => f == .lb8 || f == .e4m3 || f == .bf16 || f == .fp32

/-- Which of g, m and v are LB8, in order; a field's place among them gives its scale entries (R299). -/
def optLb8 (b : List Byte) : List Nat := [1, 2, 3].filter fun i => optFmt b i == .lb8

/-- Bytes of the fields in a row, and of the scale entries (R299). -/
def optFields (b : List Byte) : List (Nat × Nat) :=
  ([0, 1, 2, 3].map fun i => (64 * optOff b i, optNp b * (optFmt b i).width / 8))
    ++ (if (optLb8 b).isEmpty then [] else [(64 * optOff b 4, 2 * optNp32 b * (optLb8 b).length)])

/-- No two ranges overlap. -/
def disjointRanges : List (Nat × Nat) → Bool
  | [] => true
  | x :: xs => (xs.all fun y => !(decide (x.1 < y.1 + y.2) && decide (y.1 < x.1 + x.2))) && disjointRanges xs

/-- The checks of R299 on the record. -/
def optRecordOk (b : List Byte) : Bool :=
  numAt b 0x28 1 / 2 == 0 && numAt b 0xC4 1 / 8 == 0 && (b.drop 0xC5).all (· == 0#8)
    && [0, 1, 2, 3].all (fun i => (Fmt.ofCode (numAt b (0x29 + i) 1)).isSome && optAccepts i (optFmt b i))
    && decide (1 ≤ optNp32 b) && decide (optNp32 b ≤ 8) && decide (numAt b 0x33 1 ≤ 15)
    && [0x34, 0x38].all (fun o => decide (-126 ≤ toSigned 32 (numAt b o 4)) && decide (toSigned 32 (numAt b o 4) ≤ 127))
    && [0, 1, 2, 3, 4].all (fun i => decide (optOff b i ≤ 15))
    && (!(optLb8 b).isEmpty || optOff b 4 == 0)
    && (optFields b).all (fun r => decide (r.1 + r.2 ≤ 1024)) && disjointRanges (optFields b)
    && (optFmt b 2 != .e4m3 || (List.range 16).all fun i => magnitudeOk (numAt b (0x40 + 4 * i) 4))
    && (optFmt b 3 != .e4m3 || (List.range 16).all fun i => magnitudeOk (numAt b (0x80 + 4 * i) 4))

/-- The checks of R292 and R299 on S[sa] of BAU.OPT. -/
def optOperandOk (a : Nat) (b : List Byte) : Bool :=
  let o := RowOp.of a
  let n := nbits a 63 42 + 1
  rowOpClear a true && o.fmtCode == 0 && o.srow == 0 && n % 32 == 0 && decide (o.row + ceilDiv n (optNp b) ≤ 1536)

/-- Tag index of block `j` of relative row `r` in bank `b` (R299). -/
def Broadcast.optTag (x : Broadcast) (b r j : Nat) : Nat := (x.opA.blk0 + x.opA.bstep * b + r * optNp32 x.opt + j) % 16

/-! ## Units and steps (R302) -/

/-- What a step of a unit does. -/
inductive BauKind where
  | readA | readB | writeD | readS | writeS | optStep
  deriving DecidableEq, Repr

/-- Whether the operation reads its A in blocks, and so runs a check pass (R285). -/
def Broadcast.blockA (x : Broadcast) : Bool := (x.op == 0x76 || x.op == 0x78 || x.op == 0x79) && blockUse x.op x.opA.fmt false

/-- The steps of a unit of work (R302). -/
def Broadcast.kinds (x : Broadcast) : List BauKind :=
  match x.op with
  | 0x70 => [.readA, .readB, .writeD]
  | 0x71 => [.readA, .readB, .writeD]
  | 0x72 => [.readA, .writeD]
  | 0x73 => [.writeD]
  | 0x74 => if x.src.isSome then [.writeD] else [.readA, .writeD]
  | 0x75 => [.readA, .writeD, .writeS]
  | 0x76 => [.readS, .readA, .writeD]
  | 0x77 => [.optStep]
  | _ => if x.blockA then [.readS, .readA] else [.readA]

/-- Units of work of a main pass (R302). -/
def Broadcast.units (x : Broadcast) : Nat :=
  match x.op with
  | 0x74 => ceilDiv (dataLen x.opA.fmt x.n) 1024
  | 0x77 => x.n / 32
  | _ => ceilDiv x.n 256

/-- Steps of a bank's main pass. -/
def Broadcast.steps (x : Broadcast) : Nat := x.units * x.kinds.length

/-- Elements of unit `k`, and the bytes of the unit in an operand, as offset in the bank and length. -/
def Broadcast.unitN (x : Broadcast) (k : Nat) : Nat := min 256 (x.n - 256 * k)
def Broadcast.unitRange (x : Broadcast) (o : RowOp) (k : Nat) : Nat × Nat :=
  if x.op = 0x74 then (1024 * (o.row + k), min 1024 (dataLen o.fmt x.n - 1024 * k))
  else (1024 * o.row + 32 * k * o.fmt.width, ceilDiv (x.unitN k * o.fmt.width) 8)

/-- The bytes of the scale entries of unit `k`. -/
def Broadcast.scaleRange (x : Broadcast) (o : RowOp) (k : Nat) : Nat × Nat := (1024 * o.srow + 16 * k, 2 * blocksOf (x.unitN k))

/-- The tag index of block `k` of an operand in bank `b` (R290). -/
def RowOp.tag (o : RowOp) (b k : Nat) : Nat := (o.blk0 + o.bstep * b + k) % 16

/-- How a step reads its bank. -/
abbrev BankRd := Nat → Nat → List Byte

/-- What a step reads and writes, and the sequence after it. -/
structure BauFx where
  reads : List (Nat × Nat)
  writes : List (Nat × List Byte)
  seq : BankSeq

/-- A sequence that advances by one step. -/
def BankSeq.next (q : BankSeq) : BankSeq := { q with pos := q.pos + 1 }

/-- α of an operation (R293). -/
def Broadcast.alpha (x : Broadcast) : Val := ofF32 (x.c % 2 ^ 32)

/-- The value of ADD, AXPY, SCALE or FILL before its one rounding (R293). -/
def Broadcast.combine (x : Broadcast) (a b : Val) : Val :=
  match x.op with
  | 0x70 => a.add b
  | 0x71 => (x.alpha.mul a).add b
  | 0x72 => x.alpha.mul a
  | _ => x.alpha

/-- Encode a group as KV8 or KV4 (R236). -/
def encodeKv (e w : Nat) (l : List Val) : Nat × List Nat :=
  if l.any Val.isNan then (255, l.map fun _ => 0)
  else
    let t := match blockMax l with
      | .fin q =>
        if q.isZero then 0
        else
          let k := (q.div (Q.ofNat e)).log2
          let t := if q.le ((Q.ofNat e).mul (Q.pow2 k)) then k + 127 else k + 128
          if t < 0 then 0 else min t.toNat 254
      | _ => 254
    (t, l.map fun v => encodeInt w (-(e : Int)) (v.mul (.fin (Q.pow2 (127 - (t : Int))))) .rna)

/-- One block of 32 values in the destination of QNT (R295). -/
def quantBlock (f : Fmt) (l : List Val) : Nat × List Nat :=
  match f with
  | .int8 => encodeKv 127 8 l
  | .int4 => encodeKv 7 4 l
  | .lb4 => encodeLb4 l
  | _ => encodeLb8 l .rna

/-- An element as BAU.COPY writes it (R294): −0 as +0, a NaN as the canonical NaN, integers unchanged. -/
def canonElem (f : Fmt) (bits : Nat) : Nat :=
  if f.isInt then bits
  else match f.decode bits with
    | .nan => f.spec.nanCode
    | .fin q => if q.isZero then 0 else bits
    | _ => bits

/-- The bytes of one unit of a copy. An element that straddles the start of the unit is completed by the byte before it, which the unit before
has read; the low bits of one that straddles the end are unchanged by the copy. Bit positions beyond the last of the `n` elements are zero (R41). -/
def copyUnit (f : Fmt) (rd : BankRd) (o : RowOp) (n k len : Nat) : List Byte :=
  let w := f.width
  let s0 := 8192 * k
  let i0 := s0 / w * w
  let b0 := i0 / 8
  let raw := leNat (rd (1024 * o.row + b0) (1024 * k + len - b0))
  let x := raw / 2 ^ (i0 % 8)
  let total := s0 + 8 * len - i0
  let elem (i v : Nat) : Nat := if i0 / w + i < n then v else 0
  let whole := (List.range (total / w)).map fun i => elem i (canonElem f (x / 2 ^ (i * w) % 2 ^ w))
  let low := whole.foldr (fun e acc => e % 2 ^ w + acc * 2 ^ w) 0
  let all := low + elem (total / w) (x / 2 ^ (total / w * w) % 2 ^ (total % w)) * 2 ^ (total / w * w)
  leBytes len (all / 2 ^ (s0 - i0))

/-- Lane results of a reduction after one unit (R296). -/
def Broadcast.reduce (x : Broadcast) (lanes : List Val) (vals : List Val) : List Val :=
  (List.range 16).map fun l =>
    let mine := ((List.range vals.length).zip vals).filter fun p => p.1 % 16 == l
    mine.foldl (fun acc p =>
      if x.op = 0x78 then (acc.add (if nbit x.c 1 then p.2.mul p.2 else p.2)).f32 else acc.max p.2.abs) ((lanes[l]?).getD Val.zero)

/-- Combine lane or bank results in order (R296). -/
def Broadcast.fold (x : Broadcast) (l : List Val) : Val := l.foldl (fun acc v => if x.op = 0x78 then (acc.add v).f32 else acc.max v) Val.zero

/-- Values of a unit of A under scale bytes. -/
def Broadcast.valsA (x : Broadcast) (bytes : List Byte) (k : Nat) (scales : List Nat) : List Val :=
  let f := x.opA.fmt
  rowVals f (blockUse x.op f false && !f.isBlock) (unpackRow f (x.unitN k) bytes) scales

/-! ## The optimiser step (R300) -/

/-- An FP32 field of the record. -/
def optF (b : List Byte) (off : Nat) : Val := ofF32 (numAt b off 4)

/-- The square root of R300 as an exact value. -/
def sqrtVal (v : Val) : Val :=
  match v with
  | .nan => .nan
  | .inf s => if s then .nan else .inf false
  | .fin q => if q.isNeg then .nan else .fin (Approx.sqrt q)

/-- One parameter: w1, m1 and v1 (R300). -/
def optParam (r : List Byte) (w g0 m v : Val) : Val × Val × Val :=
  let dec := nbit (numAt r 0x28 1) 0
  let lr := optF r 0x00
  let wd := optF r 0x18
  let g := (g0.mul (optF r 0x24)).f32
  let g := if dec then g else (g.add (wd.mul w)).f32
  let m1 := (((optF r 0x04).mul m).add ((optF r 0x08).mul g)).f32
  let v1 := (((optF r 0x0C).mul v).add (((optF r 0x10).mul g).mul g)).f32
  let dn := ((sqrtVal ((v1.mul (optF r 0x20)).f32)).add (optF r 0x14)).f32
  let u := (quot (m1.mul (optF r 0x1C)) dn).f32
  let w1 := if dec then ((w.sub (lr.mul u)).sub ((lr.mul wd).mul w)).f32 else (w.sub (lr.mul u)).f32
  (w1, m1, v1)

/-- The exponent that scales an E4M3 moment; 0 for every other field (R298). -/
def optExp (r : List Byte) (i : Nat) : Int :=
  if optFmt r i = .e4m3 ∧ 2 ≤ i then toSigned 32 (numAt r (if i = 2 then 0x34 else 0x38) 4) else 0

/-- The bytes of block `j` of a field in its row, and of its scale entry where it is LB8 (R299). -/
def optPlace (r : List Byte) (i j : Nat) : Nat × Nat := (64 * optOff r i + j * (4 * (optFmt r i).width), 4 * (optFmt r i).width)
def optScalePlace (r : List Byte) (i j : Nat) : Option Nat :=
  ((optLb8 r).idxOf? i).map fun p => 64 * optOff r 4 + 2 * (p * optNp32 r + j)

/-- Values of a block of 32 elements of a field. -/
def optVals (r : List Byte) (rd : BankRd) (base i j : Nat) : List Val :=
  let f := optFmt r i
  let p := optPlace r i j
  let es := unpackRow f 32 (rd (base + p.1) p.2)
  match optScalePlace r i j with
  | some o => rowVals f false es [leNat (rd (base + o) 2) % 256]
  | none => es.map fun e => (f.decode e).mul (.fin (Q.pow2 (optExp r i)))

/-- The writes of a field's new values. -/
def optWrites (r : List Byte) (base i j tag : Nat) (l : List Val) : List (Nat × List Byte) :=
  let f := optFmt r i
  let p := optPlace r i j
  match optScalePlace r i j with
  | some o =>
    let q := encodeLb8 l .rna
    [(base + p.1, packRow f true 32 q.2), (base + o, leBytes 2 (scaleEntry q.1 tag))]
  | none => [(base + p.1, packRow f false 32 (l.map fun v => f.encode (v.mul (.fin (Q.pow2 (-optExp r i)))) .rna))]

/-- One step of BAU.OPT (R300, R301). -/
def Broadcast.optStep (x : Broadcast) (rd : BankRd) (b : Nat) (q : BankSeq) : BauFx :=
  let r := x.opt
  let row := q.pos / optNp32 r
  let j := q.pos % optNp32 r
  let base := 1024 * (x.opA.row + row)
  let val (i : Nat) : List Val := optVals r rd base i j
  let res := ((val 0).zip ((val 1).zip ((val 2).zip (val 3)))).map fun p => optParam r p.1 p.2.1 p.2.2.1 p.2.2.2
  let m1 := res.map fun p => p.2.1
  let v1 := res.map fun p => p.2.2
  let tag := x.optTag b row j
  { reads := ([0, 1, 2, 3].map fun i => (base + (optPlace r i j).1, (optPlace r i j).2))
      ++ [1, 2, 3].filterMap fun i => (optScalePlace r i j).map fun o => (base + o, 2)
    writes := optWrites r base 0 j tag (res.map fun p => p.1) ++ optWrites r base 2 j tag m1 ++ optWrites r base 3 j tag v1
    seq := { q.next with mMax := m1.foldl (fun a v => a.max v.abs) q.mMax, vMax := v1.foldl (fun a v => a.max v.abs) q.vMax } }

/-- One step of a main pass in bank `b` (R293-R296, R302). `rd` reads the bank. -/
def Broadcast.stepFx (x : Broadcast) (rd : BankRd) (b : Nat) (q : BankSeq) : BauFx :=
  let ks := x.kinds
  let k := q.pos / ks.length
  let a := x.opA
  let d := x.opD
  match (ks[q.pos % ks.length]?).getD .optStep with
  | .optStep => x.optStep rd b q
  | .readS =>
    let p := x.scaleRange a k
    ⟨[p], [], { q.next with latch := (entriesOf (blocksOf (x.unitN k)) (rd p.1 p.2)).map (· % 256) }⟩
  | .readA =>
    let p := x.unitRange a k
    let bytes := rd p.1 p.2
    match x.op with
    | 0x74 => ⟨[p], [], { q.next with latch := (copyUnit a.fmt rd a x.n k p.2).map BitVec.toNat }⟩
    | 0x76 => ⟨[p], [], { q.next with latch := (x.valsA bytes k q.latch).map fun v => d.fmt.encode v .rna }⟩
    | 0x78 => ⟨[p], [], { q.next with lanes := x.reduce q.lanes (x.valsA bytes k q.latch) }⟩
    | 0x79 => ⟨[p], [], { q.next with lanes := x.reduce q.lanes (x.valsA bytes k q.latch) }⟩
    | _ => ⟨[p], [], { q.next with latch := unpackRow a.fmt (x.unitN k) bytes }⟩
  | .readB =>
    let p := x.unitRange x.opB k
    let bs := (unpackRow x.opB.fmt (x.unitN k) (rd p.1 p.2)).map x.opB.fmt.decode
    ⟨[p], [], { q.next with latch := ((q.latch.map a.fmt.decode).zip bs).map fun y => d.fmt.encode (x.combine y.1 y.2) .rna }⟩
  | .writeD =>
    let p := x.unitRange d k
    match x.op with
    | 0x72 => ⟨[], [(p.1, packRow d.fmt false (x.unitN k) (q.latch.map fun e => d.fmt.encode (x.combine (a.fmt.decode e) Val.zero) .rna))], q.next⟩
    | 0x73 => ⟨[], [(p.1, packRow d.fmt false (x.unitN k) (List.replicate (x.unitN k) (d.fmt.encode x.alpha .rna)))], q.next⟩
    | 0x74 => ⟨[], [(p.1, q.latch.map (BitVec.ofNat 8))], q.next⟩
    | 0x75 =>
      let bs := (chunksOf 32 256 (q.latch.map a.fmt.decode)).map (quantBlock d.fmt)
      ⟨[], [(p.1, packRow d.fmt false (x.unitN k) (bs.flatMap Prod.snd))], { q.next with latch := bs.map Prod.fst }⟩
    | _ => ⟨[], [(p.1, packRow d.fmt false (x.unitN k) q.latch)], q.next⟩
  | .writeS =>
    let p := x.scaleRange d k
    ⟨[], [(p.1, ((List.range q.latch.length).zip q.latch).flatMap fun y => leBytes 2 (scaleEntry y.2 (d.tag b (8 * k + y.1))))], q.next⟩

/-! ## The check pass (R287) -/

/-- Steps of a bank's check pass: one for each sector of scale entries, and for BAU.OPT one for each row (R299, R302). -/
def Broadcast.checkSteps (x : Broadcast) : Nat :=
  if x.op = 0x77 then (if (optLb8 x.opt).isEmpty then 0 else ceilDiv x.n (optNp x.opt))
  else if x.blockA then ceilDiv (2 * (x.n / 32)) 64
  else 0

/-- What a check step reads: the bytes of entries, with the slot, the first block index and the number of entries of each piece. -/
def Broadcast.checkPieces (x : Broadcast) (i : Nat) : List (Nat × Nat × Nat × Nat) :=
  if x.op = 0x77 then
    let np := optNp32 x.opt
    let cnt := min np ((x.n - i * optNp x.opt) / 32)
    (optLb8 x.opt).filterMap fun f => (optScalePlace x.opt f 0).map fun o => (1024 * (x.opA.row + i) + o, f - 1, i * np, cnt)
  else [(1024 * x.opA.srow + 64 * i, 0, 32 * i, min 32 (x.n / 32 - 32 * i))]

/-- Entries of a check step whose tag fails: slot, index, expected tag (R287, R290, R299). -/
def Broadcast.checkFails (x : Broadcast) (rd : BankRd) (b i : Nat) : List (Nat × Nat × Nat) :=
  (x.checkPieces i).flatMap fun p =>
    let es := entriesOf p.2.2.2 (rd p.1 (2 * p.2.2.2))
    ((List.range es.length).zip es).filterMap fun y =>
      let idx := p.2.2.1 + y.1
      let want := x.opA.tag b idx
      if entryOk y.2 want then none else some (p.2.1, idx, want)

/-! ## The commit of the OPT record (R301) -/

/-- Put bytes into a list at an offset. -/
def patch (b : List Byte) (off : Nat) (v : List Byte) : List Byte := b.take off ++ v ++ b.drop (off + v.length)

/-- The commit of one E4M3 moment: history and exponent (R216, R301). -/
def optCommit1 (b : List Byte) (i : Nat) (mx : Val) : List Byte :=
  let hist := if i = 2 then 0x40 else 0x80
  let rec_ : ScaleRec := { hist := (List.range 16).map fun k => numAt b (hist + 4 * k) 4, pending := toF32 mx
                           exp := toSigned 32 (numAt b (if i = 2 then 0x34 else 0x38) 4), step := numAt b 0x3C 4, fmt := 3
                           margin := numAt b 0x33 1, flags := 0, resv := 0, skipped := 0, tail := [] }
  let r := rec_.commit
  let b := patch b hist (r.hist.flatMap (leBytes 4))
  let b := patch b (if i = 2 then 0x34 else 0x38) (leBytes 4 (ofSigned 32 r.exp))
  if nbit r.flags 3 then patch b 0xC4 (leBytes 1 (numAt b 0xC4 1 ||| (if i = 2 then 2 else 4))) else b

/-- Moments in E4M3. -/
def optE4m3 (b : List Byte) : List Nat := [2, 3].filter fun i => optFmt b i == .e4m3

/-- The record after its commit: the maxima of the moments are given by field (R301). -/
def optCommit (b : List Byte) (mMax vMax : Val) : List Byte :=
  let mx (i : Nat) : Val := if i = 2 then mMax else vMax
  let es := optE4m3 b
  if es.any fun i => (mx i).isNan || (mx i).isInf then
    patch (patch b 0xC0 (leBytes 4 (min (numAt b 0xC0 4 + 1) 0xFFFFFFFF))) 0xC4 (leBytes 1 (numAt b 0xC4 1 ||| 1))
  else
    let c := es.foldl (fun b i => optCommit1 b i (mx i)) b
    if es.isEmpty then b else patch c 0x3C (leBytes 4 ((numAt b 0x3C 4 + 1) % 2 ^ 32))

end Sys2Proof.Machine
end

