-- ==== Sys2Proof/Machine/Landings.lean ====
section
/-! DEFINITION. Landings and banks: ordinary accesses, open rows, refresh and patrol scrub (R252-R262, R269, R270, R272-R275). -/
namespace Sys2Proof.Machine

/-- A bank of an engine. -/
def State.bank (s : State) (e : EngineId) (b : Nat) : Bank := Tbl.get (fun _ => Bank.idle) s.banks (2048 * e.val + b)

/-- Set a bank. -/
def State.setBank (s : State) (e : EngineId) (b : Nat) (x : Bank) : State :=
  { s with banks := Tbl.set (fun _ => Bank.idle) s.banks (2048 * e.val + b) x }

/-- Bank and row of a bank-linear key. -/
def bankOfKey (key : Nat) : Nat := nbits key 31 21
def rowOfKey (key : Nat) : Nat := nbits key 20 10

/-- The bank that a transaction to DRAM addresses (R257, R258). -/
def reqBank (r : MemReq) : Nat := bankOfKey (physKey r.addr.toNat)
def reqRow (r : MemReq) : Nat := rowOfKey (physKey r.addr.toNat)

/-- A transaction stays within one sector (R152, R254). -/
def oneSector (r : MemReq) : Bool := decide (1 ≤ r.op.size) && decide (r.addr.toNat % 64 + r.op.size ≤ 64)

/-- Whether an access is queued for a bank. -/
def State.queued (s : State) (e : EngineId) (b : Nat) : Bool := s.landq.any fun q => q.eng == e && reqBank q.req == b

/-- A completion addressed to an engine is discarded, and counted at its router (R329). -/
def State.discardFor (s : State) (g : EngineId) : State :=
  s.count (if g.val < 40 then F.AV_DISCARD.eng_a else F.AV_DISCARD.eng_b) 1 (columnOf g).val

/-- A completion for a requester: one addressed to an engine in reset is discarded and counted at its router (R329). -/
def State.complete (s : State) (who : Requester) (id : Nat) (c : Code) (detail : Nat) (data : List Byte) : State :=
  match who with
  | .engine g =>
    if s.resetOf g then s.discardFor g
    else s.emit (.reply who id c detail data)
  | _ => s.emit (.reply who id c detail data)

/-- The router of the unit that a local address selects, and the port that joins the unit to it (R313). -/
def unitPort (a : Nat) : Option (SquareId × MeshPort) :=
  let off := a % 2 ^ 48
  match selOf a with
  | 0 => (engineOf? (off / 0xC0000000)).map fun e => (columnOf e, .square)
  | 1 => (engineOf? (nbits off 38 32)).map fun e => (columnOf e, .square)
  | 2 => (squareOf? (nbits off 31 26)).map fun k => (k, .square)
  | 3 => (engineOf? (nbits off 31 25)).map fun e => (columnOf e, if e.val < 40 then .engineA else .engineB)
  | _ => none

/-- The answer to a transaction. One of another block goes to the Floor port by which it came, on plane 1 (R313, R355). -/
def State.answer (s : State) (r : MemReq) (c : Code) (data : List Byte) (detail : Nat := 0) : State :=
  match r.who, unitPort r.addr.toNat with
  | .remote _, some u => { s with mesh := s.mesh ++ [⟨u.1, u.2, u.1, 1, .completion r.who r.id c detail data⟩] }
  | _, _ => s.complete r.who r.id c detail data

/-- Serve a transaction at its target and answer it (R33-R35, R272-R274). -/
def State.serve (s : State) (r : MemReq) : State :=
  match r.op with
  | .read n =>
    let q := s.readLocal r.addr.toNat n
    (s.noteRead r.addr.toNat n).answer r q.1 q.2
  | .write b =>
    let q := s.writeLocal r.addr.toNat b
    q.1.answer r q.2 []

/-- A storage upset that an access meets: the word of the row holds an error from now on. Poison already there stays. -/
def State.upset (s : State) (rowKey : Nat) (u : Upset) : State :=
  let w := rowKey / 16 + u.word.val
  match u.kind with
  | .clean => s
  | .single => if s.markOf w = 0 then s.setMark w 1 else if s.markOf w = 1 then s.setMark w 2 else s
  | .uncorrectable => if s.markOf w = 3 then s else s.setMark w 2
  | .poison => s.setMark w 3

/-- Every upset of a row. -/
def State.upsets (s : State) (rowKey : Nat) (l : List Upset) : State := l.foldl (fun s u => s.upset rowKey u) s

/-- The key of the first byte of a bank row. -/
def rowKey (e : EngineId) (b row : Nat) : Nat := e.val * 2 ^ 32 + b * 2 ^ 21 + row * 2 ^ 10

/-- Lines of the home square in a bank row: the row is flagged while there is one (R269). -/
def State.rowFlagged (s : State) (e : EngineId) (b row : Nat) : Bool :=
  (s.sq (columnOf e)).lines.any fun l => l.sector / 16 == rowKey e b row / 1024

/-- The port of a landing that joins it to its home square (R253). -/
def squarePort : Nat := 128

/-- Accesses of a vertical channel that a landing holds (R254). -/
def State.outstanding (s : State) (e : EngineId) (chan : Nat) : Nat := (s.landq.filter fun q => q.eng == e && q.port == chan).length

/-- Whether an access down an engine's own channels is served by the home square: its row is flagged, or its flag fails parity, and a line holds
its sector (R269). -/
def State.squareHit (s : State) (e : EngineId) (req : MemReq) (badFlag : Bool) : Bool :=
  (badFlag || s.rowFlagged e (reqBank req) (reqRow req)) && (s.lineOf (columnOf e) (physKey req.addr.toNat / 64)).isSome

/-- VERTICAL_CHANNEL_REQUEST (R27, R155, R254, R256, R266, R269): an access of an engine to its own DRAM reaches its landing on one of its channels.
On a flagged row, or one whose flag fails parity, the home square serves it from a line on a hit; otherwise the access waits for its bank. -/
def execVerticalChannelRequest (e : EngineId) (chan : Fin 128) (req : MemReq) (badFlag : Bool) (s : State) : Out :=
  need (req.who == .engine e && oneSector req && s.isLocal req.addr.toNat && s.target req.addr.toNat req.op.size == some (.dram e))
    "no access of the engine to its own DRAM" <|
  need (!s.resetOf e && s.regionOn e) "the engine does not run" <|
  need (s.engineLinked e && s.landingLinked e) "a crossing on the way is not calibrated" <|
  need (decide (s.outstanding e chan.val < 64)) "the channel has 64 sectors outstanding" <|
  need (!s.squareHit e req badFlag || s.squareOn (columnOf e)) "the home square's region is not on" <|
  let s := if badFlag then s.logEvent 0x0204 0x13 e.val 1 (reqBank req + reqRow req * 2 ^ 11) else s
  if (s.eng e).dramOut then .next (s.answer req .unmapped [])
  else if s.squareHit e req badFlag then .next ((s.touch (columnOf e) (physKey req.addr.toNat / 64)).serve req)
  else .next { s with landq := s.landq ++ [⟨e, req, chan.val, false⟩] }

/-- Remove the first element that satisfies a test. -/
def dropFirst {α : Type} (p : α → Bool) : List α → List α
  | [] => []
  | x :: xs => if p x then xs else x :: dropFirst p xs

/-- How many ports stand between the port whose turn it is and another one (R254). -/
def portsAhead (turn port : Nat) : Nat := (port + 129 - turn % 129) % 129

/-- The access that a bank serves next: the oldest of the first waiting port from the one whose turn it is (R254). -/
def State.nextAccess (s : State) (e : EngineId) (b : Nat) : Option LandReq :=
  let turn := (s.bank e b).turn
  match s.landq.filter fun q => q.eng == e && reqBank q.req == b with
  | [] => none
  | q :: l => some (l.foldl (fun m x => if portsAhead turn x.port < portsAhead turn m.port then x else m) q)

/-- An access leaves the queue of its bank, whose row stays open, and the turn goes to the next port (R254, R255). -/
def State.takeAccess (s : State) (e : EngineId) (b : Nat) (q : LandReq) (ups : List Upset) : State :=
  let s := { s with landq := dropFirst (fun x => x == q) s.landq }
  let s := s.upsets (rowKey e b (reqRow q.req)) ups
  s.setBank e b { s.bank e b with openRow := some (reqRow q.req), turn := (q.port + 1) % 129 }

/-- BANK_ACCESS (R254, R255, R262, R272): the bank serves the ports that have accesses for it in turn; its row stays open. -/
def execBankAccess (e : EngineId) (b : BankId) (ups : List Upset) (s : State) : Out :=
  needSome (s.nextAccess e b.val) "no access waits for the bank" fun q =>
  need (!q.fill) "the read of a fill returns by PLAZA_FILL_DONE" <|
  need (decide ((s.bank e b.val).owed < 5)) "the bank executes its refreshes first" <|
  need (s.landingLinked e) "a crossing on the way is not calibrated" <|
  .next ((s.takeAccess e b.val q ups).serve q.req)

/-- ROW_CLOSE_TIMEOUT (R255): 200 ns passed without an access. -/
def execRowCloseTimeout (e : EngineId) (b : BankId) (s : State) : Out :=
  let x := s.bank e b.val
  need (x.openRow.isSome && !s.queued e b.val) "no row is open, or an access waits" <|
  .next (s.setBank e b.val { x with openRow := none })

/-- REFRESH_DUE (R259, R261). -/
def execRefreshDue (e : EngineId) (b : BankId) (s : State) : Out :=
  let x := s.bank e b.val
  need (decide (x.owed < 5)) "the bank executes five owed refreshes first" <|
  .next ((s.setBank e b.val { x with owed := x.owed + 1 }).put F.LND_REFRESH.max_owed
    (max (s.get F.LND_REFRESH.max_owed e.val) (min (x.owed + 1) 4)) e.val)

/-- Refreshes executed: the row closes, and the next rows are refreshed in turn through all 1,568 (R255, R259). -/
def Bank.refreshed (x : Bank) (n : Nat) : Bank := { x with openRow := none, owed := x.owed - n, next := (x.next + n) % 1568 }

/-- REFRESH (R262). -/
def execRefresh (e : EngineId) (b : BankId) (s : State) : Out :=
  let x := s.bank e b.val
  need (decide (1 ≤ x.owed) && decide (x.owed < 5) && !s.queued e b.val) "no refresh is owed, or something goes before it" <|
  .next (s.setBank e b.val (x.refreshed 1))

/-- REFRESH_CATCHUP (R261). -/
def execRefreshCatchup (e : EngineId) (b : BankId) (s : State) : Out :=
  let x := s.bank e b.val
  need (x.owed == 5) "no catch-up is due" <|
  .next ((s.setBank e b.val (x.refreshed 5)).count F.LND_REFRESH.catchups 1 e.val)

/-- The time between two scrub reads, in units of 1/(2,048·1,568) ns: a pass lasts hours (R270). -/
def State.scrubStep (s : State) (e : EngineId) : Nat := s.get F.LND_SCRUB.hours e.val * 3600000000000

/-- `BTIME` in units of 1/(2,048·1,568) ns. -/
def State.scrubNow (s : State) : Nat := s.btime * (2048 * 1568)

/-- Whether the next scrub read of an engine is due, and whether it stands more than 1 s behind its schedule (R262). -/
def State.scrubDue (s : State) (e : EngineId) : Bool := decide ((vget s.scrubAt e).due ≤ s.scrubNow)
def State.scrubLate (s : State) (e : EngineId) : Bool := decide ((vget s.scrubAt e).due + 1000000000 * (2048 * 1568) < s.scrubNow)

/-- Whether a bank reads for a scrub that is more than 1 s late before it takes a step (R262). -/
def State.scrubFirst (s : State) (e : EngineId) (b : Nat) : Bool :=
  s.on F.LND_SCRUB.enable e.val && (vget s.scrubAt e).bank == b && s.scrubLate e

/-- LND_CE_COUNT_READ (R14, R277). -/
def execLndCeCountRead (e : EngineId) (s : State) : Out := .next (s.swRead R.LND_CE_COUNT e.val 0).1

/-- LND_UE_COUNT_READ (R14, R277). -/
def execLndUeCountRead (e : EngineId) (s : State) : Out := .next (s.swRead R.LND_UE_COUNT e.val 0).1

/-- LND_POISON_READ (R14, R277). -/
def execLndPoisonRead (e : EngineId) (s : State) : Out := .next (s.swRead R.LND_POISON e.val 0).1

/-- LND_REFRESH_READ (R14, R277). -/
def execLndRefreshRead (e : EngineId) (s : State) : Out := .next (s.swRead R.LND_REFRESH e.val 0).1

/-- A write of `LND_SCRUB`: hours of 0 or above 24 store 24 (R277). Scrub that is enabled anew goes on from now (log entry 66). -/
def State.writeScrub (s : State) (e : EngineId) (v : Nat) : State :=
  let h := nbits v 15 8
  let s := if nbit v 0 && !s.on F.LND_SCRUB.enable e.val then { s with scrubAt := vset s.scrubAt e { vget s.scrubAt e with due := s.scrubNow } } else s
  (s.put F.LND_SCRUB.enable (nbits v 0 0) e.val).put F.LND_SCRUB.hours (if h = 0 ∨ 24 < h then 24 else h) e.val

end Sys2Proof.Machine
end

