-- ==== Sys2Proof/Machine/Ports.lean ====
section
/-! DEFINITION. Pyler ports: flits and packets that leave, credits, the replay buffer, and the routing of the Floor router (R339-R355, R360-R362). -/
namespace Sys2Proof.Machine

/-- A port, and setting it. -/
def State.port (s : State) (p : PortId) : Port := vget s.net.ports p
def State.setPort (s : State) (p : PortId) (x : Port) : State := { s with net := { s.net with ports := vset s.net.ports p x } }

/-- The state of a port (R375): 0 DISABLED, 1 ELECTRICAL, 2 ALIGN, 3 HANDSHAKE, 4 ACTIVE, 5 HOLDOFF. -/
def State.portState (s : State) (p : PortId) : Nat := s.get F.PL_STATUS.state p.val
def State.portActive (s : State) (p : PortId) : Bool := s.portState p == 4

/-- This block's ID (R30). -/
def State.myId (s : State) : Nat := s.get F.AON_BLOCK_ID.id

/-- The index of a packet's class and channel. -/
def laneOf (k : Pkt) : Fin 10 := ⟨(2 * classOf k.ptype.toNat + b2n k.vc) % 10, Nat.mod_lt _ (by decide)⟩

/-- A packet that this block sends (R348, R361): its source is this block. -/
def State.newPkt (s : State) (ptype dst tag addr aux : Nat) (data : List Byte) : Pkt :=
  { ptype := BitVec.ofNat 4 ptype, code := 0, len := BitVec.ofNat 8 (data.length - 1), src := BitVec.ofNat 12 s.myId, dst := BitVec.ofNat 12 dst
    tag := BitVec.ofNat 16 tag, spur := false, rev := 0, vc := false, hasData := !data.isEmpty, resv := false, addr := BitVec.ofNat 52 addr
    epoch := 0, epochValid := false, hops := 0, aux := BitVec.ofNat 56 aux, data := data }

/-! ## Flits -/

/-- The physical lanes that carry the logical lanes of a direction, in order: those that are not mapped out, sixteen at half width (R340, R363). -/
def lanesIn (out : List Nat) (half : Bool) : List Nat := ((List.range 34).filter fun i => !out.contains i).take (if half then 16 else 32)

/-- Map out one lane more in a direction: the registers name two (R363, R365, R375). -/
def State.mapOut (s : State) (p : PortId) (tx : Bool) (lane : Nat) : State :=
  let x := s.port p
  let s := s.setPort p (if tx then { x with txOut := x.txOut ++ [lane] } else { x with rxOut := x.rxOut ++ [lane] })
  let f0 := if tx then F.PL_LANES.tx_out0 else F.PL_LANES.rx_out0
  let f1 := if tx then F.PL_LANES.tx_out1 else F.PL_LANES.rx_out1
  if s.get f0 p.val = 0x3F then s.put f0 lane p.val else s.put f1 lane p.val

/-- A repair is logged (R365, R525). -/
def State.logRepair (s : State) (p : PortId) (lane : Nat) (tx half : Bool) : State :=
  s.logEvent 0x0503 0x20 p.val 1 (lane + b2n tx * 2 ^ 8 + b2n half * 2 ^ 9)

/-- The port goes on at half width (R365). -/
def State.goHalf (s : State) (p : PortId) : State := (s.setPort p { s.port p with narrow := true }).put F.PL_STATUS.half 1 p.val

/-- At the codeword pair that the partner named, the transmitter leaves the lane that the partner replaces, or goes to half width (R365). -/
def State.followLane (s : State) (p : PortId) : State :=
  match (s.port p).follow with
  | some (lane, pair) =>
    if (s.port p).txWord = 2 * pair then
      let s := s.setPort p { s.port p with follow := none }
      if lane < 34 then (s.mapOut p true lane).logRepair p lane true false else (s.goHalf p).logRepair p 0x3F true true
    else s
  | none => s

/-- A flit goes out in the next codeword of the port (R341, R342). -/
def State.transmit (s : State) (p : PortId) (bytes : List Byte) : State :=
  let s := s.followLane p
  let x := s.port p
  let c := x.txWord % 2
  let bits := onLanes x.narrow (lanesIn x.txOut x.narrow) c (rsEncode (dataSymbols bytes c (x.txWord / 2)))
  (s.setPort p { x with txWord := (x.txWord + 1) % 1024 }).emit (.flit p bytes bits)

/-- The sending direction changes to the keys of a handshake at the sequence number that it agreed on: the numbers run from 0 again (R344, R358). -/
def Port.turnTx (x : Port) : Port :=
  match x.keys.nextTx with
  | some (k, t) =>
    if x.txSeq = t then { x with kphaseTx := !x.kphaseTx, txSeq := 0, phaseStart := 0, keys := { x.keys with tx := k, nextTx := none } } else x
  | none => x

/-- A flit leaves a port (R343-R346): it takes the next sequence number, acknowledges the last flit accepted and joins the replay buffer. -/
def State.sendRaw (s : State) (p : PortId) (ftype : Nat) (area : List Byte) (nak : Bool) (credit : Nat × Nat) : State :=
  let x := (s.port p).turnTx
  let h : FlitHdr :=
    { seq := BitVec.ofNat 64 x.txSeq, ack := BitVec.ofNat 32 (x.rxNext + 2 ^ 32 - 1), nak := nak, ftype := BitVec.ofNat 2 ftype, kphase := x.kphaseTx
      cclass := BitVec.ofNat 3 (credit.1 / 2), cvc := credit.1 % 2 == 1, ccount := BitVec.ofNat 11 credit.2 }
  let f : SentFlit := ⟨h, areaOf area, x.keys.tx, 0⟩
  let s := s.setPort p { x with txSeq := x.txSeq + 1, replay := x.replay ++ [f], sinceIdle := if ftype = 1 then 0 else x.sinceIdle + 1 }
  s.transmit p f.bytes

/-- An idle flit (R346). -/
def State.sendIdle (s : State) (p : PortId) (nak : Bool) (credit : Nat × Nat) : State := s.sendRaw p 1 [] nak credit

/-- A flit that is not idle: at least one flit in every 2,048 is (R346). -/
def State.sendFlit (s : State) (p : PortId) (ftype : Nat) (area : List Byte) : State :=
  (if 2047 ≤ (s.port p).sinceIdle then s.sendIdle p false (0, 0) else s).sendRaw p ftype area false (0, 0)

/-- A message of link control leaves (R356, R365, R367). -/
def State.sendCtl (s : State) (p : PortId) (m : LinkCtl) : State := s.sendFlit p 2 ((List.range 288).map fun i => Config.ctlByte m i)

/-- Whether the replay buffer has room for another flit (R345). -/
def Port.roomy (x : Port) : Bool := decide (x.replay.length < 1023)

/-- A packet leaves in a flit of its own against credits of its class and channel (R347). -/
def State.sendPkt (s : State) (p : PortId) (k : Pkt) : State :=
  let x := s.port p
  (s.setPort p { x with txCred := vset x.txCred (laneOf k) (vget x.txCred (laneOf k) - cellsOf k) }).sendFlit p 0 (pktBytes k)

/-- Send what the queue of a port holds, in order of arrival for each class and channel, as far as credits and the replay buffer allow
(R347, R355). -/
def State.drainPort (s : State) (p : PortId) (held : List (Fin 10)) : List OutPkt → State
  | [] => s
  | q :: rest =>
    if s.portActive p && (s.port p).roomy && !held.contains (laneOf q.out) && decide (cellsOf q.out ≤ vget (s.port p).txCred (laneOf q.out)) then
      (s.sendPkt p q.out).drainPort p held rest
    else (s.setPort p { s.port p with txq := (s.port p).txq ++ [q] }).drainPort p (laneOf q.out :: held) rest

/-- Send what can be sent. -/
def State.flushPort (s : State) (p : PortId) : State :=
  (s.setPort p { s.port p with txq := [] }).drainPort p [] (s.port p).txq

/-! ## Routing (R352-R354) -/

/-- The coordinate of a block ID in a dimension, and the district's size in it (R351). -/
def coordOf (id dim : Nat) : Nat := if dim = 0 then id % 16 else if dim = 1 then id / 16 % 16 else id / 256 % 8
def State.sizeOf (s : State) (dim : Nat) : Nat :=
  (if dim = 0 then s.get F.PL_TOPO.xs_m1 else if dim = 1 then s.get F.PL_TOPO.ys_m1 else s.get F.PL_TOPO.zs_m1) + 1

/-- Whether a packet goes in the + direction of a dimension: the shorter way, + on a tie, unless the applied setting overrides it. -/
def State.goesPlus (s : State) (dim dst : Nat) : Bool :=
  let n := s.sizeOf dim
  let c := coordOf dst dim
  if s.on F.PL_ROUTE.override (2 * dim) then !nbit (s.get F.PL_ROUTE.minus_mask (2 * dim)) c
  else decide ((c + 16 * n - coordOf s.myId dim) % n ≤ (coordOf s.myId dim + 16 * n - c) % n)

/-- The torus port of a dimension and direction (R339). -/
def torusPort (dim : Nat) (plus : Bool) : PortId := ⟨(2 * dim + if plus then 0 else 1) % 8, Nat.mod_lt _ (by decide)⟩

/-- The dimension in which the packet still has to move. -/
def State.nextDim (s : State) (dst : Nat) : Option Nat := [0, 1, 2].find? fun d => coordOf dst d != coordOf s.myId d

/-- A packet that came in over the link between coordinates size − 1 and 0 has crossed the dateline (R353). -/
def State.crossed (s : State) (dim : Nat) (inp : PortId) : Bool :=
  if inp.val % 2 = 0 then coordOf s.myId dim + 1 == s.sizeOf dim else coordOf s.myId dim == 0

/-- Where the Floor router sends a packet. -/
inductive Route where
  | here
  | out (p : PortId) (k : Pkt)
  | none
  deriving DecidableEq, Repr

/-- A route through a port that must be ACTIVE. -/
def State.through (s : State) (p : PortId) (k : Pkt) : Route := if s.portActive p then .out p k else .none

/-- The torus step of a packet (R352 step 4, R353, R354). -/
def State.torusStep (s : State) (inp : Option PortId) (k : Pkt) (dim : Nat) : Route :=
  let cameIn := inp.filter fun q => q.val / 2 == dim
  let wasRev := nbit k.rev.toNat dim
  let plus := match cameIn with
    | some q => if wasRev then q.val % 2 == 1 else s.goesPlus dim k.dst.toNat
    | none => s.goesPlus dim k.dst.toNat != wasRev
  let vc := wasRev || match cameIn with
    | some q => k.vc || s.crossed dim q
    | none => false
  if s.portActive (torusPort dim plus) then .out (torusPort dim plus) { k with vc := vc }
  else if wasRev then .none
  else s.through (torusPort dim !plus) { k with vc := true, rev := k.rev ||| BitVec.ofNat 3 (2 ^ dim) }

/-- Whether a block is marked lost (R370). -/
def State.isLost (s : State) (b : Nat) : Bool := nbit (s.reg R.PL_LOST 0 (b / 64)) (b % 64)

/-- The routing of a packet that comes in on a port, or that this block originates (R352). -/
def State.route (s : State) (inp : Option PortId) (k : Pkt) : Route :=
  let d := k.dst.toNat
  if d = s.myId then
    if k.spur = true ∧ inp ≠ some 7 then (if s.on F.PL_EXPRESS.mode 7 then .none else s.through 7 { k with vc := false }) else .here
  else if s.isLost d then .none
  else if d / 2048 ≠ s.myId / 2048 then
    s.through 6 { k with vc := false, ptype := if k.ptype = 2 ∧ inp = none ∧ s.on F.PL_TOPO.twin ∧ d % 2048 = s.myId % 2048 then 7 else k.ptype }
  else if inp = none ∧ s.on F.PL_EXPRESS.mode 7 ∧ d = s.get F.PL_EXPRESS.partner 7 then s.through 7 { k with vc := false }
  else match s.nextDim d with
    | some dim => s.torusStep inp k dim
    | none => .none

/-! ## Outstanding requests (R350, R355) -/

/-- The first code of an access's pieces that is not OK with its detail, and their data in order. -/
def joinReplies : List (Option (Code × Nat × List Byte)) → Code × Nat × List Byte
  | [] => (.ok, 0, [])
  | r :: rest =>
    let q := joinReplies rest
    match r with
    | some (.ok, _, d) => (q.1, q.2.1, d ++ q.2.2)
    | some (c, n, d) => (c, n, d ++ q.2.2)
    | none => q

/-- The completion of an access of this block: it returns to the Floor port of the requester's router on the plane on which the request travelled
(R355), or to the requester of a command that names no way. -/
def State.finishAccess (s : State) (o : OutReq) (c : Code) (detail : Nat) (data : List Byte) : State :=
  match o.via with
  | some v => { s with mesh := s.mesh ++ [⟨v.1, .floor, v.1, v.2, .completion o.who o.id c detail data⟩] }
  | none => s.complete o.who o.id c detail data

/-- An access all of whose pieces have completed is answered (R350). -/
def State.closeAccess (s : State) (access : Nat) : State :=
  let mine := s.net.outs.filter fun o => o.access == access
  match mine with
  | [] => s
  | o :: _ =>
    if mine.all fun q => q.reply.isSome then
      let r := joinReplies (mine.map OutReq.reply)
      { s with net := { s.net with outs := s.net.outs.filter fun q => q.access != access } }.finishAccess o r.1 r.2.1 (if r.1 = Code.ok then r.2.2 else [])
    else s

/-- A piece completes. -/
def State.pieceDone (s : State) (o : OutReq) (c : Code) (detail : Nat) (data : List Byte) : State :=
  { s with net := { s.net with outs := s.net.outs.map fun q => if q = o then { q with reply := some (c, detail, data) } else q } }.closeAccess o.access

/-- Every outstanding piece that satisfies a test completes with LINK_DOWN (R368, R370). -/
def State.failOuts (s : State) (p : OutReq → Bool) : State :=
  (s.net.outs.filter fun o => o.reply.isNone && p o).foldl (fun s o => s.pieceDone o .linkDown o.dst []) s

/-- The outstanding piece with a tag. -/
def State.outOf (s : State) (tag : Nat) : Option OutReq := s.net.outs.find? fun o => o.tag == tag && o.reply.isNone

/-! ## Queueing packets -/

/-- A packet joins the queue of a port, and what can be sent is sent. A request of this block is noted as leaving through the port. -/
def State.enqueue (s : State) (inp : Option PortId) (orig : Pkt) (p : PortId) (k : Pkt) : State :=
  let s := if inp = none ∧ isRequest k then
    { s with net := { s.net with outs := s.net.outs.map fun o => if o.tag = k.tag.toNat ∧ o.reply.isNone then { o with port := some p } else o } }
    else s
  (s.setPort p { s.port p with txq := (s.port p).txq ++ [⟨inp, orig, k⟩] }).flushPort p

/-- A packet that has no way is dropped and counted (R354). -/
def State.dropPkt (s : State) : State := { s with net := { s.net with dropped := s.net.dropped + 1 } }

/-- A packet with no way (R354): a request of this block completes with LINK_DOWN, another is answered with LINK_DOWN, anything else is dropped
and counted, the answer too where it has no way itself. -/
def State.noWay (s : State) (inp : Option PortId) (k : Pkt) : State :=
  if isRequest k then
    match inp with
    | none => match s.outOf k.tag.toNat with
      | some o => s.pieceDone o .linkDown o.dst []
      | none => s.dropPkt
    | some _ =>
      let a := { s.newPkt 3 k.src.toNat k.tag.toNat 0 0 [] with code := 7, spur := k.spur }
      match s.route none a with
      | .out p k' => s.enqueue none a p k'
      | _ => s.dropPkt
  else s.dropPkt

/-- The Floor router routes a packet that is not delivered here; a message of this block to itself goes to its own unit. -/
def State.sendOut (s : State) (inp : Option PortId) (k : Pkt) : State :=
  match s.route inp k with
  | .out p k' => s.enqueue inp k p k'
  | .here => if isRequest k || k.ptype == 3 then s.noWay inp k else s.emit (.handed inp k)
  | .none => s.noWay inp k

/-- A message of the sync or management class leaves for another block (R321, R324, R349, R369). -/
def State.sendMsg (s : State) (ptype dst aux : Nat) : State := s.sendOut none (s.newPkt ptype dst 0 0 aux [])

/-- BAR: arrival (op 0) and release (op 1) (R349). -/
def State.sendBar (s : State) (dst b op gen : Nat) : State := s.sendMsg 4 dst (b % 64 + op * 2 ^ 6 + gen % 4096 * 2 ^ 8)

/-- FLG: 0 set, 1 clear, 2 watch set, 3 watch clear, 4 answer (R349), with the tag that its answer brings back (log entry 77). -/
def State.flgPkt (s : State) (dst f op tag : Nat) : Pkt := s.newPkt 5 dst tag 0 (f % 256 + op * 2 ^ 8) []
def State.sendFlg (s : State) (dst f op tag : Nat) : State := s.sendOut none (s.flgPkt dst f op tag)

/-- A completion leaves for another block (R350): one with EPOCH_SKEW brings the unit's applied epoch (R333; log entry 78). -/
def State.sendCpl (s : State) (dst tag : Nat) (spur : Bool) (c : Code) (detail : Nat) (data : List Byte) : State :=
  let k := { s.newPkt 3 dst tag 0 0 data with code := BitVec.ofNat 4 c.toNat, spur := spur }
  s.sendOut none (if c = .epochSkew then { k with epoch := BitVec.ofNat 32 detail, epochValid := true } else k)

/-- MGT: 1 probe, 2 probe answer, 3 block lost (R349). -/
def mgtAux (kind subject : Nat) : Nat := kind + subject % 4096 * 2 ^ 4

/-! ## Accesses that leave the block (R29, R348, R350, R361) -/

/-- The pieces of an access: none crosses a 256-byte boundary (R350). -/
def pieces (a n : Nat) : List (Nat × Nat) :=
  if n = 0 then []
  else (List.range (ceilDiv (a % 256 + n) 256)).map fun i =>
    let lo := if i = 0 then a else a / 256 * 256 + 256 * i
    (lo, min (a + n) (a / 256 * 256 + 256 * (i + 1)) - lo)

/-- The lowest free tag from a number on (R350). -/
def State.freeTag (s : State) : Option Nat :=
  (List.range (min 65536 (s.net.outs.length + 1))).find? fun t => (s.outOf t).isNone

/-- Give each piece of an access a tag: pieces with their tags (R350). -/
def State.tagPieces (s : State) (o : OutReq) : List (Nat × Nat) → State × List (Nat × Nat × Nat)
  | [] => (s, [])
  | q :: rest =>
    let tag := s.freeTag.getD 0
    let r := State.tagPieces { s with net := { s.net with outs := s.net.outs ++ [{ o with tag := tag }] } } o rest
    (r.1, (tag, q.1, q.2) :: r.2)

/-- Send one piece of an access (R348, R350, R361). -/
def State.sendPiece (s : State) (a : Nat) (op : MemOp) (epoch : Option Epoch) (q : Nat × Nat × Nat) : State :=
  let dst := blockOf a
  let k := match op with
    | .read _ => { s.newPkt 1 dst q.1 (q.2.1 % 2 ^ 52) 0 [] with len := BitVec.ofNat 8 (q.2.2 - 1) }
    | .write b => s.newPkt 2 dst q.1 (q.2.1 % 2 ^ 52) 0 ((b.drop (q.2.1 - a)).take q.2.2)
  s.sendOut none { k with epoch := epoch.getD 0, epochValid := epoch.isSome }

/-- Whether enough tags are free for an access (R350). -/
def State.tagsFor (s : State) (a n : Nat) : Bool :=
  decide ((s.net.outs.filter fun o => o.reply.isNone).length + (pieces a n).length ≤ 65536)

/-- The Floor router takes an access to another block: its pieces get tags and leave (R29, R350, R352). -/
def State.originate (s : State) (r : MemReq) (via : Option (SquareId × Fin 2)) : State :=
  let a := r.addr.toNat
  let access := s.net.nextAccess
  let o : OutReq := ⟨0, r.who, r.id, via, access, none, blockOf a, none⟩
  let s := { s with net := { s.net with nextAccess := access + 1 } }
  match s.noRoute with
  | some c => s.finishAccess o c 0 []
  | none =>
    let q := s.tagPieces o (pieces a r.op.size)
    q.2.foldl (fun s q => s.sendPiece a r.op r.epoch q) q.1

end Sys2Proof.Machine
end

