-- ==== Sys2Proof/Machine/Checks.lean ====
section
/-! DEFINITION. What the sequencer refuses at decode, class by class, beyond reserved opcodes, bits and small codes (R40, R97, R102, R118,
R125, R126, R154, R165, R179, R180, R184, R187, R191, R200, R204, R205, R211, R215, R222-R224, R238, R240). -/
namespace Sys2Proof.Machine

/-- The shape of a scale tensor: blocks along dimension 0, higher sizes equal (R117, R118, R237). -/
def scaleShapeOk (d sd : Desc) : Bool :=
  sd.sizesOk && sd.n0 == blocksOf d.n0 && sd.n1 == d.n1 && sd.n2 == d.n2 && sd.n3 == d.n3

/-- Whether a descriptor's operand has block scales: a block format, or a KV form. -/
def Desc.scaled (d : Desc) (kv : Bool) : Bool :=
  match d.fmt with
  | some f => f.isBlock || kv
  | none => false

/-- A descriptor that passes decode with at most `maxRank` (R118). -/
def Entry.operandOk (x : Entry) (i maxRank : Nat) (kv : Bool := false) : Bool :=
  let d := x.desc i
  d.fmt.isSome && decide (d.rank ≤ maxRank) && d.sizesOk && (!d.scaled kv || scaleShapeOk d (x.scaleDesc d))

/-- The result buffer holds at most 4 MiB for one instruction (R165). -/
def resultLimit : Nat := 4 * 2 ^ 20

/-- Bytes that a destination reserves. -/
def Desc.reserve (d : Desc) : Nat :=
  match d.fmt with
  | some f => destBytes f d
  | none => 0

/-- Whether a format code is one of a list. -/
def Desc.fmtIn (d : Desc) (l : List Fmt) : Bool :=
  match d.fmt with
  | some f => l.contains f
  | none => false

/-- Equal sizes in every dimension. -/
def Desc.sameSizes (a b : Desc) : Bool := a.n0 == b.n0 && a.n1 == b.n1 && a.n2 == b.n2 && a.n3 == b.n3

/-- An address in regions 0x0-0x3 of this block (R210, R214, R223). -/
def State.hereAddr (s : State) (a : Nat) : Bool := s.isLocal a && decide (selOf a ≤ 3)

/-- The scale record that a matrix instruction names (R215). -/
def State.capOk (s : State) (x : Entry) : Bool :=
  let w := x.word
  let r := (sGet x.sr (fld w 67 63)).toNat
  if bitOf w 38 then fld w 67 63 != 0 && s.hereAddr r && nbits r 6 2 == 0 && decide (nbits r 1 0 ≠ 3)
  else fld w 67 63 == 0

/-- The bias of a matrix instruction over `cols` output columns (R125, R126). -/
def Entry.biasOk (x : Entry) (cols : Nat) : Bool :=
  let w := x.word
  if bitOf w 39 then
    let d := x.desc (fld w 45 40)
    x.operandOk (fld w 45 40) 0 && d.fmtIn [.fp32, .bf16] && d.n0 == cols
  else fld w 45 40 == 0

/-- Output columns of a matrix product, and the other output axis: IS exchanges the roles (R79, R125). -/
def Entry.matAxes (x : Entry) : Nat × Nat :=
  let a := x.desc (fld x.word 27 22)
  let b := x.desc (fld x.word 33 28)
  if fld x.word 35 34 = 2 then (a.n1, b.n0) else (b.n0, a.n1)

/-- Whether a pair accumulates in INT32 (R51). -/
def intPair (a b : Desc) : Bool := a.fmtIn [.int8, .int4] && b.fmtIn [.int8, .int4]

/-- The outlier operands of a matrix product (R97, R211). -/
def State.outlierOk (s : State) (x : Entry) : Bool :=
  let w := x.word
  let a := x.desc (fld w 27 22)
  let b := x.desc (fld w 33 28)
  let tol := x.desc (fld w 74 69)
  let tow := x.desc (fld w 80 75)
  let la := (sGet x.sr (fld w 85 81)).toNat
  if bitOf w 68 then
    fld w 35 34 != 1 && !intPair a b && x.operandOk (fld w 74 69) 2 && x.operandOk (fld w 80 75) 1 && tol.fmtIn [.bf16] && tow.fmtIn [.bf16]
      && la % 64 == 0 && s.hereAddr la && tol.rank == (if 2 ≤ a.rank then 2 else 1) && tol.n0 == 64
      && tol.n1 == (if fld w 35 34 = 0 then a.n1 else b.n0) && tol.n2 == a.n2 && tow.rank == 1 && tow.n0 == x.matAxes.1 && tow.n1 == 64
  else fld w 85 81 == 0 && fld w 74 69 == 0 && fld w 80 75 == 0

/-- `MAT.MUL` (R40, R94, R97, R102, R125, R165, R211, R215). -/
def State.matMulOk (s : State) (x : Entry) : Bool :=
  let w := x.word
  let d := x.desc (fld w 21 16)
  let a := x.desc (fld w 27 22)
  let b := x.desc (fld w 33 28)
  let ax := x.matAxes
  let tr := bitOf w 86
  x.operandOk (fld w 21 16) 2 && x.operandOk (fld w 27 22) 2 && x.operandOk (fld w 33 28) 2 && !a.fmtIn [.int32] && !b.fmtIn [.int32]
    && b.n1 == a.n0 && (b.n2 == 1 || b.n2 == a.n2) && d.n0 == (if tr then ax.2 else ax.1) && d.n1 == (if tr then ax.1 else ax.2)
    && d.n2 == a.n2 && !(tr && d.scaled false)
    && (!bitOf w 36 || (fld w 35 34 == 1 && decide (a.n1 ≤ 256) && decide (b.n0 ≤ 128) && a.n2 == 1))
    && x.biasOk ax.1 && s.outlierOk x && s.capOk x && decide (d.reserve ≤ resultLimit)

/-- `MAT.CVT` (R126, R165, R215). -/
def State.matCvtOk (s : State) (x : Entry) : Bool :=
  let w := x.word
  let d := x.desc (fld w 21 16)
  let a := x.desc (fld w 27 22)
  x.operandOk (fld w 21 16) 3 && x.operandOk (fld w 27 22) 3 && d.sameSizes a && fld w 33 28 == 0 && fld w 36 34 == 0 && fld w 86 68 == 0
    && x.biasOk a.n0 && s.capOk x && decide (d.reserve ≤ resultLimit)

/-- Whether rows of `len` bytes lie wholly in the engine slot of `e` (R32, R180). -/
def Desc.inEngineSlot (d : Desc) (e : EngineId) (len : Nat) : Bool :=
  let ends := [((d.n1 : Int) - 1) * d.st1, ((d.n2 : Int) - 1) * d.st2, ((d.n3 : Int) - 1) * d.st3]
  let low := ends.foldl (fun a x => a + Min.min x 0) ((d.base % 2 ^ 48 : Nat) : Int)
  let high := ends.foldl (fun a x => a + Max.max x 0) ((d.base % 2 ^ 48 : Nat) : Int)
  decide (((e.val * 2 ^ 25 : Nat) : Int) ≤ low) && decide (high + (len : Int) ≤ (((e.val + 1) * 2 ^ 25 : Nat) : Int))

/-- A descriptor of a VEC, SFN or NRM instruction, rows of `len` bytes, lies in this block, and in region 0x3 wholly in the engine's own slot
(R180; log entry 51). -/
def State.laneHere (s : State) (e : EngineId) (d : Desc) (len : Nat) : Bool := s.isLocal d.base && (selOf d.base != 3 || d.inEngineSlot e len)

/-- Bytes of a data row of a lane operand. -/
def Desc.laneRow (d : Desc) : Nat :=
  match d.fmt with
  | some f => rowBytes f f.isBlock d.n0
  | none => 0

/-- Operand and locality of the three lane units; sources hold no block format (R179, R180). -/
def State.laneSrcOk (s : State) (e : EngineId) (x : Entry) (i maxRank : Nat) : Bool :=
  let d := x.desc i
  x.operandOk i maxRank && !d.scaled false && s.laneHere e d d.laneRow

/-- The destination of a lane unit (R179, R180, R165). -/
def State.laneDstOk (s : State) (e : EngineId) (x : Entry) (i : Nat) : Bool :=
  let d := x.desc i
  x.operandOk i 3 && s.laneHere e d d.laneRow && (!d.scaled false || s.laneHere e (x.scaleDesc d) (2 * blocksOf d.n0)) && decide (d.reserve ≤ resultLimit)

/-- Each dimension equals that of the destination or is 1 (R184). -/
def Desc.broadcasts (b d : Desc) : Bool :=
  (b.n0 == d.n0 || b.n0 == 1) && (b.n1 == d.n1 || b.n1 == 1) && (b.n2 == d.n2 || b.n2 == 1) && (b.n3 == d.n3 || b.n3 == 1)

/-- The vector instructions (R179-R184). -/
def State.vecOk (s : State) (e : EngineId) (x : Entry) : Bool :=
  let w := x.word
  let op := opOf w
  let d := x.desc (fld w 21 16)
  let a := x.desc (fld w 27 22)
  let usesB := op == 0x20 || op == 0x21 || op == 0x24
  let usesC := op == 0x21 || op == 0x24
  s.laneDstOk e x (fld w 21 16) && s.laneSrcOk e x (fld w 27 22) 3
    && (if op = 0x23 then d.n0 == 1 && d.n1 == a.n1 && d.n2 == a.n2 && d.n3 == a.n3 else d.sameSizes a)
    && (if usesB then (if bitOf w 49 then fld w 33 28 == 0 else s.laneSrcOk e x (fld w 33 28) 3 && (x.desc (fld w 33 28)).broadcasts d)
        else fld w 33 28 == 0 && fld w 49 44 == 0)
    && (if usesC then s.laneSrcOk e x (fld w 39 34) 3 && (x.desc (fld w 39 34)).broadcasts d else fld w 39 34 == 0)
    && !(op == 0x22 && fld w 43 40 == 0 && a.fmtCode != d.fmtCode)

/-- The Niber compatibility mode of an engine (R143, R199). -/
def Engine.niber (g : Engine) : Bool := nbit (cGet g.cfg 0).toNat 0

/-- Functions that the compatibility mode lacks (R200). -/
def niberLacks (fn : Nat) : Bool := fn == 0x0A || (decide (0x0C ≤ fn) && decide (fn ≤ 0x0F))

/-- `SFN.EVAL` (R179, R180, R187, R200). -/
def State.sfnEvalOk (s : State) (e : EngineId) (x : Entry) : Bool :=
  let w := x.word
  let d := x.desc (fld w 21 16)
  let a := x.desc (fld w 27 22)
  s.laneDstOk e x (fld w 21 16) && s.laneSrcOk e x (fld w 27 22) 3 && d.sameSizes a
    && (!(s.eng e).niber || (!niberLacks (fld w 32 28) && d.fmtIn [.fp32, .fp16, .bf16] && a.fmtIn [.fp32, .fp16, .bf16]))

/-- `SFN.LOAD` (R191). -/
def State.sfnLoadOk (s : State) (e : EngineId) (x : Entry) : Bool :=
  let a := x.desc (fld x.word 27 22)
  s.laneSrcOk e x (fld x.word 27 22) 0 && a.fmtIn [.int32] && a.n0 == 32896 && a.base % 64 == 0

/-- A gain or bias of the normalisation unit (R179, R205). -/
def State.nrmVecOk (s : State) (e : EngineId) (x : Entry) (en : Bool) (i n0 : Nat) : Bool :=
  let d := x.desc i
  if en then s.laneSrcOk e x i 0 && d.fmtIn [.fp32, .fp16, .bf16] && d.n0 == n0 else i == 0

/-- The normalisation instructions (R179, R180, R204, R205). -/
def State.nrmOk (s : State) (e : EngineId) (x : Entry) : Bool :=
  let w := x.word
  let d := x.desc (fld w 21 16)
  let a := x.desc (fld w 27 22)
  s.laneDstOk e x (fld w 21 16) && s.laneSrcOk e x (fld w 27 22) 3
    && (if opOf w = 0x40 then d.n0 == 2 && d.n1 == a.n1 && d.n2 == a.n2 && d.n3 == a.n3 && fld w 46 28 == 0
        else d.sameSizes a && s.nrmVecOk e x (bitOf w 45) (fld w 33 28) a.n0 && s.nrmVecOk e x (bitOf w 46) (fld w 39 34) a.n0)

/-- A descriptor of an attention instruction lies in regions 0x0-0x3 of this block, its scales too (R223, R238). -/
def State.attHere (s : State) (x : Entry) (i : Nat) (kv : Bool) : Bool :=
  let d := x.desc i
  s.hereAddr d.base && (!d.scaled kv || s.hereAddr (x.scaleDesc d).base)

/-- A table or bitmap with one row for every head, or one in all (R222, R233). -/
def State.attTableOk (s : State) (x : Entry) (i : Nat) (f : Fmt) (n0 h : Nat) : Bool :=
  let d := x.desc i
  x.operandOk i 1 && d.fmtIn [f] && d.n0 == n0 && (d.n1 == 1 || d.n1 == h) && s.attHere x i false

/-- `ATT.RUN` and `ATT.RING` (R222-R224, R240). -/
def State.attOk (s : State) (x : Entry) : Bool :=
  let w := x.word
  let ring := opOf w == 0x52
  let kvq := bitOf w 62
  let q := x.desc (fld w 21 16)
  let k := x.desc (fld w 27 22)
  let v := x.desc (fld w 33 28)
  let o := x.desc (fld w 39 34)
  let st := x.desc (fld w 57 52)
  let qf : List Fmt := [.fp16, .bf16, .e4m3, .e5m2]
  let kf : List Fmt := if kvq then [.int8, .int4] else qf
  let rec1 := (sGet x.sr (fld w 77 73)).toNat
  let slot0 (d : Desc) : Bool := s.isLocal d.base && selOf d.base == 2 && (!kvq || (s.isLocal (x.scaleDesc d).base && selOf (x.scaleDesc d).base == 2))
  x.operandOk (fld w 21 16) 2 && x.operandOk (fld w 27 22) 2 kvq && x.operandOk (fld w 33 28) 2 kvq && x.operandOk (fld w 39 34) 2
    && decide (1 ≤ q.rank) && decide (1 ≤ k.rank) && decide (1 ≤ v.rank) && decide (1 ≤ o.rank)
    && q.fmtIn qf && k.fmtIn kf && v.fmtIn kf && o.fmtIn [.fp32, .fp16, .bf16]
    && decide (q.n0 ≤ 256) && k.n0 == q.n0 && decide (k.n1 ≤ 8192) && decide (v.n0 ≤ 256) && v.n1 == k.n1 && v.n2 == k.n2
    && q.n2 % k.n2 == 0 && o.n0 == v.n0 && o.n1 == q.n1 && o.n2 == q.n2
    && s.attHere x (fld w 21 16) false && s.attHere x (fld w 27 22) kvq && s.attHere x (fld w 33 28) kvq && s.attHere x (fld w 39 34) false
    && (fld w 45 40 == 0 || s.attTableOk x (fld w 45 40) .fp16 1024 q.n2)
    && (if bitOf w 60 then s.attTableOk x (fld w 51 46) .int8 (ceilDiv k.n1 8) q.n2 else fld w 51 46 == 0)
    && (if bitOf w 61 then x.operandOk (fld w 57 52) 2 && decide (1 ≤ st.rank) && st.fmtIn [.fp32] && st.n0 == 2 && st.n1 == q.n1 && st.n2 == q.n2
          && s.attHere x (fld w 57 52) false
        else fld w 57 52 == 0)
    && !(bitOf w 59 && fld w 67 63 == 0) && nbits (sGet x.sr (fld w 67 63)).toNat 31 20 == 0
    && decide ((if ring then destBytes .fp32 o else o.reserve) + (if bitOf w 61 then st.reserve else 0) ≤ resultLimit)
    && (!ring || (!bitOf w 60 && slot0 k && slot0 v && s.isLocal rec1 && selOf rec1 == 2 && rec1 % 64 == 0))

/-- `ATT.MERGE` (R238). -/
def State.attMergeOk (s : State) (x : Entry) : Bool :=
  let w := x.word
  let o := x.desc (fld w 21 16)
  let out (i : Nat) : Bool :=
    let d := x.desc i
    decide (d.n0 ≤ 256) && x.operandOk i 2 && decide (1 ≤ d.rank) && d.fmtIn [.fp32, .fp16, .bf16] && d.sameSizes o && s.attHere x i false
  let stat (i : Nat) : Bool :=
    let d := x.desc i
    x.operandOk i 2 && decide (1 ≤ d.rank) && d.fmtIn [.fp32] && d.n0 == 2 && d.n1 == o.n1 && d.n2 == o.n2 && s.attHere x i false
  out (fld w 21 16) && out (fld w 27 22) && out (fld w 33 28) && stat (fld w 39 34) && stat (fld w 45 40) && stat (fld w 51 46)
    && decide (o.reserve + (x.desc (fld w 51 46)).reserve ≤ resultLimit)

/-- `MOV.COPY` and `MOV.MCAST`: one format, equal rows, no overlap (R126, R154). That a multicast of two formats is refused as a copy is, is a
DESIGN CHOICE (log entry 73). -/
def State.movOk (x : Entry) : Bool :=
  let w := x.word
  let d := x.desc (fld w 21 16)
  let a := x.desc (fld w 27 22)
  x.operandOk (fld w 21 16) 3 && x.operandOk (fld w 27 22) 3 && a.fmtCode == d.fmtCode && a.n0 == d.n0 && a.rows == d.rows
    && !overlapAny x.srcRanges x.dstRanges

/-- Every decode check of an executing instruction (R121). -/
def State.decodeOk (s : State) (e : EngineId) (x : Entry) : Bool :=
  let w := x.word
  match usedBits (opOf w) with
  | none => false
  | some u =>
    reservedClear w u && smallFieldsOk w &&
    match opOf w with
    | 0x10 => s.matMulOk x
    | 0x11 => s.matCvtOk x
    | 0x30 => s.sfnEvalOk e x
    | 0x31 => s.sfnLoadOk e x
    | 0x50 => s.attOk x
    | 0x51 => s.attMergeOk x
    | 0x52 => s.attOk x
    | 0x60 => State.movOk x
    | 0x61 => State.movOk x
    | op => if op / 16 = 2 then s.vecOk e x else if op / 16 = 4 then s.nrmOk e x else true

end Sys2Proof.Machine
end

