-- ==== Sys2Proof/Machine/Sequencer.lean ====
section
/-! DEFINITION. The sequencer: issue, completion, retirement, and the entry into FAULTED (R107-R111, R119-R121, R130-R132, R141, R166, R167). -/
namespace Sys2Proof.Machine

/-- The detail of a completion with neither a target nor a known core (log entry 14). -/
def noDetail (c : Code) (idx : Nat) : Nat := (Config.noDetail c.toNat idx).toNat

/-- Change an entry of an engine. -/
def State.setEntry (s : State) (e : EngineId) (x : Entry) : State := s.modEng e fun g => g.setEntry x

/-- A failure with its detail: a data error names a core only where one is known (R147). -/
def Entry.failAt (x : Entry) (c : Code) (detail : Nat) : Entry := x.fail c (if c = .dataErr then noDetail c x.idx else detail)

/-- A new entry for an instruction (R110, R141). -/
def State.newEntry (s : State) (e : EngineId) (w : IWord) : Entry :=
  let g := s.eng e
  { id := g.nextId, eng := e, idx := s.get F.ENG_STATUS.pc e.val, word := w, unit := unitOf (opOf w), sr := g.s, tr := g.t
    epoch := s.get F.ENG_EPOCH.applied e.val, granted := false, reserved := false, operands := [], raw := [], done := false, code := .ok
    detail := 0, writes := [], cap := none, wrote := false, completed := false, gen := none, sent := false }

/-- The index of the next instruction; beyond the last one the register keeps the last index (R130). -/
def State.setPc (s : State) (e : EngineId) (n : Nat) : State :=
  (s.put F.ENG_STATUS.pc (min n 16383) e.val).modEng e fun g => { g with beyond := decide (16383 < n) }

/-- Put an entry behind the ones in flight. -/
def Engine.push (g : Engine) (x : Entry) : Engine := { g with inflight := g.inflight ++ [x], nextId := g.nextId + 1 }

/-- Whether the sequencer may issue at all: RUN or SUSPENDING, no fault bound, no yield waiting to suspend, no sequencer instruction between its
issue and its effect, the region ON, the engine out of reset and its crossings calibrated (R27, R108, R132, R136). -/
def State.issuing (s : State) (e : EngineId) : Bool :=
  let g := s.eng e
  (s.engState e == 1 || s.engState e == 2) && g.bound.isNone && g.ctx.isNone && !(s.engState e == 2 && g.yieldAt.isSome)
    && g.inflight.all (fun y => y.unit != .seq || y.done) && s.regionOn e && !g.inReset && s.engineLinked e

/-- Classes whose issue a staged setting holds (R141). -/
def heldClass (op : Nat) : Bool := decide (5 ≤ op / 16) && decide (op / 16 ≤ 8)

/-- Whether a commit that reached the engine holds this class (R141). -/
def State.epochHolds (s : State) (e : EngineId) (op : Nat) : Bool :=
  heldClass op && s.get F.ENG_EPOCH.staged e.val != s.get F.ENG_EPOCH.applied e.val

/-- Room in a queue of 8 (R108). -/
def Engine.room (g : Engine) (u : Unt) : Bool := decide ((g.inflight.filter fun y => y.unit == u && !y.done).length < 8)

/-- A fetch that fails: the engine is bound for FAULTED, and nothing catches it (R130). -/
def Engine.bindFetch (g : Engine) (c : Code) (idx : Nat) : Engine :=
  { g with bound := some (faultWord c idx (Config.noOpcode idx).toNat (noDetail c idx)), boundFetch := true }

/-- An instruction that its predicate skips: it retires with OK, and catch has no effect (R120). -/
def Entry.skip (x : Entry) : Entry := { x with word := x.word &&& BitVec.ofNat 128 0xFF, unit := .seq, done := true, completed := true }

/-- Whether a `CTL.PAGE` covers a page. -/
def Entry.coversPage (x : Entry) (page : Nat) : Bool :=
  decide (fld x.word 24 21 ≤ page) && decide (page < fld x.word 24 21 + fld x.word 29 25)

/-- Whether `CTL.PAGE` is refused as it issues: no page, a page beyond the memory, or a page that holds it or an instruction in flight (R129). -/
def Engine.pagesDenied (g : Engine) (x : Entry) : Bool :=
  fld x.word 29 25 == 0 || decide (16 < fld x.word 24 21 + fld x.word 29 25) || x.coversPage (x.idx / 1024)
    || g.inflight.any fun y => x.coversPage (y.idx / 1024)

/-- Whether a `CTL.PAGE` that has issued, and has not completed, loads a page (R129; log entry 50). -/
def Engine.pageComing (g : Engine) (page : Nat) : Bool := g.inflight.any fun y => opOf y.word == 0x06 && !y.completed && y.coversPage page

/-- Issue of one instruction that was fetched whole. In SUSPENDING the engine suspends at the first yield that issues (R136). -/
def State.issueWord (s : State) (e : EngineId) (w : IWord) : Out :=
  let g := s.eng e
  let op := opOf w
  let x := s.newEntry e w
  let go (y : Entry) : Out := .next ((s.modEng e fun g => g.push y).setPc e (x.idx + 1))
  let yielding := op == 0x04 && s.engState e == 2
  need (!bitOf w 13 || g.inflight.isEmpty) "sync: an earlier instruction has not retired" <|
  need (g.room (unitOf op)) "the queue of the instruction is full" <|
  need (!s.epochHolds e op) "a staged setting holds the class" <|
  need (!(fld w 10 8 == 7 && g.catchPending)) "P7 waits for a caught completion" <|
  if pGet g.p (fld w 10 8) == bitOf w 11 then go x.skip
  else
    need (!g.regConflict w) "a register waits for its writer" <|
    if s.decodeOk e x then
      need (!g.rangeConflict x) "an operand range waits" <|
      if op == 0x06 && g.pagesDenied x then go { x.failAt .accessDenied (blockOf (sGet x.sr (fld w 20 16)).toNat) with completed := true }
      else if yielding then .next ((s.modEng e fun g => { g.push x with yieldAt := some x.idx }).setPc e (x.idx + 1))
      else go x
    else go { x.fail .accessDenied (noDetail .accessDenied x.idx) with completed := true }

/-- INSTRUCTION_ISSUE (R108): `parity` is a parity error at the fetch. -/
def execInstructionIssue (e : EngineId) (parity : Bool) (s : State) : Out :=
  let g := s.eng e
  let pc := s.get F.ENG_STATUS.pc e.val
  let page : Fin 16 := ⟨pc / 1024 % 16, Nat.mod_lt _ (by decide)⟩
  need (s.issuing e) "the engine issues nothing in this state" <|
  if g.beyond then .next (s.modEng e fun g => g.bindFetch .unmapped 16383)
  else
    need (!vget g.pageLoading page && !g.pageComing (pc / 1024)) "the page is loading" <|
    if parity || vget g.pageBad page then .next (s.modEng e fun g => g.bindFetch .dataErr pc)
    else s.issueWord e (Tbl.get (fun _ => 0#128) g.imem pc)

/-- Release the results of an instruction to drain (R166). -/
def Engine.release (g : Engine) (x : Entry) : Engine :=
  if x.writes.isEmpty && x.cap.isNone then g
  else { g with drains := g.drains ++ [⟨x.id, x.idx, x.writes, x.cap, false, x.dstRanges, if opOf x.word / 16 = 5 then some x.epoch else none⟩] }

/-- INSTRUCTION_COMPLETE (R166): the last value has entered the result buffer; units complete in issue order (R89, R109). -/
def execInstructionComplete (e : EngineId) (id : Nat) (s : State) : Out :=
  let g := s.eng e
  needSome (g.inflight.find? fun y => y.id == id) "no such instruction in flight" fun x =>
  need (x.unit != .seq) "an instruction of the sequencer completes by its own row" <|
  need (x.done && !x.completed && !(g.bcs.any fun b => b.id == id)) "the instruction has not finished, or has completed already" <|
  need ((g.inflight.takeWhile fun y => y.id != id).all fun y => y.unit != x.unit || y.completed) "an earlier instruction of the unit has not completed" <|
  let x' := { x with completed := true, wrote := decide (x.code = .ok), writes := [], cap := none }
  .next (s.setEng e ((if x.code = .ok then g.release x else g).setEntry x'))

/-- An instruction of the sequencer between its issue and its effect, which come in one cycle (R108, R135): all but those that wait. -/
def Engine.inCycle (g : Engine) (x : Entry) : Bool :=
  x.unit == .seq && !x.done && opOf x.word != 0x07 && opOf x.word != 0x90 && g.yieldAt != some x.idx

/-- Whether an instruction has begun writing its destination and so completes in spite of a fault or a cancel (R132, R139). -/
def Engine.begun (g : Engine) (x : Entry) : Bool :=
  x.completed || x.wrote || g.inCycle x || g.bcs.any fun b => b.id == x.id && b.phase == .main && !b.released.isEmpty

/-- Every instruction that has not begun writing completes with CANCELLED and has no effect (R132, R139, R103). -/
def Engine.cancelAll (g : Engine) : Engine :=
  let gone := g.inflight.filter fun y => !g.begun y
  let isGone (id : Nat) : Bool := gone.any fun y => y.id == id
  { g with
    inflight := g.inflight.map fun y => if g.begun y then y
      else { y.fail .cancelled (noDetail .cancelled y.idx) with completed := true }
    bcs := g.bcs.filter fun b => b.orphan || !isGone b.id
    ring := match g.ring with
      | some r => if isGone r.id then none else g.ring
      | none => none
    acc := if gone.any fun y => opOf y.word == 0x10 then g.acc.map fun a => { a with ok := false } else g.acc
    yieldAt := if gone.any fun y => g.yieldAt == some y.idx && opOf y.word == 4 then none else g.yieldAt }

/-- The completion record of an entry in the layout of ENG_FAULT (R131, R147). -/
def Entry.record (x : Entry) : Word := faultWord x.code x.idx (opOf x.word) x.detail

/-- A retiring completion: caught (R131), or a fault that cancels what follows (R132). -/
def Engine.retire (g : Engine) (x : Entry) : Engine :=
  let g := { g with inflight := g.inflight.filter fun y => y.id != x.id }
  if bitOf x.word 12 then
    if x.code = .ok then { g with p := pSet g.p 7 false }
    else { g with p := pSet g.p 7 true, s := sSet g.s 31 x.record }
  else if x.code = .ok then g
  else if g.bound.isNone || g.boundFetch then { g with bound := some x.record, boundFetch := false }.cancelAll
  else g

/-- INSTRUCTION_RETIRE (R109): the oldest instruction has completed; in CANCELLING no code causes a fault (R139). A yield outside SUSPENDING records its tag as it retires (R136). -/
def execInstructionRetire (e : EngineId) (s : State) : Out :=
  let g := s.eng e
  needSome g.inflight.head? "nothing is in flight" fun x =>
  need x.completed "the oldest instruction has not completed" <|
  let s := s.setEngBcs e (if s.engState e = 4 then { g with inflight := g.inflight.filter fun y => y.id != x.id } else g.retire x)
  .next (if opOf x.word == 4 && x.code == .ok && x.sent then s.put F.ENG_STATUS.yield_tag (fld x.word 47 16) e.val else s)

/-- Enter FAULTED with a record (R132, R134): the log and the control cores hear of it. -/
def State.fault (s : State) (e : EngineId) (w : Nat) : State :=
  let s := (s.setReg R.ENG_FAULT w e.val).put F.ENG_STATUS.last_code (w % 16) e.val
  let s := s.enterState e 5 true
  s.log 0x0101 0x10 e.val 2 ((Code.ofCode (w % 16)).getD .ok) w 0x09

/-- ENTER_FAULTED (R132, R167): all have retired and every drain has finished. -/
def execEnterFaulted (e : EngineId) (s : State) : Out :=
  let g := s.eng e
  needSome g.bound "no fault has arisen" fun w =>
  need (g.inflight.isEmpty && g.drained && g.ctx.isNone) "an instruction or a drain is still in flight" <|
  .next ((s.setEng e { g with bound := none, boundFetch := false, yieldAt := none }).fault e w.toNat)

end Sys2Proof.Machine
end

