-- ==== Sys2Proof/Machine/Squares.lean ====
section
/-! DEFINITION. Plaza squares: lines, fills, replacement, the direct window and flushes, and the accesses of an instruction or of firmware through
them (R33, R35, R152, R155, R169-R171, R263-R269, R271-R274, R279, R417, R419). -/
namespace Sys2Proof.Machine

/-- Ways of a square that hold lines: those in service below the direct window, which takes the highest-numbered ones (R266, R267). -/
def State.cacheWays (s : State) (k : SquareId) : List Nat :=
  let w := (s.sq k).ways
  w.take (w.length - s.get F.SQ_CTL.ways k.val)

/-- The engine of a DRAM key. -/
def keyEngine (key : Nat) : Nat := key / 2 ^ 32

/-- Until an operation has finished in a bank, no line of that bank is allocated (R271). -/
def State.bauBank (s : State) (e : EngineId) (b : Nat) : Bool := (s.eng e).bcs.any fun x => x.holds b

/-- Whether a square may allocate a line of a bank at all (R267, R268, R271, R417). -/
def State.mayAllocate (s : State) (k : SquareId) (e : EngineId) (bank : Nat) : Bool :=
  !(s.on F.SQ_STATUS.mapped_out k.val || (vget s.power.regions ⟨80 + k.val, by omega⟩).dying || (s.cacheWays k).isEmpty || s.bauBank e bank)

/-- Whether the policy of a requester lets its access allocate a line, and of which class (R169, R265). -/
def State.policyClass (s : State) (k : SquareId) (who : Requester) (wr : Bool) : Option LineClass :=
  match who with
  | .engine g =>
    let p := (cGet (s.eng g).cfg 2).toNat
    if nbit p (if wr then 1 else 0) then none
    else some (match p / 4 % 4 with
      | 1 => .keep
      | 2 => .transient
      | _ => .normal)
  | _ => if s.on F.SQ_CTL.ext_no_alloc k.val then none else some .normal

/-- The class of the line that an access which misses allocates, where it allocates one (R169, R265, R268, R271, R417). -/
def State.allocClass (s : State) (k : SquareId) (who : Requester) (wr : Bool) (e : EngineId) (bank : Nat) : Option LineClass :=
  if s.mayAllocate k e bank then s.policyClass k who wr else none

/-- The set of a sector: every sector of a bank row maps to one set (R263). -/
def setOf (sector : Nat) : Nat := Config.plazaSet (sector / 16) % 49152

/-- The order of classes in replacement (R266). -/
def LineClass.rank : LineClass → Nat
  | .transient => 0 | .normal => 1 | .keep => 2

/-- The line that leaves first: lower class rank, then least recently used. -/
def olderLine (a b : Line) : Line := if a.cls.rank < b.cls.rank ∨ (a.cls.rank = b.cls.rank ∧ a.used ≤ b.used) then a else b

/-- The way that a new line takes, and the victim it displaces (R266). -/
def State.chooseWay (s : State) (k : SquareId) (sector : Nat) : Option (Nat × Option Line) :=
  let inSet := (s.sq k).lines.filter fun l => setOf l.sector == setOf sector
  match (s.cacheWays k).find? fun w => !inSet.any fun l => l.way == w with
  | some w => some (w, none)
  | none => match inSet.filter fun l => (s.cacheWays k).contains l.way with
    | [] => none
    | x :: xs => let v := xs.foldl olderLine x; some (v.way, some v)

/-- Write a line back (R266, R273): a poisoned line leaves the poison code in its four words; any other leaves clean words. -/
def State.writeBack (s : State) (l : Line) : State :=
  let e := keyEngine (l.sector * 64)
  let s := (List.range 4).foldl (fun s i => if l.poison then s.setMark (4 * l.sector + i) 3 else if l.dirty then s.setMark (4 * l.sector + i) 0 else s) s
  if l.poison then s.count F.LND_POISON.writes 1 e else s

/-- Take lines out of a square, dirty ones written back. -/
def State.dropLines (s : State) (k : SquareId) (p : Line → Bool) : State :=
  let gone := (s.sq k).lines.filter p
  let s := gone.foldl State.writeBack s
  (s.setSq k { s.sq k with lines := (s.sq k).lines.filter fun l => !p l }).put F.SQ_POISON.held
    (s.get F.SQ_POISON.held k.val - (gone.filter Line.poison).length) k.val

/-- Allocate a line (R265, R266); nothing is allocated where no way can take it. -/
def State.allocate (s : State) (k : SquareId) (sector : Nat) (c : LineClass) (dirty : Bool) : State :=
  match s.chooseWay k sector with
  | none => s
  | some (w, v) =>
    let s := match v with
      | some l => s.dropLines k fun x => x.sector == l.sector
      | none => s
    let q := s.sq k
    s.setSq k { q with lines := q.lines ++ [⟨sector, w, c, dirty, false, q.clock⟩], clock := q.clock + 1 }

/-- The location of a line in the layout of `SQ_ERR_LOC`, without valid (R279). -/
def errLoc (k : SquareId) (sector : Nat) : Nat :=
  let key := sector * 64
  b2n (keyEngine key != k.val) * 2 ^ 41 + bankOfKey key * 2 ^ 30 + rowOfKey key * 2 ^ 19 + sector % 16 * 2 ^ 15

/-- The four words of a sector. -/
def sectorWords (sector : Nat) : List Nat := (List.range 4).map fun i => 4 * sector + i

/-- Whether DRAM holds an uncorrectable or poisoned word in a sector (R272, R273). -/
def State.sectorBad (s : State) (sector : Nat) : Bool := (sectorWords sector).any fun w => decide (2 ≤ s.markOf w)

/-- A clean line fails parity: its square counts the refetch, whose read counts the errors that it meets in DRAM; where one cannot be corrected the
line is lost (R170, R272). -/
def State.refetch (s : State) (k : SquareId) (e : EngineId) (sector : Nat) : State :=
  let s := (s.count F.SQ_REFETCH.count 1 k.val).noteWords e (sectorWords sector)
  if s.sectorBad sector then s.dropLines k fun l => l.sector == sector else s

/-- A dirty line fails parity: it is poisoned, counted and logged (R170). -/
def State.poisonLine (s : State) (k : SquareId) (l : Line) : State :=
  if l.poison then s
  else
    let s := s.setSq k { s.sq k with lines := (s.sq k).lines.map fun x => if x.sector = l.sector then { x with poison := true } else x }
    let s := (s.count F.SQ_POISON.made 1 k.val).put F.SQ_POISON.held (s.get F.SQ_POISON.held k.val + 1) k.val
    let s := if s.on F.SQ_ERR_LOC.valid k.val then s else s.setReg R.SQ_ERR_LOC (2 ^ 63 + errLoc k l.sector) k.val
    s.log 0x0205 0x11 k.val 2 .dataErr (errLoc k l.sector)

/-- Bytes of a sector of the direct window fail parity (R171). -/
def State.windowParity (s : State) (k : SquareId) (sector : Nat) (bad : List (Fin 64)) : State :=
  let old := (s.sq k).badBytes
  if bad.isEmpty then s else s.setSq k { s.sq k with badBytes := old ++ (bad.map fun i => 64 * sector + i.val).filter fun x => !old.contains x }

/-- Whether a transaction writes, and whether it writes a whole sector. -/
def reqWrites (r : MemReq) : Bool :=
  match r.op with
  | .write _ => true
  | .read _ => false
def wholeSector (r : MemReq) : Bool := reqWrites r && r.op.size == 64

/-- An access passes to the landing through the square port (R253, R264). -/
def State.toLanding (s : State) (e : EngineId) (r : MemReq) (fill : Bool) : State := { s with landq := s.landq ++ [⟨e, r, squarePort, fill⟩] }

/-- An access whose line could not be fetched: a read fails, and a write goes to DRAM (R265). -/
def State.uncached (s : State) (e : EngineId) (r : MemReq) : State := if reqWrites r then s.toLanding e r false else s.answer r .dataErr []

/-- An access to DRAM at its home square, `bad` bytes of whose sector fail parity in its line (R170, R264, R265). -/
def State.squareDram (s : State) (k : SquareId) (e : EngineId) (r : MemReq) (bad : List (Fin 64)) : State :=
  let sector := physKey r.addr.toNat / 64
  match s.lineOf k sector with
  | some l =>
    if bad.isEmpty then (s.touch k sector).serve r
    else if l.dirty then ((s.poisonLine k l).touch k sector).serve r
    else
      let s' := s.refetch k e sector
      if s.sectorBad sector && !wholeSector r then s'.uncached e r else (s'.touch k sector).serve r
  | none =>
    match s.allocClass k r.who (reqWrites r) e (reqBank r) with
    | none => s.toLanding e r false
    | some c =>
      if wholeSector r then (s.allocate k sector c true).serve r
      else (s.setSq k { s.sq k with fills := (s.sq k).fills ++ [⟨r, sector, c⟩] }).toLanding e r true

/-- SQUARE_REQUEST (R27, R170, R171, R264-R269): a square serves an access from a line or from its window, starts a fill, or passes it to the landing;
`bad` names bytes of the sector that now fail parity in the square. -/
def execSquareRequest (k : SquareId) (req : MemReq) (bad : List (Fin 64)) (s : State) : Out :=
  need (oneSector req && s.isLocal req.addr.toNat) "no access of one sector of this block" <|
  match s.target req.addr.toNat req.op.size with
  | some (.window k') =>
    need (k' == k) "the window of another square" <|
    need (!s.on F.SQ_CTL.busy k.val) "the direct window is changing its size" <|
    need (s.squareOn k) "the square's region is not on: the access reaches it by its router, which holds it" <|
    if s.on F.SQ_STATUS.mapped_out k.val then .next (s.answer req .unmapped [])
    else .next ((s.windowParity k (req.addr.toNat % 2 ^ 26 / 64) bad).serve req)
  | some (.dram e) =>
    need (columnOf e == k && req.who != .engine e) "the DRAM of another column, or an access down the engine's own channels" <|
    need (s.squareOn k) "the square's region is not on: the access reaches it by its router, which holds it" <|
    need (s.landingLinked e) "a crossing on the way is not calibrated" <|
    need (!(s.sq k).fills.any fun f => f.sector == physKey req.addr.toNat / 64) "a fill of the sector is under way" <|
    if (s.eng e).dramOut then .next (s.answer req .unmapped []) else .next (s.squareDram k e req bad)
  | _ => .refused (.notEnabled "the address is neither a window nor DRAM")

/-- PLAZA_FILL_DONE (R254, R262, R265, R272-R274): the oldest fill has its turn at its bank and returns, and the errors that its read of the sector
met are counted. A fill that meets an error allocates nothing; `failed` reports an error met in the transfer. -/
def execPlazaFillDone (k : SquareId) (failed : Bool) (s : State) : Out :=
  needSome (s.sq k).fills.head? "no fill is under way" fun f =>
  needSome (engineOf? (keyEngine (f.sector * 64))) "no fill is under way" fun e =>
  needSome (s.nextAccess e (reqBank f.req)) "no fill is under way" fun q =>
  need (q.fill && q.req == f.req) "the bank serves another access first" <|
  need (decide ((s.bank e (reqBank f.req)).owed < 5)) "the bank executes its refreshes first" <|
  let s := (s.takeAccess e (reqBank f.req) q []).setSq k { s.sq k with fills := (s.sq k).fills.tail }
  let bad := failed || s.sectorBad f.sector
  let s := if failed then s else s.noteWords e (sectorWords f.sector)
  if bad then .next (s.uncached e f.req)
  else if s.mayAllocate k e (reqBank f.req) then .next ((s.allocate k f.sector f.cls (reqWrites f.req)).serve f.req)
  else .next (s.toLanding e f.req false)

/-! ## Accesses of an instruction or of firmware

An instruction's own row stands for all its accesses (R33, R152). An access of an engine to its own DRAM comes down its channels; every other access to
DRAM goes through the home square, where it may allocate a line (R155, R264, R265). -/

/-- Whether an access of `n` bytes waits: for a direct window that changes its size (R267), for the region of the unit that serves it, which
REGION_WAKE turns on (R35, R419), or for a fill of its sector. -/
def State.heldAccess (s : State) (who : Requester) (a n : Nat) : Bool :=
  match s.target a n with
  | some (.window k) => s.on F.SQ_CTL.busy k.val || !s.squareOn k
  | some (.core e) => !(s.eng e).mappedOut && !s.resetOf e && !s.regionOn e
  | some (.dram e) =>
    let k := columnOf e
    !(s.eng e).dramOut && ((who != .engine e && (s.sq k).fills.any fun f => f.sector == physKey a / 64)
      || ((who != .engine e || (s.lineOf k (physKey a / 64)).isSome) && !s.squareOn k))
  | _ => false

/-- The class of the line that an access allocates at the home square: none for an access down the engine's own channels, to DRAM that is mapped
out, or that a line serves (R155, R264, R265). -/
def State.missClass (s : State) (who : Requester) (wr : Bool) (e : EngineId) (a : Nat) : Option LineClass :=
  if who = .engine e ∨ (s.eng e).dramOut = true ∨ (s.lineOf (columnOf e) (physKey a / 64)).isSome = true then none
  else s.allocClass (columnOf e) who wr e (bankOfKey (physKey a))

/-- An access uses the line that holds its sector, where there is one (R266). -/
def State.useLine (s : State) (k : SquareId) (sector : Nat) : State := if (s.lineOf k sector).isSome then s.touch k sector else s

/-- One read (R33-R35, R170, R171, R272-R274): a miss that allocates reads the whole sector, and fails where the fill fails (R265). -/
def State.readAs (s : State) (who : Requester) (a n : Nat) : Code × List Byte :=
  match s.target a n with
  | some (.dram e) => if (s.missClass who false e a).isSome && s.sectorBad (physKey a / 64) then (.dataErr, []) else s.readLocal a n
  | _ => s.readLocal a n

/-- What one read leaves behind: errors counted, lines used, a line filled (R265, R266, R272-R274). -/
def State.noteAs (s : State) (who : Requester) (a n : Nat) : State :=
  match s.target a n with
  | some (.dram e) =>
    let sector := physKey a / 64
    match s.missClass who false e a with
    | some c =>
      let s' := s.noteWords e (sectorWords sector)
      if s.sectorBad sector then s' else s'.allocate (columnOf e) sector c false
    | none => (s.useLine (columnOf e) sector).noteRead a n
  | _ => s.noteRead a n

/-- One write: a miss that allocates takes a line, and a partial one fills it first (R265). -/
def State.writeAs (s : State) (who : Requester) (a : Nat) (b : List Byte) : State × Code :=
  match s.target a b.length with
  | some (.dram e) =>
    let sector := physKey a / 64
    match s.missClass who true e a with
    | some c =>
      if b.length = 64 then (s.allocate (columnOf e) sector c true).writeLocal a b
      else
        let s' := s.noteWords e (sectorWords sector)
        (if s.sectorBad sector then s' else s'.allocate (columnOf e) sector c true).writeLocal a b
    | none => (s.useLine (columnOf e) sector).writeLocal a b
  | _ => s.writeLocal a b

/-- Read `n` bytes of this block sector by sector, each a transaction of its own (R33, R152): the first failure ends the read. -/
def State.readSpan (s : State) (who : Requester) (a n : Nat) : Code × List Byte :=
  (sectorsOf a n).foldl (fun r p => match r.1 with
    | .ok => let q := s.readAs who p.1 p.2; (q.1, r.2 ++ q.2)
    | _ => r) (.ok, [])

/-- Write sectors one by one: the first failure is reported, and the other sectors are written. -/
def State.writeSectors (s : State) (who : Requester) (c : Code) (b : List Byte) : List (Nat × Nat) → State × Code
  | [] => (s, c)
  | p :: rest =>
    let r := s.writeAs who p.1 (b.take p.2)
    r.1.writeSectors who (if c = .ok then r.2 else c) (b.drop p.2) rest

/-- Write bytes of this block sector by sector (R152). -/
def State.writeSpan (s : State) (who : Requester) (a : Nat) (b : List Byte) : State × Code := s.writeSectors who .ok b (sectorsOf a b.length)

/-- What a read of `n` bytes leaves behind, sector by sector. -/
def State.noteSpan (s : State) (who : Requester) (a n : Nat) : State := (sectorsOf a n).foldl (fun s p => s.noteAs who p.1 p.2) s

/-- Whether some sector of a span waits. -/
def State.heldSpan (s : State) (who : Requester) (a n : Nat) : Bool := (sectorsOf a n).any fun p => s.heldAccess who p.1 p.2

/-! ## The direct window and flushes -/

/-- A write of `SQ_CTL` (R267, R279). -/
def State.writeSqCtl (s : State) (k : SquareId) (v : Nat) : State :=
  let n := nbits v 4 0
  let old := s.get F.SQ_CTL.ways k.val
  let s := s.put F.SQ_CTL.ext_no_alloc (nbits v 9 9) k.val
  if n = old then s
  else if s.on F.SQ_CTL.busy k.val || decide (s.get F.SQ_STATUS.ways_ok k.val < n) then s.put F.SQ_STATUS.bad_cfg 1 k.val
  else ((s.setSq k { s.sq k with oldWays := old }).put F.SQ_CTL.ways n k.val).put F.SQ_CTL.busy 1 k.val

/-- SQ_CTL_WRITE (R267, R279). -/
def execSqCtlWrite (k : SquareId) (v : Word) (s : State) : Out := .next (s.writeSqCtl k v.toNat)

/-- Write zero to every byte of a square's window. -/
def State.zeroWindow (s : State) (k : SquareId) : State :=
  let lo := spWin + k.val * 2 ^ 26
  { s with mem := s.mem.filter fun c => decide (c.1 < lo) || decide (lo + 2 ^ 26 ≤ c.1) }

/-- WINDOW_CHANGE_DONE (R267). -/
def execWindowChangeDone (k : SquareId) (s : State) : Out :=
  need (s.on F.SQ_CTL.busy k.val) "no window change is in progress" <|
  let keep := s.cacheWays k
  let s := s.dropLines k fun l => !keep.contains l.way
  let s := s.zeroWindow k
  let s := s.setSq k { s.sq k with badBytes := [], logged := [], oldWays := 0 }
  .next (s.put F.SQ_CTL.busy 0 k.val)

/-- A write of `SQ_FLUSH` (R279): the lines dirty at the write are written back. -/
def State.writeSqFlush (s : State) (k : SquareId) (v : Nat) : State :=
  let s := s.put F.SQ_FLUSH.inv (nbits v 1 1) k.val
  if nbit v 0 && !s.on F.SQ_STATUS.flush_busy k.val then
    let q := s.sq k
    let s := s.setSq k { q with flushing := (q.lines.filter Line.dirty).map Line.sector, flushInv := nbit v 1 }
    s.put F.SQ_STATUS.flush_busy 1 k.val
  else s

/-- SQ_FLUSH_GO (R279). -/
def execSqFlushGo (k : SquareId) (v : Word) (s : State) : Out := .next (s.writeSqFlush k v.toNat)

/-- Write a line back in place: it is clean, and a poisoned line stays poisoned (R273). -/
def State.cleanLine (s : State) (k : SquareId) (l : Line) : State :=
  let s := s.writeBack l
  s.setSq k { s.sq k with lines := (s.sq k).lines.map fun x => if x.sector = l.sector then { x with dirty := x.poison } else x }

/-- SQ_FLUSH_DONE (R279). -/
def execSqFlushDone (k : SquareId) (s : State) : Out :=
  need (s.on F.SQ_STATUS.flush_busy k.val) "no flush is in progress" <|
  let q := s.sq k
  let s := if q.flushInv then s.dropLines k fun _ => true
    else (q.lines.filter fun l => q.flushing.contains l.sector).foldl (fun s l => s.cleanLine k l) s
  .next ((s.setSq k { s.sq k with flushing := [], flushInv := false }).put F.SQ_STATUS.flush_busy 0 k.val)

/-- SQ_REFETCH_READ (R14, R279). -/
def execSqRefetchRead (k : SquareId) (s : State) : Out := .next (s.swRead R.SQ_REFETCH k.val 0).1

/-- SQ_POISON_READ (R14, R279): made clears; held counts what stands and stays. -/
def execSqPoisonRead (k : SquareId) (s : State) : Out := .next (s.swRead R.SQ_POISON k.val 0).1

end Sys2Proof.Machine
end

