-- ==== Sys2Proof/Machine/Streams.lean ====
section
/-! DEFINITION. Stream engines, operand reads, the result buffer, its drain and the scale record (R150-R153, R157, R161-R168, R212, R216-R219). -/
namespace Sys2Proof.Machine

/-- The reads of a tensor in order: its scale rows, then its data rows, as address and length (R153, R162). -/
def Desc.reads (d sd : Desc) (kv : Bool) : List (Nat × Nat) :=
  match d.fmt with
  | none => []
  | some f =>
    let g := f.isBlock || kv
    (if g then sd.rowAddrs.map fun a => (a, 2 * blocksOf d.n0) else []) ++ d.rowAddrs.map fun a => (a, rowBytes f g d.n0)

/-- The reads of a tensor operand. -/
def Entry.readList (x : Entry) (i : Nat) (kv : Bool) : List (Nat × Nat) := (x.desc i).reads (x.scaleDesc (x.desc i)) kv

/-- Whether some access of an engine waits for a direct window, a region or a fill (R35, R267, R419). -/
def State.heldReads (s : State) (e : EngineId) (l : List (Nat × Nat)) : Bool := l.any fun p => s.isLocal p.1 && s.heldSpan (.engine e) p.1 p.2

/-- Whether some read of an operand leaves this block (R29). -/
def State.remoteReads (s : State) (l : List (Nat × Nat)) : Bool := s.noRoute.isNone && l.any fun p => !s.isLocal p.1

/-- An engine's reads within this block. -/
def State.localReader (s : State) (e : EngineId) : Reader := fun a n =>
  if s.isLocal a then s.readSpan (.engine e) a n else (s.noRoute.getD .linkDown, [])

/-- Bytes of the reads that left this block, cut from the reply in order. -/
def cutReply : List (Nat × Nat) → List Byte → List (Nat × List Byte)
  | [], _ => []
  | (a, n) :: rest, b => (a, b.take n) :: cutReply rest (b.drop n)

/-- Reads within this block, and reads of other blocks answered by a reply that holds their bytes in order (R157). -/
def State.replyReader (s : State) (e : EngineId) (reads : List (Nat × Nat)) (r : Reply) : Reader :=
  let cut := cutReply (reads.filter fun p => !s.isLocal p.1) r.data
  fun a n =>
    if s.isLocal a then s.readSpan (.engine e) a n
    else if s.noRoute.isSome then (.unmapped, [])
    else if r.code = .ok then (.ok, ((cut.find? fun p => p.1 == a).map Prod.snd).getD [])
    else (r.code, [])

/-- Bytes that a reply must hold to answer the reads that leave this block. -/
def State.replyBytes (s : State) (reads : List (Nat × Nat)) : Nat :=
  (reads.filter fun p => !s.isLocal p.1).foldl (fun n p => n + p.2) 0

/-- A reply answers its reads: it fails, or it holds all their bytes. -/
def State.replyFits (s : State) (reads : List (Nat × Nat)) (r : Reply) : Bool := r.code != .ok || s.noRoute.isSome || r.data.length == s.replyBytes reads

/-- What the reads leave behind in the memories. -/
def State.noteReads (s : State) (e : EngineId) (reads : List (Nat × Nat)) : State :=
  reads.foldl (fun s p => if s.isLocal p.1 then s.noteSpan (.engine e) p.1 p.2 else s) s

/-- A tensor operand read through a reader. -/
def Entry.readBy (x : Entry) (rd : Reader) (i : Nat) (kv : Bool) (slot : Nat) : Except Stop Tensor :=
  let d := x.desc i
  match d.fmt with
  | some f => readTensor rd f kv d (x.scaleDesc d) slot
  | none => .error (.accessDenied, 0)

/-- A tensor operand: as STREAM_READ_RETURN delivered it, else read now. -/
def State.operand (s : State) (x : Entry) (i : Nat) (kv : Bool := false) (slot : Nat := 0) : Except Stop Tensor :=
  match x.operands.find? fun p => p.1 == i with
  | some p => .ok p.2
  | none => x.readBy (s.localReader x.eng) i kv slot

/-- The slot number that a scale fault reports (R163): 0 for ta and tk, 1 for tb and tv. -/
def slotOf (w : IWord) (i : Nat) : Nat := if opOf w / 16 = 1 ∨ opOf w = 0x50 ∨ opOf w = 0x52 then (if i = fld w 27 22 then 0 else 1) else 0

/-- Operands still to be read. -/
def Entry.unread (x : Entry) : List Nat := (srcOperands x.word).filter fun i => !x.operands.any fun p => p.1 == i

/-- Whether an operand of another block has not returned. -/
def State.awaitsReply (s : State) (x : Entry) : Bool := x.unread.any fun i => s.remoteReads (x.readList i (kvOperand x.word i))

/-- Whether an instruction names an outlier list that it has not read: the list is read first (R161, R212). -/
def Entry.listUnread (x : Entry) : Bool := opOf x.word == 0x10 && bitOf x.word 68 && x.raw.isEmpty

/-- The address of the outlier list. -/
def Entry.listAddr (x : Entry) : Nat := (sGet x.sr (fld x.word 85 81)).toNat

/-- The reads that an instruction still makes by itself when it starts. -/
def Entry.ownReads (x : Entry) : List (Nat × Nat) :=
  (if x.listUnread then [(x.listAddr, 264)] else []) ++ x.unread.flatMap fun i => x.readList i (kvOperand x.word i)

/-! ## Stream engines -/

/-- Stream engines that an instruction occupies (R150). -/
def streamsOf (w : IWord) : Nat :=
  match opOf w with
  | 0x06 => 1
  | 0x0D => 1
  | 0x0E => 1
  | 0x10 => (srcOperands w).length + (dstOperands w).length + (if bitOf w 68 then 1 else 0)
  | 0x52 => (srcOperands w).length + (dstOperands w).length + 1
  | op => if touchesMemory op && op / 16 != 7 then (srcOperands w).length + (dstOperands w).length else 0

/-- Stream engines that an instruction still holds (R150, R151): each is freed after its operand's last access, and that of a destination written
through the result buffer once the last value has entered the buffer, INSTRUCTION_COMPLETE. -/
def Entry.streamsHeld (y : Entry) : Nat :=
  if !y.granted || y.completed then 0
  else if y.done then (if y.unit == .stream then 0 else (dstOperands y.word).length)
  else streamsOf y.word - y.operands.length - y.raw.length

/-- Stream engines in use (R151). -/
def Engine.streamsUsed (g : Engine) : Nat := (g.inflight.map Entry.streamsHeld).sum

/-- The next instruction to be granted: grants are made in issue order (R151). -/
def Engine.nextGrant (g : Engine) : Option Entry := g.inflight.find? fun y => !y.done && !y.granted && streamsOf y.word != 0

/-- Whether an instruction holds its stream engines, or can be granted them now (R150, R151). -/
def Engine.granted (g : Engine) (x : Entry) : Bool :=
  streamsOf x.word == 0 || x.granted || ((g.nextGrant.map fun y => y.id) == some x.id && decide (g.streamsUsed + streamsOf x.word ≤ 8))

/-- STREAM_GRANT (R151). -/
def execStreamGrant (e : EngineId) (s : State) : Out :=
  let g := s.eng e
  needSome g.nextGrant "no instruction waits for stream engines" fun x =>
  need (g.granted x) "too few stream engines are free" <|
  .next (s.setEntry e { x with granted := true })

/-! ## The result buffer -/

/-- Bytes that an instruction reserves in the result buffer (R165, R244). -/
def Entry.reserve (x : Entry) : Nat :=
  let w := x.word
  match opOf w with
  | 0x50 => (x.desc (fld w 39 34)).reserve + (if bitOf w 61 then (x.desc (fld w 57 52)).reserve else 0)
  | 0x52 => destBytes .fp32 (x.desc (fld w 39 34)) + (if bitOf w 61 then (x.desc (fld w 57 52)).reserve else 0)
  | 0x51 => (x.desc (fld w 21 16)).reserve + (x.desc (fld w 51 46)).reserve
  | op => if op / 16 = 1 ∨ op / 16 = 2 ∨ op = 0x30 ∨ op / 16 = 4 then (x.desc (fld w 21 16)).reserve else 0

/-- Whether an instruction writes through the result buffer. -/
def buffered (op : Nat) : Bool := op / 16 == 1 || op / 16 == 2 || op == 0x30 || op / 16 == 4 || op / 16 == 5

/-- Bytes of a drain not yet written. -/
def Drain.size (d : Drain) : Nat := (d.writes.map fun w => w.2.length).sum

/-- Bytes of the result buffer in use: reservations, and drains not finished. -/
def Engine.bufferUsed (g : Engine) : Nat :=
  ((g.inflight.filter fun y => y.reserved && !y.completed).map Entry.reserve).sum + (g.drains.map Drain.size).sum

/-- The next instruction to reserve: reservations are made in issue order (R165). -/
def Engine.nextReserve (g : Engine) : Option Entry := g.inflight.find? fun y => !y.done && !y.reserved && buffered (opOf y.word)

/-- Whether an instruction has its space, or can reserve it now: the buffer holds 8 MiB (R165). -/
def Engine.roomFor (g : Engine) (x : Entry) : Bool :=
  !buffered (opOf x.word) || x.reserved || ((g.nextReserve.map fun y => y.id) == some x.id && decide (g.bufferUsed + x.reserve ≤ 8 * 2 ^ 20))

/-- RESULT_BUFFER_RESERVE (R165). -/
def execResultBufferReserve (e : EngineId) (s : State) : Out :=
  let g := s.eng e
  needSome g.nextReserve "no instruction waits for buffer space" fun x =>
  need (g.roomFor x) "too little space is free" <|
  .next (s.setEntry e { x with reserved := true })

/-- The oldest instruction of a unit that is not done, when it has this opcode and may run now (R109, R151, R165, R176). -/
def State.unitOp (s : State) (e : EngineId) (u : Unt) (op : Nat) (k : Entry → Out) : Out :=
  let g := s.eng e
  needSome (g.front u) "the queue of the unit is empty" fun x =>
  need (opOf x.word == op) "another instruction is at the front of the queue" <|
  need (g.granted x && g.roomFor x) "stream engines or buffer space are missing" <|
  need (s.regionOn e && !g.inReset) "the engine does not run" <|
  need (!touchesMemory op || !g.fenced x) "an earlier fence or wait has not completed" (k { x with granted := true, reserved := true })

/-! ## Operand reads -/

/-- The outlier list of R210, checked as R212 gives: the listed indices, or none for a broken list; entries at count and above are ignored. -/
def outlierList (b : List Byte) (k : Nat) : Option (List Nat) :=
  let h := numAt b 0 8
  let l := (List.range (min h 64)).map fun j => numAt b (8 + 4 * j) 4
  if 64 < h then none
  else if l.any fun v => decide (v / 2 ^ 20 ≠ 0) then none
  else if (l.all fun v => decide (v < k)) && (l.zip l.tail).all fun p => decide (p.1 < p.2) then some l else none

/-- The epoch check of the units that serve accesses (R333): the first that refuses, with its applied epoch. -/
def State.epochRefusal (s : State) (e : EngineId) (epoch : Nat) (l : List (Nat × Nat)) : Option Nat :=
  l.findSome? fun p =>
    if s.isLocal p.1 then
      match s.serveCheck e p.1 p.2 epoch with
      | .skew a => some a
      | _ => none
    else none

/-- Whether a serving unit makes an access wait for its own application of the epoch (R333). -/
def State.epochWait (s : State) (e : EngineId) (epoch : Nat) (l : List (Nat × Nat)) : Bool :=
  l.any fun p => s.isLocal p.1 && s.serveCheck e p.1 p.2 epoch == .wait

/-- Whether the accesses of an instruction carry an epoch: ATT, MOV, BAU and SYNC transactions do (R333). -/
def carriesEp (w : IWord) : Bool := heldClass (opOf w)

/-- The refusal of an instruction's reads by a unit on another epoch, where they carry one. -/
def State.readRefusal (s : State) (x : Entry) (l : List (Nat × Nat)) : Option Nat := if carriesEp x.word then s.epochRefusal x.eng x.epoch l else none

/-- Whether an instruction's reads wait: at their units, or for an epoch that a unit has staged and not applied (R35, R267, R333, R419). -/
def State.readsWait (s : State) (x : Entry) (l : List (Nat × Nat)) : Bool :=
  s.heldReads x.eng l || (carriesEp x.word && s.epochWait x.eng x.epoch l)

/-- A failed access ends an instruction: a skew of another block's unit leaves that unit's applied epoch (R147, R333). -/
def Entry.failBy (x : Entry) (r : Reply) (c : Code) (detail : Nat) : Entry := x.failAt c (if c = .epochSkew then r.epoch.toNat else detail)

/-- The sizes that a continuing instruction must repeat (R94). -/
structure MatShape where
  batch : Nat
  m : Nat
  n : Nat
  int : Bool
  deriving DecidableEq, Repr

/-- Sizes and format of a matrix product. -/
def Entry.matShape (x : Entry) : MatShape :=
  let a := x.desc (fld x.word 27 22)
  let b := x.desc (fld x.word 33 28)
  ⟨a.n2, a.n1, b.n0, intPair a b⟩

/-- What the array keeps of a matrix product for a continuing one (R94). -/
def Entry.accState (x : Entry) (ok : Bool) : AccState :=
  let h := x.matShape
  ⟨h.batch, h.m, h.n, h.int, fld x.word 35 34 == 1, ok⟩

/-- A matrix product that faults: a continuing one after it finds no accumulators of its own (R94, R103). -/
def State.arrayFails (s : State) (e : EngineId) (x : Entry) : State :=
  if opOf x.word = 0x10 then s.modEng e fun g => { g with acc := some (x.accState false) } else s

/-- Whether the shadow registers hold the tile of an instruction that has not run. -/
def Engine.shadowTaken (g : Engine) : Bool :=
  match g.shadow with
  | .tile id _ => g.inflight.any fun y => y.id == id && !y.done
  | _ => false

/-- The shadow weight registers take the stationary operand of the next instruction: tb in WS, ta in IS (R80, R86). -/
def Engine.shadowLoad (g : Engine) (x : Entry) (i : Nat) (t : Tensor) : Engine :=
  let w := x.word
  if opOf w = 0x10 ∧ fld w 35 34 ≠ 1 ∧ i = (if fld w 35 34 = 0 then fld w 33 28 else fld w 27 22) ∧ g.shadowTaken = false then
    { g with shadow := .tile x.id t }
  else g

/-- The read of a tensor operand returned: it joins the instruction, or ends it. -/
def State.deliver (s : State) (e : EngineId) (x : Entry) (i : Nat) (r : Reply) : State :=
  let kv := kvOperand x.word i
  let reads := x.readList i kv
  match s.readRefusal x reads with
  | some ep => s.setEntry e (x.fail .epochSkew ep)
  | none =>
    let s' := s.noteReads e reads
    match x.readBy (s.replyReader e reads r) i kv (slotOf x.word i) with
    | .ok t => (s'.setEntry e { x with operands := x.operands ++ [(i, t)] }).modEng e fun g => g.shadowLoad x i t
    | .error (c, d) => (s'.setEntry e (x.failBy r c d)).arrayFails e x

/-- The outlier list returned (R161, R212): a broken one ends the instruction before any operand is read. -/
def State.deliverList (s : State) (e : EngineId) (x : Entry) : State :=
  let s' := s.noteReads e [(x.listAddr, 264)]
  match s.readSpan (.engine e) x.listAddr 264 with
  | (.ok, b) =>
    if (outlierList b (x.desc (fld x.word 27 22)).n0).isSome then s'.setEntry e { x with raw := [(0, b)] }
    else (s'.setEntry e (x.fail .accessDenied (noDetail .accessDenied x.idx))).arrayFails e x
  | (c, _) => (s'.setEntry e (x.failAt c (blockOf x.listAddr))).arrayFails e x

/-- STREAM_READ_RETURN (R35, R153, R161-R163, R212, R333): the outlier list of an instruction returns, or its next operand; `r` answers reads of
other blocks. -/
def execStreamReadReturn (e : EngineId) (id : Nat) (r : Reply) (s : State) : Out :=
  let g := s.eng e
  needSome (g.inflight.find? fun y => y.id == id) "no such instruction in flight" fun x =>
  need (!x.done && buffered (opOf x.word) && opOf x.word != 0x52 && x.granted && !g.fenced x) "the instruction reads no operand now" <|
  if x.listUnread then need (!s.readsWait x [(x.listAddr, 264)]) "the read waits at its unit" (.next (s.deliverList e x))
  else
    needSome x.unread.head? "every operand has returned" fun i =>
    let reads := x.readList i (kvOperand x.word i)
    need (s.replyFits reads r) "the reply does not answer the reads" <|
    need (!s.readsWait x reads) "a read waits at its unit" (.next (s.deliver e x i r))

/-! ## Drains -/

/-- A failed drain write: logged, and kept for the next waiting instruction (R168). -/
def State.drainFail (s : State) (e : EngineId) (idx : Nat) (c : Code) : State :=
  (s.modEng e fun g => { g with fails := g.fails ++ [c] }).log 0x0103 0x10 e.val 2 c (idx % 16384 + c.toNat * 2 ^ 16) 0x03

/-- One write of an engine: within this block, or sent with the epoch that it carries to another block, whose answer `c` is (R157, R251, R333). -/
def State.drainWrite (s : State) (e : EngineId) (ep : Option Nat) (a : Nat) (b : List Byte) (c : Code) : State × Code :=
  if s.isLocal a then
    match ep.bind fun n => s.epochRefusal e n [(a, b.length)] with
    | some _ => (s, .epochSkew)
    | none => s.writeSpan (.engine e) a b
  else match s.noRoute with
    | some u => (s, u)
    | none => (s.emit (.remoteWrite a b ep), c)

/-- Whether writes wait: at their units, or for an epoch that a unit has staged and not applied. -/
def State.writesWait (s : State) (e : EngineId) (ep : Option Nat) (l : List (Nat × Nat)) : Bool :=
  s.heldReads e l || ep.any fun n => s.epochWait e n l

/-- Put the oldest drain back, or take it out once nothing is left of it. -/
def Engine.setDrain (g : Engine) (d : Drain) : Engine :=
  { g with drains := if d.writes.isEmpty && (d.cap.isNone || d.failed) then g.drains.tail else d :: g.drains.tail }

/-- DRAIN_WRITE_DONE (R35, R166, R168, R333): the next write of the oldest drain completes; `code` answers a write to another block. -/
def execDrainWriteDone (e : EngineId) (code : Code) (s : State) : Out :=
  needSome (s.eng e).drains.head? "nothing drains" fun d =>
  match d.writes with
  | [] => .refused (.notEnabled "every data write of the drain has completed")
  | (a, b) :: rest =>
    need (!s.writesWait e d.epoch [(a, b.length)]) "the write waits at its unit" <|
    let r := s.drainWrite e d.epoch a b code
    let d := { d with writes := rest, failed := d.failed || r.2 != .ok }
    let s := r.1.modEng e fun g => g.setDrain d
    .next (if r.2 = .ok then s else s.drainFail e d.idx r.2)

/-- The record after its update, or the code that leaves it unchanged (R216, R219). -/
def State.recordUpdate (s : State) (e : EngineId) (q : CapReq) (parity : Bool) : Except Code (List Byte) :=
  match s.readSpan (.engine e) q.addr 128 with
  | (.ok, b) =>
    if parity then .error .dataErr
    else if (ScaleRec.of b).valid then .ok ((ScaleRec.of b).update q.op q.cap).bytes else .error .accessDenied
  | (c, _) => .error c

/-- SCALE_RECORD_UPDATE (R216-R219): the last write of a drain whose data all drained with OK. -/
def execScaleRecordUpdate (e : EngineId) (parity : Bool) (s : State) : Out :=
  needSome (s.eng e).drains.head? "nothing drains" fun d =>
  needSome d.cap "the drain names no scale record" fun q =>
  need (d.writes.isEmpty && !d.failed) "the data has not drained" <|
  need (!s.heldSpan (.engine e) q.addr 128) "the update waits at its unit" <|
  let s' := s.modEng e fun g => { g with drains := g.drains.tail }
  match s.recordUpdate e q parity with
  | .ok b => .next ((s'.noteSpan (.engine e) q.addr 128).writeSpan (.engine e) q.addr b).1
  | .error c => .next ((s'.noteSpan (.engine e) q.addr 128).drainFail e d.idx c)

end Sys2Proof.Machine
end

