-- ==== Sys2Proof/Machine/Roundabout.lean ====
section
/-! DEFINITION. The Roundabout: barriers and flags, and the SYNC instructions that use them (R142, R167, R168, R176, R177, R321-R325, R333, R338). -/
namespace Sys2Proof.Machine

/-- The router that the Roundabout sits beside. -/
def rb : Nat := 19

/-- A barrier beside its register. -/
def State.bar (s : State) (b : Fin 64) : Bar := vget s.bars b
def State.setBar (s : State) (b : Fin 64) (x : Bar) : State := { s with bars := vset s.bars b x }

/-- A field of a barrier's register. -/
def State.barGet (s : State) (f : Field) (b : Fin 64) : Nat := s.get f rb b.val
def State.barPut (s : State) (f : Field) (b : Fin 64) (v : Nat) : State := s.put f v rb b.val

/-- The oldest sync instruction of an engine that is not done. -/
def Engine.syncFront (g : Engine) : Option Entry := g.front .sync

/-- Generations compared modulo 2^12 as signed differences (R322). -/
def genReleased (gen g : Nat) : Bool := decide (0 < toSigned 12 (gen + 4096 - g % 4096))

/-- End a sync instruction. -/
def State.syncEnd (s : State) (e : EngineId) (x : Entry) (c : Code) (detail : Nat) : State :=
  s.setEntry e (if c = .ok then x.finish .ok else { x.fail c detail with completed := true })

/-- Whether an engine's instruction waits on a barrier for a generation that has now been released. -/
def waitsReleased (b gen : Nat) (x : Entry) : Bool :=
  opOf x.word == 0x81 && fld x.word 21 16 == b && fld x.word 23 22 != 1 && match x.gen with
    | some g => genReleased gen g
    | none => false

/-- The answer to a request that a reset of its engine overtook: it is discarded and counted (R329). -/
def State.endOrphan (s : State) (e : EngineId) (x : Entry) : State :=
  (s.modEng e fun g => { g with orphans := g.orphans.filter fun y => y.id != x.id }).discardFor e

/-- End the waiting instruction of one engine when a test holds of it, and the waits of that kind that a reset overtook. -/
def State.endWait (s : State) (p : Entry → Bool) (c : Code) (e : EngineId) : State :=
  let s := match (s.eng e).syncFront with
    | some x => if p x then s.syncEnd e x c (noDetail c x.idx) else s
    | none => s
  ((s.eng e).orphans.filter p).foldl (fun s x => s.endOrphan e x) s

/-- End every waiting instruction for which a test holds. -/
def State.endWaits (s : State) (p : Entry → Bool) (c : Code) : State := (List.finRange 80).foldl (fun s e => s.endWait p c e) s

/-- One release of a barrier (R322). -/
def State.releaseBar (s : State) (b : Fin 64) : State :=
  let x := s.bar b
  let gen := s.barGet F.AV_BAR_CFG.gen b
  let s := x.children.foldl (fun s c => s.sendBar c b.val 1 gen) s
  let s := s.setBar b ⟨0, [], false⟩
  let s := s.barPut F.AV_BAR_CFG.gen b (gen + 1)
  let s := s.barPut F.AV_BAR_CFG.arrived b x.next
  let s := s.barPut F.AV_BAR_CFG.child_arrived b 0
  s.endWaits (waitsReleased b.val ((gen + 1) % 4096)) .ok

/-- Whether the current generation has all its arrivals (R321). -/
def State.barComplete (s : State) (b : Fin 64) : Bool :=
  s.barGet F.AV_BAR_CFG.enable b == 1 && s.barGet F.AV_BAR_CFG.arrived b == s.barGet F.AV_BAR_CFG.local b
    && s.barGet F.AV_BAR_CFG.child_arrived b == s.barGet F.AV_BAR_CFG.children b

/-- Send the arrival to the parent, or release, and again while the new generation is already complete (R321, R322). -/
def State.tryRelease (s : State) (b : Fin 64) : Nat → State
  | 0 => s
  | fuel + 1 =>
    if s.barComplete b then
      if s.barGet F.AV_BAR_CFG.has_parent b = 1 then
        if (s.bar b).parentSent then s
        else (s.setBar b { s.bar b with parentSent := true }).sendBar (s.barGet F.AV_BAR_CFG.parent b) b.val 0 (s.barGet F.AV_BAR_CFG.gen b)
      else (s.releaseBar b).tryRelease b fuel
    else s

/-- Advance a barrier after a change: at most two generations can be complete at once. -/
def State.barAdvance (s : State) (b : Fin 64) : State := s.tryRelease b 2

/-- The generation that an engine's arrivals at a barrier were last counted toward. -/
def Engine.arrivedAt (g : Engine) (b : Nat) : Option Nat := (g.arrivals.find? fun p => p.1 == b).map Prod.snd

/-- Record an arrival. -/
def Engine.noteArrival (g : Engine) (b gen : Nat) : Engine := { g with arrivals := (b, gen) :: g.arrivals.filter fun p => p.1 != b }

/-- The Roundabout's check of an epoch (R333): router 19 and the Roundabout are one unit (R331). -/
def State.roundaboutCheck (s : State) (epoch : Nat) : EpochCheck := epochCheck epoch (s.get F.AV_EPOCH.applied rb) (s.get F.AV_EPOCH.staged rb)

/-- What an engine's accesses of an entry address: whether any range lies in a fence's scope (R176). -/
def State.inScope (s : State) (e : EngineId) (scope : Nat) (r : Rng) : Bool :=
  let loc := s.isLocal (r.space * 2 ^ 48)
  let within (unit n : Nat) : Bool := decide (r.lo / unit ≤ n) && decide (n ≤ r.hi / unit)
  match scope with
  | 0 => loc && match r.space % 16 with
    | 0 => within 0xC0000000 e.val
    | 1 => within (2 ^ 32) e.val
    | 2 => within (2 ^ 26) (columnOf e).val
    | 3 => within (2 ^ 25) e.val
    | _ => false
  | 1 => loc
  | _ => true

/-- Every byte that a drain still counts for: the range of its destination until it has finished, and its scale record, which it updates last (R167,
R217, R218). -/
def Drain.cover (d : Drain) : List Rng := d.rngs ++ d.cap.toList.map fun q => Rng.at q.addr 128

/-- Whether every earlier access within a scope, drains included, has completed (R167, R176). -/
def State.fenceClear (s : State) (e : EngineId) (x : Entry) (scope : Nat) : Bool :=
  let g := s.eng e
  ((g.inflight.takeWhile fun y => y.id != x.id).all fun y => y.completed || !touchesMemory (opOf y.word) || y.unit == .bau
      || !((y.srcRanges ++ y.dstRanges).any fun r => s.inScope e scope r))
    && g.drains.all fun d => decide (x.id < d.id) || !d.cover.any fun r => s.inScope e scope r

/-- Sync instruction at the front of its queue, with this opcode. -/
def State.syncOp (s : State) (e : EngineId) (op : Nat) (k : Entry → Out) : Out :=
  needSome (s.eng e).syncFront "the sync queue is empty" fun x =>
  need (opOf x.word == op) "another instruction is at the front of the queue" <|
  need (s.regionOn e && !(s.eng e).inReset) "the engine does not run" (k x)

/-- SYNC_FENCE (R168, R176). -/
def execSyncFence (e : EngineId) (s : State) : Out :=
  s.syncOp e 0x80 fun x =>
  need (s.fenceClear e x (fld x.word 17 16)) "an earlier access has not completed" <|
  let r := (s.eng e).takeFail
  .next ((s.setEng e r.1).syncEnd e x r.2 (noDetail r.2 x.idx))

/-- The implicit fence of an arrival and of a flag change: global scope, delivering drain failures (R167, R168, R177). -/
def State.implicitFence (s : State) (e : EngineId) (x : Entry) (k : State → Out) : Out :=
  need (s.fenceClear e x 2) "an earlier access has not completed" <|
  let r := (s.eng e).takeFail
  let s := s.setEng e r.1
  if r.2 = .ok then k s else .next (s.syncEnd e x r.2 (noDetail r.2 x.idx))

/-- Check the epoch that a sync instruction carries, then go on (R333). -/
def State.syncEpoch (s : State) (e : EngineId) (x : Entry) (k : Out) : Out :=
  match s.roundaboutCheck x.epoch with
  | .proceed => k
  | .wait => .refused (.notEnabled "the Roundabout has not applied the epoch")
  | .skew a => .next (s.syncEnd e x .epochSkew a)

/-- A barrier's number. -/
def barId (x : Entry) : Fin 64 := ⟨fld x.word 21 16 % 64, Nat.mod_lt _ (by decide)⟩

/-- Wait for a generation, or end at once when it has been released or the barrier is broken (R322, R323). -/
def State.barWait (s : State) (e : EngineId) (x : Entry) (gen : Nat) : State :=
  let b := barId x
  if s.barGet F.AV_BAR_CFG.broken b = 1 then s.syncEnd e x .linkDown (noDetail .linkDown x.idx)
  else if genReleased (s.barGet F.AV_BAR_CFG.gen b) gen then s.syncEnd e x .ok 0
  else s.setEntry e { x with sent := true, gen := some gen }

/-- SYNC_BAR (R167, R177, R322, R323, R333): the arrival leaves for the Roundabout, or the wait begins. -/
def execSyncBar (e : EngineId) (s : State) : Out :=
  s.syncOp e 0x81 fun x =>
  need (!x.sent) "the arrival is on its way, or the wait has begun" <|
  if fld x.word 23 22 = 2 then
    match (s.eng e).arrivedAt (barId x).val with
    | none =>
      -- a later SYNC.BAR on a broken barrier completes with LINK_DOWN in every mode (R323)
      if s.barGet F.AV_BAR_CFG.broken (barId x) = 1 then .next (s.syncEnd e x .linkDown (noDetail .linkDown x.idx)) else .next (s.syncEnd e x .ok 0)
    | some g => s.syncEpoch e x (.next (s.barWait e x g))
  else s.implicitFence e x fun s => .next (s.setEntry e { x with sent := true })

/-- Count an arrival toward the current or the next generation (R322): the counted generation, or none when both are full. -/
def State.countArrival (s : State) (b : Fin 64) : Option (State × Nat) :=
  let loc := s.barGet F.AV_BAR_CFG.local b
  let gen := s.barGet F.AV_BAR_CFG.gen b
  if s.barGet F.AV_BAR_CFG.arrived b < loc then some (s.barPut F.AV_BAR_CFG.arrived b (s.barGet F.AV_BAR_CFG.arrived b + 1), gen)
  else if s.barGet F.AV_BAR_CFG.arrived b = loc ∧ (s.bar b).next < loc then
    some (s.setBar b { s.bar b with next := (s.bar b).next + 1 }, (gen + 1) % 4096)
  else none

/-- An arrival at the Roundabout, after its epoch check. -/
def State.arrive (s : State) (e : EngineId) (x : Entry) : State :=
  let b := barId x
  if s.barGet F.AV_BAR_CFG.broken b = 1 then s.syncEnd e x .linkDown (noDetail .linkDown x.idx)
  else match s.countArrival b with
    | none => s.syncEnd e x .accessDenied (noDetail .accessDenied x.idx)
    | some (s, gen) =>
      let s := s.modEng e fun g => g.noteArrival b.val gen
      let s := if fld x.word 23 22 = 1 then s.syncEnd e x .ok 0 else s.setEntry e { x with gen := some gen }
      s.barAdvance b

/-- An arrival that a reset of its engine overtook is counted all the same, and its answer is discarded (R329). -/
def State.arriveLate (s : State) (e : EngineId) (x : Entry) : State :=
  let b := barId x
  if s.barGet F.AV_BAR_CFG.broken b = 1 then s.endOrphan e x
  else match s.countArrival b with
    | none => s.endOrphan e x
    | some (s, gen) =>
      let s := if fld x.word 23 22 = 1 then s.endOrphan e x
        else s.modEng e fun g => { g with orphans := g.orphans.map fun y => if y.id = x.id then { y with gen := some gen } else y }
      s.barAdvance b

/-- The epoch check of a request that a reset overtook (R329, R333). -/
def State.orphanEpoch (s : State) (e : EngineId) (x : Entry) (k : State) : Out :=
  match s.roundaboutCheck x.epoch with
  | .proceed => .next k
  | .wait => .refused (.notEnabled "the Roundabout has not applied the epoch")
  | .skew _ => .next (s.endOrphan e x)

/-- An arrival on its way to the Roundabout. -/
def arriving (x : Entry) : Bool := opOf x.word == 0x81 && x.sent && x.gen.isNone && fld x.word 23 22 != 2

/-- BARRIER_ARRIVAL (R322, R329, R333): the Roundabout counts an engine's arrival and answers it; one that a reset overtook comes first. -/
def execBarrierArrival (e : EngineId) (s : State) : Out :=
  match (s.eng e).orphans.find? arriving with
  | some x => s.orphanEpoch e x (s.arriveLate e x)
  | none =>
    s.syncOp e 0x81 fun x =>
    need (x.sent && x.gen.isNone && fld x.word 23 22 != 2) "no arrival of the engine is on its way" <|
    s.syncEpoch e x (.next (s.arrive e x))

/-- CHILD_ARRIVAL (R321, R322). -/
def execChildArrival (b : Fin 64) (child : BlockId) (s : State) : Out :=
  let s := s.setBar b { s.bar b with children := (s.bar b).children ++ [child.toNat] }
  .next ((s.barPut F.AV_BAR_CFG.child_arrived b (s.barGet F.AV_BAR_CFG.child_arrived b + 1)).barAdvance b)

/-- PARENT_RELEASE (R321, R322): the release message for the waiting generation arrives. -/
def execParentRelease (b : Fin 64) (_gen : BitVec 12) (s : State) : Out :=
  need ((s.bar b).parentSent && s.barComplete b) "no generation of the barrier waits for its parent" <|
  .next ((s.releaseBar b).barAdvance b)

/-- A write of `AV_BAR_CFG` (R321, R323, R338): enable is judged as it stood before the write. -/
def State.writeBarCfg (s : State) (b : Fin 64) (n : Nat) : State :=
  let was := s.barGet F.AV_BAR_CFG.enable b
  let s := if was = 1 then s
    else (((s.barPut F.AV_BAR_CFG.has_parent b (nbits n 49 49)).barPut F.AV_BAR_CFG.parent b (nbits n 48 37)).barPut F.AV_BAR_CFG.children b
      (nbits n 36 26)).barPut F.AV_BAR_CFG.local b (min (nbits n 25 19) 80)
  let s := if nbit n 50 then s.barPut F.AV_BAR_CFG.broken b 0 else s
  let on := nbits n 51 51 = 1 ∧ ¬(s.barGet F.AV_BAR_CFG.local b = 0 ∧ s.barGet F.AV_BAR_CFG.children b = 0)
  let s := s.barPut F.AV_BAR_CFG.enable b (b2n (decide on))
  let s := if on then s
    else if was = 1 then ((s.barPut F.AV_BAR_CFG.arrived b 0).barPut F.AV_BAR_CFG.child_arrived b 0).setBar b ⟨0, [], false⟩
    else s
  s.barAdvance b

/-- AV_BAR_CFG_WRITE (R321, R323, R338). -/
def execAvBarCfgWrite (b : Fin 64) (v : Word) (s : State) : Out := .next (s.writeBarCfg b v.toNat)

/-! ## Flags -/

/-- The value of a flag: `AV_FLAG_SETi` and `AV_FLAG_CLRi` show the same bits (R338). -/
def State.flag (s : State) (f : Nat) : Bool := nbit (s.reg R.AV_FLAG_SET rb (f / 64)) (f % 64)

/-- Whether a flag's group is remote, and its home (R324). -/
def State.flagRemote (s : State) (f : Nat) : Bool := nbit (s.reg R.AV_FLAG_HOME rb (f / 64)) (16 * (f / 16 % 4) + 15)
def State.flagHome (s : State) (f : Nat) : Nat := getBits (s.reg R.AV_FLAG_HOME rb (f / 64)) (16 * (f / 16 % 4)) 12

/-- Whether an instruction waits in the Roundabout for a flag to hold a value. -/
def waitsFlag (f : Nat) (v : Bool) (x : Entry) : Bool :=
  opOf x.word == 0x82 && fld x.word 23 16 == f && fld x.word 25 24 == (if v then 2 else 3) && x.sent

/-- A flag takes a value, and the matching watches are answered in the order in which they arrived (R324, R325). -/
def State.setFlag (s : State) (f : Nat) (v : Bool) : State :=
  let i := f / 64
  let w := putBits (s.reg R.AV_FLAG_SET rb i) (f % 64) 1 (b2n v)
  let s := (s.setReg R.AV_FLAG_SET w rb i).setReg R.AV_FLAG_CLR w rb i
  let hit := s.watches.filter fun x => x.flag == f && x.forSet == v
  let s := { s with watches := s.watches.filter fun x => !(x.flag == f && x.forSet == v) }
  let s := hit.foldl (fun s x => s.sendFlg x.block f 4 x.tag) s
  if s.flagRemote f then s else s.endWaits (waitsFlag f v) .ok

/-- The instruction with which an engine changes a local flag, once it is on its way. -/
def changesFlag (f : Nat) (set : Bool) (x : Entry) : Bool :=
  opOf x.word == 0x82 && fld x.word 23 16 == f && fld x.word 25 24 == (if set then 0 else 1) && x.sent

/-- The check of the epoch that a message of another block carries (R333): a message on another epoch is refused with EPOCH_SKEW, in an answer that
carries the Roundabout's applied epoch (log entry 78). -/
def State.messageEpoch (s : State) (b : BlockId) (f : Fin 256) (m : FlagMsg) (k : State) : Out :=
  match m.epoch with
  | none => .next k
  | some ep => match s.roundaboutCheck ep.toNat with
    | .proceed => .next k
    | .wait => .refused (.notEnabled "the Roundabout has not applied the epoch")
    | .skew a => .next (s.sendOut none { s.flgPkt b.toNat f.val 4 m.tag.toNat with epoch := BitVec.ofNat 32 a, epochValid := true })

/-- A change of a flag by an engine's instruction, a control core or another block, which hears that it is made (R324, R333). -/
def State.flagChange (s : State) (f : Fin 256) (who : Requester) (m : FlagMsg) (set : Bool) : Out :=
  match who with
  | .engine e =>
    need (!s.flagRemote f.val) "the change is on its way to the home of the flag" <|
    match (s.eng e).orphans.find? (changesFlag f.val set) with
    | some x => s.orphanEpoch e x ((s.endOrphan e x).setFlag f.val set)
    | none =>
      needSome (s.eng e).syncFront "no change of the flag is on its way" fun x =>
      need (changesFlag f.val set x) "no change of the flag is on its way" <|
      s.syncEpoch e x (.next ((s.syncEnd e x .ok 0).setFlag f.val set))
  | .remote b => s.messageEpoch b f m ((s.setFlag f.val set).sendFlg b.toNat f.val 4 m.tag.toNat)
  | .core _ => .next (s.setFlag f.val set)

/-- FLAG_SET (R324, R325, R333). -/
def execFlagSet (f : Fin 256) (who : Requester) (m : FlagMsg) (s : State) : Out := s.flagChange f who m true

/-- FLAG_CLEAR (R324, R325, R333). -/
def execFlagClear (f : Fin 256) (who : Requester) (m : FlagMsg) (s : State) : Out := s.flagChange f who m false

/-- The message of an instruction to the home of its flag: the epoch of its issue, and its engine as the tag (R324, R333; log entry 77). -/
def State.flagMessage (s : State) (e : EngineId) (x : Entry) : Pkt :=
  let f := fld x.word 23 16
  { s.flgPkt (s.flagHome f) f (fld x.word 25 24) e.val with epoch := BitVec.ofNat 32 x.epoch, epochValid := true }

/-- A message leaves for the home of a flag; where the home is lost or no route leads there, the instruction ends with LINK_DOWN (R157, R325, R354). -/
def State.askHome (s : State) (e : EngineId) (x : Entry) : State :=
  let k := s.flagMessage e x
  if s.route none k = .none then s.syncEnd e x .linkDown (s.flagHome (fld x.word 23 16))
  else (s.setEntry e { x with sent := true, gen := none }).sendOut none k

/-- SYNC_FLAG (R167, R177, R324, R325, R333): a change leaves for the Roundabout or for the home block; a wait begins, or ends at once when the flag
holds the value. -/
def execSyncFlag (e : EngineId) (s : State) : Out :=
  s.syncOp e 0x82 fun x =>
  need (!x.sent) "the change is on its way, or the wait has begun" <|
  let f := fld x.word 23 16
  let op := fld x.word 25 24
  let v := op % 2 == 0
  if op < 2 then s.implicitFence e x fun s => if s.flagRemote f then .next (s.askHome e x) else .next (s.setEntry e { x with sent := true })
  else if s.flagRemote f then .next (s.askHome e x)
  else s.syncEpoch e x (if s.flag f = v then .next (s.syncEnd e x .ok 0) else .next (s.setEntry e { x with sent := true }))

/-- FLAG_WATCH (R324, R325, R333). -/
def execFlagWatch (f : Fin 256) (who : BlockId) (forSet : Bool) (m : FlagMsg) (s : State) : Out :=
  s.messageEpoch who f m <|
    if s.flag f.val = forSet then s.sendFlg who.toNat f.val 4 m.tag.toNat
    else if 256 ≤ s.watches.length then s.emit (.watchRefused who.toNat f.val m.tag.toNat)
    else { s with watches := s.watches ++ [⟨f.val, who.toNat, forSet, m.tag.toNat⟩] }

/-- An engine's instruction on a remote flag whose message stands out. -/
def remoteAsk (f : Nat) (x : Entry) : Bool := opOf x.word == 0x82 && fld x.word 23 16 == f && x.sent

/-- FLAG_ANSWER (R324, R325, R329, R333): the home block's answer to an engine's message, or to one that a reset overtook. Only a watch can be
refused. -/
def execFlagAnswer (f : Fin 256) (e : EngineId) (a : FlagAns) (s : State) : Out :=
  match (s.eng e).orphans.find? fun x => remoteAsk f.val x && x.gen.isNone with
  | some x => .next (s.endOrphan e x)
  | none =>
    needSome (s.eng e).syncFront "the engine waits for no flag" fun x =>
    need (s.flagRemote f.val && remoteAsk f.val x && x.gen.isNone) "no message of the engine stands out" <|
    match a with
    | .done => .next (s.syncEnd e x .ok 0)
    | .skew n => .next (s.syncEnd e x .epochSkew n.toNat)
    | .refused => need (decide (2 ≤ fld x.word 25 24)) "a change is never refused" (.next (s.setEntry e { x with gen := some 0 }))

/-- WATCH_RETRY (R325): a refused watch is sent again. -/
def execWatchRetry (f : Fin 256) (e : EngineId) (s : State) : Out :=
  needSome (s.eng e).syncFront "the engine waits for no flag" fun x =>
  need (s.flagRemote f.val && remoteAsk f.val x && x.gen.isSome) "no watch of the engine was refused" <|
  .next (s.askHome e x)

/-- Change the flags of a register one by one, lowest first (R325). -/
def State.setFlags (s : State) (i w : Nat) (v : Bool) : State :=
  (List.range 64).foldl (fun s j => if nbit w j then s.setFlag (64 * i + j) v else s) s

/-- AV_FLAG_SET_WRITE (R338). -/
def execAvFlagSetWrite (i : Fin 4) (v : Word) (s : State) : Out := .next (s.setFlags i.val v.toNat true)

/-- AV_FLAG_CLR_WRITE (R338). -/
def execAvFlagClrWrite (i : Fin 4) (v : Word) (s : State) : Out := .next (s.setFlags i.val v.toNat false)

/-- SYNC_EPOCH (R142). -/
def execSyncEpoch (e : EngineId) (s : State) : Out :=
  s.syncOp e 0x83 fun x =>
  need (decide (0 ≤ toSigned 32 (s.get F.ENG_EPOCH.applied e.val + 2 ^ 32 - fld x.word 47 16))) "the epoch has not been applied" <|
  .next (s.syncEnd e x .ok 0)

/-- The loss of a block breaks the barriers that await it (R323). -/
def State.breakBarrier (s : State) (lost : Nat) (b : Fin 64) : State :=
  let parent := s.barGet F.AV_BAR_CFG.has_parent b = 1 ∧ s.barGet F.AV_BAR_CFG.parent b = lost
  if parent ∨ (s.bar b).children.contains lost then
    let s := if s.barGet F.AV_BAR_CFG.broken b = 1 then s else (s.barPut F.AV_BAR_CFG.broken b 1).log 0x0404 0x12 rb 2 .linkDown (b.val + lost * 2 ^ 16)
    s.endWaits (fun x => opOf x.word == 0x81 && fld x.word 21 16 == b.val && x.sent && x.gen.isSome) .linkDown
  else s

/-- Every barrier hears of a lost block, and its watches are dropped (R323, R325). -/
def State.roundaboutLost (s : State) (lost : Nat) : State :=
  let s := (List.finRange 64).foldl (fun s b => s.breakBarrier lost b) s
  { s with watches := s.watches.filter fun w => w.block != lost }

end Sys2Proof.Machine
end

