-- ==== Sys2Proof/Machine/Epochs.lean ====
section
/-! DEFINITION. The applied-epoch vector (R331, R334, R335, R338). -/
namespace Sys2Proof.Machine

/-- The committed epoch. -/
def State.committed (s : State) : Nat := s.get F.AV_EPOCH_STATUS.committed rb

/-- The bit of a unit in the vector (R334). -/
def State.unitApplied (s : State) (u : Nat) : Bool := nbit (s.reg R.AV_APPLIED rb (u / 64)) (u % 64)

/-- `AV_EPOCH_STATUS.all` follows the vector. -/
def State.refreshAll (s : State) : State :=
  s.put F.AV_EPOCH_STATUS.all (b2n ((List.range 208).all fun u => s.unitApplied u)) rb

/-- Set the bit of a unit, and the summary follows. -/
def State.putApplied (s : State) (u : Nat) (b : Bool) : State :=
  (s.setReg R.AV_APPLIED (putBits (s.reg R.AV_APPLIED rb (u / 64)) (u % 64) 1 (b2n b)) rb (u / 64)).refreshAll

/-- The epochs of a unit: the field of its applied or staged epoch, and the instance. -/
def unitField (applied : Bool) (u : Nat) : Field × Nat :=
  if u < 80 then (if applied then F.ENG_EPOCH.applied else F.ENG_EPOCH.staged, u)
  else if u < 160 then (if applied then F.BAU_EPOCH.applied else F.BAU_EPOCH.staged, u - 80)
  else if u < 200 then (if applied then F.AV_EPOCH.applied else F.AV_EPOCH.staged, u - 160)
  else (if applied then F.PL_EPOCH.applied else F.PL_EPOCH.staged, u - 200)

/-- A unit's applied and staged epochs. -/
def State.appliedOf (s : State) (u : Nat) : Nat := let p := unitField true u; s.get p.1 p.2
def State.stagedOf (s : State) (u : Nat) : Nat := let p := unitField false u; s.get p.1 p.2

/-- A unit writes its applied epoch: its staged one (R332). -/
def State.noteApplied (s : State) (u : Nat) : State :=
  let p := unitField true u
  let s := s.put p.1 (s.stagedOf u) p.2
  if s.appliedOf u = s.committed then s.putApplied u true else s

/-- A unit that is in reset or mapped out counts as applied (R335). -/
def State.unitOut (s : State) (u : Nat) : Bool :=
  match engineOf? u, engineOf? (u - 80), squareOf? (u - 160) with
  | some e, _, _ => (s.eng e).inReset || (s.eng e).mappedOut
  | none, some e, _ => (s.eng e).dramOut
  | none, none, some k => s.on F.SQ_STATUS.mapped_out k.val
  | none, none, none => false

end Sys2Proof.Machine
end

