-- ==== Sys2Proof/Machine/Control.lean ====
section
/-! DEFINITION. The instructions that the sequencer executes in the cycle of issue: control flow, scalars, descriptors, hints and configuration
(R108, R110, R123, R124, R127-R130, R136, R140, R143, R169). -/
namespace Sys2Proof.Machine

/-- The sequencer instruction that waits for its effect, when it has this opcode. -/
def State.seqOp (s : State) (e : EngineId) (op : Nat) (k : Entry → Out) : Out :=
  needSome ((s.eng e).front .seq) "no sequencer instruction waits" fun x =>
  need (opOf x.word == op) "another instruction waits" (k x)

/-- Complete a sequencer instruction. -/
def State.seqDone (s : State) (e : EngineId) (x : Entry) (c : Code) : State :=
  s.setEntry e (x.finish c (if c = .ok then 0 else noDetail c x.idx))

/-- Write an S register and complete. -/
def State.setS (s : State) (e : EngineId) (i : Nat) (v : Word) : State := s.modEng e fun g => { g with s := sSet g.s i v }

/-- CTL_NOP (R122). -/
def execCtlNop (e : EngineId) (s : State) : Out := s.seqOp e 0x00 fun x => .next (s.seqDone e x .ok)

/-- CTL_BR (R127). -/
def execCtlBr (e : EngineId) (s : State) : Out := s.seqOp e 0x01 fun x => .next ((s.seqDone e x .ok).setPc e (fld x.word 29 16))

/-- The count of CTL.LOOP: none when S[scount] exceeds 32 bits (R128). -/
def loopCount (x : Entry) : Option Nat :=
  if bitOf x.word 37 then
    let n := (sGet x.sr (fld x.word 36 32)).toNat
    if n ≤ 0xFFFFFFFF then some n else none
  else some (fld x.word 69 38)

/-- Write a loop register. -/
def Engine.setL (g : Engine) (i : Nat) (r : LoopReg) : Engine := { g with l := vset g.l (lIdx i) r }

/-- CTL_LOOP (R128): a caught refusal goes on at end + 1. -/
def execCtlLoop (e : EngineId) (s : State) : Out :=
  s.seqOp e 0x02 fun x =>
  let stop := fld x.word 31 18
  match loopCount x with
  | none => .next ((s.seqDone e x .accessDenied).setPc e (stop + 1))
  | some 0 => .next ((s.seqDone e x .ok).setPc e (stop + 1))
  | some n => .next (((s.seqDone e x .ok).modEng e fun g => g.setL (fld x.word 17 16) ⟨n, x.idx + 1, stop⟩).setPc e (x.idx + 1))

/-- CTL_ENDL (R127, R128): the counter is unsigned and of 32 bits. -/
def execCtlEndl (e : EngineId) (s : State) : Out :=
  s.seqOp e 0x03 fun x =>
  let i := fld x.word 17 16
  let r := vget (s.eng e).l (lIdx i)
  if r.stop = x.idx then
    let n := (r.count + 2 ^ 32 - 1) % 2 ^ 32
    .next (((s.seqDone e x .ok).modEng e fun g => g.setL i { r with count := n }).setPc e (if n = 0 then x.idx + 1 else r.start))
  else .next (s.seqDone e x .accessDenied)

/-- CTL_YIELD (R135, R136): after a yield that issued in SUSPENDING nothing more issues, and YIELD_SUSPEND retires it; any other one retires under
R109 and records its tag, whatever command came since its issue. -/
def execCtlYield (e : EngineId) (s : State) : Out :=
  s.seqOp e 0x04 fun x =>
  if (s.eng e).yieldAt = some x.idx then .next (s.setEntry e { x with done := true })
  else .next (s.setEntry e { x.finish .ok with sent := true })

/-- CTL_PHASE (R140): the hint waits 1 µs for a later one of the engine. -/
def execCtlPhase (e : EngineId) (s : State) : Out :=
  s.seqOp e 0x05 fun x =>
  .next ((s.seqDone e x .ok).announce e (fld x.word 17 16) (fld x.word 25 18) (fld x.word 41 26))

/-- CTL_SETS (R123). -/
def execCtlSets (e : EngineId) (s : State) : Out :=
  s.seqOp e 0x08 fun x => .next ((s.seqDone e x .ok).setS e (fld x.word 20 16) (BitVec.ofNat 64 (fld x.word 84 21)))

/-- The scalar functions of CTL.ALU (R124). -/
def aluFn (fn : Nat) (a b : Word) (l : Nat) : Word :=
  match fn with
  | 0 => a + b
  | 1 => a - b
  | 2 => a * b
  | 3 => a &&& b
  | 4 => a ||| b
  | 5 => a ^^^ b
  | 6 => if 64 ≤ b.toNat then 0#64 else a <<< b.toNat
  | 7 => if 64 ≤ b.toNat then 0#64 else a >>> b.toNat
  | 8 => a.sshiftRight (min b.toNat 64)
  | 9 => if a.slt b then a else b
  | 10 => if a.slt b then b else a
  | _ => BitVec.ofNat 64 l

/-- The second operand: a sign-extended immediate, or a register (R123). -/
def immOr (x : Entry) (use : Bool) (hi lo r : Nat) : Word := if use then BitVec.ofInt 64 (toSigned 32 (fld x.word hi lo)) else sGet x.sr r

/-- CTL_ALU (R124). -/
def execCtlAlu (e : EngineId) (s : State) : Out :=
  s.seqOp e 0x09 fun x =>
  let w := x.word
  let v := aluFn (fld w 19 16) (sGet x.sr (fld w 29 25)) (immOr x (bitOf w 35) 67 36 (fld w 34 30)) (vget (s.eng e).l (lIdx (fld w 29 25))).count
  .next ((s.seqDone e x .ok).setS e (fld w 24 20) v)

/-- CTL_CMP (R124). -/
def execCtlCmp (e : EngineId) (s : State) : Out :=
  s.seqOp e 0x0A fun x =>
  let w := x.word
  let r := (cmpCond (fld w 21 19) (sGet x.sr (fld w 26 22)) (immOr x (bitOf w 32) 64 33 (fld w 31 27))).getD false
  .next ((s.seqDone e x .ok).modEng e fun g => { g with p := pSet g.p (fld w 18 16) r })

/-- Write a T register. -/
def Engine.setT (g : Engine) (i : Nat) (v : TDesc) : Engine := { g with t := vset g.t ⟨i % 64, Nat.mod_lt _ (by decide)⟩ v }

/-- CTL_TSET (R123). -/
def execCtlTset (e : EngineId) (s : State) : Out :=
  s.seqOp e 0x0B fun x =>
  let w := x.word
  let td := fld w 21 16
  .next ((s.seqDone e x .ok).modEng e fun g =>
    g.setT td (BitVec.ofNat 256 (putBits (tGet g.t td).toNat (64 * fld w 23 22) 64 (sGet x.sr (fld w 28 24)).toNat)))

/-- CTL_TADV (R122). -/
def execCtlTadv (e : EngineId) (s : State) : Out :=
  s.seqOp e 0x0C fun x =>
  let w := x.word
  let td := fld w 21 16
  let off := immOr x (bitOf w 27) 59 28 (fld w 26 22)
  .next ((s.seqDone e x .ok).modEng e fun g =>
    let t := (tGet g.t td).toNat
    g.setT td (BitVec.ofNat 256 (putBits t 0 64 (nbits t 63 0 + off.toNat))))

/-- Whether every broadcast of the engine has finished in every bank (R130, R136, R288). -/
def Engine.bauIdle (g : Engine) : Bool := g.bcs.isEmpty

/-- The first undelivered failure that an ending program meets: of a drain (R168), else of a broadcast (R308). -/
def Engine.takeEnd (g : Engine) : Engine × Code × Nat :=
  match g.fails, g.bauErrs with
  | [], [] => (g, .ok, 0)
  | [], (_, _, c, core) :: _ => ({ g with bauErrs := [] }, c, core)
  | c :: _, _ => ({ g with fails := [] }, c, 0)

/-- CTL_HALT (R130, R134, R136, R167, R168, R308): it retires after everything earlier, drains and broadcasts included. -/
def execCtlHalt (e : EngineId) (s : State) : Out :=
  s.seqOp e 0x07 fun x =>
  let g := s.eng e
  need (g.inflight.head? == some x && g.drained && g.bauIdle) "an earlier instruction, drain or broadcast has not finished" <|
  let r := g.takeEnd
  match r.2.1 with
  | .ok =>
    let s := s.setEng e { r.1.retire (x.finish .ok) with yieldAt := none }
    .next ((s.put F.ENG_STATUS.last_code 0 e.val).enterState e 6 true)
  | c => .next (s.setEng e (r.1.setEntry (x.finish c (if g.fails.isEmpty then r.2.2 else noDetail c x.idx))))

/-- Units that a configuration item governs (R143). -/
def governs (item : Nat) (u : Unt) : Bool :=
  match item with
  | 0 => u == .sfn
  | 1 => u == .stream || u == .sync
  | 2 => u == .stream
  | _ => false

/-- The stored value of a configuration item, or none when it sets a bit that the item does not define (R143, R169). -/
def cfgStore (item v : Nat) : Option Nat :=
  match item with
  | 0 => if v / 2 = 0 then some v else none
  | 1 => if v / 2 ^ 20 = 0 then some (if v = 0 then 1000 else v) else none
  | 2 => if v / 16 = 0 ∧ v / 4 ≠ 3 then some v else none
  | _ => none

/-- CFG_SET (R143, R169). -/
def execCfgSet (e : EngineId) (s : State) : Out :=
  s.seqOp e 0x90 fun x =>
  let item := fld x.word 18 16
  need ((s.eng e).inflight.all fun y => !governs item y.unit || y.completed) "an earlier instruction of a governed unit has not completed" <|
  match cfgStore item (sGet x.sr (fld x.word 23 19)).toNat with
  | some v => .next ((s.seqDone e x .ok).modEng e fun g =>
      { g with cfg := vset g.cfg ⟨item % 8, Nat.mod_lt _ (by decide)⟩ (BitVec.ofNat 64 v) })
  | none => .next (s.seqDone e x .accessDenied)

/-- CFG_GET (R143). -/
def execCfgGet (e : EngineId) (s : State) : Out :=
  s.seqOp e 0x91 fun x =>
  .next ((s.seqDone e x .ok).setS e (fld x.word 23 19) (cGet (s.eng e).cfg (fld x.word 18 16)))

end Sys2Proof.Machine
end

