-- ==== Sys2Proof/Machine/Moves.lean ====
section
/-! DEFINITION. Stream instructions: scalar loads and stores, page loads, copies and multicasts, and the time limit of remote accesses
(R107, R111, R126, R129, R133, R142, R149, R154, R157, R164, R172-R174, R333). -/
namespace Sys2Proof.Machine

/-- An address that an engine's scalar access may not name: misaligned, or control space (R133). -/
def scalarDenied (a : Nat) : Bool := a % 8 != 0 || selOf a == 15

/-- End a stream instruction with a code and the block that it aimed at; a skew of another block's unit leaves that unit's epoch (R147). -/
def State.moveEnd (s : State) (e : EngineId) (x : Entry) (r : Reply) (c : Code) (a : Nat) : State :=
  s.setEntry e { x.failBy r c (blockOf a) with completed := true }

/-- Read through a reader that answers accesses of other blocks from a reply. -/
def State.readVia (s : State) (e : EngineId) (a n : Nat) (r : Reply) : Code × List Byte := s.replyReader e [(a, n)] r a n

/-- CTL_LDS (R110, R111, R133): `r` answers a read of another block; a later instruction that has written the register keeps its value there. -/
def execCtlLds (e : EngineId) (r : Reply) (s : State) : Out :=
  s.unitOp e .stream 0x0D fun x =>
  let a := (sGet x.sr (fld x.word 25 21)).toNat
  need (s.replyFits [(a, 8)] r) "the reply does not answer the read" <|
  if scalarDenied a then .next (s.moveEnd e x r .accessDenied a)
  else
    need (!s.heldReads e [(a, 8)]) "the read waits at its unit" <|
    let s' := s.noteReads e [(a, 8)]
    match s.readVia e a 8 r with
    | (.ok, b) =>
      let s' := s'.setEntry e (x.finish .ok)
      .next (if (s.eng e).overwritten x (fld x.word 20 16) then s' else s'.setS e (fld x.word 20 16) (BitVec.ofNat 64 (leNat b)))
    | (c, _) => .next (s'.moveEnd e x r c a)

/-- CTL_STS (R111, R133): `r` answers a write to another block. -/
def execCtlSts (e : EngineId) (r : Reply) (s : State) : Out :=
  s.unitOp e .stream 0x0E fun x =>
  let a := (sGet x.sr (fld x.word 25 21)).toNat
  if scalarDenied a then .next (s.moveEnd e x r .accessDenied a)
  else
    need (!s.heldReads e [(a, 8)]) "the write waits at its unit" <|
    let q := s.drainWrite e none a (leBytes 8 (sGet x.sr (fld x.word 20 16)).toNat) r.write
    if q.2 = .ok then .next (q.1.setEntry e { x.finish .ok with wrote := true }) else .next (q.1.moveEnd e x r q.2 a)

/-! ## Instruction pages -/

/-- Instructions from the bytes of a load, from an index upward (R107). -/
def putInstr (m : Tbl IWord) (i : Nat) : List (List Byte) → Tbl IWord
  | [] => m
  | b :: bs => putInstr (Tbl.set (fun _ => 0#128) m i (BitVec.ofNat 128 (leNat b))) (i + 1) bs

/-- Mark pages as bad or good, and as loading or not. -/
def Engine.markPages (g : Engine) (page count : Nat) (bad loading : Bool) : Engine :=
  let set (v : Vector Bool 16) (b : Bool) : Vector Bool 16 := Vector.ofFn fun p => if page ≤ p.val ∧ p.val < page + count then b else v.get p
  { g with pageBad := set g.pageBad bad, pageLoading := set g.pageLoading loading }

/-- A load of pages ends: its bytes become instructions, or the pages hold none (R129, R149). -/
def Engine.loadPages (g : Engine) (page count : Nat) (c : Code) (b : List Byte) : Engine :=
  if c = .ok then { g.markPages page count false false with imem := putInstr g.imem (1024 * page) (chunksOf 16 b.length b) }
  else g.markPages page count true false

/-- Bytes of `count` pages. -/
def pageBytes (count : Nat) : Nat := 16384 * count

/-- CTL_PAGE (R129): `r` answers a load from another block; what R129 refuses was refused at issue. -/
def execCtlPage (e : EngineId) (r : Reply) (s : State) : Out :=
  s.unitOp e .stream 0x06 fun x =>
  let a := (sGet x.sr (fld x.word 20 16)).toNat
  let page := fld x.word 24 21
  let count := fld x.word 29 25
  need (s.replyFits [(a, pageBytes count)] r && !s.heldReads e [(a, pageBytes count)]) "a read waits at its unit, or the reply does not answer the load" <|
  let q := s.readVia e a (pageBytes count) r
  let s' := (s.noteReads e [(a, pageBytes count)]).modEng e fun g => g.loadPages page count q.1 q.2
  if q.1 = .ok then .next (s'.setEntry e (x.finish .ok)) else .next (s'.moveEnd e x r q.1 a)

/-! ## Copies -/

/-- The data rows and the scale bytes of a source, scales checked first (R157, R164). -/
def Entry.copySource (x : Entry) (rd : Reader) : Except Stop (List (List Byte) × List (List Nat)) :=
  let a := x.desc (fld x.word 27 22)
  match a.fmt with
  | none => .error (.accessDenied, 0)
  | some f =>
    match (if f.isBlock then readScales rd a (x.scaleDesc a) 0 else .ok []) with
    | .error e => .error e
    | .ok sc =>
      match readRows rd (rowBytes f f.isBlock a.n0) a.rowAddrs with
      | .error e => .error e
      | .ok rows => .ok (rows, sc)

/-- The writes of a copy: bytes unchanged, each scale with the tag of its new place (R126, R164). -/
def Entry.copyWrites (x : Entry) (rows : List (List Byte)) (sc : List (List Nat)) : Writes :=
  let d := x.desc (fld x.word 21 16)
  let nb := blocksOf d.n0
  d.rowAddrs.zip rows ++
    (if d.scaled false then ((List.range d.rows).zip ((x.scaleDesc d).rowAddrs.zip sc)).map fun p =>
        (p.2.1, ((List.range nb).zip p.2.2).flatMap fun q => leBytes 2 (scaleEntry q.2 (d.blk0 + p.1 * nb + q.1)))
      else [])

/-- Write everything, and keep the first failure with its block. -/
def State.writeAll (s : State) (x : Entry) (c : Code) : Writes → State × Option (Code × Nat)
  | [] => (s, none)
  | w :: rest =>
    let r := s.drainWrite x.eng (some x.epoch) w.1 w.2 c
    let q := r.1.writeAll x c rest
    (q.1, if r.2 = .ok then q.2 else some (r.2, blockOf w.1))

/-- Places of writes. -/
def Writes.places (w : Writes) : List (Nat × Nat) := w.map fun p => (p.1, p.2.length)

/-! A copy whose source read fails, or that times out, leaves its destination partly written: every sector holds its old or its new bytes (R157,
R174, R175). Which ones is free. -/

/-- The bytes of a source row as far as they arrived: of a row in this block by sector, of another block's those that its reply holds. -/
def State.arrived (s : State) (e : EngineId) (reads : List (Nat × Nat)) (r : Reply) (a n : Nat) : List (Option Byte) :=
  if s.isLocal a then
    (sectorsOf a n).flatMap fun p => match s.readAs (.engine e) p.1 p.2 with
      | (.ok, b) => b.map some
      | _ => List.replicate p.2 none
  else
    let b := (((cutReply (reads.filter fun p => !s.isLocal p.1) r.data).find? fun p => p.1 == a).map Prod.snd).getD []
    b.map some ++ List.replicate (n - b.length) none

/-- The sectors of a destination row whose bytes have all arrived. -/
def wholePieces (dst : Nat) (l : List (Option Byte)) : Writes :=
  (sectorsOf dst l.length).filterMap fun p =>
    let b := ((l.drop (p.1 - dst)).take p.2).filterMap id
    if b.length = p.2 then some (p.1, b) else none

/-- What a copy can have written when it ends early: nothing before the scales of its source have passed (R164). -/
def State.partWrites (s : State) (x : Entry) (reads : List (Nat × Nat)) (r : Reply) : Writes :=
  let a := x.desc (fld x.word 27 22)
  let d := x.desc (fld x.word 21 16)
  match a.fmt with
  | none => []
  | some f =>
    match (if f.isBlock then readScales (s.replyReader x.eng reads r) a (x.scaleDesc a) 0 else .ok []) with
    | .error _ => []
    | .ok sc =>
      (d.rowAddrs.zip a.rowAddrs).flatMap (fun p => wholePieces p.1 (s.arrived x.eng reads r p.2 (rowBytes f f.isBlock a.n0)))
        ++ (x.copyWrites [] sc).flatMap fun w => wholePieces w.1 (w.2.map some)

/-- The writes among these that took place: a free choice (R157, R174). -/
def State.chosen (s : State) (w : Writes) : Writes := w.filter fun p => Config.copied s.drawn p.1

/-- MOV_COPY (R35, R126, R157, R164, R333): `r` answers the reads and the writes that leave this block. -/
def execMovCopy (e : EngineId) (r : Reply) (s : State) : Out :=
  s.unitOp e .stream 0x60 fun x =>
  let reads := x.readList (fld x.word 27 22) false
  let places := x.readList (fld x.word 21 16) false
  let dst := (x.desc (fld x.word 21 16)).base
  need (!s.readsWait x (reads ++ places)) "an access waits at its unit" <|
  need (s.replyFits reads r) "the reply does not answer the reads" <|
  match s.epochRefusal e x.epoch (reads ++ places) with
  | some ep => .next (s.setEntry e { x.fail .epochSkew ep with completed := true })
  | none =>
    let s' := s.noteReads e reads
    match x.copySource (s.replyReader e reads r) with
    | .error (c, d) =>
      let q := s'.writeAll x r.write (s.chosen (s.partWrites x reads r))
      .next (q.1.draw.setEntry e { x.failBy r c d with completed := true, wrote := true })
    | .ok (rows, sc) =>
      let q := s'.writeAll x r.write (x.copyWrites rows sc)
      match q.2 with
      | none => .next (q.1.setEntry e { x.finish .ok with wrote := true })
      | some (c, b) => .next (q.1.moveEnd e x r c (b * 2 ^ 52 + dst % 2 ^ 52))

/-- Whether a multicast is refused as a whole (R173). -/
def State.mcastDenied (s : State) (x : Entry) : Bool :=
  let w := x.word
  let sq := bitOf w 38
  let lo := (sGet x.sr (fld w 32 28)).toNat
  let hi := (sGet x.sr (fld w 37 33)).toNat
  let d := x.desc (fld w 21 16)
  let region := if sq then 2 else 3
  (if sq then decide (2 ^ 40 ≤ lo) else decide (2 ^ 16 ≤ hi)) || !s.isLocal d.base || selOf d.base != region
    || (d.scaled false && (!s.isLocal (x.scaleDesc d).base || selOf (x.scaleDesc d).base != region))

/-- The writes of one destination of a multicast (R172): the field is replaced in the address of every row (DESIGN CHOICE, log entry 74). -/
def Writes.aimed (w : Writes) (n : Nat) (sq : Bool) : Writes := w.map fun p => (retarget p.1 n sq, p.2)

/-- Write the copies of a multicast one destination after another: a destination that refuses is skipped, and the lowest one's code is kept
(R174). -/
def State.mcastWrite (s : State) (x : Entry) (w : Writes) : List Nat → State × Option (Code × Nat)
  | [] => (s, none)
  | n :: rest =>
    let aim := Writes.aimed w n (bitOf x.word 38)
    match s.epochRefusal x.eng x.epoch aim.places with
    | some ep => ((s.mcastWrite x w rest).1, some (.epochSkew, ep))
    | none =>
      let r := s.writeAll x .ok aim
      let q := r.1.mcastWrite x w rest
      (q.1, match r.2 with
        | some c => some c
        | none => q.2)

/-- What each destination of a multicast holds when its source read has failed (R174). -/
def State.mcastPart (s : State) (x : Entry) (w : Writes) (dests : List Nat) : State :=
  (dests.foldl (fun (q : State) n => (q.mcastWrite x (w.filter fun p => Config.copied s.drawn (retarget p.1 n (bitOf x.word 38))) [n]).1) s)

/-- MOV_MCAST (R35, R126, R164, R172-R174, R333): `r` answers reads of another block. -/
def execMovMcast (e : EngineId) (r : Reply) (s : State) : Out :=
  s.unitOp e .stream 0x61 fun x =>
  let reads := x.readList (fld x.word 27 22) false
  let places := x.readList (fld x.word 21 16) false
  let dests := mcastDests x.word x.sr
  let base := (x.desc (fld x.word 21 16)).base
  if s.mcastDenied x then .next (s.moveEnd e x r .accessDenied base)
  else if dests.isEmpty then .next (s.setEntry e (x.finish .ok))
  else
    let all := reads ++ dests.flatMap fun n => places.map fun p => (retarget p.1 n (bitOf x.word 38), p.2)
    need (!s.readsWait x all) "an access waits at its unit" <|
    need (s.replyFits reads r) "the reply does not answer the reads" <|
    match s.epochRefusal e x.epoch reads with
    | some ep => .next (s.setEntry e { x.fail .epochSkew ep with completed := true })
    | none =>
      let s' := s.noteReads e reads
      match x.copySource (s.replyReader e reads r) with
      | .error (c, d) =>
        .next ((s'.mcastPart x (s.partWrites x reads r) dests).draw.setEntry e
          { x.failBy r c d with completed := true, wrote := true })
      | .ok (rows, sc) =>
        let q := s'.mcastWrite x (x.copyWrites rows sc) dests
        match q.2 with
        | none => .next (q.1.setEntry e { x.finish .ok with wrote := true })
        | some (c, d) => .next (q.1.setEntry e { x.failAt c d with completed := true, wrote := true })

/-! ## The time limit -/

/-- The accesses of an instruction that may leave this block while it runs. -/
def State.timedReads (x : Entry) : List (Nat × Nat) :=
  let w := x.word
  let lst (i : Nat) : List (Nat × Nat) := x.readList i false
  match opOf w with
  | 0x06 => [((sGet x.sr (fld w 20 16)).toNat, 1)]
  | 0x0D => [((sGet x.sr (fld w 25 21)).toNat, 8)]
  | 0x0E => [((sGet x.sr (fld w 25 21)).toNat, 8)]
  | 0x60 => lst (fld w 27 22) ++ lst (fld w 21 16)
  | 0x61 => lst (fld w 27 22)
  | op => if buffered op && op != 0x52 then x.ownReads else []

/-- Whether an entry waits for another block or in a wait of the sync unit, which remote_timeout bounds (R133, R142, R143, R157). -/
def State.timed (s : State) (x : Entry) : Bool :=
  let op := opOf x.word
  !x.done && (op == 0x83 || ((op == 0x81 || op == 0x82) && x.sent) || s.remoteReads (State.timedReads x))

/-- The target block of a time-out, where there is one (R147). -/
def State.timedDetail (s : State) (x : Entry) : Nat :=
  match (State.timedReads x).find? fun p => !s.isLocal p.1 with
  | some p => blockOf p.1
  | none => noDetail .timeout x.idx

/-- What an instruction that times out leaves behind: the pages of a load hold no valid instructions (R129), a copy's destination is partly written
(R157), a continuing matrix instruction finds nothing to continue (R94). -/
def State.timedOut (s : State) (e : EngineId) (x : Entry) : State :=
  match opOf x.word with
  | 0x06 => s.modEng e fun g => g.markPages (fld x.word 24 21) (fld x.word 29 25) true false
  | 0x60 => (s.writeAll x .ok (s.chosen (s.partWrites x (x.readList (fld x.word 27 22) false) ⟨.timeout, [], .ok, 0#32⟩))).1.draw
  | 0x61 => (s.mcastPart x (s.partWrites x (x.readList (fld x.word 27 22) false) ⟨.timeout, [], .ok, 0#32⟩) (mcastDests x.word x.sr)).draw
  | _ => s.arrayFails e x

/-- REMOTE_ACCESS_TIMEOUT (R129, R142, R143, R157): remote_timeout has passed for an instruction, or for an access that
the Floor router carries (its number is 2^32 or more). A wait for an epoch stands behind no fence but those of its own queue. -/
def execRemoteAccessTimeout (e : EngineId) (id : Nat) (s : State) : Out :=
  let g := s.eng e
  if s.net.outs.any fun o => o.who == .engine e && o.access == id then
    .next ((s.net.outs.filter fun o => o.access == id && o.reply.isNone).foldl (fun s o => s.pieceDone o .timeout o.dst []) s)
  else
  needSome (g.inflight.find? fun y => y.id == id) "no such instruction in flight" fun x =>
  need (s.timed x && (!g.fenced x || (opOf x.word == 0x83 && g.front .sync == some x))) "the instruction waits for nothing that the limit bounds" <|
  .next ((s.timedOut e x).setEntry e { x.fail .timeout (s.timedDetail x) with completed := true })

end Sys2Proof.Machine
end

