-- ==== Sys2Proof/Machine/Bau.lean ====
section
/-! DEFINITION. Broadcasts: the port, their phases and waves, bank steps, the internal bus, results and errors (R178, R262, R271, R281-R311,
R417, R426). -/
namespace Sys2Proof.Machine

/-- Store a broadcast, and the registers follow. -/
def State.setBc (s : State) (e : EngineId) (x : Broadcast) : State := (s.modEng e fun g => g.setBc x).bauStatus e

/-- A broadcast ends (R288). -/
def State.endBc (s : State) (e : EngineId) (x : Broadcast) : State :=
  (((s.modEng e fun g => g.dropBc x.id).count F.BAU_COUNTS.done 1 e.val)).bauStatus e

/-- The instruction of a broadcast completes; its entry may be gone after a cancel or a reset. -/
def State.bcComplete (s : State) (e : EngineId) (id : Nat) (c : Code) (detail : Nat) : State :=
  s.modEng e fun g => { g with inflight := g.inflight.map fun y => if y.id = id then { y.finish c detail with wrote := decide (c = .ok) } else y }

/-! ## Errors (R307, R308) -/

/-- Keep undelivered errors in issue order, and in bank order within a broadcast (R308). -/
def insertErr (x : Nat × Nat × Code × Nat) : List (Nat × Nat × Code × Nat) → List (Nat × Nat × Code × Nat)
  | [] => [x]
  | y :: ys => if x.1 < y.1 ∨ (x.1 = y.1 ∧ x.2.1 < y.2.1) then x :: y :: ys else y :: insertErr x ys

/-- The logical core that owns a bank by default (R24). -/
def bankCore (b : Nat) : Nat := b % 512 / 4

/-- The fields of `BAU_ERR` without valid (R311). -/
def bauErrWord (x : Broadcast) (c : Code) (result : Bool) (bank row : Nat) : Nat :=
  c.toNat * 2 ^ 59 + b2n result * 2 ^ 58 + bank % 2048 * 2 ^ 44 + row % 2048 * 2 ^ 33 + x.idx % 2 ^ 14 * 2 ^ 19 + x.op

/-- A step error is logged, counted and recorded (R307). -/
def State.bauError (s : State) (e : EngineId) (x : Broadcast) (c : Code) (result : Bool) (bank row : Nat) : State :=
  let w := bauErrWord x c result bank row
  let s := s.count F.BAU_COUNTS.step_err 1 e.val
  let s := if s.on F.BAU_ERR.valid e.val then s else s.setReg R.BAU_ERR (2 ^ 63 + w) e.val
  s.log 0x0301 0x14 e.val 2 c w

/-- An error that a BAU.WAIT will deliver; those of a reset engine's sequences are not delivered (R308, R309). -/
def State.bauDeliver (s : State) (e : EngineId) (x : Broadcast) (bank : Nat) (c : Code) (core : Nat) : State :=
  if x.orphan then s else s.modEng e fun g => { g with bauErrs := insertErr (x.id, bank, c, core) g.bauErrs }

/-! ## Presentation and acceptance (R283-R285, R289-R292) -/

/-- A row of the opcode table: the port takes the oldest broadcast that waits in the BAU queue. -/
def State.present (s : State) (e : EngineId) (op : Nat) : Out :=
  let g := s.eng e
  needSome (g.front .bau) "no broadcast waits" fun x =>
  need (opOf x.word == op) "another instruction waits" <|
  need (!x.sent) "the port holds it already" <|
  need (s.regionOn e && !g.inReset) "the engine does not run" <|
  need (!g.fenced x) "an earlier fence or wait has not completed" <|
  .next (s.setEntry e { x with sent := true })

/-- BAU_ADD (R293). -/
def execBauAdd (e : EngineId) (s : State) : Out := s.present e 0x70
/-- BAU_AXPY (R293). -/
def execBauAxpy (e : EngineId) (s : State) : Out := s.present e 0x71
/-- BAU_SCALE (R293). -/
def execBauScale (e : EngineId) (s : State) : Out := s.present e 0x72
/-- BAU_FILL (R293). -/
def execBauFill (e : EngineId) (s : State) : Out := s.present e 0x73
/-- BAU_COPY (R294). -/
def execBauCopy (e : EngineId) (s : State) : Out := s.present e 0x74
/-- BAU_QNT (R295). -/
def execBauQnt (e : EngineId) (s : State) : Out := s.present e 0x75
/-- BAU_DQT (R295). -/
def execBauDqt (e : EngineId) (s : State) : Out := s.present e 0x76
/-- BAU_OPT (R300). -/
def execBauOpt (e : EngineId) (s : State) : Out := s.present e 0x77
/-- BAU_SUM (R296). -/
def execBauSum (e : EngineId) (s : State) : Out := s.present e 0x78
/-- BAU_MAXABS (R296). -/
def execBauMaxabs (e : EngineId) (s : State) : Out := s.present e 0x79

/-- An address that a broadcast may name: aligned, of this block, in regions 0x0-0x3 (R291). -/
def State.bauAddr (s : State) (a align : Nat) : Bool := s.isLocal a && decide (selOf a ≤ 3) && a % align == 0

/-- Which S fields an operation uses: sb, sc, sd (R292). -/
def bauUses (op : Nat) : Bool × Bool × Bool :=
  match op with
  | 0x70 => (true, false, true)
  | 0x71 => (true, true, true)
  | 0x72 => (false, true, true)
  | 0x73 => (false, true, true)
  | 0x74 => (true, false, true)
  | 0x75 => (false, false, true)
  | 0x76 => (false, false, true)
  | 0x77 => (false, true, false)
  | _ => (false, true, true)

/-- The operand checks of R283, R289, R291, R292, R294 and R296 that need no memory. An S field of 0 names no operand. -/
def State.bauOperandsOk (s : State) (x : Entry) : Bool :=
  let w := x.word
  let op := opOf w
  let v (i : Nat) : Nat := (sGet x.sr i).toNat
  let sa := fld w 20 16
  let sb := fld w 25 21
  let sc := fld w 30 26
  let sd := fld w 35 31
  let scope := fld w 37 36
  let layer := fld w 39 38
  let sm := fld w 44 40
  let n := nbits (v sa) 63 42 + 1
  let u := bauUses op
  let fields := (u.1 || sb == 0) && (u.2.1 || sc == 0) && (u.2.2 || sd == 0)
  let scopeOk := match scope with
    | 0 => layer == 0 && sm == 0
    | 1 => sm == 0
    | 2 => layer == 0 && sm != 0 && s.bauAddr (v sm) 64
    | _ => false
  let a := sa != 0
  let aRow := a && rowOpOk op 0 (v sa) n
  let dRow := sd != 0 && rowOpOk op 2 (v sd) n
  let opsOk := match op with
    | 0x70 => aRow && dRow && sb != 0 && rowOpOk op 1 (v sb) n && overlapOk op n (v sa) (v sd) && overlapOk op n (v sb) (v sd)
    | 0x71 => aRow && dRow && sb != 0 && rowOpOk op 1 (v sb) n && overlapOk op n (v sa) (v sd) && overlapOk op n (v sb) (v sd)
    | 0x73 => a && v sa % 2 ^ 42 == 0 && dRow
    | 0x74 => aRow && dRow && (RowOp.of (v sa)).fmtCode == (RowOp.of (v sd)).fmtCode && overlapOk op n (v sa) (v sd)
        && (sb == 0 || (v sb / 2 ^ 11 == 0 && scope == 1 && v sb / 512 == layer))
    | 0x77 => a && sc != 0 && s.bauAddr (v sc) 64
    | 0x78 => aRow && v sc / 4 == 0 && sd != 0 && s.bauAddr (v sd) 4
    | 0x79 => aRow && v sc / 2 == 0 && sd != 0 && s.bauAddr (v sd) 4
    | _ => aRow && dRow && overlapOk op n (v sa) (v sd)
  fields && scopeOk && opsOk

/-- The banks of a scope (R283). -/
def bauBanks (scope layer : Nat) (mask : List Byte) : List Nat :=
  match scope with
  | 0 => List.range 2048
  | 1 => (List.range 512).map (· + 512 * layer)
  | _ => (List.range 2048).filter fun b => nbit ((mask[b / 8]?).getD 0#8).toNat (b % 8)

/-- A broadcast as the port holds it. -/
def bcOf (x : Entry) (banks : List Nat) (opt : List Byte) : Broadcast :=
  let w := x.word
  let v (i : Nat) : Nat := (sGet x.sr i).toNat
  { id := x.id, idx := x.idx, op := opOf w, a := v (fld w 20 16), b := v (fld w 25 21), c := v (fld w 30 26), d := v (fld w 35 31)
    src := if opOf w = 0x74 ∧ fld w 25 21 ≠ 0 then some (v (fld w 25 21)) else none
    banks := banks, opt := opt, phase := .recall, released := [], seqs := [], skews := [], bads := [], sent := [], gathered := []
    srcPos := 0, bus := none, busGone := false, complete := false, orphan := false }

/-- BROADCAST_ACCEPT (R284, R285, R306): of several failures ACCESS_DENIED goes first (R521). -/
def execBroadcastAccept (e : EngineId) (s : State) : Out :=
  let g := s.eng e
  needSome (g.front .bau) "no broadcast waits" fun x =>
  need (x.sent) "no broadcast was presented" <|
  need (decide (g.bcs.length < 4)) "the port holds four broadcasts" <|
  let w := x.word
  let fin (s : State) (c : Code) (d : Nat) : Out := .next (s.setEntry e { x.failAt c d with completed := true })
  if !s.bauOperandsOk x then fin s .accessDenied (noDetail .accessDenied x.idx)
  else match epochCheck x.epoch (s.get F.BAU_EPOCH.applied e.val) (s.get F.BAU_EPOCH.staged e.val) with
  | .wait => .refused (.notEnabled "the controller has not applied the epoch")
  | .skew a => fin (s.count F.BAU_COUNTS.epoch_skew 1 e.val) .epochSkew a
  | .proceed =>
    need (!s.readsWait x x.bauReads) "a read waits at its unit" <|
    let s' := s.noteReads e x.bauReads
    let read (use : Bool) (i : Nat) : Code × List Byte := if use then s.readSpan (.engine e) (sGet x.sr i).toNat 256 else (.ok, [])
    let m := read (decide (fld w 37 36 = 2)) (fld w 44 40)
    let o := read (decide (opOf w = 0x77)) (fld w 30 26)
    match s.readRefusal x x.bauReads with
    | some a => fin s .epochSkew a
    | none =>
    if m.1 ≠ .ok then fin s' m.1 (blockOf (sGet x.sr (fld w 44 40)).toNat)
    else if o.1 ≠ .ok then fin s' o.1 (blockOf (sGet x.sr (fld w 30 26)).toNat)
    else if opOf w = 0x77 ∧ (optRecordOk o.2 && optOperandOk (sGet x.sr (fld w 20 16)).toNat o.2) = false then
      fin s' .accessDenied (noDetail .accessDenied x.idx)
    else
      let bs := bauBanks (fld w 37 36) (fld w 39 38) m.2
      if bs.isEmpty then .next (s'.setEntry e { x.finish .ok with wrote := true })
      else .next ((s'.modEng e fun g => { g.setEntry { x with done := true } with bcs := g.bcs ++ [bcOf x bs o.2] }).bauStatus e)

/-! ## The recall (R178, R271) -/

/-- Rows that a broadcast addresses: its operands and their scale entries. -/
def Broadcast.rows (x : Broadcast) : List (Nat × Nat) :=
  let cover (l : List (Nat × Nat)) : List (Nat × Nat) := l.map fun r => (r.1 / 1024, (r.2 + 1023) / 1024)
  match x.op with
  | 0x77 => [(x.opA.row, x.opA.row + ceilDiv x.n (optNp x.opt))]
  | 0x73 => cover (x.opD.ranges false x.n)
  | 0x70 => cover (x.opA.ranges false x.n ++ x.opB.ranges false x.n ++ x.opD.ranges false x.n)
  | 0x71 => cover (x.opA.ranges false x.n ++ x.opB.ranges false x.n ++ x.opD.ranges false x.n)
  | 0x78 => cover (x.opA.ranges x.blockA x.n)
  | 0x79 => cover (x.opA.ranges x.blockA x.n)
  | op => cover (x.opA.ranges x.blockA x.n ++ x.opD.ranges (blockUse op x.opD.fmt true) x.n)

/-- Whether a line lies in a row that a broadcast addresses. -/
def Broadcast.coversLine (x : Broadcast) (e : EngineId) (l : Line) : Bool :=
  let key := 64 * l.sector
  keyEngine key == e.val && (x.banks.contains (bankOfKey key) || x.src == some (bankOfKey key))
    && x.rows.any fun r => decide (r.1 ≤ rowOfKey key) && decide (rowOfKey key < r.2)

/-- Whether a write aims at the engine's own DRAM (R178). -/
def State.ownDram (s : State) (e : EngineId) (a : Nat) : Bool := s.isLocal a && s.target a 1 == some (.dram e)

/-- The rows that an instruction writes, its scale rows and the record that it captures into among them (R178, R217). -/
def Entry.dstRows (x : Entry) : List (Nat × Nat) :=
  (if (opOf x.word = 0x10 ∨ opOf x.word = 0x11) ∧ bitOf x.word 38 = true then [((sGet x.sr (fld x.word 67 63)).toNat / 128 * 128, 128)] else []) ++ (if opOf x.word = 0x0E then [((sGet x.sr (fld x.word 25 21)).toNat, 8)] else []) ++ (dstOperands x.word).flatMap fun i => x.readList i false

/-- Whether a row of bytes has one in the engine's own DRAM. -/
def State.rowOwn (s : State) (e : EngineId) (p : Nat × Nat) : Bool := s.ownDram e p.1 || s.ownDram e (p.1 + p.2 - 1)

/-- Whether a drain still writes to the engine's own DRAM, its scale record included. -/
def State.drainOwn (s : State) (e : EngineId) (d : Drain) : Bool :=
  (d.writes.any fun w => s.rowOwn e (w.1, w.2.length)) || d.cap.any fun q => s.ownDram e q.addr

/-- Whether an earlier write of the engine to its own DRAM is outstanding, drains included (R178). -/
def State.ownWrites (s : State) (e : EngineId) (id : Nat) : Bool :=
  let g := s.eng e
  ((g.inflight.takeWhile fun y => y.id != id).any fun y => !y.completed && y.dstRows.any (s.rowOwn e))
    || (g.drains.filter fun d => decide (d.id < id)).any (s.drainOwn e)

/-- The phase after the recall (R285). -/
def Broadcast.afterRecall (x : Broadcast) : Broadcast := { x with phase := if x.checkSteps = 0 then .main else .check, released := [], seqs := [] }

/-- LANDING_RECALL_DONE (R178, R271). -/
def execLandingRecallDone (e : EngineId) (s : State) : Out :=
  needSome ((s.eng e).bcs.find? fun x => x.phase == .recall) "no broadcast waits for its recall" fun x =>
  need (!s.ownWrites e x.id) "an earlier write to the engine's own DRAM has not completed" <|
  .next ((s.dropLines (columnOf e) fun l => x.coversLine e l).setBc e x.afterRecall)

/-! ## Waves (R286, R417, R426) -/

/-- Serial release: by the mode, by a failed VMEM slice of the column, or by a cap level of 4 or more (R286, R417, R426). -/
def State.serialWaves (s : State) (e : EngineId) : Bool :=
  let k := e.val % 40
  s.get F.BAU_MODE.wave_mode e.val == 1 || s.get (F.PWR_VM_FAIL.col (k % 4)) 121 (k / 4) != 0 || decide (4 ≤ s.get F.PWR_STATUS.cap_level) ||
    decide (4 ≤ vget s.thermal.memLevels (columnOf e))

/-- Whether the next wave of a broadcast may be released (R286). -/
def State.mayRelease (s : State) (e : EngineId) (x : Broadcast) : Bool :=
  x.phase != .recall && !x.orphan && decide (x.released.length < 4)
    && (!s.serialWaves e || x.released.length == 0 || x.banks.all fun b => b % 4 != x.released.length - 1 || (x.seq b).fin)

/-- Whether a broadcast has finished, its result or record aside (R288, R296, R301). -/
def Broadcast.finished (x : Broadcast) : Bool :=
  let writes := (x.op == 0x78 || x.op == 0x79 || (x.op == 0x77 && !(optE4m3 x.opt).isEmpty)) && !x.anyErr && !x.orphan
  x.phase == .main && (x.complete || x.orphan) && x.allFin && !writes

/-- Store a broadcast, or end it where it has finished. -/
def State.settleBc (s : State) (e : EngineId) (x : Broadcast) : State := if x.finished then s.endBc e x else s.setBc e x

/-- WAVE_RELEASE (R285, R286): the instruction completes with the last wave of its main pass. -/
def execWaveRelease (e : EngineId) (s : State) : Out :=
  needSome ((s.eng e).bcs.find? fun x => s.mayRelease e x) "no wave may be released" fun x =>
  let y := { x with released := x.released ++ [x.released.length] }
  if y.phase = .main ∧ y.released.length = 4 then .next ((s.bcComplete e x.id .ok 0).settleBc e { y with complete := true })
  else .next (s.setBc e y)

/-! ## The check pass (R287) -/

/-- The failure to report: the lowest bank, then slot, then index. -/
def worstSkew (a b : Nat × Nat × Nat × Nat) : Nat × Nat × Nat × Nat :=
  if a.1 < b.1 ∨ (a.1 = b.1 ∧ (a.2.1 < b.2.1 ∨ (a.2.1 = b.2.1 ∧ a.2.2.1 ≤ b.2.2.1))) then a else b

/-- The detail of a SCALE_SKEW of the check pass (R287), as the field of R147. -/
def bauSkewDetail (f : Nat × Nat × Nat × Nat) : Nat := f.2.1 * 2 ^ 35 + f.2.2.2 % 16 * 2 ^ 31 + f.1 % 2048 * 2 ^ 20 + f.2.2.1 % 2 ^ 20

/-- CHECK_PASS_DONE (R285-R287): SCALE_SKEW goes before DATA_ERR. -/
def execCheckPassDone (e : EngineId) (s : State) : Out :=
  needSome ((s.eng e).bcs.find? fun x => x.phase == .check && x.released.length == 4 && x.allFin) "no check pass has finished" fun x =>
  match x.skews, x.bads with
  | f :: fs, _ => .next ((s.bcComplete e x.id .scaleSkew (bauSkewDetail (fs.foldl worstSkew f))).endBc e x)
  | [], b :: bs => .next ((s.bcComplete e x.id .dataErr (bankCore (bs.foldl min b))).endBc e x)
  | [], [] => .next (s.setBc e { x with phase := .main, released := [], seqs := [] })

/-! ## Bank steps (R281, R284, R286, R294, R303, R307) -/

/-- The bytes of a bank. -/
def State.bankRd (s : State) (e : EngineId) (b : Nat) : BankRd := fun off n => s.bytes (rowKey e b 0 + off) n

/-- Words of a bank that ranges touch. -/
def bankWords (e : EngineId) (b : Nat) (l : List (Nat × Nat)) : List Nat :=
  l.flatMap fun p => if p.2 = 0 then [] else (List.range ((p.1 % 16 + p.2 + 15) / 16)).map fun i => (rowKey e b 0 + p.1) / 16 + i

/-- The first row in which ranges meet an uncorrectable or poisoned word (R307). -/
def State.badRow (s : State) (e : EngineId) (b : Nat) (l : List (Nat × Nat)) : Option Nat :=
  ((bankWords e b l).find? fun w => decide (2 ≤ s.markOf w)).map fun w => rowOfKey (16 * w)

/-- What the reads of a step leave behind in the landing's counters (R272, R273). -/
def State.noteBank (s : State) (e : EngineId) (b : Nat) (l : List (Nat × Nat)) : State :=
  if s.marks.isEmpty then s else s.noteWords e (bankWords e b l).eraseDups

/-- The writes of a step. -/
def State.bankWrite (s : State) (e : EngineId) (b : Nat) (l : List (Nat × List Byte)) : State :=
  l.foldl (fun s p =>
    let keys := (List.range p.2.length).map fun i => rowKey e b 0 + p.1 + i
    (s.storeKeys (keys.zip p.2)).clearMarks e keys) s

/-- The row of a step: the first that it reads or writes. -/
def BauFx.row (f : BauFx) : Nat :=
  match f.reads, f.writes with
  | p :: _, _ => p.1 / 1024
  | [], p :: _ => p.1 / 1024
  | [], [] => 0

/-- A step ran on a row, which stays open (R282). -/
def State.openRow (s : State) (e : EngineId) (b row : Nat) : State := s.setBank e b { s.bank e b with openRow := some row }

/-- A sequence whose last step ran. -/
def BankSeq.endAt (q : BankSeq) (n : Nat) : BankSeq := { q with fin := decide (n ≤ q.pos) }

/-- A step of the check pass (R287). -/
def State.checkStep (s : State) (e : EngineId) (x : Broadcast) (b : Nat) (err : Bool) : State :=
  let q := x.seq b
  let reads := (x.checkPieces q.pos).map fun p => (p.1, 2 * p.2.2.2)
  let row := (((reads.head?).map Prod.fst).getD 0) / 1024
  let s' := (s.noteBank e b reads).openRow e b row
  match s.badRow e b reads, err with
  | none, false =>
    let fails := (x.checkFails (s.bankRd e b) b q.pos).map fun f => (b, f.1, f.2.1, f.2.2)
    s'.setBc e ({ x with skews := x.skews ++ fails }.setSeq b (q.next.endAt x.checkSteps))
  | r, _ => (s'.bauError e x .dataErr false b (r.getD row)).setBc e ({ x with bads := x.bads ++ [b] }.setSeq b { q with fin := true, err := true })

/-- A step of the main pass: one that meets an error writes nothing and ends the bank's sequence (R307). -/
def State.mainStep (s : State) (e : EngineId) (x : Broadcast) (b : Nat) (err : Bool) : State :=
  let q := x.seq b
  let f := x.stepFx (s.bankRd e b) b q
  let s' := (s.noteBank e b f.reads).openRow e b f.row
  match s.badRow e b f.reads, err with
  | none, false => (s'.bankWrite e b f.writes).settleBc e (x.setSeq b (f.seq.endAt x.steps))
  | r, _ => ((s'.bauError e x .dataErr false b (r.getD f.row)).bauDeliver e x b .dataErr (bankCore b)).settleBc e (x.setSeq b { q with fin := true, err := true })

/-- Banks of an inter-bank copy that take part now: released and not finished. -/
def Broadcast.active (x : Broadcast) : List Nat := x.banks.filter fun b => x.isReleased b && !(x.seq b).fin

/-- The unit of an inter-bank copy that the active banks wait for. -/
def Broadcast.wanted (x : Broadcast) : Nat := x.active.foldl (fun m b => min m (x.seq b).pos) x.units

/-- Whether the source of an inter-bank copy may be read: every earlier broadcast has finished in every addressed bank and in the source, the
waves that take the unit are released (those of a reset engine's copy that are released: R309), and no bank still waits for the unit on the bus (R294; log entry 27). -/
def State.mayReadSource (s : State) (e : EngineId) (x : Broadcast) : Bool :=
  let before := (s.eng e).bcs.takeWhile fun y => y.id != x.id
  let free := x.src.all fun c => (c :: x.banks).all fun b => !before.any fun y => y.holds b
  free && !x.active.isEmpty && (x.released.length == 4 || x.orphan || s.serialWaves e)
    && (x.bus.isNone || !x.active.any fun b => (x.seq b).pos == x.srcPos)

/-- The source step of an inter-bank copy (R294, R302): an error ends the copy at that unit in every addressed bank. -/
def State.sourceStep (s : State) (e : EngineId) (x : Broadcast) (c : Nat) (err : Bool) : State :=
  let k := x.wanted
  let p := x.unitRange x.opA k
  let s' := (s.noteBank e c [p]).openRow e c (p.1 / 1024)
  match s.badRow e c [p], err with
  | none, false => s'.setBc e { x with srcPos := k, bus := some (copyUnit x.opA.fmt (s.bankRd e c) x.opA x.n k p.2), busGone := false }
  | r, _ =>
    let y := x.banks.foldl (fun y b => if (y.seq b).fin then y else y.setSeq b { y.seq b with fin := true, err := true }) x
    ((s'.bauError e x .dataErr false c (r.getD (p.1 / 1024))).bauDeliver e x c .dataErr (bankCore c)).settleBc e { y with bus := none }

/-- A bank takes its unit of an inter-bank copy from the bus and writes it (R294). -/
def Broadcast.withBus (x : Broadcast) (b : Nat) : Broadcast :=
  match x.bus with
  | some d => x.setSeq b { x.seq b with latch := d.map BitVec.toNat }
  | none => x

/-- Whether the OPT parameters have reached a bank's layer (R297). -/
def Broadcast.hasParams (x : Broadcast) (b : Nat) : Bool := x.op != 0x77 || x.sent.contains (b / 512)

/-- Whether a bank of an inter-bank copy may take its unit from the bus (R294). -/
def Broadcast.takesBus (x : Broadcast) (b : Nat) : Bool := x.bus.isSome && x.busGone && (x.seq b).pos == x.srcPos

/-- Whether a released bank has not finished the present pass. -/
def Broadcast.works (x : Broadcast) (b : Nat) : Bool := x.banks.contains b && x.isReleased b && !(x.seq b).fin

/-- Whether a step of a broadcast waits in a bank, the port of the bank aside (R281, R284, R286, R294). -/
def State.stepOf (s : State) (e : EngineId) (x : Broadcast) (b : Nat) : Bool :=
  match x.phase with
  | .recall => false
  | .check => x.works b
  | .main =>
    if x.src.isSome then (x.works b && x.takesBus b) || (x.src == some b && s.mayReadSource e x)
    else x.works b && x.hasParams b

/-- Whether the next step of a bank-arithmetic sequence waits in a bank (R262). -/
def State.bauReady (s : State) (e : EngineId) (b : Nat) : Bool := ((s.eng e).bcs.find? fun x => x.holds b).any fun x => s.stepOf e x b

/-- BAU_STEP (R262, R281, R284, R286): the next step of the oldest broadcast that has not finished in the bank. A scrub read that is more than 1 s
late goes first. -/
def execBauStep (e : EngineId) (b : BankId) (err : StepErr) (s : State) : Out :=
  need (decide ((s.bank e b.val).owed = 0) && !s.queued e b.val && !s.scrubFirst e b.val) "something goes before the step" <|
  need (!(s.eng e).dramOut) "the bank is dark" <|
  needSome ((s.eng e).bcs.find? fun x => x.holds b.val) "no broadcast works in the bank" fun x =>
  need (s.stepOf e x b.val) "the bank waits for its recall, its wave, its parameters or its unit" <|
  match x.phase with
  | .check => .next (s.checkStep e x b.val err)
  | _ =>
    if x.works b.val && (x.src.isNone || x.takesBus b.val) then
      .next (s.mainStep e (if x.src.isSome then x.withBus b.val else x) b.val err)
    else .next (s.sourceStep e x b.val err)

/-! ## The internal bus and the results (R296, R297, R301) -/

/-- Addressed banks of a layer. -/
def Broadcast.layerBanks (x : Broadcast) (l : Nat) : List Nat := x.banks.filter fun b => b / 512 == l

/-- Whether the controller gathers one word per bank. -/
def Broadcast.gathers (x : Broadcast) : Bool := x.op == 0x78 || x.op == 0x79 || (x.op == 0x77 && !(optE4m3 x.opt).isEmpty)

/-- What the bus of a layer carries next for a broadcast. -/
inductive BusJob where
  | params | copy | gather
  deriving DecidableEq, Repr

/-- The transfer that waits on a layer's bus (R297). -/
def Broadcast.busJob (x : Broadcast) (l : Nat) : Option BusJob :=
  if x.phase ≠ .main ∨ (x.layerBanks l).isEmpty then none
  else if x.op = 0x77 ∧ x.sent.contains l = false then some .params
  else if x.bus.isSome ∧ x.busGone = false then some .copy
  else if x.gathers ∧ x.gathered.contains l = false ∧ ((x.layerBanks l).all fun b => (x.seq b).fin) then some .gather
  else none

/-- BAU_BUS_TRANSFER (R297). -/
def execBauBusTransfer (e : EngineId) (layer : Fin 4) (s : State) : Out :=
  needSome ((s.eng e).bcs.find? fun x => (x.busJob layer.val).isSome) "no transfer waits" fun x =>
  match x.busJob layer.val with
  | some .params => .next (s.setBc e { x with sent := x.sent ++ [layer.val] })
  | some .copy => .next (s.setBc e { x with busGone := true })
  | some .gather => .next (s.setBc e { x with gathered := x.gathered ++ [layer.val] })
  | none => .refused (.notEnabled "no transfer waits")

/-- Whether the controller holds every bank's word. -/
def Broadcast.allGathered (x : Broadcast) : Bool := [0, 1, 2, 3].all fun l => (x.layerBanks l).isEmpty || x.gathered.contains l

/-- A broadcast whose result or record waits to be written. -/
def Broadcast.awaitsWrite (x : Broadcast) (opt : Bool) : Bool :=
  x.phase == .main && x.complete && !x.orphan && x.allFin && !x.anyErr && x.gathers && x.allGathered && (x.op == 0x77) == opt

/-- The bytes of a SUM or MAXABS result (R296). -/
def Broadcast.resultBytes (x : Broadcast) : List Byte :=
  let r (b : Nat) : Val := x.fold (x.seq b).lanes
  if nbit x.c 0 then x.banks.flatMap fun b => leBytes 4 (toF32 (r b))
  else leBytes 4 (toF32 (x.fold (x.banks.map r)))

/-- A failed write of a result or record (R307). -/
def State.resultFail (s : State) (e : EngineId) (x : Broadcast) (c : Code) : State :=
  (s.bauError e x c true 0 0).bauDeliver e x 0x7FF c 0x7F

/-- BAU_RESULT_WRITE (R296, R307). -/
def execBauResultWrite (e : EngineId) (s : State) : Out :=
  needSome ((s.eng e).bcs.find? fun x => x.awaitsWrite false) "no result waits" fun x =>
  need (!s.heldSpan (.engine e) x.d x.resultBytes.length) "the write waits at its unit" <|
  let q := s.writeSpan (.engine e) x.d x.resultBytes
  .next ((if q.2 = .ok then q.1 else q.1.resultFail e x q.2).endBc e x)

/-- The largest |m1| or |v1| over all addressed banks (R301). -/
def Broadcast.maxOf (x : Broadcast) (f : BankSeq → Val) : Val := x.banks.foldl (fun a b => a.max (f (x.seq b))) Val.zero

/-- OPT_RECORD_UPDATE (R301, R307): one read-modify-write. -/
def execOptRecordUpdate (e : EngineId) (s : State) : Out :=
  needSome ((s.eng e).bcs.find? fun x => x.awaitsWrite true) "no record waits" fun x =>
  need (!s.heldSpan (.engine e) x.c 256) "the update waits at its unit" <|
  let r := s.readSpan (.engine e) x.c 256
  let s' := s.noteSpan (.engine e) x.c 256
  match r.1 with
  | .ok =>
    let q := s'.writeSpan (.engine e) x.c (optCommit r.2 (x.maxOf BankSeq.mMax) (x.maxOf BankSeq.vMax))
    .next ((if q.2 = .ok then q.1 else q.1.resultFail e x q.2).endBc e x)
  | c => .next ((s'.resultFail e x c).endBc e x)

/-! ## Waiting, mode and reset -/

/-- BAU_WAIT (R288, R308): every earlier broadcast has finished; the first undelivered error is delivered, the others with it. -/
def execBauWait (e : EngineId) (s : State) : Out :=
  let g := s.eng e
  needSome (g.front .bau) "no broadcast waits" fun x =>
  need (opOf x.word == 0x7F) "another instruction waits" <|
  need (g.bcs.all fun y => !y.orphan && decide (x.id < y.id)) "an earlier broadcast has not finished" <|
  match g.bauErrs with
  | [] => .next (s.setEntry e (x.finish .ok))
  | (_, _, c, core) :: _ => .next (s.setEng e ({ g with bauErrs := [] }.setEntry (x.finish c core)))

/-- The controller applies a staged mode and epoch (R305, R332). -/
def State.applyBauMode (s : State) (e : EngineId) : State :=
  let s := s.put F.BAU_MODE.stagger (s.get F.BAU_MODE_NEXT.stagger e.val) e.val
  let s := s.put F.BAU_MODE.wave_mode (s.get F.BAU_MODE_NEXT.wave_mode e.val) e.val
  s.noteApplied (80 + e.val)

/-- Whether the controller is at its safe boundary (R305): a commit reached it, and no sequence is in progress in any bank. -/
def State.bauBoundary (s : State) (e : EngineId) : Bool :=
  s.get F.BAU_EPOCH.staged e.val != s.get F.BAU_EPOCH.applied e.val && (s.eng e).activeBanks == 0

/-- BAU_MODE_APPLY (R305). -/
def execBauModeApply (e : EngineId) (s : State) : Out :=
  need (s.bauBoundary e) "nothing is staged, or a sequence is in progress" (.next (s.applyBauMode e))

/-- BAU_COUNTS_READ (R14). -/
def execBauCountsRead (e : EngineId) (s : State) : Out := .next (s.swRead R.BAU_COUNTS e.val 0).1

/-- What a reset of the engine does to its broadcasts (R309): released sequences of a main pass run on, and nothing else does. -/
def Engine.orphanBcs (g : Engine) : Engine :=
  { g with
    bcs := (g.bcs.filter fun x => x.phase == .main && !x.allFin && x.banks.any fun b => x.isReleased b).map fun x =>
      { x with orphan := true, banks := x.banks.filter fun b => x.isReleased b }
    bauErrs := [] }

end Sys2Proof.Machine
end

