-- ==== Sys2Proof/Machine/Regions.lean ====
section
/-! DEFINITION. Power regions: sleep, wake and turn-on in a column, what a region loses in OFF, and the ceilings of slice groups
(R412, R414, R418-R420, R424, R466). -/
namespace Sys2Proof.Machine

/-- A region's record, and setting it. -/
def State.region (s : State) (r : RegionId) : Region := vget s.power.regions r
def State.setRegion (s : State) (r : RegionId) (x : Region) : State := { s with power := { s.power with regions := vset s.power.regions r x } }

/-- The power instance of a region (R36). -/
def instOf (r : RegionId) : Nat := r.val + 1

/-- The region of an engine, and the engine of a region where it is one (R36). -/
def regionOf (e : EngineId) : RegionId := ⟨e.val, by omega⟩
def RegionId.eng? (r : RegionId) : Option EngineId := engineOf? r.val
def RegionId.sq? (r : RegionId) : Option SquareId := if 80 ≤ r.val then squareOf? (r.val - 80) else none

/-- The region of a square. -/
def regionOfSq (k : SquareId) : RegionId := ⟨80 + k.val, by omega⟩

/-- Regions of a column: engine A, engine B, square, in increasing instance (R412). -/
def columnRegions (r : RegionId) : List RegionId := (List.finRange 120).filter fun q => q.val % 40 == r.val % 40

/-- The state of a region (R418). -/
def State.regState (s : State) (r : RegionId) : Nat := s.get F.PWR_RG_STATUS.state (instOf r)

/-- Whether a failed PLL keeps a region from waking (R466). -/
def State.pllBars (s : State) (r : RegionId) : Bool := decide (r.val < 80) && s.on F.CLK_PLL.fail (instOf r)

/-- Current that a column draws from its VCORE segment, in units of 0.1 A: the last reports of its regions that are ON (R412, R420). -/
def State.segment (s : State) (r : RegionId) : Nat :=
  ((columnRegions r).filter fun q => s.regState q == 0).foldl (fun n q => n + s.get F.PWR_RG_STATUS.current (instOf q)) 0

/-- 85 % of the 72 A ceiling of a segment, in units of 0.1 A (R412, R420). -/
def segmentLimit : Nat := 612

/-- Set the skipping of 1 cycle in 8 of the other ON engine regions of a column (R420). -/
def State.skipOthers (s : State) (r : RegionId) : State :=
  ((columnRegions r).filter fun q => decide (q.val < 80) && q != r && s.regState q == 0).foldl (fun s q =>
    s.setRegion q { s.region q with inrush := true }) s

/-- The inrush window of a region begins: 8 sub-gates of 250 ns (R420). -/
def State.closeGates (s : State) (r : RegionId) (late : Bool) : State :=
  let s := s.setRegion r { s.region r with phase := .closing late (s.clock.ticks + 2000) }
  if late then s.skipOthers r else s

/-- A region has the turn of its column: its wait ends at once where the segment draws little enough (R420). -/
def State.startTurn (s : State) (r : RegionId) : State :=
  if s.segment r < segmentLimit then s.closeGates r false else s.setRegion r { s.region r with phase := .waiting }

/-- A region starts its turn-on, or waits for its turn in the column (R419, R420). Only a region in RETAIN or OFF wakes. -/
def State.wake (s : State) (r : RegionId) : State :=
  if (s.regState r = 1 ∨ s.regState r = 2) ∧ (s.region r).phase = .none ∧ s.pllBars r = false then
    let s := s.put F.PWR_RG_STATUS.waking 1 (instOf r)
    if (columnRegions r).any fun q => (s.region q).phase.holdsTurn then s.setRegion r { s.region r with phase := .queued } else s.startTurn r
  else s

/-- The segment of a column draws less: a region that waits for it goes on (R420). -/
def State.segmentFell (s : State) (r : RegionId) : State :=
  match (columnRegions r).find? fun q => (s.region q).phase == .waiting with
  | some q => s.startTurn q
  | none => s

/-- The lowest waiting instance of the column takes its turn (R420). -/
def State.nextTurn (s : State) (r : RegionId) : State :=
  match (columnRegions r).find? fun q => (s.region q).phase == .queued with
  | some q => s.startTurn q
  | none => s

/-- The extra skipping of a column stops (R420). -/
def State.skipEnds (s : State) (r : RegionId) : State :=
  (columnRegions r).foldl (fun s q => s.setRegion q { s.region q with inrush := false }) s

/-- A region gives up the turn of its column, where it holds it: the skipping that it caused stops, and the next region begins (R420). -/
def State.leaveTurn (s : State) (r : RegionId) (phase : WakePhase) : State :=
  let was := (s.region r).phase
  let s := s.setRegion r { s.region r with phase := phase }
  if was.holdsTurn then (match was with
    | .closing true _ => s.skipEnds r
    | _ => s).nextTurn r else s

/-- An inrush window ends: the clock starts, with an engine's PLL locking (R420, R466). -/
def State.windowEnds (s : State) (r : RegionId) : State :=
  let s := s.leaveTurn r .starting
  if r.val < 80 then s.put F.CLK_PLL.state 1 (instOf r) else s

/-- Every inrush window that is over ends (R420). -/
def State.windowsDue (s : State) : State :=
  (List.finRange 120).foldl (fun s r => match (s.region r).phase with
    | .closing _ stop => if stop ≤ s.clock.ticks then s.windowEnds r else s
    | _ => s) s

/-- End a turn-on, with the skipping it caused (R420). -/
def State.endTurn (s : State) (r : RegionId) : State := (s.leaveTurn r .none).put F.PWR_RG_STATUS.waking 0 (instOf r)

/-- An engine that lost its registers, core logic and tables (R418, R197); the words have no stated value. -/
def Engine.lost (g : Engine) (t : Nat) : Engine :=
  let w (i : Nat) : Word := Config.lostWord t i
  { g with
    s := Vector.ofFn fun i => w i.val
    t := Vector.ofFn fun i => (w (100 + 4 * i.val) ++ w (101 + 4 * i.val) ++ w (102 + 4 * i.val) ++ w (103 + 4 * i.val) : BitVec 256)
    p := Vector.ofFn fun i => (w 40).getLsbD i.val
    l := Vector.ofFn fun i => ⟨(w (50 + i.val)).toNat % 2 ^ 32, (w (60 + i.val)).toNat % 2 ^ 14, (w (70 + i.val)).toNat % 2 ^ 14⟩
    cfg := Vector.ofFn fun i => w (80 + i.val)
    imem := []
    pageBad := Vector.replicate 16 false
    acc := none
    accs := []
    weights := none
    shadow := .empty
    sfnActive := ⟨0, []⟩
    sfnShadow := ⟨0, []⟩ }

/-- Write zero to every byte of a core store. -/
def State.zeroCore (s : State) (e : EngineId) : State :=
  let lo := spCore + e.val * 2 ^ 25
  { s with mem := s.mem.filter fun c => decide (c.1 < lo) || decide (lo + 2 ^ 25 ≤ c.1) }

/-- A square loses its lines: bytes of dirty ones have no stated value from now on (R418). -/
def State.loseLines (s : State) (k : SquareId) : State :=
  let t := s.btime
  let s := ((s.sq k).lines.filter Line.dirty).foldl (fun s l =>
    s.setBytes (64 * l.sector) ((List.range 64).map fun i => Config.lostByte t (64 * l.sector + i))) s
  (s.setSq k { s.sq k with lines := [], flushing := [], flushInv := false, badBytes := [], logged := [] }).put F.SQ_POISON.held 0 k.val

/-- What a region that powers off loses (R418). -/
def State.loseRegion (s : State) (r : RegionId) : State :=
  let s := match RegionId.eng? r with
    | some e => (s.modEng e fun g => g.lost s.btime).zeroCore e
    | none => s
  match RegionId.sq? r with
  | some k => (s.loseLines k).zeroWindow k
  | none => s

/-- The engine's PLL goes off with its region (R466). -/
def State.pllOff (s : State) (r : RegionId) : State :=
  if r.val < 80 ∧ s.on F.CLK_PLL.fail (instOf r) = false then s.put F.CLK_PLL.state 0 (instOf r) else s

/-- Whether a request delivered to an engine waits there (R329). -/
def MeshPkt.forCore (s : State) (p : MeshPkt) (e : EngineId) : Bool :=
  match p.body with
  | .request r => s.target r.addr.toNat r.op.size == some (.core e)
  | _ => false
def State.parkedAt (s : State) (e : EngineId) : Bool := s.parked.any fun p => MeshPkt.forCore s p e

/-- Whether nothing of an engine is in flight: no instruction, drain, broadcast, context or page transfer, and no access at its landings
(R419). -/
def State.engineQuiet (s : State) (e : EngineId) : Bool :=
  let g := s.eng e
  g.inflight.isEmpty && g.drained && g.bcs.isEmpty && g.ctx.isNone && g.pgLoad.isNone && !(s.landq.any fun q => q.req.who == .engine e)
    && !s.parkedAt e

/-- Whether a region may leave ON (R419). -/
def State.maySleep (s : State) (r : RegionId) : Bool :=
  match RegionId.eng? r with
  | some e => [0, 3, 5, 6].contains (s.engState e) && s.engineQuiet e
  | none => match RegionId.sq? r with
    | some k => (s.sq k).fills.isEmpty && !s.on F.SQ_CTL.busy k.val && !s.on F.SQ_STATUS.flush_busy k.val
    | none => false

/-- A region leaves ON (R418, R419, R466), and its column's segment draws less (R420). -/
def State.sleep (s : State) (r : RegionId) (target : Nat) : State :=
  let s := (s.put F.PWR_RG_STATUS.state target (instOf r)).pllOff r
  (if target = 2 then s.loseRegion r else s).segmentFell r

/-- Slices of a mask that are set. -/
def bitCount (m : Nat) : Nat := ((List.range 16).filter fun i => nbit m i).length

/-- Failed slices of a group of a power instance, by their bits: 121 holds the VMEM groups of the columns, 122 those of the Floor (R412, R417). -/
def State.failedSlices (s : State) (inst group : Nat) : Nat :=
  if inst = 121 then s.get (F.PWR_VM_FAIL.col (group % 4)) 121 (group / 4)
  else if inst = 122 then s.get (F.PWR_FL_FAIL.grp (group % 4)) 122
  else s.get F.PWR_RG_STATUS.failed inst

/-- The ceiling of a slice group, in units of 0.1 A: the rating of its slices in service (R412, R415, R417). -/
def State.ceilingOf (s : State) (inst group : Nat) : Nat :=
  if inst = 121 then 20 * (16 - bitCount (s.failedSlices inst group))
  else if inst = 122 then 30 * (16 - bitCount (s.failedSlices inst group))
  else 30 * s.get F.PWR_RG_STATUS.in_service inst

/-- The ceiling of a region's group. -/
def State.groupCeiling (s : State) (r : RegionId) : Nat := s.ceilingOf (instOf r) 0

/-- The ceiling in force in sixteenths of 0.1 A (R424): the smaller of limit and group ceiling, less the thermal sixteenths. -/
def State.ceiling16 (s : State) (r : RegionId) : Nat :=
  min (s.get F.PWR_RG_CEIL.limit (instOf r)) (s.groupCeiling r) * (16 - s.get F.PWR_RG_CEIL.thermal (instOf r))

end Sys2Proof.Machine
end

