-- ==== Sys2Proof/Machine/EngCtl.lean ====
section
/-! DEFINITION. Commands of `ENG_CTL`, suspension and its context record, cancellation, and firmware page loads (R114, R134-R139, R145-R149,
R167, R168, R419). -/
namespace Sys2Proof.Machine

/-- The commands of `ENG_CTL` in the order in which one write takes them (R135). -/
inductive EngCmd where
  | cancel | clear | suspend | resume | start
  deriving DecidableEq, Repr

/-- Command bits that a write sets, in order (R135, R145). -/
def cmdsOf (v : Nat) : List EngCmd :=
  (if nbit v 3 then [.cancel] else []) ++ (if nbit v 6 then [.clear] else []) ++ (if nbit v 1 then [.suspend] else [])
    ++ (if nbit v 2 then [.resume] else []) ++ (if nbit v 0 then [.start] else [])

/-- States that list a command (R134). -/
def EngCmd.allowed (c : EngCmd) (st : Nat) : Bool :=
  match c with
  | .cancel => st == 1 || st == 2 || st == 3
  | .clear => st == 5 || st == 6
  | .suspend => st == 1
  | .resume => st == 3
  | .start => st == 0

/-- Start (R114, R145, R419). -/
def State.startEngine (s : State) (e : EngineId) : State :=
  let arg (i : Nat) : Word := BitVec.ofNat 64 (s.reg R.ENG_ARG e.val i)
  let s := s.modEng e fun g =>
    let g := g.clearRegs
    { g with s := sSet (sSet (sSet (sSet g.s 1 (arg 0)) 2 (arg 1)) 3 (arg 2)) 4 (arg 3) }
  ((s.setPc e (s.get F.ENG_CTL.entry e.val)).enterState e 1 false).wake (regionOf e)

/-- Resume (R138, R419). -/
def State.resumeEngine (s : State) (e : EngineId) : State :=
  let s := if s.on F.ENG_CTL.restore_ctx e.val then s.modEng e fun g => { g with ctx := some .read }
    else s.modEng e fun g => { g with yieldAt := none }
  (s.enterState e 1 false).wake (regionOf e)

/-- What a cancel does to work in flight (R139): broadcasts stop at their step boundary, and an instruction whose waves were released has
begun writing and completes. -/
def Engine.cancelWork (g : Engine) : Engine :=
  let g := g.cancelAll
  { g with bcs := g.bcs.filter Broadcast.orphan, inflight := g.inflight.map fun y => if y.unit = .bau ∧ y.completed = false then y.finish .ok else y }

/-- The engine returns to IDLE after a cancel (R134, R139). -/
def State.cancelled (s : State) (e : EngineId) : State :=
  let s := s.modEng e fun g => { g.clearRegs with yieldAt := none, ctx := none }
  (s.put F.ENG_STATUS.last_code 9 e.val).enterState e 0 true

/-- Cancel (R139). -/
def State.cancelEngine (s : State) (e : EngineId) : State :=
  if s.engState e = 3 then s.cancelled e
  else
    -- a context read that waits for the region to come ON has not begun (R419)
    let g := (s.eng e).cancelWork
    (s.setEngBcs e { g with ctx := if s.regionOn e then g.ctx else none }).enterState e 4 false

/-- A command takes effect. -/
def State.engCommand (s : State) (e : EngineId) : EngCmd → State
  | .cancel => s.cancelEngine e
  | .clear => (s.setReg R.ENG_FAULT 0 e.val).enterState e 0 false
  | .suspend => s.enterState e 2 false
  | .resume => s.resumeEngine e
  | .start => s.startEngine e

/-- A write of `ENG_CTL` (R135, R145): the first command acts where the state lists it and no fault has arisen; every other sets bad_cmd. -/
def State.writeEngCtl (s : State) (e : EngineId) (v : Nat) : State :=
  let s := s.swFields R.ENG_CTL v e.val
  match cmdsOf v with
  | [] => s
  | c :: rest =>
    let ok := c.allowed (s.engState e) && (s.eng e).bound.isNone
    let s := if ok && rest.isEmpty then s else s.put F.ENG_STATUS.bad_cmd 1 e.val
    if ok then s.engCommand e c else s

/-- A row of `ENG_CTL`: a write whose first command bit is the row's. -/
def State.engRow (s : State) (e : EngineId) (v : Word) (c : EngCmd) : Out :=
  need ((cmdsOf v.toNat).head? == some c) "the write's first command is another one" <|
  s.engReach e (.next (s.writeEngCtl e v.toNat))

/-- ENG_START (R114, R135, R145, R419). -/
def execEngStart (e : EngineId) (v : Word) (s : State) : Out := s.engRow e v .start

/-- ENG_SUSPEND (R135, R136). -/
def execEngSuspend (e : EngineId) (v : Word) (s : State) : Out := s.engRow e v .suspend

/-- ENG_RESUME (R135, R138, R419). -/
def execEngResume (e : EngineId) (v : Word) (s : State) : Out := s.engRow e v .resume

/-- ENG_CANCEL (R135, R139). -/
def execEngCancel (e : EngineId) (v : Word) (s : State) : Out := s.engRow e v .cancel

/-- ENG_CLEAR (R134, R135, R147). -/
def execEngClear (e : EngineId) (v : Word) (s : State) : Out := s.engRow e v .clear

/-- CANCEL_DRAINED (R139). -/
def execCancelDrained (e : EngineId) (s : State) : Out :=
  let g := s.eng e
  need (s.engState e == 4) "the engine is not cancelling" <|
  need (g.inflight.isEmpty && g.drained && g.ctx.isNone) "a completion has not arrived" <|
  .next (s.cancelled e)

/-! ## The context record (R136-R138) -/

/-- Bytes of the context record. -/
def ctxSize : Nat := 2448

/-- The bytes of a list of 64-bit words. -/
def wordBytes (l : List Nat) : List Byte := l.flatMap (leBytes 8)

/-- The context record (R137). A yield at the last index records that index, as 16,384 does not fit: a program restored from it meets the yield again
(DESIGN CHOICE, log entry 68). -/
def State.ctxRecord (s : State) (e : EngineId) : List Byte :=
  let g := s.eng e
  wordBytes ((List.range 32).map fun i => (sGet g.s i).toNat)
    ++ (g.t.toList.flatMap fun t => leBytes 32 t.toNat)
    ++ wordBytes (g.l.toList.map fun r => r.count)
    ++ wordBytes (g.l.toList.map fun r => r.start % 2 ^ 14 + r.stop % 2 ^ 14 * 2 ^ 16)
    ++ wordBytes [(List.range 8).foldl (fun n i => n + b2n (pGet g.p i) * 2 ^ i) 0]
    ++ wordBytes [s.get F.ENG_STATUS.pc e.val + s.get F.ENG_STATUS.yield_tag e.val * 2 ^ 32]
    ++ wordBytes (g.cfg.toList.map BitVec.toNat)

/-- The word at an offset of a record. -/
def ctxWord (b : List Byte) (off : Nat) : Nat := leNat ((b.drop off).take 8)

/-- What an item of a restored record becomes (R138, R143): bits that the item does not define are dropped, and an undefined retain is taken as it
stands (DESIGN CHOICE, log entry 75). -/
def cfgDefined (i v : Nat) : Nat :=
  match i with
  | 0 => v % 2
  | 1 => if v % 2 ^ 20 = 0 then 1000 else v % 2 ^ 20
  | 2 => v % 16
  | _ => 0

/-- Registers from a context record (R137, R138). -/
def Engine.restore (g : Engine) (b : List Byte) : Engine :=
  { g with
    s := Vector.ofFn fun i => if i.val = 0 then 0#64 else BitVec.ofNat 64 (ctxWord b (8 * i.val))
    t := Vector.ofFn fun i => BitVec.ofNat 256 (leNat ((b.drop (0x100 + 32 * i.val)).take 32))
    l := Vector.ofFn fun i =>
      ⟨ctxWord b (0x900 + 8 * i.val) % 2 ^ 32, ctxWord b (0x920 + 8 * i.val) % 2 ^ 14, ctxWord b (0x920 + 8 * i.val) / 2 ^ 16 % 2 ^ 14⟩
    p := Vector.ofFn fun i => i.val != 0 && nbit (ctxWord b 0x940) i.val
    cfg := Vector.ofFn fun i => BitVec.ofNat 64 (cfgDefined i.val (ctxWord b (0x950 + 8 * i.val))) }

/-- The address of the context record (R148). -/
def State.ctxAddr (s : State) (e : EngineId) : Nat := 64 * s.get F.ENG_CTX_ADDR.addr e.val

/-- A context transfer fails: ctx_err, and FAULTED with the index and opcode of the yield (R136, R138). -/
def State.ctxFault (s : State) (e : EngineId) (c : Code) : State :=
  let a := s.ctxAddr e
  let w := faultWord c ((s.eng e).yieldAt.getD 0) 0x04 (if c = .dataErr then noDetail c ((s.eng e).yieldAt.getD 0) else blockOf a)
  let s := s.modEng e fun g => { g with ctx := none, yieldAt := none }
  (s.put F.ENG_STATUS.ctx_err 1 e.val).fault e w.toNat

/-- The engine suspends (R134, R136). -/
def State.suspended (s : State) (e : EngineId) : State := s.enterState e 3 true

/-- YIELD_SUSPEND (R136, R167, R168, R308): the yield retires after all earlier work. -/
def execYieldSuspend (e : EngineId) (s : State) : Out :=
  let g := s.eng e
  need (s.engState e == 2) "the engine is not suspending" <|
  needSome g.inflight.head? "no yield waits" fun x =>
  need (g.yieldAt == some x.idx && opOf x.word == 0x04 && x.done && !x.completed) "no yield waits" <|
  need (g.drained && g.bauIdle) "a drain or a broadcast has not finished" <|
  let r := g.takeEnd
  let y := x.finish r.2.1 (if g.fails.isEmpty then r.2.2 else noDetail r.2.1 x.idx)
  let s := s.setEng e (r.1.retire y)
  if y.code = .ok ∨ bitOf x.word 12 = true then
    let s := s.put F.ENG_STATUS.yield_tag (fld x.word 47 16) e.val
    .next (if s.on F.ENG_CTL.save_ctx e.val then s.modEng e fun g => { g with ctx := some .write } else s.suspended e)
  else .next s

/-- CONTEXT_WRITE_DONE (R136, R139): `r` answers a write to another block. -/
def execContextWriteDone (e : EngineId) (r : Reply) (s : State) : Out :=
  need ((s.eng e).ctx == some .write) "no context record is being written" <|
  need (!s.heldReads e [(s.ctxAddr e, ctxSize)]) "a write waits at its unit" <|
  let q := s.drainWrite e none (s.ctxAddr e) (s.ctxRecord e) r.write
  let s := q.1
  if s.engState e = 4 then .next (s.modEng e fun g => { g with ctx := none })
  else if q.2 = .ok then .next ((s.modEng e fun g => { g with ctx := none }).suspended e)
  else .next (s.ctxFault e q.2)

/-- CONTEXT_READ_DONE (R138, R419): `r` answers a read from another block. -/
def execContextReadDone (e : EngineId) (r : Reply) (s : State) : Out :=
  let a := s.ctxAddr e
  need ((s.eng e).ctx == some .read) "no context record is being read" <|
  need (s.regionOn e) "the region is not on" <|
  need (s.replyFits [(a, ctxSize)] r) "the reply does not answer the read" <|
  need (!s.heldReads e [(a, ctxSize)]) "a read waits at its unit" <|
  let q := s.readVia e a ctxSize r
  let s := s.noteReads e [(a, ctxSize)]
  if s.engState e = 4 then .next (s.modEng e fun g => { g with ctx := none })
  else if q.1 = .ok then
    .next ((s.modEng e fun g => { g.restore q.2 with ctx := none, yieldAt := none }).setPc e (ctxWord q.2 0x948 % 2 ^ 14))
  else .next (s.ctxFault e q.1)

/-! ## Firmware page loads (R149) -/

/-- A write of `ENG_PGCMD` (R149): a load wakes the region that it writes to (log entry 25). -/
def State.writePgcmd (s : State) (e : EngineId) (v : Nat) : State :=
  let s := s.swFields R.ENG_PGCMD v e.val
  let page := s.get F.ENG_PGCMD.page e.val
  let count := s.get F.ENG_PGCMD.count e.val
  if nbit v 9 && !s.on F.ENG_PGCMD.busy e.val then
    if [1, 2, 4].contains (s.engState e) || count == 0 || decide (16 < page + count) then s.put F.ENG_PGCMD.code 5 e.val
    else
      let s := s.modEng e fun g => { g.markPages page count false true with pgLoad := some (s.reg R.ENG_PGSRC e.val, page, count) }
      (s.put F.ENG_PGCMD.busy 1 e.val).wake (regionOf e)
  else s

/-- ENG_PGCMD_GO (R149). -/
def execEngPgcmdGo (e : EngineId) (v : Word) (s : State) : Out := s.engReach e (.next (s.writePgcmd e v.toNat))

/-- PAGE_LOAD_DONE (R107, R129, R149): `r` answers a load from another block. -/
def execPageLoadDone (e : EngineId) (r : Reply) (s : State) : Out :=
  needSome (s.eng e).pgLoad "no load is in progress" fun l =>
  let reads := [(l.1, pageBytes l.2.2)]
  need (s.regionOn e) "the region is not on" <|
  need (s.replyFits reads r) "the reply does not answer the load" <|
  need (!s.heldReads e reads) "a read waits at its unit" <|
  let q := s.readVia e l.1 (pageBytes l.2.2) r
  let s := (s.noteReads e reads).modEng e fun g => { g.loadPages l.2.1 l.2.2 q.1 q.2 with pgLoad := none }
  .next ((s.put F.ENG_PGCMD.code q.1.toNat e.val).put F.ENG_PGCMD.busy 0 e.val)

end Sys2Proof.Machine
end

