-- ==== Sys2Proof/Machine/Curve.lean ====
section
/-! DEFINITION. The curve P-384 (FIPS 186-5, SP 800-186): public keys, the shared secret of a key agreement, signatures with SHA-384 and their
verification (R356, R357, R501, R506, R508, R511-R513, R517). -/
namespace Sys2Proof

/-- The field prime, the coefficient b and the order n of the curve; a is -3. -/
def p384 : Nat := 2 ^ 384 - 2 ^ 128 - 2 ^ 96 + 2 ^ 32 - 1
def p384b : Nat := 0xB3312FA7E23EE7E4988E056BE3F82D19181D9C6EFE8141120314088F5013875AC656398D8A2ED19D2A85C8EDD3EC2AEF
def p384n : Nat := 0xFFFFFFFFFFFFFFFFFFFFFFFFFFFFFFFFFFFFFFFFFFFFFFFFC7634D81F4372DDF581A0DB248B0A77AECEC196ACCC52973

/-- A point: none at infinity. -/
abbrev Point := Option (Nat × Nat)

/-- The base point. -/
def p384g : Point :=
  some (0xAA87CA22BE8B05378EB1C71EF320AD746E1D3B628BA79B9859F741E082542A385502F25DBF55296C3A545E3872760AB7,
    0x3617DE4A96262C6F5D9E98BF9292DC29F8F41DBD289A147CE9DA3113B5F0B8C00A60B1CE1D7E819D7A431D7C90EA0E5F)

/-- A power modulo m, over the low `n` bits of the exponent. -/
def powMod (m b e : Nat) : Nat → Nat
  | 0 => 1 % m
  | n + 1 =>
    let r := powMod m b (e / 2) n
    let r2 := r * r % m
    if e % 2 = 1 then r2 * b % m else r2

/-- The inverse modulo a 384-bit prime. -/
def invMod (m a : Nat) : Nat := powMod m a (m - 2) 384

/-- The difference modulo m of two residues. -/
def subMod (m a b : Nat) : Nat := (a + (m - b % m)) % m

/-- The third point of a line with slope l through a point and one whose abscissa is x2, reflected. -/
def chord (l x1 y1 x2 : Nat) : Point :=
  let x := subMod p384 (l * l) (x1 + x2)
  some (x, subMod p384 (l * subMod p384 x1 x) y1)

/-- The sum of two points. -/
def pointAdd (a b : Point) : Point :=
  match a, b with
  | none, b => b
  | a, none => a
  | some (x1, y1), some (x2, y2) =>
    if x1 = x2 then
      if (y1 + y2) % p384 = 0 then none
      else chord (subMod p384 (3 * x1 * x1) 3 * invMod p384 (2 * y1 % p384) % p384) x1 y1 x2
    else chord (subMod p384 y2 y1 * invMod p384 (subMod p384 x2 x1) % p384) x1 y1 x2

/-- A multiple of a point, over the low `n` bits of the scalar. -/
def pointMul (q : Point) (k : Nat) : Nat → Point
  | 0 => none
  | n + 1 =>
    let r := pointMul q (k / 2) n
    let r := pointAdd r r
    if k % 2 = 1 then pointAdd r q else r

/-- SEC 1 uncompressed form, 97 bytes, and the point of such bytes where they name one of the curve. -/
def pointBytes (q : Point) : List Byte :=
  match q with
  | none => List.replicate 97 0#8
  | some (x, y) => 0x04#8 :: (beBytes 48 x ++ beBytes 48 y)
def pointOf (b : List Byte) : Point :=
  let x := beNat ((b.drop 1).take 48)
  let y := beNat (b.drop 49)
  if b.length = 97 ∧ b.head? = some 0x04#8 ∧ x < p384 ∧ y < p384 ∧ y * y % p384 = (x * x * x + subMod p384 p384b (3 * x)) % p384 then some (x, y) else none

/-- A private key from 56 bytes (FIPS 186-5; R508), and the public key of a private key. -/
def privateKey (c : List Byte) : Nat := beNat (c.take 56) % (p384n - 1) + 1
def publicKey (d : Nat) : List Byte := pointBytes (pointMul p384g d 384)

/-- The shared secret of a private key and a partner's public key, 48 bytes; none where the public key names no point. -/
def sharedSecret (d : Nat) (pub : List Byte) : Option (List Byte) :=
  match pointOf pub with
  | none => none
  | some q => (pointMul (some q) d 384).map fun r => beBytes 48 r.1

/-- The signature of a digest under a private key, with the secret number `k` of the signature: r, then s, 48 bytes each. -/
def ecdsaSign (d : Nat) (digest : List Byte) (k : Nat) : List Byte :=
  let r := (match pointMul p384g k 384 with | some q => q.1 | none => 0) % p384n
  beBytes 48 r ++ beBytes 48 (invMod p384n k * (beNat digest + r * d) % p384n)

/-- Whether a signature over a digest verifies under a public key (R501). -/
def ecdsaOk (pub digest sig : List Byte) : Bool :=
  let r := beNat (sig.take 48)
  let s := beNat (sig.drop 48)
  match pointOf pub with
  | none => false
  | some q =>
    if sig.length = 96 ∧ 1 ≤ r ∧ r < p384n ∧ 1 ≤ s ∧ s < p384n then
      let w := invMod p384n s
      match pointAdd (pointMul p384g (beNat digest * w % p384n) 384) (pointMul (some q) (r * w % p384n) 384) with
      | some x => x.1 % p384n == r
      | none => false
    else false

end Sys2Proof
end

