-- ==== Sys2Proof/Machine/Keys.lean ====
section
/-! DEFINITION. The fuses, certificates and signatures on which the security unit, the link ports and the Frontage rest (R385, R498, R499, R508, R511,
R512, R517). -/
namespace Sys2Proof.Machine

/-- Change the security unit's data. -/
def State.setSec (s : State) (f : Sec → Sec) : State := { s with sec := f s.sec }

/-- An OTP word, and blowing bits of one: a fuse only ever changes from 0 to 1 (R499). -/
def State.otp (s : State) (w : Nat) : Nat := (Tbl.get (fun _ => 0#32) s.sec.otp w).toNat
def State.blow (s : State) (w v : Nat) : State :=
  s.setSec fun x => { x with otp := Tbl.set (fun _ => 0#32) x.otp w (BitVec.ofNat 32 (s.otp w ||| v)) }

/-- Words of OTP as bytes, each word little-endian. -/
def State.otpBytes (s : State) (w n : Nat) : List Byte := (List.range n).flatMap fun i => leBytes 4 (s.otp (w + i))

/-- The device identity certificate (R499). -/
def State.identityCert (s : State) : List Byte := (s.otpBytes 0x29F 0x100).take (min 1024 (s.otp 0x29E))

/-- The Aulays device CA public key (R499). -/
def State.deviceCa (s : State) : List Byte := (s.otpBytes 0x260 25).take 97

/-- The alias private key (R508, R511). -/
def State.aliasKey (s : State) : Nat := privateKey (hkdf384 s.sec.cdi (ascii [97, 108, 105, 97, 115]) 56)

/-- A signature of the alias key over a digest, 96 bytes: its secret number is free (R512, R513, R517). -/
def State.signature (s : State) (d : List Byte) : List Byte := ecdsaSign s.aliasKey d (Config.signNonce s.sec.signed % (p384n - 1) + 1)

/-- A signature is made. -/
def State.noteSigned (s : State) : State := s.setSec fun x => { x with signed := x.signed + 1 }

/-- A partner's chain (R512): the identity certificate verifies under the device CA key, the alias certificate under the identity certificate's key; the
debug flag is 0; both are well formed. -/
def State.chainOk (s : State) (alias_ ident : List Byte) : Bool :=
  Config.certFormed ident && Config.certFormed alias_ && Config.certSigned ident s.deviceCa && Config.certSigned alias_ (Config.certKey ident)
    && !Config.certDebug alias_

/-- The block's certificate chain: the alias certificate, then the identity certificate (R512). -/
def State.certChain (s : State) : List Byte := s.sec.cert ++ s.identityCert

end Sys2Proof.Machine
end

