-- ==== Sys2Proof/Machine/Mesh.lean ====
section
/-! DEFINITION. The Avenue mesh: routing in dimension order, arbitration, delivery, multicast, and the taps and margins of the Crosswalk (R27, R312-R320,
R326-R329, R333, R355, R419, R563). -/
namespace Sys2Proof.Machine

/-- Grid position of a router (R18). -/
def colX (k : SquareId) : Nat := k.val % 8
def colY (k : SquareId) : Nat := k.val / 8

/-- The router at a grid position. -/
def routerAt (x y : Nat) : SquareId := ⟨(x + 8 * y) % 40, Nat.mod_lt _ (by decide)⟩

/-- The next router on the way, first along x, then along y (R317). -/
def nextHop (k dst : SquareId) : SquareId :=
  if colX k < colX dst then routerAt (colX k + 1) (colY k)
  else if colX dst < colX k then routerAt (colX k - 1) (colY k)
  else if colY k < colY dst then routerAt (colX k) (colY k + 1)
  else if colY dst < colY k then routerAt (colX k) (colY k - 1)
  else k

/-- The mesh port that leads to another router (R313, R317). -/
def portTo (k dst : SquareId) : MeshPort :=
  if colX k < colX dst then .east else if colX dst < colX k then .west else if colY k < colY dst then .north else .south

/-- The port by which a packet comes in at the next router. -/
def oppositePort : MeshPort → MeshPort
  | .north => .south | .south => .north | .east => .west | .west => .east
  | q => q

/-- The class order at an output (R314): synchronisation, completion, request. -/
def classRank : MeshBody → Nat
  | .sync _ _ => 0
  | .completion _ _ _ _ _ => 1
  | .request _ => 2
  | .multicast _ _ _ _ _ _ _ => 3

/-- Whether a packet is a multicast copy, which has buffers of its own (R314, R319). -/
def isMulticast (b : MeshBody) : Bool := classRank b == 3

/-- The router that serves a local address: the home square's for DRAM and windows, the column's for a core store (R313, R333). -/
def Target.router : Target → Option SquareId
  | .dram e => some (columnOf e)
  | .core e => some (columnOf e)
  | .window k => some k
  | .control _ => none

/-- The plane of a requester (R314). -/
def planeOf : Requester → Fin 2
  | .core _ => 0
  | .engine e => if e.val < 40 then 0 else 1
  | .remote _ => 1

/-- The port of a requester at its router (R313): an engine's square port, or the Floor port. -/
def reqPort : Requester → MeshPort
  | .engine e => if e.val < 40 then .engineA else .engineB
  | _ => .floor

/-- The port by which a packet leaves its last router (R313, R355): its requester's for a completion, the Floor port for an access to another
block. -/
def State.lastPort (s : State) : MeshBody → MeshPort
  | .sync _ _ => .roundabout
  | .completion who _ _ _ _ => reqPort who
  | .request r => if s.isLocal r.addr.toNat then ((unitPort r.addr.toNat).map Prod.snd).getD .floor else .floor
  | .multicast _ _ _ _ _ _ _ => .square

/-- The output that a packet takes at the router where it is. -/
def State.outPort (s : State) (p : MeshPkt) : MeshPort := if p.dst = p.at_ then s.lastPort p.body else portTo p.at_ p.dst

/-! ## Arbitration (R314, R318) -/

/-- The inputs and outputs of a router, by number. -/
def meshPorts : List MeshPort := [.north, .south, .east, .west, .engineA, .engineB, .square, .floor, .roundabout]
def portNum (q : MeshPort) : Nat := meshPorts.idxOf q

/-- The key of the turn at an output for a class. -/
def turnKey (k : SquareId) (plane : Fin 2) (out : MeshPort) (cls : Nat) : Nat := ((k.val * 2 + plane.val) * 9 + portNum out) * 3 + cls

/-- The input served last at an output for a class, and how often in a row; the last input before any was served. -/
def State.turnOf (s : State) (key : Nat) : Nat × Nat := Tbl.get (fun _ => (8, 0)) s.net.turns key

/-- The inputs in the order of their turns: round robin, but the Floor port keeps its turn as often as its weight says (R314, R337). -/
def State.turnOrder (s : State) (k : SquareId) (plane : Fin 2) (out : MeshPort) (cls : Nat) : List MeshPort :=
  let q := s.turnOf (turnKey k plane out cls)
  let start := if q.1 = portNum .floor ∧ q.2 < s.get F.AV_MODE.floor_weight k.val then q.1 else q.1 + 1
  (List.range 9).map fun i => meshPorts.getD ((start + i) % 9) .floor

/-- A packet of an input has its turn. -/
def State.noteTurn (s : State) (k : SquareId) (plane : Fin 2) (out inp : MeshPort) (cls : Nat) : State :=
  let key := turnKey k plane out cls
  let q := s.turnOf key
  { s with net := { s.net with turns := Tbl.set (fun _ => (8, 0)) s.net.turns key (portNum inp, if q.1 = portNum inp then q.2 + 1 else 1) } }

/-- The oldest packet that a router holds of a class from an input: each class has its own buffer at every port (R314). -/
def State.headAt (s : State) (k : SquareId) (plane : Fin 2) (inp : MeshPort) (cls : Nat) : Option MeshPkt :=
  s.mesh.find? fun p => p.at_ == k && p.plane == plane && p.inp == inp && classRank p.body == cls

/-- The packets that may go next at an output, in the order of their classes and turns. -/
def State.contenders (s : State) (k : SquareId) (plane : Fin 2) (out : MeshPort) : List MeshPkt :=
  [0, 1, 2].flatMap fun cls => (s.turnOrder k plane out cls).filterMap fun inp => (s.headAt k plane inp cls).filter fun p => s.outPort p == out

/-! ## Delivery (R313, R329, R333) -/

/-- Take one packet out of the mesh. -/
def State.unmesh (s : State) (p : MeshPkt) : State := { s with mesh := s.mesh.erase p }

/-- The epoch check of the unit that serves a request (R333): the target engine for its core store, else the home square's router. -/
def State.deliverCheck (s : State) (k : SquareId) (r : MemReq) (t : Target) : EpochCheck :=
  match r.epoch with
  | none => .proceed
  | some ep => match t with
    | .core e => epochCheck ep.toNat (s.get F.ENG_EPOCH.applied e.val) (s.get F.ENG_EPOCH.staged e.val)
    | _ => epochCheck ep.toNat (s.get F.AV_EPOCH.applied k.val) (s.get F.AV_EPOCH.staged k.val)

/-- Go on where the epoch of a request allows it: it waits, or is refused with the unit's applied epoch (R333). -/
def State.withEpoch (s : State) (k : SquareId) (r : MemReq) (t : Target) (go : Option State) : Option State :=
  match s.deliverCheck k r t with
  | .wait => none
  | .skew a => some (s.answer r .epochSkew [] a)
  | .proceed => go

/-- Hold a request while the region of its target wakes (R35, R419). -/
def State.park (s : State) (k : SquareId) (r : MemReq) (region : RegionId) : State :=
  let s := s.wake region
  { s with parked := s.parked ++ [⟨k, reqPort r.who, k, planeOf r.who, .request r⟩] }

/-- An access of more than one sector is served sector by sector, each a transaction of its own (R33, R264, R265). -/
def State.serveSpan (s : State) (r : MemReq) : State :=
  match r.op with
  | .read n =>
    let q := s.readSpan r.who r.addr.toNat n
    (s.noteSpan r.who r.addr.toNat n).answer r q.1 (if q.1 = .ok then q.2 else [])
  | .write b =>
    let q := s.writeSpan r.who r.addr.toNat b
    q.1.answer r q.2 []

/-- A request reaches the unit that serves it (R27, R35, R329, R333, R419, R521): none while it must wait there. -/
def State.deliverRequest (s : State) (k : SquareId) (r : MemReq) : Option State :=
  match s.target r.addr.toNat r.op.size with
  | none => some (s.answer r .unmapped [])
  | some (.control _) => some (s.answer r .accessDenied [])
  | some (.core e) =>
    if (s.eng e).mappedOut then some (s.answer r .unmapped [])
    else if s.resetOf e then some (s.answer r .targetReset [])
    else if !s.engineLinked e then none
    else s.withEpoch k r (.core e) (some (if s.regionOn e then s.serve r else s.park k r (regionOf e)))
  | some (.window q) =>
    if s.on F.SQ_STATUS.mapped_out q.val then some (s.answer r .unmapped [])
    else s.withEpoch k r (.window q) (if s.on F.SQ_CTL.busy q.val then none else some (if s.squareOn q then s.serve r else s.park k r (regionOfSq q)))
  | some (.dram e) =>
    if (s.eng e).dramOut then some (s.answer r .unmapped [])
    else if !s.landingLinked e then none
    else s.withEpoch k r (.dram e) <|
      if !s.squareOn k then some (s.park k r (regionOfSq k))
      else if s.heldSpan r.who r.addr.toNat r.op.size then none
      else some (if oneSector r then s.squareDram k e r [] else s.serveSpan r)

/-- A packet at its last router is delivered (R313, R329, R355): a request to its unit or, for another block, to the Floor router, which needs free
tags; a completion to its requester, or to the Floor router, which sends it to the block that asked. -/
def State.deliverPkt (s : State) (k : SquareId) (plane : Fin 2) : MeshBody → Option State
  | .sync tag _ => some (s.emit (.syncDelivered tag))
  | .completion (.remote b) id c d data => some (s.sendCpl b.toNat (id % 65536) (id / 65536 == 1) c d data)
  | .completion who id c d data => some (s.complete who id c d data)
  | .request r =>
    if s.isLocal r.addr.toNat then s.deliverRequest k r
    else if s.tagsFor r.addr.toNat r.op.size then some (s.originate r (some (k, plane))) else none
  | .multicast _ _ _ _ _ _ _ => none

/-- A packet leaves its router: to the next one, or to its unit. -/
def State.movePkt (s : State) (p : MeshPkt) : Option State :=
  if p.dst = p.at_ then (s.unmesh p).deliverPkt p.at_ p.plane p.body
  else
    let s := s.unmesh p
    some { s with mesh := s.mesh ++ [{ p with at_ := nextHop p.at_ p.dst, inp := oppositePort (portTo p.at_ p.dst) }] }

/-- The next packet that a router moves on a plane, and the state after it: at each output the first that has room, sync before completion before
request, inputs in turn (R314, R317, R318). -/
def State.routerMove (s : State) (k : SquareId) (plane : Fin 2) : Option (MeshPkt × State) :=
  (meshPorts.flatMap fun out => (s.contenders k plane out).map fun p => (out, p)).findSome? fun q =>
    (s.movePkt q.2).map fun s' => (q.2, s'.noteTurn k plane q.1 q.2.inp (classRank q.2.body))

/-- Whether a packet may enter the mesh at a router (R27, R313, R314, R355): from a port of the router, on the plane of its requester. A request enters
at its requester's own router, one of another block at the router of its target; a request of this block for another one leaves there by the Floor
port. -/
def State.mayEnter (s : State) (k : SquareId) (plane : Fin 2) (p : MeshPkt) : Bool :=
  p.at_ == k && p.plane == plane && match p.body with
  | .request r =>
    decide (1 ≤ r.op.size) && planeOf r.who == plane && p.inp == reqPort r.who
      && (match r.who with
        | .engine e => columnOf e == k && s.engineLinked e && !s.resetOf e && s.regionOn e && s.target r.addr.toNat r.op.size != some (.dram e)
        | .core _ => s.carries k (throughLanes 0 ++ throughLanes 1)
        | .remote _ => s.isLocal r.addr.toNat && p.dst == k)
      && (if s.isLocal r.addr.toNat then match s.target r.addr.toNat r.op.size with
          | some t => t.router == some p.dst || t.router.isNone
          | none => true
        else p.dst == k)
  | .completion who _ _ _ _ => planeOf who == plane && match who with
    | .engine e => p.dst == columnOf e
    | _ => true
  | .sync _ _ => p.dst.val == 19
  | .multicast _ _ _ _ _ _ _ => false

/-- MESH_PACKET (R27, R314, R317, R318, R355): `some` packet enters at the router; else the router moves its next packet one hop or delivers it. -/
def execMeshPacket (k : SquareId) (plane : Fin 2) (p : Option MeshPkt) (s : State) : Out :=
  match p with
  | some p => need (s.mayEnter k plane p) "the packet cannot enter here" (.next { s with mesh := s.mesh ++ [p] })
  | none => needSome (s.routerMove k plane) "no packet of the router can move" fun q => .next q.2

/-! ## Multicast (R319, R320) -/

/-- The router of a multicast destination: an engine's column, or a square (R319). -/
def destRouter (squares : Bool) (n : Nat) : SquareId := if squares then ⟨n % 40, Nat.mod_lt _ (by decide)⟩ else ⟨n % 80 % 40, Nat.mod_lt _ (by decide)⟩

/-- Where a branch of a multicast goes (R319). -/
inductive Branch where
  | east | west | north | south | here
  deriving DecidableEq, Repr

/-- The branch of a router that leads to another one. -/
def branchTo (k dst : SquareId) : Branch :=
  if colX k < colX dst then .east else if colX dst < colX k then .west
  else if colY k < colY dst then .north else if colY dst < colY k then .south else .here

/-- The router that a branch leads to. -/
def Branch.next (b : Branch) (k : SquareId) : SquareId :=
  match b with
  | .east => routerAt (colX k + 1) (colY k)
  | .west => routerAt (colX k - 1) (colY k)
  | .north => routerAt (colX k) (colY k + 1)
  | .south => routerAt (colX k) (colY k - 1)
  | .here => k

/-- The next branch of a packet with destinations left: east, west, north, south, then its own ports one by one. -/
def nextBranch (k : SquareId) (squares : Bool) (ds : List Nat) : Option Branch :=
  [Branch.east, .west, .north, .south, .here].find? fun b => ds.any fun n => branchTo k (destRouter squares n) == b

/-- The port by which a branch comes in at the router that it leads to. -/
def Branch.inp : Branch → MeshPort
  | .east => .west | .west => .east | .north => .south | .south => .north | .here => .square

/-- What is left of a multicast packet after a branch: it leaves its buffer when every branch has left (R320). -/
def State.leftOf (s : State) (p : MeshPkt) (rest : List Nat) : State :=
  match p.body with
  | .multicast who id addr bytes sq _ ep =>
    if rest.isEmpty then s.unmesh p
    else { s with mesh := s.mesh.map fun q => if q = p then { p with body := .multicast who id addr bytes sq rest ep } else q }
  | _ => s

/-- One branch of a multicast packet leaves (R320): toward a neighbour, or to the first of the router's own ports that has room; none where none has. A
destination that refuses is answered with its code. -/
def State.branchPkt (s : State) (k : SquareId) (p : MeshPkt) : Option State :=
  match p.body with
  | .multicast who id addr bytes sq ds ep =>
    match nextBranch k sq ds with
    | none => some (s.unmesh p)
    | some b =>
      let mine := ds.filter fun n => branchTo k (destRouter sq n) == b
      if b = .here then
        mine.findSome? fun n =>
          (s.deliverRequest k ⟨who, id, BitVec.ofNat 64 (retarget addr.toNat n sq), .write bytes, ep⟩).map fun s => s.leftOf p (ds.erase n)
      else
        let s' := s.leftOf p (ds.filter fun n => !mine.contains n)
        some { s' with mesh := s'.mesh ++ [{ p with at_ := b.next k, inp := b.inp, body := .multicast who id addr bytes sq mine ep }] }
  | _ => none

/-- Whether a multicast packet may enter: it writes to engine core stores or to square windows of this block (R172, R319). -/
def State.mayBranch (s : State) (k : SquareId) (plane : Fin 2) (p : MeshPkt) : Bool :=
  p.at_ == k && p.plane == plane && match p.body with
  | .multicast who _ addr bytes sq ds _ => planeOf who == plane && p.inp == reqPort who && !ds.isEmpty && s.isLocal addr.toNat && decide (1 ≤ bytes.length)
      && selOf addr.toNat == (if sq then 2 else 3) && ds.all fun n => decide (n < if sq then 40 else 80)
  | _ => false

/-- MULTICAST_BRANCH (R319, R320): `some` packet enters at its source router; else the oldest multicast packet of an input sends one branch. -/
def execMulticastBranch (k : SquareId) (plane : Fin 2) (p : Option MeshPkt) (s : State) : Out :=
  match p with
  | some p => need (s.mayBranch k plane p) "the packet cannot enter here" (.next { s with mesh := s.mesh ++ [p] })
  | none =>
    needSome ((meshPorts.filterMap fun inp => s.headAt k plane inp 3).findSome? fun p => s.branchPkt k p) "no branch waits, or none has room" fun s' => .next s'

/-- Requests held for a region that has come ON are served; one that must wait for something else waits at its router (R35, R419). -/
def State.unpark (s : State) (p : MeshPkt → Bool) : State :=
  let l := s.parked.filter p
  let s := { s with parked := s.parked.filter fun q => !p q }
  l.foldl (fun s q => match q.body with
    | .request r => (s.deliverRequest q.at_ r).getD { s with mesh := s.mesh ++ [q] }
    | _ => s) s

/-- DELIVERED_RESET_TIMEOUT (R329): requests delivered to an engine in reset are answered with TARGET_RESET; their bytes keep what they hold. -/
def execDeliveredResetTimeout (e : EngineId) (s : State) : Out :=
  need (s.resetOf e && s.parkedAt e) "the engine is not in reset, or holds nothing" <|
  let l := s.parked.filter fun p => MeshPkt.forCore s p e
  let s' := { s with parked := s.parked.filter fun p => !MeshPkt.forCore s p e }
  .next (l.foldl (fun s p => match p.body with
    | .request r => s.answer r .targetReset []
    | _ => s) s')

/-- AV_DISCARD_READ (R14). -/
def execAvDiscardRead (k : SquareId) (s : State) : Out := .next (s.swRead R.AV_DISCARD k.val 0).1

/-! ## The Crosswalk (R326-R328, R563) -/

/-- The margin of a bundle. -/
def State.marginOf (s : State) (key : Nat) : Nat := Tbl.get (fun _ => 0) s.margins key

/-- Bundles present at an interface, and its layer bundle: the lowest that serves an engine (R337; log entry 28). -/
def xwBundles (i : Nat) : List Nat := (List.range 16).filter fun b => xwPresent i b
def xwLayerBundle (i : Nat) : Nat := ((xwBundles i).find? fun b => decide (8 ≤ b)).getD 0

/-- `AV_XW_TAP` and `AV_XW_MARGIN` report the step in force (R337, R468). -/
def State.refreshXw (s : State) (k : SquareId) : State :=
  let step := s.get F.CLK_STEP.eff
  let tap := (List.range 7).foldl (fun n i =>
    let keys := (xwBundles i).map fun b => xwKey k.val i b step
    n + (b2n (keys.all fun q => s.tapOf q != 0) * 64 + (s.tapOf (xwKey k.val i (xwLayerBundle i) step) - 1)) * 2 ^ (8 * i)) 0
  let margin := (List.range 7).foldl (fun n i =>
    let ms := (xwBundles i).map fun b => s.marginOf (xwKey k.val i b step)
    n + (ms.foldl min 63) * 2 ^ (8 * i)) 0
  (s.setReg R.AV_XW_TAP tap k.val).setReg R.AV_XW_MARGIN margin k.val

/-- The registers of every router follow. -/
def State.refreshAllXw (s : State) : State := (List.finRange 40).foldl State.refreshXw s

/-- Set a bundle's tap and margin at a step. -/
def State.setTap (s : State) (key tap margin : Nat) : State :=
  { s with taps := Tbl.set (fun _ => 0) s.taps key (tap + 1), margins := Tbl.set (fun _ => 0) s.margins key margin }

/-- A bundle without a tap. -/
def State.clearTap (s : State) (key : Nat) : State :=
  { s with taps := Tbl.set (fun _ => 0) s.taps key 0, margins := Tbl.set (fun _ => 0) s.margins key 0 }

/-- The ranges of passing taps of a sweep, as lowest tap and length, in order. -/
def passRanges (mask : Nat) : List (Nat × Nat) :=
  let r := (List.range 64).foldl (fun (r : List (Nat × Nat) × Nat) t =>
    if nbit mask t then (r.1, r.2 + 1) else (if r.2 = 0 then r.1 else r.1 ++ [(t - r.2, r.2)], 0)) ([], 0)
  if r.2 = 0 then r.1 else r.1 ++ [(64 - r.2, r.2)]

/-- The widest passing range, the lowest of equal ones (R327; log entry 79). -/
def widestRange (mask : Nat) : Nat × Nat := (passRanges mask).foldl (fun m r => if m.2 < r.2 then r else m) (0, 0)

/-- The tap that a sweep sets, the middle of the widest passing range, and its margin on the narrower side: none where the range has fewer than 16
taps (R327). -/
def sweepTap (mask : Nat) : Option (Nat × Nat) :=
  let r := widestRange mask
  if r.2 < 16 then none else some (r.1 + (r.2 - 1) / 2, (r.2 - 1) / 2)

/-- The sweep of a bundle that the command does not name: a range of at least 16 taps somewhere (log entry 46). -/
def freeSweep (n key : Nat) : Nat :=
  let lo := (Config.xwLow n key).toNat % 49
  let len := 16 + (Config.xwRange n key).toNat % (49 - lo)
  (2 ^ len - 1) * 2 ^ lo

/-- A bundle fails calibration and carries nothing (R27, R327). -/
def State.bundleFails (s : State) (k : SquareId) (i b step : Nat) : State :=
  (s.clearTap (xwKey k.val i b step)).logEvent 0x0401 0x12 k.val 3 (i + b * 2 ^ 8 + step * 2 ^ 12)

/-- A bundle is calibrated with a sweep at a step (R327). -/
def State.calibrate (s : State) (k : SquareId) (i b step mask : Nat) : State :=
  match sweepTap mask with
  | some t => s.setTap (xwKey k.val i b step) t.1 t.2
  | none => s.bundleFails k i b step

/-- A bundle is calibrated with a sweep that no command names. -/
def State.calibrateFree (s : State) (k : SquareId) (i b step : Nat) : State :=
  (s.calibrate k i b step (freeSweep s.drawn (xwKey k.val i b step))).draw

/-- XW_MARGIN_LOW (R327): a margin of fewer than 4 taps is logged, and the bundle keeps its tap. -/
def execXwMarginLow (k : SquareId) (i : Fin 7) (b : Fin 16) (margin : BitVec 6) (s : State) : Out :=
  let step := s.get F.CLK_STEP.eff
  let key := xwKey k.val i.val b.val step
  need (xwPresent i.val b.val && s.tapOf key != 0) "the bundle is not present or not calibrated" <|
  need (decide (margin.toNat < 4)) "the margin is not low" <|
  let s := { s with margins := Tbl.set (fun _ => 0) s.margins key margin.toNat }
  .next ((s.refreshXw k).logEvent 0x0402 0x12 k.val 1 (i.val + b.val * 2 ^ 8 + step * 2 ^ 12 + margin.toNat * 2 ^ 16))

end Sys2Proof.Machine
end

