-- ==== Sys2Proof/Machine/Training.lean ====
section
/-! DEFINITION. Training of a Pyler port, its handshake, keys and lanes, and the loss of a partner (R351, R356-R359, R363-R370). -/
namespace Sys2Proof.Machine

/-- Set the state of a port (R375). -/
def State.putPort (s : State) (p : PortId) (st : Nat) : State := s.put F.PL_STATUS.state st p.val

/-- The cells of a receive buffer (R362): 32 KiB, or 4 KiB for sync and management. -/
def bufferCells (i : Nat) : Nat := if i / 2 = 2 ∨ i / 2 = 4 then 256 else 2048

/-! ## Losing a block (R369, R370) -/

/-- Whether an instruction waits on a flag of a remote home. -/
def State.waitsHome (s : State) (b : Nat) (x : Entry) : Bool :=
  let f := fld x.word 23 16
  opOf x.word == 0x82 && x.sent && s.flagRemote f && s.flagHome f == b

/-- The notice that a block is lost goes to the partner of an ACTIVE port that takes it (R349, R370). -/
def State.sendNotice (s : State) (b : Nat) (p : PortId) : State :=
  if s.portActive p ∧ (p ≠ 7 ∨ s.on F.PL_EXPRESS.mode 7) then
    let k := s.newPkt 8 (s.get F.PL_STATUS.partner p.val) 0 0 (mgtAux 3 b) []
    s.enqueue none k p k
  else s

/-- A block is decided or notified lost (R370). -/
def State.loseBlock (s : State) (b : Nat) (onPort : Option PortId) : State :=
  let s := { s with net := { s.net with suspects := s.net.suspects.filter fun q => q != b } }
  if s.isLost b then s
  else
    let s := s.setReg R.PL_LOST (putBits (s.reg R.PL_LOST 0 (b / 64)) (b % 64) 1 1) 0 (b / 64)
    let s := ((List.finRange 8).filter fun p => some p != onPort).foldl (fun s p => s.sendNotice b p) s
    let s := s.failOuts fun o => o.dst == b
    let s := (s.roundaboutLost b).endWaits (s.waitsHome b) .linkDown
    (s.log 0x0502 0x20 (match onPort with | some p => p.val | none => 0) 2 .linkDown b).emit (.blockLost b)

/-! ## Losing a partner (R367, R368) -/

/-- Packets queued for a port go another way, requests that left through it complete with LINK_DOWN, and its replay buffer is dropped. -/
def State.emptyPort (s : State) (p : PortId) : State :=
  let x := s.port p
  let s := s.setPort p { Port.fresh with
    asym := x.asym, warm := x.warm, failed := x.failed, rxOut := x.rxOut, txOut := x.txOut, eq := x.eq, inq := x.inq, compq := x.compq
    tollMs := x.tollMs }
  let s := (s.put F.PL_LANES.swap 0x3F p.val).put F.PL_STATUS.half 0 p.val
  let s := x.txq.foldl (fun s q => s.sendOut q.inp q.orig) s
  s.failOuts fun o => o.port == some p

/-- A port loses its partner (R367-R369): `down` is the DOWN that the port sends first, where it takes the link down itself. -/
def State.losePort (s : State) (p : PortId) (cause : Nat) (down : Option Bool) : State :=
  let s := match down with
    | some leaving => if s.portState p = 3 ∨ s.portState p = 4 then s.sendCtl p (.down leaving) else s
    | none => s
  let partner := s.get F.PL_STATUS.partner p.val
  let known := s.on F.PL_STATUS.partner_valid p.val
  let s := ((s.putPort p 5).put F.PL_STATUS.cause cause p.val).put F.PL_STATUS.partner_valid 0 p.val
  let s := s.emptyPort p
  let s := if s.get F.PL_TIME.parent = p.val then s.put F.PL_TIME.locked 0 else s
  let s := (s.log 0x0501 0x20 p.val 2 .linkDown (partner + cause * 2 ^ 16)).emit (.portLost p partner cause)
  if p.val < 6 ∧ known = true then
    if cause = 3 then s.loseBlock partner none
    else if s.isLost partner then s
    else { s with net := { s.net with suspects := (s.net.suspects.filter fun q => q != partner) ++ [partner] } }
  else s

/-! ## Training (R363, R364) -/

/-- The size of a torus port's dimension is 1: the port stays DISABLED (R363). -/
def State.portIdle (s : State) (p : PortId) : Bool := decide (p.val < 6) && s.sizeOf (p.val / 2) == 1

/-- A port starts its training (R363). A held block keeps its ports disabled (R477). -/
def State.train (s : State) (p : PortId) : State :=
  if s.portIdle p ∨ s.on F.AON_STATUS.held then s.putPort p 0
  else
    let x := s.port p
    let s := s.setPort p { Port.fresh with warm := s.boot.memo.isSome && !s.on F.PL_CTL.cold p.val, inq := x.inq, compq := x.compq, tollMs := x.tollMs }
    (s.putPort p 1).bump F.PL_STATUS.trains p.val

/-- The port is DISABLED, its lanes electrically idle (R375). -/
def State.disablePort (s : State) (p : PortId) : State :=
  let s := ((s.putPort p 0).put F.PL_STATUS.partner_valid 0 p.val).emptyPort p
  if s.get F.PL_TIME.parent = p.val then s.put F.PL_TIME.locked 0 else s

/-- PL_ENABLE (R363, R375). -/
def State.enablePort (s : State) (p : PortId) (on : Bool) : State :=
  let was := s.on F.PL_CTL.enable p.val
  let s := s.put F.PL_CTL.enable (b2n on) p.val
  if on = was then s else if on then s.train p else s.disablePort p

/-- PL_ENABLE (R363). -/
def execPlEnable (p : PortId) (s : State) : Out := .next (s.enablePort p true)

/-- PL_DISABLE (R375). -/
def execPlDisable (p : PortId) (s : State) : Out := .next (s.enablePort p false)

/-- `PL_CTL.down` (R367): a port that has or seeks a partner goes down. -/
def State.downPort (s : State) (p : PortId) : State :=
  if 1 ≤ s.portState p ∧ s.portState p ≤ 4 then s.losePort p 8 (some false) else s

/-- PL_DOWN (R367). -/
def execPlDown (p : PortId) (s : State) : Out := .next (s.downPort p)

/-- The role that a port has, and the role that it expects of its partner: the opposite port of its dimension, or its own (R339, R363). -/
def roleOf (p : PortId) : Nat := p.val
def expectedRole (p : PortId) : Nat := if p.val < 6 then p.val ^^^ 1 else p.val

/-- This block's HELLO of a new handshake leaves: its nonce and its ephemeral private key are random (R356, R358). -/
def State.sayHello (s : State) (p : PortId) : State :=
  let x := s.port p
  let d := privateKey ((List.range 56).map fun i => Config.portScalar s.drawn i)
  let h : Hello :=
    { id := BitVec.ofNat 12 s.myId, role := BitVec.ofNat 3 (roleOf p), nonce := (List.range 32).map fun i => Config.portNonce s.drawn i
      pubKey := publicKey d, alias_ := s.sec.cert, ident := s.identityCert
      toggle := BitVec.ofNat 64 (if s.portActive p then x.txSeq + Config.rekeyLead s.drawn else 0) }
  let s := s.setPort p { x with hello := none, keys := { x.keys with mine := some h, scalar := d } }
  s.draw.emit (.sendHello p h)

/-- A new handshake beside the running traffic begins with a HELLO (R358). -/
def State.rekey (s : State) (p : PortId) : State :=
  if s.portActive p ∧ (s.port p).rekeying = false then (s.setPort p { s.port p with rekeying := true }).sayHello p else s

/-- PL_REKEY (R358). -/
def execPlRekey (p : PortId) (s : State) : Out := .next (s.rekey p)

/-- REKEY_TIMER (R358): 24 h have passed. -/
def execRekeyTimer (p : PortId) (s : State) : Out := need (s.portActive p) "the port is not ACTIVE" (.next (s.rekey p))

/-- A write of `PL_CTL` (R375). -/
def State.writePlCtl (s : State) (p : PortId) (v : Nat) : State :=
  let s := (s.put F.PL_CTL.cold (nbits v 2 2) p.val).put F.PL_CTL.allow_half (nbits v 1 1) p.val
  let s := s.enablePort p (nbit v 0)
  let s := if nbit v 3 then s.downPort p else s
  if nbit v 4 then s.rekey p else s

/-- A 6-bit lane number of a list, 0x3F where there is none. -/
def laneAt (l : List Nat) (i : Nat) : Nat := (l[i]?).getD 0x3F

/-- Set the lane map of a port: the registers name the two lowest lanes that are mapped out (R363, R375). -/
def State.putLanes (s : State) (p : PortId) (rx tx : List Nat) : State :=
  let s := s.setPort p { s.port p with rxOut := rx, txOut := tx }
  (((s.put F.PL_LANES.rx_out0 (laneAt rx 0) p.val).put F.PL_LANES.rx_out1 (laneAt rx 1) p.val).put F.PL_LANES.tx_out0 (laneAt tx 0) p.val).put
    F.PL_LANES.tx_out1 (laneAt tx 1) p.val

/-- Lanes that failed or that the ledger maps out, in increasing order. -/
def State.badLanes (s : State) (p : PortId) (tx : Bool) (bad : List (Fin 34)) : List Nat :=
  (List.range 34).filter fun i => bad.any (fun b => b.val == i) || s.boot.lanes.contains (p.val, tx, i)

/-- Bytes of a port's record in the memo in use (R364, R492), and a number in it. -/
def State.recordBytes (s : State) (p : PortId) (off n : Nat) : List Byte :=
  match s.boot.memo with
  | some m => s.bytes (spFlash + m + 0x10440 + 256 * p.val + off) n
  | none => List.replicate n 0#8
def State.portRecord (s : State) (p : PortId) (off n : Nat) : Nat := leNat (s.recordBytes p off n)

/-- The lanes that a field of the record maps out (R364). -/
def State.recordLanes (s : State) (p : PortId) (off : Nat) : List Nat :=
  let v := s.portRecord p off 2
  ([nbits v 5 0, nbits v 11 6].filter fun l => decide (l < 34)).eraseDups

/-- Lanes are aligned next, at full or half width, with the equaliser settings in use. -/
def State.toAlign (s : State) (p : PortId) (half : Bool) (rx tx : List Nat) (eq : List Byte) : State :=
  ((s.setPort p { s.port p with narrow := half, eq := eq }).putLanes p rx tx).putPort p 2

/-- The outcome of a cold training's lane tests (R363); what the equalisers have adapted to is free (R364). -/
def State.laneMap (s : State) (p : PortId) (rx tx : List Nat) : State :=
  let n := max rx.length tx.length
  let eq := (List.range 136).map fun i => Config.equaliser s.drawn i
  let s := s.draw
  if n ≤ 2 then s.toAlign p false rx tx eq
  else if n ≤ 18 ∧ s.on F.PL_CTL.allow_half p.val then s.toAlign p true rx tx eq
  else
    let s := s.losePort p 7 none
    s.setPort p { s.port p with failed := true }

/-- ELECTRICAL_DONE (R363, R364): a warm start takes its lane map and its equaliser settings from the memo record when every lane verifies with them,
and trains cold otherwise. -/
def execElectricalDone (p : PortId) (rxBad txBad : List (Fin 34)) (memoOk : Bool) (s : State) : Out :=
  need (s.portState p == 1) "the port is not in ELECTRICAL" <|
  if (s.port p).warm then
    if memoOk ∧ nbit (s.portRecord p 0x33 1) 0 then
      .next (s.toAlign p (nbit (s.portRecord p 0x33 1) 1) (s.recordLanes p 0x34) (s.recordLanes p 0x36) (s.recordBytes p 0x40 136))
    else .next (s.setPort p { s.port p with warm := false })
  else .next (s.laneMap p (s.badLanes p false rxBad) (s.badLanes p true txBad))

/-- ALIGN_DONE (R351, R356, R363): a port does not enter its handshake before the block ID is locked. -/
def execAlignDone (p : PortId) (ok : Bool) (asym : Time16) (s : State) : Out :=
  need (s.portState p == 2) "the port is not in ALIGN" <|
  if ok = false then .next (s.losePort p 5 none)
  else if s.on F.AON_BLOCK_ID.lock = false then .next (s.losePort p 9 none)
  else .next (((s.setPort p { s.port p with asym := asym, txWord := 0, rxPair := 0 }).putPort p 3).sayHello p)

/-! ## Handshake and keys (R356-R358) -/

/-- The partner ID that a port expects; none where it can have no partner (R363). -/
def State.expectedId (s : State) (p : PortId) : Option Nat :=
  let me := s.myId
  if p.val < 6 then
    let dim := p.val / 2
    let n := s.sizeOf dim
    let c := (coordOf me dim + if p.val % 2 = 0 then 1 else n - 1) % n
    some (putBits me (if dim = 0 then 0 else if dim = 1 then 4 else 8) (if dim = 2 then 3 else 4) c)
  else if p.val = 6 then (if s.on F.PL_TOPO.twin then some (me ^^^ 0x800) else none)
  else if s.on F.PL_EXPRESS.mode 7 then some (s.get F.PL_EXPRESS.partner 7) else some me

/-- The signature of this block's FINISH: over both HELLOs, its own first (R356). -/
def State.sayFinish (s : State) (p : PortId) (h : Hello) : State :=
  match (s.port p).keys.mine with
  | some m => s.noteSigned.emit (.sendFinish p (s.signature (sha384 (Config.helloBytes m h))))
  | none => s

/-- HELLO (R356, R358, R363): the partner's ID and role must be the expected ones; a FINISH answers it. One beside running traffic that this block has not
asked for is answered with its own HELLO first. -/
def execHello (p : PortId) (h : Hello) (s : State) : Out :=
  need ((s.portState p == 3 || s.portActive p) && (s.port p).hello.isNone) "no HELLO is awaited" <|
  if s.expectedId p = some h.id.toNat ∧ h.role.toNat = expectedRole p then
    let s := s.rekey p
    .next ((s.setPort p { s.port p with hello := some h }).sayFinish p h)
  else .next (s.losePort p 6 (some false))

/-- The partner is not the one that the memo record names (R364, R512). -/
def State.memoStale (s : State) (p : PortId) (h : Hello) : Bool :=
  nbit (s.portRecord p 0x33 1) 0 && s.recordBytes p 0 48 != sha384 (Config.certKey h.ident)

/-- Whether the end with the lower ID is this block (R357). -/
def lowerEnd (m h : Hello) : Bool := decide (m.id.toNat ≤ h.id.toNat)

/-- The keys of both directions from the shared secret and the nonces, the lower ID's first (R357): sending, receiving. -/
def linkKeys (m h : Hello) (secret : List Byte) : LinkKey × LinkKey :=
  let low := lowerEnd m h
  let prk := hkdfExtract (if low then m.nonce ++ h.nonce else h.nonce ++ m.nonce) secret
  let key (d : Bool) : LinkKey := let o := hkdfExpand prk (Config.linkInfo d) 36; ⟨o.take 32, o.drop 32⟩
  (key low, key !low)

/-- The next key of a direction (R358). -/
def nextKey (k : LinkKey) : LinkKey := { k with key := hkdfExpand k.key Config.phaseInfo 32 }

/-- Keys are in force and the port enters ACTIVE (R344, R356, R357, R363). -/
def State.activate (s : State) (p : PortId) (h : Hello) (k : LinkKey × LinkKey) : State :=
  let x := s.port p
  let held (i : Nat) : Nat := ((x.inq ++ x.compq).filter fun k => (laneOf k).val == i).foldl (fun n k => n + cellsOf k) 0
  let s := s.setPort p { x with
    txSeq := 0, rxNext := 0, replay := [], hello := none, keys := { KeyStore.empty with tx := k.1, rx := k.2 }
    rxFree := Vector.ofFn fun i => bufferCells i.val - held i.val, credT := Vector.replicate 10 s.btime }
  let s := ((s.put F.PL_STATUS.partner h.id.toNat p.val).put F.PL_STATUS.partner_valid 1 p.val).put F.PL_STATUS.half (b2n x.narrow) p.val
  (s.put F.PL_STATUS.memo_stale (b2n (s.memoStale p h)) p.val).putPort p 4

/-- A new handshake's keys come into use in each direction at the toggle of kphase that the handshake agreed on (R358). -/
def State.newKeys (s : State) (p : PortId) (m h : Hello) (k : LinkKey × LinkKey) : State :=
  let x := s.port p
  s.setPort p { x with
    rekeying := false, hello := none
    keys := { x.keys with nextTx := some (k.1, max m.toggle.toNat x.txSeq), nextRx := some (k.2, h.toggle.toNat), mine := none, scalar := 0 } }

/-- Whether a FINISH's signature and the chain of its sender verify (R356, R512). -/
def State.finishOk (s : State) (m h : Hello) (sig : List Byte) : Bool :=
  s.chainOk h.alias_ h.ident && ecdsaOk (Config.certKey h.alias_) (sha384 (Config.helloBytes h m)) sig

/-- FINISH (R356-R358): the chain, the signature and the partner's ephemeral key verify, and both ends have the keys; or the port goes down. -/
def execFinish (p : PortId) (sig : List Byte) (s : State) : Out :=
  let x := s.port p
  needSome x.hello "no handshake is in progress" fun h =>
  needSome x.keys.mine "no handshake is in progress" fun m =>
  need (s.portState p == 3 || s.portActive p) "no handshake is in progress" <|
  match sharedSecret x.keys.scalar h.pubKey with
  | some z =>
    if s.finishOk m h sig = false then .next (s.losePort p 5 (some false))
    else if s.portActive p then .next (s.newKeys p m h (linkKeys m h z))
    else .next (s.activate p h (linkKeys m h z))
  | none => .next (s.losePort p 5 (some false))

/-- HOLDOFF_EXPIRY (R363). -/
def execHoldoffExpiry (p : PortId) (s : State) : Out :=
  need (s.portState p == 5 && s.on F.PL_CTL.enable p.val && !(s.port p).failed) "the port does not wait to train again" (.next (s.train p))

/-- KEY_PHASE_ADVANCE (R358). -/
def execKeyPhaseAdvance (p : PortId) (s : State) : Out :=
  let x := s.port p
  need (s.portActive p && decide (x.phaseStart + 2 ^ 36 ≤ x.txSeq)) "the phase has not had 2^36 flits" <|
  .next (s.setPort p { x with kphaseTx := !x.kphaseTx, phaseStart := x.txSeq, keys := { x.keys with tx := nextKey x.keys.tx } })

/-- NO_FLIT_TIMEOUT (R367): 2 µs without an accepted flit. -/
def execNoFlitTimeout (p : PortId) (s : State) : Out := need (s.portActive p) "the port is not ACTIVE" (.next (s.losePort p 1 (some false)))

/-! ## Lane repair (R340, R365) -/

/-- The logical lanes that corrected more symbols in the millisecond than the limit. -/
def State.worstLane (s : State) (p : PortId) : Option Nat :=
  (List.range 32).find? fun i => decide (s.get F.PL_LANES.limit p.val < Tbl.get (fun _ => 0) (s.port p).laneErrs i)

/-- The lane that a receiver brings in for a failing one: the lowest spare. -/
def Port.spare (x : Port) : Option Nat := ((List.range 34).filter fun i => !x.rxOut.contains i)[32]?

/-- A lane is to be replaced, or the port goes to half width, at a codeword pair that the partner hears of (R365). -/
def State.startRepair (s : State) (p : PortId) (i : Nat) : State :=
  let x := s.port p
  let old := laneAt (lanesIn x.rxOut false) i
  let pair := (x.rxPair + 256) % 512
  match x.spare with
  | some n =>
    let s := (s.setPort p { x with repair := some ⟨old, some n, pair⟩ }).put F.PL_LANES.swap n p.val
    s.sendCtl p (.lane (BitVec.ofNat 6 old) (BitVec.ofNat 9 pair))
  | none =>
    if s.on F.PL_CTL.allow_half p.val then
      (s.setPort p { x with repair := some ⟨old, none, pair⟩ }).sendCtl p (.lane 0x3F#6 (BitVec.ofNat 9 pair))
    else s

/-- LANE_ERROR_WINDOW (R365): a millisecond ends; the lowest logical lane above the limit is to be replaced by a spare, or the port goes to half
width. -/
def execLaneErrorWindow (p : PortId) (s : State) : Out :=
  need (s.portActive p) "the port is not ACTIVE" <|
  let worst := s.worstLane p
  let s := s.setPort p { s.port p with laneErrs := [] }
  match worst, (s.port p).repair with
  | some i, none => if s.on F.PL_STATUS.half p.val then .next s else .next (s.startRepair p i)
  | _, _ => .next s

/-- LANE_SWITCH (R365): the named codeword pair has come. -/
def execLaneSwitch (p : PortId) (s : State) : Out :=
  needSome (s.port p).repair "no lane is being replaced" fun r =>
  need (s.portActive p && (s.port p).rxPair == r.pair) "the port is not ACTIVE, or the codeword pair has not come" <|
  let s := s.setPort p { s.port p with repair := none }
  match r.spare with
  | some _ => .next (((s.mapOut p false r.old).put F.PL_LANES.swap 0x3F p.val).logRepair p r.old false false)
  | none => .next ((s.goHalf p).logRepair p r.old false true)

end Sys2Proof.Machine
end

