-- ==== Sys2Proof/Machine/Links.lean ====
section
/-! DEFINITION. Flits received, the Tollgate, packets forwarded and served, credits, probes of a lost partner, and the time packets
(R344-R350, R355, R359-R362, R367-R371, R373, R376). -/
namespace Sys2Proof.Machine

/-! ## The Tollgate (R360, R361, R376) -/

/-- What the Tollgate finds (the kinds of `TOLL_FIRST`): it drops the packet, or answers a request with ACCESS_DENIED. -/
inductive Toll where
  | pass
  | drop (kind : Nat)
  | deny (kind : Nat)
  deriving DecidableEq, Repr

/-- Data and length fit the type (R349), and the header's reserved bits, code and hop count are in order (R360). -/
def framed (k : Pkt) : Bool :=
  let t := k.ptype.toNat
  let data := if k.hasData then k.data.length == k.len.toNat + 1 else k.data.isEmpty
  decide (1 ≤ t) && decide (t ≤ 8) && !k.resv && data && decide (k.hops.toNat ≤ 40)
    && (if t = 3 then (Code.ofCode k.code.toNat).isSome else k.hasData == (t == 2 || t == 6 || t == 7))
    && (t != 6 || k.data.length == 32)

/-- Whether a type is accepted on a port (R349). -/
def State.typeOk (s : State) (p : PortId) (t : Nat) : Bool :=
  if t ≤ 3 then true else if t = 7 then p.val == 6 else p.val != 7 || s.on F.PL_EXPRESS.mode 7

/-- The source-identity check (R361). -/
def State.sourceOk (s : State) (p : PortId) (k : Pkt) : Bool :=
  let src := k.src.toNat
  let dst := k.dst.toNat
  let me := s.myId
  if k.hops.toNat = 0 then
    if p.val = 7 ∧ s.on F.PL_EXPRESS.mode 7 = false then src == me && k.spur else src == s.get F.PL_STATUS.partner p.val
  else if p.val < 2 then coordOf src 1 == coordOf me 1 && coordOf src 2 == coordOf me 2
  else if p.val < 4 then coordOf src 2 == coordOf me 2 && coordOf dst 0 == coordOf me 0
  else if p.val < 6 then coordOf dst 0 == coordOf me 0 && coordOf dst 1 == coordOf me 1
  else false

/-- Whether a packet that passed is for this block, and not for the device on PL7 (R352). -/
def State.isHere (s : State) (p : PortId) (k : Pkt) : Bool := k.dst.toNat == s.myId && !(k.spur && p.val != 7)

/-- The twin window as offsets of region 0x0 (R371, R375). -/
def State.twinWindow (s : State) : Nat × Nat :=
  let lo := s.get F.PL_TWIN_WIN.base 6 * 2 ^ 21
  (lo, lo + s.get F.PL_TWIN_WIN.size 6 * 2 ^ 21)

/-- The target checks of a request for this block (R360): region 0xF, a region that is not enabled, the twin window. -/
def State.targetToll (s : State) (p : PortId) (k : Pkt) : Toll :=
  let sel := k.addr.toNat / 2 ^ 48
  let lo := k.addr.toNat % 2 ^ 48
  let hi := lo + k.len.toNat + 1
  let w := s.twinWindow
  if sel = 15 then .deny 4
  else if 4 ≤ sel ∨ nbit (s.get F.TOLL_CFG.regions p.val) sel = false then .deny 3
  else if k.ptype = 7 then (if sel = 0 ∧ w.1 ≤ lo ∧ hi ≤ w.2 then .pass else .deny 5)
  else if p ≠ 6 ∧ sel = 0 ∧ w.1 < w.2 ∧ lo < w.2 ∧ w.1 < hi then .deny 5
  else .pass

/-- The checks after framing, in order (R360). -/
def State.toll (s : State) (p : PortId) (k : Pkt) : Toll :=
  if vget (s.port p).rxCred (laneOf k) < cellsOf k then .drop 2
  else if !s.typeOk p k.ptype.toNat then .drop 6
  else if !s.sourceOk p k then .drop 0
  else if p.val < 6 ∧ k.dst.toNat / 2048 ≠ s.myId / 2048 then .drop 7
  else if isRequest k ∧ k.dst.toNat = s.myId then s.targetToll p k
  else .pass

/-- The counter of a failure (R376). -/
def tollField (kind : Nat) : Field :=
  if kind = 0 ∨ kind = 7 then F.TOLL_COUNT.source else if kind = 1 ∨ kind = 6 then F.TOLL_COUNT.framing
  else if kind = 2 then F.TOLL_COUNT.credit else F.TOLL_COUNT.denied

/-- A failure is counted, recorded when it is the first, and logged when it is the first of its millisecond (R360). -/
def State.tollFail (s : State) (p : PortId) (kind src addr : Nat) : State :=
  let s := s.count (tollField kind) 1 p.val
  let w := addr / 16 + src * 2 ^ 48 + kind * 2 ^ 60
  let s := if s.on F.TOLL_FIRST.valid p.val then s else s.setReg R.TOLL_FIRST (w + 2 ^ 63) p.val
  let ms := s.btime / 1000000
  if (s.port p).tollMs = some ms then s
  else (s.setPort p { s.port p with tollMs := some ms }).log 0x0504 0x21 p.val 1 (if 3 ≤ kind ∧ kind ≤ 5 then .accessDenied else freeCode 0x0504 w) w

/-- Cells of a receive buffer become free. -/
def State.freeCells (s : State) (p : PortId) (k : Pkt) : State :=
  let x := s.port p
  s.setPort p { x with rxFree := vset x.rxFree (laneOf k) (vget x.rxFree (laneOf k) + cellsOf k) }

/-- A packet that passed is delivered here, or forwarded with its hops incremented (R352, R355). -/
def State.passPkt (s : State) (p : PortId) (k : Pkt) : State :=
  if s.isHere p k then
    if isRequest k then s.setPort p { s.port p with inq := (s.port p).inq ++ [k] }
    else if k.ptype = 3 then s.setPort p { s.port p with compq := (s.port p).compq ++ [k] }
    else (s.freeCells p k).emit (.handed (some p) k)
  else (s.freeCells p k).sendOut (some p) { k with hops := k.hops + 1 }

/-- A framed packet meets the Tollgate. -/
def State.takePkt (s : State) (p : PortId) (k : Pkt) : State :=
  let r := s.toll p k
  let used (s : State) : State :=
    let x := s.port p
    s.setPort p { x with rxCred := vset x.rxCred (laneOf k) (vget x.rxCred (laneOf k) - cellsOf k) }
  match r with
  | .pass => (used s).passPkt p k
  | .drop kind =>
    let s := s.tollFail p kind k.src.toNat k.addr.toNat
    if kind = 2 then s else (used s).freeCells p k
  | .deny kind => (((used s).freeCells p k).tollFail p kind k.src.toNat k.addr.toNat).sendCpl k.src.toNat k.tag.toNat k.spur .accessDenied 0 []

/-- The packets of a flit in order; a framing failure drops the packet and the rest of the flit (R348, R360). `fuel` bounds their number. -/
def State.takePkts (s : State) (p : PortId) (area : List Byte) : Nat → State
  | 0 => s
  | fuel + 1 =>
    match nextPkt area with
    | .done clean => if clean then s else s.tollFail p 1 0 0
    | .pkt k cells =>
      if framed k ∧ 16 * cells ≤ area.length then (s.takePkt p k).takePkts p (area.drop (16 * cells)) fuel
      else s.tollFail p 1 k.src.toNat k.addr.toNat

/-! ## Flits received (R341-R345, R357-R359, R367) -/

/-- Flits up to an acknowledgement leave the replay buffer (R345): the one with the acknowledged number and those before it. -/
def Port.acked (x : Port) (ack : Nat) : Port :=
  match x.replay.findIdx? fun f => f.hdr.seq.toNat % 2 ^ 32 == ack with
  | some i => { x with replay := x.replay.drop (i + 1) }
  | none => x

/-- Replay from ack + 1 (R345): each flit as it was first sent. A flit that has been replayed 16 times takes the port down. An idle flit goes first where
2,048 flits would pass without one (R346). -/
def State.replay (s : State) (p : PortId) : State :=
  if (s.port p).replay.any fun f => decide (16 ≤ f.replays) then s.losePort p 0xA (some false)
  else
    let n := (s.port p).replay.length
    let s := if 2047 < (s.port p).sinceIdle + n then s.sendIdle p false (0, 0) else s
    let x := s.port p
    let s := s.setPort p { x with replay := x.replay.map fun f => { f with replays := f.replays + 1 }, sinceIdle := x.sinceIdle + n }
    x.replay.foldl (fun s f => s.transmit p f.bytes) s

/-- A discarded flit (R345, R359): the first asks for a replay; eight tag failures within 1 ms take the port down. -/
def State.discardFlit (s : State) (p : PortId) (badTag : Bool) : State :=
  let x := s.port p
  let s := if x.nakSent then s
    else ((s.setPort p { x with nakSent := true }).count F.PL_RETRY.replays 1 p.val).sendIdle p true (0, 0)
  if badTag then
    let s := s.count F.PL_RETRY.tag_fail 1 p.val
    let l := ((s.port p).tagFails.filter fun t => decide (s.btime < t + 1000000)) ++ [s.btime]
    let s := s.setPort p { s.port p with tagFails := l }
    if 8 ≤ l.length then s.losePort p 4 (some false) else s
  else s

/-- What link control says (R365, R367). -/
def State.takeCtl (s : State) (p : PortId) (m : LinkCtl) : State :=
  match m with
  | .down leaving => s.losePort p (if leaving then 3 else 2) none
  | .lane l pair => s.setPort p { s.port p with follow := some (l.toNat, pair.toNat) }
  | .none => s

/-- What an accepted flit carries (R344, R345, R360, R365, R367). -/
def State.flitBody (s : State) (p : PortId) (ftype : Nat) (area : List Byte) : State :=
  match ftype with
  | 0 => s.takePkts p area 18
  | 2 => s.takeCtl p (Config.readCtl area)
  | _ => s

/-- An accepted flit (R345, R347): `x` is the port with the keys that opened it. -/
def State.acceptFlit (s : State) (p : PortId) (x : Port) (f : FlitHdr) (area : List Byte) : State :=
  let x := { x with rxNext := x.rxNext + 1, nakSent := false }.acked f.ack.toNat
  let c : Nat := 2 * f.cclass.toNat + b2n f.cvc
  let x := if h : c < 10 then { x with txCred := vset x.txCred ⟨c, h⟩ (vget x.txCred ⟨c, h⟩ + f.ccount.toNat) } else x
  let s := s.setPort p x
  let s := if f.nak then s.replay p else s
  if s.portActive p then (s.flitBody p f.ftype.toNat area).flushPort p else s

/-- What a port makes of a flit: the next one, with its packet area and the port with its keys; one that verifies and is not the next; or one whose tag
fails. -/
inductive Opened where
  | accept (area : List Byte) (x : Port)
  | late
  | bad

/-- A flit under the keys of the receiving direction (R344, R345, R357, R358): those in force; the keys of a new handshake at the agreed number, from which
the numbers run from 0; the next key of the direction; or, for 4,096 numbers after the change, the key before it. -/
def Port.openWith (x : Port) (f : FlitHdr) (flit : List Byte) : Opened :=
  let k := x.keys
  let turned (r : LinkKey) (next : Nat) (n : Option (LinkKey × Nat)) : Port :=
    { x with kphaseRx := f.kphase, rxNext := next, keys := { k with prev := some k.rx, rx := r, first := next, nextRx := n } }
  let before : Opened := match k.prev with
    | some q => if x.rxNext < k.first + 4096 ∧ (openFlit q flit).isSome then .late else .bad
    | none => .bad
  if f.kphase = x.kphaseRx then
    match openFlit k.rx flit with
    | some a => if f.seq.toNat = x.rxNext then .accept a x else .late
    | none => .bad
  else
    match k.nextRx.filter fun n => n.2 == x.rxNext && f.seq == 0#64 with
    | some n => match openFlit n.1 flit with
      | some a => .accept a (turned n.1 0 none)
      | none => before
    | none => match openFlit (nextKey k.rx) flit with
      | some a => if f.seq.toNat = x.rxNext then .accept a (turned (nextKey k.rx) x.rxNext k.nextRx) else .late
      | none => before

/-- A flit arrives (R345, R356, R359, R367): while the handshake has given no keys, a DOWN in link control is all that it can bring beside the messages of
the handshake, which have rows of their own. -/
def State.takeFlit (s : State) (p : PortId) (flit : List Byte) : State :=
  let f := FlitHdr.of flit
  if s.portActive p then
    match (s.port p).openWith f flit with
    | .accept a x => s.acceptFlit p x f a
    | .late => s.discardFlit p false
    | .bad => s.discardFlit p true
  else if s.portState p = 3 ∧ f.ftype = 2#2 then
    match Config.readCtl ((flit.drop 16).take 288) with
    | .down leaving => s.losePort p (if leaving then 3 else 2) none
    | _ => s
  else s

/-- The logical lanes of corrected symbols count them (R365). -/
def Port.countLanes (x : Port) (c : Nat) (places : List Nat) : Port :=
  places.foldl (fun x j =>
    let i := (lanePlace x.narrow c j).1
    { x with laneErrs := Tbl.set (fun _ => 0) x.laneErrs i (Tbl.get (fun _ => 0) x.laneErrs i + 1) }) x

/-- Codeword `c` of a pair is decoded and its flit arrives (R341, R342, R345). -/
def State.takeWord (s : State) (p : PortId) (bits : LaneBits) (c : Nat) : State :=
  let x := s.port p
  match rsDecode (fromLanes x.narrow (lanesIn x.rxOut x.narrow) bits c) with
  | none =>
    let s := s.count F.PL_FEC_COUNT.uncorrectable 1 p.val
    if s.portActive p then s.discardFlit p false else s
  | some (w, places) =>
    let r := flitOf (w.take 257)
    let s := (s.setPort p { x.countLanes c places with rxPair := r.2 / 2 }).count F.PL_FEC_COUNT.corrected places.length p.val
    s.takeFlit p r.1

/-- FLIT_RECEIVE (R341-R345, R357-R359, R365, R367): a codeword pair comes on the lanes of a port that is in its handshake or ACTIVE; its two flits arrive in
order, and the pairs are counted. -/
def execFlitReceive (p : PortId) (bits : LaneBits) (s : State) : Out :=
  need (s.portActive p || s.portState p == 3) "the port is neither in its handshake nor ACTIVE" <|
  let s := (s.takeWord p bits 0).takeWord p bits 1
  .next (s.setPort p { s.port p with rxPair := ((s.port p).rxPair + 1) % 512 })

/-- IDLE_FLIT (R346). -/
def execIdleFlit (p : PortId) (s : State) : Out :=
  need (s.portActive p && (s.port p).roomy) "the port is not ACTIVE, or its replay buffer is full" (.next (s.sendIdle p false (0, 0)))

/-- The rate of a class in bytes per 4 ns (R376: units of 0.25 GB/s). -/
def State.tollRate (s : State) (p : PortId) (c : Nat) : Nat :=
  s.get (match c with | 0 => F.TOLL_RATE.request | 1 => F.TOLL_RATE.completion | 2 => F.TOLL_RATE.sync | 3 => F.TOLL_RATE.twin | _ => F.TOLL_RATE.mgmt) p.val

/-- CREDIT_RETURN (R347, R362): no more than the buffer has room for, and no faster than the rate. -/
def execCreditReturn (p : PortId) (cls : Fin 5) (vc : Bool) (cells : BitVec 11) (s : State) : Out :=
  let x := s.port p
  let i : Fin 10 := ⟨2 * cls.val + b2n vc, by cases vc <;> simp [b2n] <;> omega⟩
  let n := cells.toNat
  need (s.portActive p && x.roomy) "the port is not ACTIVE, or its replay buffer is full" <|
  need (decide (n ≤ vget x.rxFree i)) "the buffer has no room" <|
  need (decide (64 * n ≤ s.tollRate p cls.val * (s.btime - vget x.credT i))) "the rate holds the credits back" <|
  .next ((s.setPort p { x with rxFree := vset x.rxFree i (vget x.rxFree i - n), rxCred := vset x.rxCred i (vget x.rxCred i + n)
                               credT := vset x.credT i s.btime }).sendIdle p false (i.val, n))

/-! ## Accesses out and in (R350, R352, R355, R371) -/

/-- PACKET_ORIGINATE (R29, R350, R352): the Floor router takes an access of this block's requester to another block. -/
def execPacketOriginate (who : Requester) (addr : Word) (op : MemOp) (epoch : Option Epoch) (s : State) : Out :=
  need (!s.isLocal addr.toNat && decide (1 ≤ op.size)) "the access does not leave the block" <|
  need (s.tagsFor addr.toNat op.size) "no tag is free" <|
  .next (s.originate ⟨who, s.net.nextAccess, addr, op, epoch⟩ none)

/-- The address in this block that a packet names (R28, R348). -/
def State.packetAddr (s : State) (k : Pkt) : Nat := s.myId * 2 ^ 52 + k.addr.toNat

/-- The request at the front of a port's queue leaves it, and its cells are free. -/
def State.dequeue (s : State) (p : PortId) (k : Pkt) (rest : List Pkt) : State := (s.setPort p { s.port p with inq := rest }).freeCells p k

/-- A packet's request as a transaction of another block: its number keeps the tag, and whether the device on PL7 asks. -/
def State.requestOf (s : State) (k : Pkt) : MemReq :=
  ⟨.remote k.src, k.tag.toNat + b2n k.spur * 2 ^ 16, BitVec.ofNat 64 (s.packetAddr k),
    if k.ptype = 1 then .read (k.len.toNat + 1) else .write k.data, if k.epochValid then some k.epoch else none⟩

/-- A packet moves at its router where it is its turn. -/
def State.moveNow (s : State) (p : MeshPkt) : State :=
  match s.routerMove p.at_ p.plane with
  | some q => if q.1 = p then q.2 else s
  | none => s

/-- The completion of a transaction moves at its router where it is its turn. -/
def State.answerNow (s : State) (k : SquareId) (r : MemReq) : State :=
  match s.mesh.find? fun p => p.at_ == k && (match p.body with | .completion who id _ _ _ => who == r.who && id == r.id | _ => false) with
  | some p => s.moveNow p
  | none => s

/-- A request enters the mesh at the Floor port of its column's router, on plane 1 (R313, R355). It is served and answered at once where the router has
nothing to move before it; else as MESH_PACKET moves it. -/
def State.takeIn (s : State) (r : MemReq) (k : SquareId) : State :=
  let p : MeshPkt := ⟨k, .floor, k, 1, .request r⟩
  ({ s with mesh := s.mesh ++ [p] }.moveNow p).answerNow k r

/-- A request that a port holds goes to the unit that its address selects, or is answered with UNMAPPED where there is none (R35, R355). -/
def State.serveInbound (s : State) (p : PortId) (k : Pkt) (rest : List Pkt) : Option (SquareId × MeshPort) → Out
  | none => .next ((s.dequeue p k rest).sendCpl k.src.toNat k.tag.toNat k.spur .unmapped 0 [])
  | some u =>
    need (s.carries u.1 (throughLanes 0 ++ throughLanes 1)) "a crossing on the way is not calibrated" <|
    .next ((s.dequeue p k rest).takeIn (s.requestOf k) u.1)

/-- REMOTE_REQUEST (R31-R35, R313, R333, R350, R355, R371): the oldest request at a port is served at its target and answered. -/
def execRemoteRequest (p : PortId) (s : State) : Out :=
  match (s.port p).inq with
  | [] => .refused (.notEnabled "no request waits")
  | k :: rest => s.serveInbound p k rest (unitPort (s.requestOf k).addr.toNat)

/-- The detail of a completion of another block (R147, R333): a unit's applied epoch, or the block. -/
def cplDetail (k : Pkt) (o : OutReq) (c : Code) : Nat := if c = .ok then 0 else if c = .epochSkew ∧ k.epochValid then k.epoch.toNat else o.dst

/-- REMOTE_COMPLETION (R350, R354): the oldest completion at a port completes the request whose tag it brings, whichever block sent it; one that no request
awaits has no effect. -/
def execRemoteCompletion (p : PortId) (s : State) : Out :=
  match (s.port p).compq with
  | [] => .refused (.notEnabled "no completion waits")
  | k :: rest =>
    let s := (s.setPort p { s.port p with compq := rest }).freeCells p k
    match s.outOf k.tag.toNat, Code.ofCode k.code.toNat with
    | some o, some c => .next (s.pieceDone o c (cplDetail k o c) k.data)
    | _, _ => .next s

/-! ## Probes and lost blocks (R369, R370, R495) -/

/-- MGT_PROBE (R369): a probe goes to a partner whose port was lost, by the route that remains; without one the partner is lost. A probe
received is answered. -/
def execMgtProbe (p : PortId) (received : Bool) (src : BlockId) (s : State) : Out :=
  let b := src.toNat
  if received then need (s.portActive p) "the port is not ACTIVE" (.next (s.sendMsg 8 b (mgtAux 2 s.myId)))
  else
    need (s.net.suspects.contains b && decide (p.val < 6) && s.get F.PL_STATUS.partner p.val == b) "no lost port's partner is to be probed" <|
    let k := s.newPkt 8 b 0 0 (mgtAux 1 b) []
    match s.route none k with
    | .out q k' => .next (s.enqueue none k q k')
    | _ => .next (s.loseBlock b none)

/-- PROBE_ANSWER (R369). -/
def execProbeAnswer (src : BlockId) (s : State) : Out :=
  .next { s with net := { s.net with suspects := s.net.suspects.filter fun q => q != src.toNat } }

/-- PROBE_TIMEOUT (R369): no answer within 20 µs. -/
def execProbeTimeout (b : BlockId) (s : State) : Out :=
  need (s.net.suspects.contains b.toNat) "the block is not being probed" (.next (s.loseBlock b.toNat none))

/-- BLOCK_LOST (R370). -/
def execBlockLost (b : BlockId) (onPort : Option PortId) (s : State) : Out := .next (s.loseBlock b.toNat onPort)

/-- PL_LOST_CLEAR (R370, R495). -/
def execPlLostClear (i : Fin 64) (v : Word) (s : State) : Out := .next (s.swWrite R.PL_LOST v.toNat 0 i.val true)

/-! ## Registers (R351, R375, R376) -/

/-- A write of `PL_TWIN_WIN`: its own lock holds base and size until the next whole-block reset (R351, R375). -/
def State.writeTwinWin (s : State) (v : Nat) : State := s.swWrite R.PL_TWIN_WIN v 6 0 (s.on F.PL_TWIN_WIN.lock 6)

/-- PL_TWIN_WIN_WRITE (R351). -/
def execPlTwinWinWrite (v : Word) (s : State) : Out := .next (s.writeTwinWin v.toNat)

/-- A write of `TOLL_RATE` stores each rate clamped to the ceiling (R376). -/
def State.writeTollRate (s : State) (p : PortId) (v : Nat) : State :=
  let ceil := s.reg R.TOLL_CEIL p.val
  let w := (List.range 5).foldl (fun n i => n + min (nbits v (12 * i + 11) (12 * i)) (nbits ceil (12 * i + 11) (12 * i)) * 2 ^ (12 * i)) 0
  s.setReg R.TOLL_RATE w p.val

/-- TOLL_RATE_WRITE (R376). -/
def execTollRateWrite (p : PortId) (v : Word) (s : State) : Out := .next (s.writeTollRate p v.toNat)

/-- PL_FEC_COUNT_READ (R14, R375). -/
def execPlFecCountRead (p : PortId) (s : State) : Out := .next (s.swRead R.PL_FEC_COUNT p.val 0).1

/-- PL_RETRY_READ (R14, R375). -/
def execPlRetryRead (p : PortId) (s : State) : Out := .next (s.swRead R.PL_RETRY p.val 0).1

/-- TOLL_COUNT_READ (R14, R376). -/
def execTollCountRead (p : PortId) (s : State) : Out := .next (s.swRead R.TOLL_COUNT p.val 0).1

end Sys2Proof.Machine
end

