-- ==== Sys2Proof/Machine/Pins.lean ====
section
/-! DEFINITION. The pin unit (R549-R551, R559, R560). -/
namespace Sys2Proof.Machine

/-- The level at which each numbered input is active (R549): inputs 1-6 low, FLOW high, a GPIO by `PIN_GPIO.pol`. -/
def State.activeHigh (s : State) (n : Nat) : Bool :=
  if n = 0 then true else if n ≤ 6 then false else !nbit (s.get F.PIN_GPIO.pol) (n - 7)

/-- Whether a GPIO drives its land (R551). -/
def State.gpioDriven (s : State) (n : Nat) : Bool := decide (7 ≤ n) && nbit (s.get F.PIN_GPIO.oe) (n - 7)

/-- The accepted level of a land. A driven GPIO's land is at the level it drives. -/
def State.landLevel (s : State) (n : Fin 17) : Bool :=
  if n.val < 15 ∧ s.gpioDriven n.val then nbit (s.get F.PIN_GPIO.out) (n.val - 7) else vget s.pins.levels n

/-- Set one bit of a field. -/
def State.putBit (s : State) (f : Field) (i : Nat) (b : Bool) (inst : Nat := 0) (idx : Nat := 0) : State :=
  s.put f (putBits (s.get f inst idx) i 1 (b2n b)) inst idx

/-- Whether an input is at its active level. -/
def State.inputActive (s : State) (n : PinId) : Bool := s.landLevel ⟨n.val, by omega⟩ == s.activeHigh n.val

/-- Whether an input holds a chatter or stuck fault (R550). -/
def State.pinFaulted (s : State) (n : Nat) : Bool := nbit (s.get F.PIN_FAULT.chatter) n || nbit (s.get F.PIN_FAULT.stuck) n

/-- `PIN_IN` follows the levels after the filter. -/
def State.refreshPinIn (s : State) : State :=
  (List.finRange 15).foldl (fun s n => s.putBit F.PIN_IN.active n.val (s.inputActive n)) s

/-- An edge of an input has its effect: edge bit, interrupt and count (R549, R550, R559, R560). -/
def State.pinEdge (s : State) (n : PinId) : State :=
  if s.pinFaulted n.val ∨ s.gpioDriven n.val then s
  else
    let s := { s with pins := { s.pins with edges := vset s.pins.edges n (vget s.pins.edges n + 1) } }
    if s.inputActive n ∨ n.val = 5 ∨ n.val = 6 then
      let s := s.putBit F.PIN_EDGE.edge n.val true
      if nbit (s.get F.PIN_IRQ_EN.enable) n.val then s.emit (.pinInterrupt n.val) else s
    else s

/-- INPUT_EDGE (R549): a filtered input accepts a new level. Numbers 15 and 16 are RESET_N and VPM_PG, whose effect on the block
are the rows RESET_N_ASSERT, RESET_N_DEASSERT, VPM_PG_LOST and VPM_POWER_GOOD. -/
def execInputEdge (n : Fin 17) (level : Bool) (s : State) : Out :=
  need (vget s.pins.levels n != level) "the input has this level already" <|
    let s := { s with pins := { s.pins with levels := vset s.pins.levels n level } }
    if h : n.val < 15 then
      let m : PinId := ⟨n.val, h⟩
      .next ((s.putBit F.PIN_IN.active n.val (s.inputActive m)).pinEdge m)
    else if n.val = 15 then .next (s.put F.PIN_STATUS.reset_n (b2n level))
    else .next (s.put F.PIN_STATUS.vpm_pg (b2n level))

/-- An input with more than 1,000 edges in its window latches a chatter fault (R550). -/
def State.judgeChatter (s : State) (n : PinId) : State :=
  let s' := if 1000 < vget s.pins.edges n then (s.putBit F.PIN_FAULT.chatter n.val true).logEvent 0x0A01 0x30 0 1 n.val else s
  { s' with pins := { s'.pins with edges := vset s'.pins.edges n 0 } }

/-- CHATTER_WINDOW_END (R550): a 10 ms window ends. -/
def execChatterWindowEnd (s : State) : Out := .next ((List.finRange 15).foldl State.judgeChatter s)

/-- Hold time of an input in units of 10 ms (R560). -/
def State.holdTime (s : State) (n : PinId) : Nat := s.get (F.PIN_HOLD.hold (n.val % 4)) 0 (n.val / 4)

/-- INPUT_STUCK (R550): an input held active past its hold time is declared stuck. -/
def execInputStuck (n : PinId) (s : State) : Out :=
  need (s.inputActive n && s.holdTime n != 0 && !s.pinFaulted n.val && !s.gpioDriven n.val) "the hold time does not run" <|
    .next ((s.putBit F.PIN_FAULT.stuck n.val true).logEvent 0x0A02 0x30 0 1 n.val)

/-- PIN_FAULT_CLEAR (R550): faults written as 1 clear; the level is taken afresh and a new window starts. -/
def State.writePinFault (s : State) (v : Nat) : State :=
  let s := s.swWrite R.PIN_FAULT v 0 0 false
  (List.finRange 15).foldl (fun s n =>
    if nbit v n.val ∨ nbit v (n.val + 32) then
      { s with pins := { s.pins with edges := vset s.pins.edges n 0 } }.putBit F.PIN_IN.active n.val (s.inputActive n)
    else s) s

/-- PIN_FAULT_CLEAR (R550, R560). -/
def execPinFaultClear (v : Word) (s : State) : Out := .next (s.writePinFault v.toNat)

/-- A write of `PIN_GPIO`: `PIN_IN` reports the lands at their new meaning (R551, R560). -/
def State.writePinGpio (s : State) (v : Nat) : State := (s.swWrite R.PIN_GPIO v 0 0 false).refreshPinIn

end Sys2Proof.Machine
end

