-- ==== Sys2Proof/Machine/Resets.lean ====
section
/-! DEFINITION. Resets of an engine, a compute layer and the whole block, units mapped out, and the loss and return of the external clocks
(R26, R35, R197, R309, R328-R330, R335, R454, R455, R460, R474-R476, R483, R497, R552-R554). -/
namespace Sys2Proof.Machine

/-! ## Engines and layers (R329, R330, R476) -/

/-- The bit of an engine in `AON_ENG_RST0` and `AON_ENG_RST1`, or in the fail registers (R497). -/
def engBit (r0 r1 : Reg) (e : EngineId) : Reg × Nat := if e.val < 64 then (r0, e.val) else (r1, e.val - 64)

/-- Read and set such a bit. -/
def State.engBitOf (s : State) (r0 r1 : Reg) (e : EngineId) : Bool := let p := engBit r0 r1 e; nbit (s.reg p.1) p.2
def State.putEngBit (s : State) (r0 r1 : Reg) (e : EngineId) (b : Bool) : State :=
  let p := engBit r0 r1 e
  s.setReg p.1 (putBits (s.reg p.1) p.2 1 (b2n b))

/-- Whether the layer of an engine is held in reset. -/
def State.layerHeld (s : State) (e : EngineId) : Bool := s.on (if e.val < 40 then F.AON_RESET.layer_a else F.AON_RESET.layer_b)

/-- The engine keeps nothing in flight: unsent requests and drains are dropped, requests that had left it are on their own, its tables are invalid, released bank sequences run on (R166,
R197, R309, R329). -/
def Engine.toReset (g : Engine) : Engine :=
  { g.orphanBcs.clearRegs with
    orphans := g.orphans ++ g.inflight.filter fun x => x.unit == .sync && x.sent && !x.completed
    inflight := [], drains := [], fails := [], bound := none, boundFetch := false, beyond := false, ctx := none, yieldAt := none, pgLoad := none
    acc := none, accs := [], weights := none, shadow := .empty, ring := none, arrivals := []
    sfnActive := ⟨0, []⟩, sfnShadow := ⟨0, []⟩, inReset := true
    pageBad := Vector.ofFn fun i => vget g.pageBad i || vget g.pageLoading i, pageLoading := Vector.replicate 16 false }

/-- Registers of class 0x10 of an engine go to their reset values, but for the epochs (R141, R335). -/
def State.resetEngRegs (s : State) (e : EngineId) : State :=
  let s := [R.ENG_CTL, R.ENG_STATUS, R.ENG_FAULT, R.ENG_CTX_ADDR, R.ENG_PGSRC, R.ENG_PGCMD].foldl (fun s r => s.resetReg r e.val) s
  (List.range 4).foldl (fun s i => s.resetReg R.ENG_ARG e.val i) s

/-- The router's bit for an engine in reset (R337). -/
def State.putRst (s : State) (e : EngineId) (b : Bool) : State :=
  s.put (if e.val < 40 then F.AV_STATUS.rst_a else F.AV_STATUS.rst_b) (b2n b) (columnOf e).val

/-- An engine enters reset (R329, R335). -/
def State.engineReset (s : State) (e : EngineId) : State :=
  let s := (s.setEngBcs e (s.eng e).toReset).resetEngRegs e
  ((s.leaveRun e).putRst e true).putApplied e.val true

/-- A unit that leaves reset takes the committed epoch and the staged setting in force (R335). -/
def State.takeCommitted (s : State) (u : Nat) : State :=
  let p := unitField true u
  let q := unitField false u
  ((s.put p.1 s.committed p.2).put q.1 s.committed q.2).putApplied u true

/-- An engine leaves reset and is IDLE (R329, R335, R476). -/
def State.engineRelease (s : State) (e : EngineId) : State :=
  ((s.modEng e fun g => { g with inReset := false }).putRst e false).takeCommitted e.val

/-- Recalibration failed: the engine stays in reset (R476). -/
def State.engineFailed (s : State) (e : EngineId) : State :=
  (s.putEngBit R.AON_ENG_FAIL0 R.AON_ENG_FAIL1 e true).logEvent 0x0901 0x00 0 3 e.val

/-- Recalibrate the bundles of an engine at the step in force: the passing taps that the sweeps found, in the order of `engBundles` (a sweep that the
command does not give is free, log entry 46). -/
def State.recalibrate (s : State) (e : EngineId) (sweeps : List (BitVec 64)) : State :=
  let k := columnOf e
  let step := s.get F.CLK_STEP.eff
  (((engBundles e).zip (List.range 8)).foldl (fun s q => match sweeps[q.2]? with
    | some m => s.calibrate k q.1.1 q.1.2 step m.toNat
    | none => s.calibrateFree k q.1.1 q.1.2 step) s).refreshXw k

/-- Whether one of an engine's sweeps fails (R327, R476). -/
def sweepsFail (sweeps : List (BitVec 64)) : Bool := (sweeps.take 8).any fun m => (sweepTap m.toNat).isNone

/-- ENGINE_RESET (R329, R474): the engine's bit is set. -/
def execEngineReset (e : EngineId) (s : State) : Out :=
  let s := s.putEngBit R.AON_ENG_RST0 R.AON_ENG_RST1 e true
  if (s.eng e).inReset then .next s else .next (s.engineReset e)

/-- ENGINE_RESET_RELEASE (R328, R474, R476): the engine's bit is cleared, with its layer not in reset. -/
def execEngineResetRelease (e : EngineId) (sweeps : List (BitVec 64)) (s : State) : Out :=
  let s := s.putEngBit R.AON_ENG_RST0 R.AON_ENG_RST1 e false
  if s.layerHeld e ∨ (s.eng e).inReset = false then .next s
  else
    let s := s.recalibrate e sweeps
    if sweepsFail sweeps then .next (s.engineFailed e) else .next (s.engineRelease e)

/-- Engines of a layer (R330). -/
def layerEngines (b : Bool) : List EngineId := (List.finRange 80).filter fun e => decide (40 ≤ e.val) == b

/-- LAYER_RESET (R330, R474). -/
def execLayerReset (b : Bool) (s : State) : Out :=
  let s := s.put (if b then F.AON_RESET.layer_b else F.AON_RESET.layer_a) 1
  .next ((layerEngines b).foldl (fun s e => if (s.eng e).inReset then s else s.engineReset e) s)

/-- An engine of a layer that leaves reset: its bundles are calibrated again, and it leaves reset unless one fails or its own bit holds it (R328, R476). -/
def State.layerRelease (s : State) (sweeps : List (EngineId × List (BitVec 64))) (e : EngineId) : State :=
  let l := ((sweeps.find? fun q => q.1 == e).map (·.2)).getD []
  let s := s.recalibrate e l
  if sweepsFail l then s.engineFailed e else if s.engBitOf R.AON_ENG_RST0 R.AON_ENG_RST1 e then s else s.engineRelease e

/-- LAYER_RESET_RELEASE (R328, R476), with the passing taps that the sweeps of its engines' bundles found. -/
def execLayerResetRelease (b : Bool) (sweeps : List (EngineId × List (BitVec 64))) (s : State) : Out :=
  let f := if b then F.AON_RESET.layer_b else F.AON_RESET.layer_a
  .next (((layerEngines b).filter fun e => s.on f && (s.eng e).inReset).foldl (fun s e => s.layerRelease sweeps e) (s.put f 0))

/-! ## Units mapped out (R35, R268, R335, R490) -/

/-- Units in service follow: engines and squares that are not mapped out (R431). -/
def State.countUnits (s : State) : State :=
  let s := s.put F.PWR_STATUS.engines_ok ((List.finRange 80).filter fun e => !(s.eng e).mappedOut).length
  s.put F.PWR_STATUS.squares_ok ((List.finRange 40).filter fun k => !s.on F.SQ_STATUS.mapped_out k.val).length

/-- An engine is mapped out, with its DRAM or without (R35, R335). -/
def State.mapOutEngine (s : State) (e : EngineId) (dram : Bool) : State :=
  let s := s.modEng e fun g => { g with mappedOut := true, dramOut := g.dramOut || dram }
  let s := (s.putApplied e.val true).countUnits
  if dram then s.putApplied (80 + e.val) true else s

/-- A square's storage is mapped out: no line, no window (R268, R335). -/
def State.mapOutSquare (s : State) (k : SquareId) : State :=
  let s := (s.loseLines k).zeroWindow k
  let s := ((s.put F.SQ_STATUS.mapped_out 1 k.val).put F.AV_STATUS.mapped_out 1 k.val).putApplied (160 + k.val) true
  (s.setSq k { s.sq k with ways := [] }).countUnits

/-! ## The whole block (R474, R475, R483) -/

/-- DOWN with block leaving goes out on every ACTIVE port (R367). -/
def State.sayLeaving (s : State) : State :=
  (List.finRange 8).foldl (fun s p => if s.portActive p then s.sendCtl p (.down true) else s) s

/-- Registers that a whole-block reset leaves alone: the always-on controller's, the pin unit's, the energy and the trip, and the topology while
it is locked (R351, R429, R457, R496, R559). -/
def State.survives (s : State) (key : Nat) : Bool :=
  let cls := key / 0x1000000
  cls == 0 || cls == 0x30 || key == R.PWR_ENERGY.key 0 0 || key == R.THM_TRIP.key 0 0 || key == R.THM_TRIP_T.key 0 0
    || (s.on F.AON_BLOCK_ID.lock && (key == R.PL_TOPO.key 0 0 || key == R.PL_EXPRESS.key 7 0))

/-- The always-on registers as a whole-block reset leaves them (R475, R497, R559). -/
def State.aonAfter (s : State) (cause : Nat) : State :=
  let s := ((s.bump F.AON_STATUS.boots).put F.AON_STATUS.cause cause).put F.AON_STATUS.held 0
  let s := (((s.put F.AON_STATUS.cold 0).put F.AON_STATUS.cfg_ok 0).put F.AON_STATUS.ignored 0).put F.AON_STATUS.stage 0
  let s := ((s.put F.AON_BOOT.service 0).put F.AON_WDOG.enable 0).put F.AON_MEMO.busy 0
  let s := (s.put F.AON_LEDGER.busy 0).resetReg R.AON_REPAIR
  ((s.put F.PIN_GPIO.oe 0).resetReg R.PIN_IRQ_EN).refreshPinIn

/-- Engines that their bits or their layer's hold come out of a whole-block reset in reset (R474). -/
def State.heldEngines (s : State) : State :=
  (List.finRange 80).foldl (fun s e =>
    if s.engBitOf R.AON_ENG_RST0 R.AON_ENG_RST1 e ∨ s.layerHeld e then (s.modEng e fun g => { g with inReset := true }).putRst e true else s) s

/-- Bytes that keep their value without power: the flash (R480). -/
def flashOnly (m : List Host.Cell) : List Host.Cell := m.filter fun c => c.1 / 2 ^ 48 == 4

/-- Start-up begins at stage 1 once nothing holds the block in reset (R474, R475). -/
def State.mayStart (s : State) : State :=
  let b := s.boot
  if b.aonReset ∨ b.holdN ∨ b.holdRef ∨ b.holdAon then s else s.put F.AON_STATUS.stage 1

/-- A whole-block reset (R474, R475): every unit outside the always-on domain is reset, and every memory but the flash loses its contents. -/
def State.wholeReset (s : State) (cause : Nat) : State :=
  let s := s.sayLeaving
  let d := s.on F.SEC_STATUS.debug_pending
  let t : State := { State.reset with
    regs := s.regs.filter fun q => s.survives q.1
    mem := flashOnly s.mem
    pins := { s.pins with vpmEn := false }
    power := { Power.fresh with frac := s.power.frac }
    boot := { Boot.fresh with aonReset := s.boot.aonReset, holdN := s.boot.holdN, holdRef := s.boot.holdRef, holdAon := s.boot.holdAon }
    sec := Sec.fresh s.sec.otp
    outbox := s.outbox
    drawn := s.drawn
    pending := s.pending }
  let t := (t.aonAfter cause).heldEngines
  ((t.put F.SEC_STATUS.debug_pending (b2n d)).put F.SEC_STATUS.debug (b2n d)).mayStart

/-- Change what holds the block in reset. -/
def State.setBoot (s : State) (f : Boot → Boot) : State := { s with boot := f s.boot }

/-- AON_RESET_BLOCK (R474). -/
def execAonResetBlock (s : State) : Out := .next (s.wholeReset 2)

/-- The always-on domain, too, starts afresh; fuses and flash keep what they hold (R474, R499). -/
def State.aonReset (s : State) (absent : Bool) : State :=
  { State.reset with
    mem := flashOnly s.mem, sec := Sec.fresh s.sec.otp, pins := { Pins.fresh with absent := absent }, outbox := s.outbox, drawn := s.drawn
    pending := s.pending }

/-- ALWAYS_ON_RESET (R474): VAON rises through its threshold. -/
def execAlwaysOnReset (s : State) : Out := .next (s.aonReset false)

/-- Start-up events need VAON and AUX (R552, R554). -/
def powered (s : State) (k : Out) : Out := if s.pins.absent then .fault .noPower else k

/-- ALWAYS_ON_RESET_EXIT (R474). -/
def execAlwaysOnResetExit (s : State) : Out :=
  powered s <|
  need s.boot.aonReset "the always-on reset is not in force" (.next (s.setBoot fun b => { b with aonReset := false }).mayStart)

/-- VAON_OR_AUX_ABSENT (R554): the block loses its always-on domain. -/
def execVaonOrAuxAbsent (s : State) : Out := .next (s.aonReset true)

/-- The accepted level of RESET_N or VPM_PG, and the register that shows it. -/
def State.setLevel (s : State) (n : Fin 17) (level : Bool) : State :=
  { s with pins := { s.pins with levels := vset s.pins.levels n level } }.put (if n.val = 15 then F.PIN_STATUS.reset_n else F.PIN_STATUS.vpm_pg) (b2n level)

/-- RESET_N_ASSERT (R553). -/
def execResetNAssert (s : State) : Out :=
  .next (((s.setLevel 15 false).setBoot fun b => { b with holdN := true }).wholeReset 1)

/-- RESET_N_DEASSERT (R553). -/
def execResetNDeassert (s : State) : Out :=
  need s.boot.holdN "RESET_N does not hold the block" (.next ((s.setLevel 15 true).setBoot fun b => { b with holdN := false }).mayStart)

/-- VPM_PG_LOST (R553): VPM_PG is deasserted after stage 1. -/
def execVpmPgLost (s : State) : Out :=
  need (decide (2 ≤ s.get F.AON_STATUS.stage)) "stage 1 has not ended" <|
  .next (((s.setLevel 16 false).wholeReset 7).put F.PIN_STATUS.pg_lost 1)

/-- A failed start of the running slot; the second inverts the slot tried first (R483). -/
def State.countFail (s : State) : State :=
  if 12 ≤ s.get F.AON_STATUS.stage then s
  else if 1 ≤ s.get F.AON_BOOT.fails then (s.put F.AON_BOOT.fails 0).put F.AON_BOOT.slot (1 - s.get F.AON_BOOT.slot)
  else s.put F.AON_BOOT.fails 1

/-- WATCHDOG_EXPIRY (R483, R497). -/
def execWatchdogExpiry (s : State) : Out :=
  need (s.on F.AON_WDOG.enable) "the watchdog does not run" (.next (s.countFail.wholeReset 3))

/-- A write of `AON_WDOG` (R497): the timeout is locked while enable is 1, a write of 0 stores 1, and a kick restarts the count. -/
def State.writeWdog (s : State) (v : Nat) : State :=
  let s := if s.on F.AON_WDOG.enable then s else s.put F.AON_WDOG.timeout_ms (max 1 (nbits v 31 0))
  let s := if nbit v 32 then s.put F.AON_WDOG.enable 1 else s
  if nbit v 32 ∨ nbit v 33 then s.setBoot fun b => { b with kicked := s.btime } else s

/-- WATCHDOG_KICK (R497). -/
def execWatchdogKick (v : Word) (s : State) : Out := .next (s.writeWdog v.toNat)

/-- WATCHDOG_ENABLE (R497). -/
def execWatchdogEnable (v : Word) (s : State) : Out := .next (s.writeWdog v.toNat)

/-- TRIP_FIRE (R454, R455): THERMTRIP_N is asserted, the trip is latched with the first comparator to fire, and the block goes into its whole-block
reset until an always-on reset. -/
def execTripFire (c : Fin 48) (s : State) : Out :=
  if s.pins.thermtrip then .next s
  else
    let s := ((s.put F.THM_TRIP.valid 1).put F.THM_TRIP.comp c.val).count F.THM_TRIP.trips 1
    let s := { s.setReg R.THM_TRIP_T s.btime with pins := { s.pins with thermtrip := true } }
    .next ((s.setBoot fun b => { b with holdAon := true }).wholeReset 5)

/-- REFERENCE_LOST (R460). -/
def execReferenceLost (s : State) : Out :=
  .next (((s.setBoot fun b => { b with holdRef := true }).wholeReset 4).put F.CLK_STATUS.ref_ok 0)

/-- REFERENCE_RESTORED (R460): the count has been within bounds for 1 ms. -/
def execReferenceRestored (s : State) : Out :=
  need s.boot.holdRef "the reference is not lost" <|
  .next ((s.put F.CLK_STATUS.ref_ok 1).setBoot fun b => { b with holdRef := false }).mayStart

/-- CRYSTAL_LOST (R460): the always-on controller runs from the divided reference. -/
def execCrystalLost (s : State) : Out := .next ((s.put F.CLK_STATUS.xtal_ok 0).logEvent 0x0804 0x04 0 1 0)

end Sys2Proof.Machine
end

