-- ==== Sys2Proof/Machine/Power.lean ====
section
/-! DEFINITION. The power controller: telemetry, the mailbox of the VPM, slices and their failures, regions, droop, ceilings, the block cap and
energy (R405-R433). -/
namespace Sys2Proof.Machine

/-- Change the power controller's data. -/
def State.setPower (s : State) (f : Power → Power) : State := { s with power := f s.power }

/-- The present millisecond of `BTIME`. -/
def State.ms (s : State) : Nat := s.btime / 1000000

/-! ## Telemetry and the mailbox (R408, R410, R411, R431) -/

/-- One step of the CRC-8 of R410. -/
def crc8Step (crc : Nat) (bit : Bool) : Nat :=
  let c := crc * 2 % 256
  if nbit crc 7 != bit then c ^^^ 0x07 else c

/-- The CRC over the low `n` bits of a frame, in the order in which they are sent. -/
def crc8 (f n : Nat) : Nat := (List.range n).foldl (fun c i => crc8Step c (nbit f i)) 0

/-- Whether the controller accepts a frame (R411). -/
def State.acceptsFrame (s : State) (f : Nat) : Bool :=
  nbits f 7 0 == 0xA5 && nbits f 71 67 == 0 && nbits f 79 72 == crc8 f 72 &&
    (match s.power.lastSeq with
    | some q => nbits f 11 8 == (q + 1) % 16
    | none => true)

/-- A frame with a fault bit set is logged once per millisecond (R411, R525). -/
def State.noteFaultBits (s : State) (f : Nat) : State :=
  let bits := nbits f 64 62
  if bits = 0 ∨ s.power.faultLog = some s.ms then s
  else (s.setPower fun p => { p with faultLog := some s.ms }).logEvent 0x0605 0x02 0 1 (bits * 2 ^ 18)

/-- A frame is accepted; the 16th in a row after a retry ends the loss (R411). -/
def State.acceptFrame (s : State) (f : Nat) : State :=
  let s := ((s.put F.PWR_TEL.frame (nbits f 69 8)).setPower fun p => { p with lastSeq := some (nbits f 11 8) }).noteFaultBits f
  match s.power.retry with
  | none => s
  | some n =>
    if n + 1 < 16 then s.setPower fun p => { p with retry := some (n + 1) }
    else (s.put F.PWR_STATUS.tel_lost 0).setPower fun p => { p with retry := none }

/-- TELEMETRY_FRAME (R410, R411). A discarded frame leaves the last sample in use and breaks a run of accepted ones. -/
def execTelemetryFrame (f : BitVec 80) (s : State) : Out :=
  if s.acceptsFrame f.toNat then .next (s.acceptFrame f.toNat)
  else .next (s.setPower fun p => { p with retry := p.retry.map fun _ => 0 })

/-- TELEMETRY_LOST (R411): four frame times have passed without an accepted frame. -/
def execTelemetryLost (s : State) : Out :=
  need (!s.on F.PWR_STATUS.tel_lost) "telemetry is lost already" <|
  .next (((s.put F.PWR_STATUS.tel_lost 1).setPower fun p => { p with retry := none }).logEvent 0x0604 0x02 0 2 0)

/-- Seek telemetry again (R411). -/
def State.telRetry (s : State) : State :=
  if s.on F.PWR_STATUS.tel_lost then s.setPower fun p => { p with retry := some 0 } else s

/-- Every healthy slice of every group is back in service: sheds end with `shed_en` (R414). -/
def State.endSheds (s : State) : State :=
  s.setPower fun p => { p with regions := p.regions.map fun x => { x with shed := false }, vmShed := Vector.replicate 40 false }

/-- A write of `PWR_CTL` (R411, R414, R431). -/
def State.writePwrCtl (s : State) (v : Nat) : State :=
  let s := s.put F.PWR_CTL.shed_en (v % 2)
  let s := if nbit v 0 then s else s.endSheds
  if nbit v 1 then s.telRetry else s

/-- TEL_RETRY (R411). -/
def execTelRetry (s : State) : Out := .next s.telRetry

/-- PMBus commands of the controller: STATUS_WORD and CLEAR_FAULTS. -/
def pmbStatusWord : Nat := 0x79
def pmbClearFaults : Nat := 0x03

/-- A STATUS_WORD that is not zero is logged (R408, R525). -/
def State.noteStatusWord (s : State) (page word : Nat) : State :=
  let s := s.emit (.pmbus page pmbStatusWord true 0)
  if word = 0 then s else s.logEvent 0x0605 0x02 0 1 (word + page * 2 ^ 16)

/-- PMB_ALERT (R408): the words of pages 0-3, in order. -/
def execPmbAlert (words : List (BitVec 16)) (s : State) : Out :=
  need (words.length == 4) "a word of each of the four pages" <|
  let s := (words.zipIdx).foldl (fun s w => s.noteStatusWord w.2 w.1.toNat) s
  .next ((s.put F.PWR_STATUS.pmb_alert 1).emit (.pmbus 3 pmbClearFaults false 0))

/-- A write of `PWR_PMB` (R428, R431): go queues a read or CLEAR_FAULTS, and denies any other command. -/
def State.writePmb (s : State) (v : Nat) : State :=
  let s := s.swFields R.PWR_PMB v 0
  if nbit v 12 && !s.on F.PWR_PMB.busy then
    let cmd := s.get F.PWR_PMB.cmd
    let rd := s.on F.PWR_PMB.read
    let s := s.setPower fun p => { p with pmb := (rd, s.on F.PWR_PMB.two) }
    if rd || cmd == pmbClearFaults then (s.put F.PWR_PMB.busy 1).emit (.pmbus (s.get F.PWR_PMB.page) cmd rd 0)
    else s.put F.PWR_PMB.code 5
  else s

/-- PWR_PMB_GO (R431). -/
def execPwrPmbGo (v : Word) (s : State) : Out := .next (s.writePmb v.toNat)

/-- PMB_TRANSACTION_DONE (R431): the mailbox transaction ends, with its data or without an answer. -/
def execPmbTransactionDone (answered : Bool) (data : BitVec 16) (s : State) : Out :=
  need (s.on F.PWR_PMB.busy) "no mailbox transaction runs" <|
  let s := s.put F.PWR_PMB.busy 0
  if !answered then .next (s.put F.PWR_PMB.code 8)
  else
    let s := s.put F.PWR_PMB.code 0
    if s.power.pmb.1 then .next (s.put F.PWR_PMB.data (if s.power.pmb.2 then data.toNat else data.toNat % 256)) else .next s

/-! ## Slices (R412-R417) -/

/-- A region powers off for good (R416-R418). -/
def State.regionDark (s : State) (r : RegionId) : State :=
  ((((s.loseRegion r).endTurn r).pllOff r).put F.PWR_RG_STATUS.state 3 (instOf r)).segmentFell r

/-- The second failure in an engine's group (R416). -/
def State.engineDark (s : State) (e : EngineId) : State :=
  ((s.engineReset e).regionDark (regionOf e)).mapOutEngine e false

/-- A request for DRAM that is no more is answered (R417). -/
def State.dropLandReqs (s : State) (e : EngineId) : State :=
  let gone := s.landq.filter fun q => q.eng == e
  gone.foldl (fun s q => s.answer q.req .unmapped []) { s with landq := s.landq.filter fun q => q.eng != e }

/-- The contents and the state of an engine's DRAM are lost (R417). -/
def State.loseDram (s : State) (e : EngineId) : State :=
  let lo := e.val * 2 ^ 32
  { s with
    mem := s.mem.filter fun c => decide (c.1 < lo) || decide (lo + 2 ^ 32 ≤ c.1)
    marks := s.marks.filter fun c => c.1 / 2 ^ 28 != e.val
    banks := s.banks.filter fun c => c.1 / 2048 != e.val }

/-- An engine loses its DRAM with its column: it is mapped out, and nothing of its broadcasts runs on (R417). -/
def State.engineNoDram (s : State) (e : EngineId) : State :=
  let s := s.engineReset e
  let s := s.setEngBcs e { s.eng e with bcs := [] }
  ((s.dropLandReqs e).loseDram e).mapOutEngine e true

/-- The square drops its lines, and its fills are answered (R417). -/
def State.dropColumnLines (s : State) (k : SquareId) : State :=
  let gone := (s.sq k).fills
  let s := s.setSq k { s.sq k with lines := [], fills := [], flushing := [] }
  gone.foldl (fun s f => s.answer f.req .unmapped []) (s.put F.SQ_POISON.held 0 k.val)

/-- The two engines of a column (R19). -/
def engineA (k : SquareId) : EngineId := ⟨k.val, by omega⟩
def engineB (k : SquareId) : EngineId := ⟨k.val + 40, by omega⟩

/-- The second failure in a column's VMEM group (R417). -/
def State.memoryDark (s : State) (k : SquareId) : State :=
  let s := s.put F.PWR_VM_STATE.dark (putBits (s.get F.PWR_VM_STATE.dark 121) k.val 1 1) 121
  ((s.dropColumnLines k).engineNoDram (engineA k)).engineNoDram (engineB k)

/-- A slice failure is logged (R415, R417, R525). -/
def State.noteSlice (s : State) (inst group slice : Nat) (first : Bool) : State :=
  s.logEvent 0x0601 0x02 0 (if first then 1 else 3) (inst + group * 2 ^ 8 + slice * 2 ^ 16)

/-- A slice of a region's group is out of service. -/
def State.regionSlice (s : State) (r : RegionId) (slice : Nat) : State :=
  let i := instOf r
  let s := s.put F.PWR_RG_STATUS.failed (putBits (s.get F.PWR_RG_STATUS.failed i) slice 1 1) i
  s.put F.PWR_RG_STATUS.in_service ((if r.val < 80 then 16 else 8) - bitCount (s.get F.PWR_RG_STATUS.failed i)) i

/-- A region's group reacts to its `n`-th failure (R415-R417). -/
def State.regionFailure (s : State) (r : RegionId) (n : Nat) : State :=
  let i := instOf r
  if n = 1 then
    let s := s.put F.PWR_RG_STATUS.degraded 1 i
    if r.val < 80 then s.put F.PWR_RG_STATUS.stepdown 1 i else s
  else if n = 2 then
    match RegionId.eng? r, RegionId.sq? r with
    | some e, _ => s.engineDark e
    | none, some _ => s.setRegion r { s.region r with dying := true }
    | none, none => s
  else s

/-- A slice of group `group` of a power instance goes out of service, and its group reacts (R415-R417). Instances 1-120 have one group. -/
def State.sliceOut (s : State) (inst group slice : Nat) : State :=
  if inst = 121 then
    let f := F.PWR_VM_FAIL.col (group % 4)
    let s := s.put f (putBits (s.get f 121 (group / 4)) slice 1 1) 121 (group / 4)
    match squareOf? group with
    | some k => if bitCount (s.get f 121 (group / 4)) = 2 then s.memoryDark k else s
    | none => s
  else if inst = 122 then
    let f := F.PWR_FL_FAIL.grp (group % 4)
    let s := s.put f (putBits (s.get f 122) slice 1 1) 122
    if bitCount (s.get f 122) = 2 then (s.setBoot fun b => { b with holdAon := true }).wholeReset 6 else s
  else if h : 1 ≤ inst ∧ inst ≤ 120 then
    let r : RegionId := ⟨inst - 1, by omega⟩
    let s := s.regionSlice r slice
    s.regionFailure r (bitCount (s.get F.PWR_RG_STATUS.failed inst))
  else s

/-- Whether a power instance has such a slice (R412). -/
def sliceExists (inst group slice : Nat) : Bool :=
  if inst = 121 then decide (group < 40) && decide (slice < 16)
  else if inst = 122 then decide (group < 4) && decide (slice < 16)
  else decide (1 ≤ inst) && decide (inst ≤ 120) && group == 0 && decide (slice < (if inst ≤ 80 then 16 else 8))

/-- SLICE_FAIL (R413-R417): a slice declares itself failed. -/
def execSliceFail (inst group slice : Nat) (s : State) : Out :=
  need (sliceExists inst group slice) "no such slice" <|
  need (!nbit (s.failedSlices inst group) slice) "the slice has failed already" <|
  .next ((s.noteSlice inst group slice (bitCount (s.failedSlices inst group) == 0)).sliceOut inst group slice)

/-- What was held for a region is served (R35, R419). -/
def State.serveHeld (s : State) (r : RegionId) : State :=
  match RegionId.eng? r, RegionId.sq? r with
  | some e, _ => s.unpark fun p => MeshPkt.forCore s p e
  | none, some k => s.unpark fun p => p.at_ == k && !(List.finRange 80).any fun e => MeshPkt.forCore s p e
  | none, none => s

/-- SQUARE_GOES_DARK (R268, R417, R418): the dirty lines are written back, the region goes DARK, and the storage is mapped out. -/
def execSquareGoesDark (k : SquareId) (s : State) : Out :=
  let r := regionOfSq k
  need (s.region r).dying "the square's group has not lost a second slice" <|
  let s := s.dropLines k fun _ => true
  let s := ((s.put F.SQ_STATUS.flush_busy 0 k.val).put F.SQ_CTL.busy 0 k.val).setRegion r { s.region r with dying := false }
  .next (((s.regionDark r).mapOutSquare k).serveHeld r)

/-- Whether a group of an instance sheds, and setting it (R414). The Floor's groups do not shed. -/
def State.isShed (s : State) (inst group : Nat) : Bool :=
  if inst = 121 then match squareOf? group with
    | some k => vget s.power.vmShed k
    | none => false
  else if h : 1 ≤ inst ∧ inst ≤ 120 then (s.region ⟨inst - 1, by omega⟩).shed else false
def State.setShed (s : State) (inst group : Nat) (b : Bool) : State :=
  if inst = 121 then match squareOf? group with
    | some k => s.setPower fun p => { p with vmShed := vset p.vmShed k b }
    | none => s
  else if h : 1 ≤ inst ∧ inst ≤ 120 then s.setRegion ⟨inst - 1, by omega⟩ { s.region ⟨inst - 1, by omega⟩ with shed := b } else s

/-- Whether a group can shed: that of a region or of a column's VMEM. -/
def mayShed (inst group : Nat) : Bool := inst != 122 && sliceExists inst group 0

/-- SLICE_SHED (R414): the group has drawn less than 25 % of its ceiling for 100 µs. -/
def execSliceShed (inst group : Nat) (s : State) : Out :=
  need (mayShed inst group && s.on F.PWR_CTL.shed_en && !s.isShed inst group) "the group cannot shed" <|
  .next (s.setShed inst group true)

/-- SLICE_UNSHED (R414): it draws more than 40 %. -/
def execSliceUnshed (inst group : Nat) (s : State) : Out :=
  need (s.isShed inst group) "the group does not shed" (.next (s.setShed inst group false))

/-! ## Regions (R418-R420, R466) -/

/-- REGION_SLEEP (R418, R419): by request to the target of `PWR_RG_CTL`, or to RETAIN after idle_us where auto_sleep is set. -/
def execRegionSleep (r : RegionId) (auto : Bool) (s : State) : Out :=
  let target := if auto then 1 else s.get F.PWR_RG_CTL.target (instOf r)
  need (s.regState r == 0 && !(s.region r).clearing && !(s.region r).dying && s.maySleep r) "the region is not ON and idle" <|
  need (if auto then decide (r.val < 80) && s.on F.PWR_RG_CTL.auto_sleep (instOf r) else target == 1 || target == 2) "no sleep is asked for" <|
  .next (s.sleep r target)

/-- REGION_WAKE (R419, R420): a region that sleeps starts its turn-on. -/
def execRegionWake (r : RegionId) (s : State) : Out :=
  need ((s.regState r == 1 || s.regState r == 2) && (s.region r).phase == .none && !s.pllBars r) "the region does not sleep, or may not wake" <|
  .next (s.wake r)

/-- INRUSH_WAIT_TIMEOUT (R420): the 200 µs wait runs out, and the column's other ON engine regions skip 1 cycle in 8 for the inrush window. -/
def execInrushWaitTimeout (r : RegionId) (s : State) : Out :=
  need ((s.region r).phase == .waiting) "the region does not wait for its segment" (.next (s.closeGates r true))

/-- The engine's PLL locks (R466, R473). -/
def State.pllLock (s : State) (e : EngineId) : State := (s.put F.CLK_PLL.state 2 (e.val + 1)).count F.CLK_PLL.locks 1 (e.val + 1)

/-- REGION_ON (R418-R420, R466): the inrush window and the clock start are over. A square's turn-on is whole; an engine's clock starts, and out of
OFF it clears its stores first. -/
def execRegionOn (r : RegionId) (s : State) : Out :=
  need (s.region r).phase.goesOn "the region does not turn on" <|
  let off := s.regState r == 2
  let s := (s.endTurn r).put F.PWR_RG_STATUS.state 0 (instOf r)
  match RegionId.eng? r with
  | some e =>
    let s := (s.setRegion r { s.region r with clearing := off }).pllLock e
    .next (if off then s else s.serveHeld r)
  | none => .next (s.serveHeld r)

/-- REGION_CLEAR_DONE (R418): every core store and instruction word is zero; the table banks stay invalid. -/
def execRegionClearDone (r : RegionId) (s : State) : Out :=
  need (s.region r).clearing "the region is not clearing" <|
  let s := s.setRegion r { s.region r with clearing := false }
  match RegionId.eng? r with
  | some e => .next (((s.modEng e fun g => { g with imem := [] }).zeroCore e).serveHeld r)
  | none => .next s

/-- Rearm the droop record (R421). -/
def State.rearm (s : State) (r : RegionId) : State :=
  (s.put F.PWR_RG_VMIN.vmin 0x3FF (instOf r)).setRegion r { s.region r with vminT := 0 }

/-- A write of `PWR_RG_CTL` (R419, R421, R432): the reserved target is ignored, ON wakes the region, rearm rearms. -/
def State.writeRgCtl (s : State) (r : RegionId) (v : Nat) : State :=
  let i := instOf r
  let s := (s.put F.PWR_RG_CTL.idle_us (nbits v 23 8) i).put F.PWR_RG_CTL.auto_sleep (nbits v 2 2) i
  let s := if nbits v 1 0 = 3 then s else s.put F.PWR_RG_CTL.target (nbits v 1 0) i
  let s := if nbit v 24 then s.rearm r else s
  if nbits v 1 0 = 0 then s.wake r else s

/-- PWR_RG_CTL_WRITE (R419). -/
def execPwrRgCtlWrite (r : RegionId) (v : Word) (s : State) : Out := .next (s.writeRgCtl r v.toNat)

/-- PWR_RG_REARM (R421). -/
def execPwrRgRearm (r : RegionId) (s : State) : Out := .next (s.rearm r)

/-- PWR_RG_VMIN_READ (R421): the stamp is copied into the holding register. -/
def State.readVmin (s : State) (r : RegionId) : State := s.setReg R.PWR_RG_VMIN_T (s.region r).vminT (instOf r)
def execPwrRgVminRead (r : RegionId) (s : State) : Out := .next (s.readVmin r)

/-! ## Droop, guard and ceilings (R421, R424, R428) -/

/-- The record of the lowest voltage (R421). -/
def State.noteVmin (s : State) (r : RegionId) (mv : Nat) : State :=
  if mv < s.get F.PWR_RG_VMIN.vmin (instOf r) then (s.put F.PWR_RG_VMIN.vmin mv (instOf r)).setRegion r { s.region r with vminT := s.btime } else s

/-- A droop counts, starts the skipping of an engine region, and is logged once per millisecond (R421). -/
def State.droop (s : State) (r : RegionId) : State :=
  let i := instOf r
  let s := (s.count F.PWR_RG_DROOP.count 1 i).setRegion r { s.region r with droopSkip := decide (r.val < 80) }
  if (s.region r).droopLog = some s.ms then s
  else (s.setRegion r { s.region r with droopLog := some s.ms }).logEvent 0x0602 0x02 i 1 (s.get F.PWR_RG_VMIN.vmin i)

/-- DROOP_SAMPLE (R421). -/
def execDroopSample (r : RegionId) (mv : BitVec 10) (s : State) : Out :=
  let s := s.noteVmin r mv.toNat
  let thresh := s.get F.PWR_RG_DROOP.thresh (instOf r)
  if thresh ≠ 0 ∧ mv.toNat < thresh then .next (s.droop r) else .next s

/-- DROOP_SKIP_END (R421): 1 µs after the last sample below the threshold. -/
def execDroopSkipEnd (r : RegionId) (s : State) : Out :=
  need (s.region r).droopSkip "no droop skipping" (.next (s.setRegion r { s.region r with droopSkip := false }))

/-- PWR_RG_DROOP_READ (R14, R421). -/
def execPwrRgDroopRead (r : RegionId) (s : State) : Out := .next (s.swRead R.PWR_RG_DROOP (instOf r) 0).1

/-- Whether a current in units of 0.1 A is above the ceiling in force, or below 90 % of it (R424). -/
def State.aboveCeiling (s : State) (r : RegionId) (amps : Nat) : Bool := decide (s.ceiling16 r < 16 * amps)
def State.below90 (s : State) (r : RegionId) (amps : Nat) : Bool := decide (160 * amps < 9 * s.ceiling16 r)

/-- CURRENT_REPORT (R420, R424): a wait for the segment may end; two consecutive reports above its ceiling raise an engine's guard level; a square above its ceiling takes requests
on every other cycle until it falls below 90 %. -/
def execCurrentReport (r : RegionId) (amps : BitVec 12) (s : State) : Out :=
  let i := instOf r
  need (s.regState r == 0) "the region is not ON" <|
  let s := (s.put F.PWR_RG_STATUS.current amps.toNat i).segmentFell r
  let x := s.region r
  if 80 ≤ r.val then
    let half := if s.aboveCeiling r amps.toNat then true else x.halfRate && !s.below90 r amps.toNat
    .next (s.setRegion r { x with halfRate := half })
  else if !s.aboveCeiling r amps.toNat then .next (s.setRegion r { x with overs := 0 })
  else if x.overs = 0 then .next (s.setRegion r { x with overs := 1 })
  else .next ((s.setRegion r { x with overs := 0 }).put F.PWR_RG_STATUS.guard (min 7 (s.get F.PWR_RG_STATUS.guard i + 1)) i)

/-- GUARD_DECAY (R424): 10 µs have passed below 90 % of the ceiling. -/
def execGuardDecay (r : RegionId) (s : State) : Out :=
  let i := instOf r
  need (s.get F.PWR_RG_STATUS.guard i != 0 && s.below90 r (s.get F.PWR_RG_STATUS.current i)) "the guard level is 0, or the current is not below 90 %" <|
  .next (s.put F.PWR_RG_STATUS.guard (s.get F.PWR_RG_STATUS.guard i - 1) i)

/-- PWR_RG_CEIL_WRITE (R428): at most the group ceiling is stored. -/
def State.writeRgCeil (s : State) (r : RegionId) (v : Nat) : State := s.put F.PWR_RG_CEIL.limit (min (nbits v 9 0) (s.groupCeiling r)) (instOf r)
def execPwrRgCeilWrite (r : RegionId) (v : Word) (s : State) : Out := .next (s.writeRgCeil r v.toNat)

/-- Store a field of `PWR_CAP` clamped to the same field of `PWR_CEIL` (R428). -/
def State.clampCap (s : State) (f : Field) (v : Nat) : State :=
  s.put f (min (getBits v f.lo f.w) (getBits (s.reg R.PWR_CEIL) f.lo f.w))

/-- PWR_CAP_WRITE (R428). -/
def State.writeCap (s : State) (v : Nat) : State :=
  (((s.clampCap F.PWR_CAP.fast_w v).clampCap F.PWR_CAP.sust_w v).clampCap F.PWR_CAP.vcore_a v).clampCap F.PWR_CAP.vmem_a v
def execPwrCapWrite (v : Word) (s : State) : Out := .next (s.writeCap v.toNat)

/-- A write of `PWR_HINT` (R423, R431): 0 stores 1. -/
def State.writePwrHint (s : State) (v : Nat) : State :=
  ((s.put F.PWR_HINT.core_n (max 1 (nbits v 6 0))).put F.PWR_HINT.mem_n (max 1 (nbits v 14 8))).vpmHints

/-! ## The block cap and energy (R425, R426, R429) -/

/-- Currents in use: those of the last accepted frame, or the sustained limits while telemetry is lost (R405, R411). VCORE, VMEM and VSER
in units of 0.1 A, VPP in units of 0.25 A. -/
def State.currents (s : State) : Nat × Nat × Nat × Nat :=
  let f := s.get F.PWR_TEL.frame
  if s.on F.PWR_STATUS.tel_lost then (24000, 8000, 2500, 120) else (nbits f 19 4, nbits f 33 20, nbits f 45 34, nbits f 53 46)

/-- Power in units of 50 µW from the currents and the measured rail voltages in millivolts (R425). -/
def powerOf (i : Nat × Nat × Nat × Nat) (mv : List Nat) : Nat :=
  let v (n : Nat) : Nat := mv.getD n 0
  2 * i.1 * v 0 + 2 * i.2.1 * v 1 + 2 * i.2.2.1 * v 2 + 5 * i.2.2.2 * v 3

/-- Units of 50 µW in a watt, and units of 50 pJ in a microjoule. -/
def unitsPerW : Nat := 20000

/-- The newest `n` samples, and the sum of a component over them. -/
def sumOf (l : List PwrSample) (f : PwrSample → Nat) : Nat := l.foldl (fun n x => n + f x) 0

/-- The limits on an average over 1 ms or 10 ms: a component and its limit in the component's unit (R425). -/
def State.limits1 (s : State) : List ((PwrSample → Nat) × Nat) :=
  [(PwrSample.p, unitsPerW * s.get F.PWR_CAP.fast_w), (PwrSample.core, 30000), (PwrSample.mem, 10000)]
def State.limits10 (s : State) : List ((PwrSample → Nat) × Nat) :=
  [(PwrSample.p, unitsPerW * s.get F.PWR_CAP.sust_w), (PwrSample.core, 10 * s.get F.PWR_CAP.vcore_a), (PwrSample.mem, 10 * s.get F.PWR_CAP.vmem_a)]

/-- The cap level rises to `level`: it is flagged, and the first rise in a millisecond is logged (R426). -/
def State.capRise (s : State) (level : Nat) : State :=
  if level ≤ s.get F.PWR_STATUS.cap_level then s
  else
    let s := (s.put F.PWR_STATUS.cap_level level).put F.PWR_STATUS.cap_hit 1
    if s.power.capLog = some s.ms then s
    else (s.setPower fun p => { p with capLog := some s.ms }).logEvent 0x0603 0x02 0 1
      (s.get F.PWR_STATUS.p1ms + s.get F.PWR_STATUS.p10ms * 2 ^ 16 + level * 2 ^ 32)

/-- The level follows the averages (R426): to 7 when a 1 ms average reaches its limit, up by one every 10 µs while a 10 ms average exceeds its
limit, down by one every 100 µs while every average is below 97 % of its limit. -/
def State.capLevels (s : State) (l1 l10 : List PwrSample) : State :=
  let n1 := l1.length
  let n10 := l10.length
  let hit := s.limits1.any fun q => decide (q.2 * n1 ≤ sumOf l1 q.1)
  let above := s.limits10.any fun q => decide (q.2 * n10 < sumOf l10 q.1)
  let under := (s.limits1.all fun q => decide (100 * sumOf l1 q.1 < 97 * q.2 * n1)) && s.limits10.all fun q => decide (100 * sumOf l10 q.1 < 97 * q.2 * n10)
  let level := s.get F.PWR_STATUS.cap_level
  let up := if above then s.power.ups + 1 else 0
  let down := if under then s.power.under + 1 else 0
  let s := s.setPower fun p => { p with ups := up % 10, under := down % 100 }
  if hit then s.capRise 7
  else if up = 10 then s.capRise (min 7 (level + 1))
  else if down = 100 then s.put F.PWR_STATUS.cap_level (level - 1)
  else s

/-- The energy of one microsecond (R429). -/
def State.addEnergy (s : State) (p : Nat) : State :=
  let e := s.power.frac + p
  (s.put F.PWR_ENERGY.uj (s.get F.PWR_ENERGY.uj + e / unitsPerW)).setPower fun x => { x with frac := e % unitsPerW }

/-- CAP_EVALUATE (R425, R426, R429): one microsecond, with the voltages measured at the lands of VCORE, VMEM, VSER and VPP in millivolts. -/
def execCapEvaluate (mv : List Nat) (s : State) : Out :=
  let i := s.currents
  let p := powerOf i mv
  let s := if s.on F.PWR_STATUS.tel_lost then s.put F.PWR_STATUS.est 1 else s
  let s := (s.addEnergy p).setPower fun x => { x with samples := (⟨p, i.1, i.2.1⟩ :: x.samples).take 10000 }
  let l10 := s.power.samples
  let l1 := l10.take 1000
  let s := (s.put F.PWR_STATUS.p1ms (sumOf l1 PwrSample.p / (unitsPerW * l1.length))).put F.PWR_STATUS.p10ms
    (sumOf l10 PwrSample.p / (unitsPerW * l10.length))
  .next (s.capLevels l1 l10)

/-- The eighths level in force for an engine (R427): the largest of the thermal, guard, cap, droop and inrush levels. -/
def State.skipLevel (s : State) (e : EngineId) : Nat :=
  let x := s.region (regionOf e)
  max (max (s.get (F.THM_LEVEL.level (e.val % 16)) 0 (e.val / 16)) (s.get F.PWR_RG_STATUS.guard (e.val + 1)))
    (max (s.get F.PWR_STATUS.cap_level) (max (if x.droopSkip then 4 else 0) (if x.inrush then 1 else 0)))

/-! ## Phase hints (R422, R423) -/

/-- PRE_STAGE (R414, R422, R423): a phase is within 10 µs of its start. -/
def execPreStage (e : EngineId) (s : State) : Out :=
  needSome (s.hint e) "no phase is announced" fun h =>
  need (!h.staged) "the phase is pre-staged" <|
  let s := s.setHint e (some { h with near := true, staged := true })
  let s := if nbit h.kind 0 then (s.wake (regionOf e)).setShed (e.val + 1) 0 false else s
  let s := if nbit h.kind 1 then s.setShed 121 (e.val % 40) false else s
  .next s

/-- PHASE_END (R422, R423): the duration of a phase expires. -/
def execPhaseEnd (e : EngineId) (s : State) : Out :=
  needSome (s.hint e) "no phase is announced" fun h =>
  need (h.duration != 0) "the phase has no duration" (.next (s.setHint e none))

end Sys2Proof.Machine
end

