-- ==== Sys2Proof/Machine/Clocks.lean ====
section
/-! DEFINITION. Clocks: the clock step, the engine PLLs, the canaries, block time and its discipline over the links (R373, R409, R463-R473). -/
namespace Sys2Proof.Machine

/-- Change the clock unit's data. -/
def State.setClock (s : State) (f : Clock → Clock) : State := { s with clock := f s.clock }

/-! ## Clock steps (R409, R463-R465, R468) -/

/-- Region voltage of a step in millivolts, and the VCORE set point with 40 mV of headroom (R409, R463). -/
def regionVoltage (step : Nat) : Nat := [760, 720, 690, 660, 630, 600, 580, 560].getD step 560
def setPoint (step : Nat) : Nat := regionVoltage step + 40

/-- The effective step: the slower of what firmware asks for and the thermal limit (R464). -/
def State.effStep (s : State) : Nat := max (s.get F.CLK_STEP.req) (s.get F.THM_STEP.limit)

/-- The slices and VCORE take their voltages (R409). -/
def State.setSlices (s : State) (step : Nat) : State := s.setClock fun c => { c with regionMv := regionVoltage step }
def State.commandVcore (s : State) (step : Nat) : State := (s.emit (.voutCommand (setPoint step))).setClock fun c => { c with vcoreMv := setPoint step }

/-- CLK_STEP_REQ (R464). -/
def State.writeStepReq (s : State) (v : Nat) : State := s.put F.CLK_STEP.req (nbits v 2 0)
def execClkStepReq (v : Word) (s : State) : Out := .next (s.writeStepReq v.toNat)

/-- STEP_CHANGE (R409, R464): to a faster step VCORE rises first, to a slower one the clocks change first. -/
def execStepChange (s : State) : Out :=
  let target := s.effStep
  need (s.clock.change.isNone && target != s.get F.CLK_STEP.eff) "a change is in progress, or the effective step is in force" <|
  let s := s.put F.CLK_STEP.busy 1
  if target < s.get F.CLK_STEP.eff then .next ((s.commandVcore target).setClock fun c => { c with change := some ⟨target, .settle⟩ })
  else .next (s.setClock fun c => { c with change := some ⟨target, .pause⟩ })

/-- VCORE_SETTLE_END (R409): the slices are set to the new region voltage. -/
def execVcoreSettleEnd (s : State) : Out :=
  needSome s.clock.change "no change is in progress" fun c =>
  need (c.phase == .settle) "VCORE does not settle" <|
  .next ((s.setSlices c.target).setClock fun x => { x with change := some ⟨c.target, .pause⟩ })

/-- A bundle's index as (column, interface, bundle), keyed without the step. -/
def bundleAt (n : Nat) : SquareId × Nat × Nat := (⟨n / 112 % 40, Nat.mod_lt _ (by decide)⟩, n / 16 % 7, n % 16)

/-- A bundle that fails its verification is calibrated again at a step, with the taps that pass in its sweep (R327, R468). -/
def State.recalBundle (s : State) (step : Nat) (q : Nat × BitVec 64) : State :=
  let (k, i, b) := bundleAt q.1
  if xwPresent i b then s.calibrate k i b step q.2.toNat else s

/-- Every running engine PLL locks to the new step (R465). -/
def State.relockAll (s : State) : State :=
  (List.finRange 80).foldl (fun s e => if s.get F.CLK_PLL.state (e.val + 1) = 2 then s.pllLock e else s) s

/-- STEP_PAUSE (R465, R467, R468): the bundles that failed verification at the first change to the step, with the taps that pass. -/
def execStepPause (found : List (Nat × BitVec 64)) (s : State) : Out :=
  needSome s.clock.change "no change is in progress" fun c =>
  need (c.phase == .pause) "VCORE settles" <|
  need (found.isEmpty || !s.clock.verified.contains c.target) "the taps of the step are verified" <|
  let slower := decide (s.get F.CLK_STEP.eff < c.target)
  let s := found.foldl (fun s q => s.recalBundle c.target q) s
  let s := ((s.put F.CLK_STEP.eff c.target).put F.CLK_STATUS.step_lock 1).relockAll
  let s := s.setClock fun x => { x with change := none, verified := if x.verified.contains c.target then x.verified else x.verified ++ [c.target] }
  let s := if slower then (s.setSlices c.target).commandVcore c.target else s
  .next (((s.count F.CLK_STEP.changes 1).put F.CLK_STEP.busy 0).refreshAllXw)

/-! ## Engine PLLs and canaries (R466, R469) -/

/-- An engine's PLL fails: its clock stops, and the engine is treated as reset (R466). -/
def State.pllFails (s : State) (e : EngineId) : State :=
  let s := if (s.eng e).inReset then s else s.engineReset e
  ((((s.put F.CLK_PLL.fail 1 (e.val + 1)).put F.CLK_PLL.state 3 (e.val + 1)).put F.CLK_STATUS.pll_fail 1).endTurn (regionOf e)).logEvent 0x0801 0x04 0 3 e.val

/-- Whether an engine's PLL has a lock to make: its region turns on, or a step pause relocks every running PLL (R465, R466). -/
def State.pllLocks (s : State) (e : EngineId) : Bool :=
  (s.region (regionOf e)).phase.goesOn || (s.get F.CLK_PLL.state (e.val + 1) == 2 && s.clock.change.any fun c => c.phase == .pause)

/-- PLL_LOCK_TIMEOUT (R465, R466): a PLL has not locked within 10 µs. -/
def execPllLockTimeout (e : EngineId) (s : State) : Out := need (s.pllLocks e) "the PLL has no lock to make" (.next (s.pllFails e))

/-- PLL_LOCK_LOST (R466): a running PLL loses lock. -/
def execPllLockLost (e : EngineId) (s : State) : Out :=
  need (s.get F.CLK_PLL.state (e.val + 1) == 2) "the PLL does not run" (.next (s.pllFails e))

/-- A write of `CLK_PLL` (R466, R473): clearing fail allows a wake; a region that is still ON locks again. -/
def State.writePll (s : State) (e : EngineId) (v : Nat) : State :=
  if nbit v 2 && s.on F.CLK_PLL.fail (e.val + 1) then
    let s := (s.put F.CLK_PLL.fail 0 (e.val + 1)).put F.CLK_PLL.state 0 (e.val + 1)
    if s.regState (regionOf e) = 0 then s.pllLock e else s
  else s

/-- CLK_PLL_FAIL_CLEAR (R473). -/
def execClkPllFailClear (e : EngineId) (v : Word) (s : State) : Out := .next (s.writePll e v.toNat)

/-- CANARY_WINDOW (R469): the counts of a full millisecond, below 5 % and below 10 %. -/
def execCanaryWindow (e : EngineId) (below5 below10 : BitVec 16) (s : State) : Out :=
  let i := e.val + 1
  let s := (s.put F.CLK_CANARY.below5 below5.toNat i).put F.CLK_CANARY.below10 below10.toNat i
  let limit := s.get F.CLK_CANARY.limit i
  if limit ≠ 0 ∧ limit ≤ below5.toNat then
    .next (((s.put F.CLK_CANARY.warn 1 i).put F.CLK_STATUS.canary_warn 1).logEvent 0x0802 0x04 0 1 (e.val + below5.toNat * 2 ^ 16))
  else .next s

/-! ## Block time (R373, R470, R471) -/

/-- The largest rate term, 200 ppm (R470). -/
def adjMax : Int := 219902326

/-- A rate term within its bounds. -/
def clampAdj (x : Int) : Int := max (-adjMax) (min adjMax x)

/-- One cycle of the 1 GHz time clock (R470). -/
def State.timeTick (s : State) : State :=
  s.setClock fun c => { c with acc := ofSigned 104 ((c.acc : Int) + 2 ^ 40 + toSigned 32 (s.get F.CLK_BTIME_ADJ.adj)), ticks := c.ticks + 1 }

/-- What a step does on an empty queue: one cycle of the time clock, with the hints and the ends of inrush windows that fall due, unless the block is
in its whole-block reset (R140, R420, R470; log entry 2). -/
def State.idle (s : State) : State := if s.get F.AON_STATUS.stage = 0 then s else s.timeTick.hintsDue.windowsDue

/-- Set the rate term. -/
def State.putAdj (s : State) (x : Int) : State := s.put F.CLK_BTIME_ADJ.adj (ofSigned 32 x)

/-- A write of `CLK_BTIME_ADJ` (R470, R471): only while the block is not disciplined. -/
def State.writeAdj (s : State) (v : Nat) : State :=
  if 14 ≤ s.get F.PL_TIME.parent then s.putAdj (clampAdj (toSigned 32 (nbits v 31 0))) else s

/-- CLK_BTIME_ADJ_WRITE (R471). -/
def execClkBtimeAdjWrite (v : Word) (s : State) : Out := .next (s.writeAdj v.toNat)

/-- A step of block time by `e` in 1/32 ns (R471, R537). -/
def State.stepBtime (s : State) (e : Int) : State :=
  let before := s.btime
  let s := s.setClock fun c => { c with acc := ofSigned 104 ((c.acc : Int) + e * 2 ^ 35), integral := 0 }
  let size := ofSigned 64 (e.tdiv 32)
  let s := ((s.putAdj 0).setReg R.CLK_BTIME_STEP size).count F.CLK_STATUS.steps 1
  (s.logEvent 0x0803 0x04 0 1 size).gaugeStep before s.btime

/-- The loop of R471 for an offset `e` in 1/32 ns. -/
def State.discipline (s : State) (e : Int) : State :=
  let f := s.clock.integral + (e * 2 ^ 35).tdiv 640000
  (s.setClock fun c => { c with integral := f }).putAdj (clampAdj (f + (e * 2 ^ 35).tdiv 40000))

/-- `PL_TIME.err` in 1/16 ns, and whether the last sixteen offsets lay below 1 ns (R373, R375). -/
def State.noteOffset (s : State) (e : Int) : State :=
  let e16 := e.tdiv 2
  let fits := decide (-32768 ≤ e16) && decide (e16 ≤ 32767)
  let runs := if e.natAbs < 32 then min 16 (s.net.goodRuns + 1) else 0
  let s := s.put F.PL_TIME.err (if fits then ofSigned 16 e16 else (Config.timeErr e).toNat)
  { s with net := { s.net with goodRuns := runs, timed := true } }.put F.PL_TIME.locked (b2n (runs == 16))

/-- The parent port of the block, where `PL_TIME.parent` names one (R373). -/
def State.timeParent (s : State) : Option PortId :=
  let p := s.get F.PL_TIME.parent
  if h : p < 8 then some ⟨p, h⟩ else none

/-- The data of a TIME packet: its stamps, low byte first, in a field of 32 bytes (R349). -/
def timeData (t1 t2 t3 : Nat) : List Byte := leBytes 8 t1 ++ leBytes 8 t2 ++ leBytes 8 t3 ++ leBytes 8 0

/-- A TIME packet leaves on a port for its partner: operation 0 a request, 1 a reply (R349). -/
def State.sendTime (s : State) (p : PortId) (op t1 t2 t3 : Nat) : State :=
  let k := s.newPkt 6 ((s.expectedId p).getD 0) 0 0 op (timeData t1 t2 t3)
  s.enqueue none k p k

/-- TIME_EXCHANGE (R373): every 10 µs a request goes to the parent; `t1` is the time at which its flit leaves. -/
def execTimeExchange (t1 : Word) (s : State) : Out :=
  needSome s.timeParent "the block has no parent port" fun p =>
  need (s.portActive p) "the parent port is not active" <|
  .next ({ s with net := { s.net with t1 := some t1.toNat } }.sendTime p 0 t1.toNat 0 0)

/-- TIME_REQUEST (R373): a request came in on a port at `t2`; the reply carries its own send time. A request in a replayed flit is ignored. -/
def execTimeRequest (p : PortId) (t1 t2 : Word) (replayed : Bool) (s : State) : Out :=
  need (s.portActive p) "the port is not active" (.next (if replayed then s else s.sendTime p 1 t1.toNat t2.toNat s.btime))

/-- The offset of an exchange in 1/32 ns, corrected for the measured asymmetry (R363, R373). -/
def timeOffset (t1 t2 t3 t4 : Nat) (asym : Int) : Int := 16 * (((t2 : Int) - t1) - ((t4 : Int) - t3)) - asym

/-- TIME_REPLY (R373, R471): the reply arrives at `t4`; one in a replayed flit is ignored. The first exchange and an offset above 1 µs are
steps. -/
def execTimeReply (t2 t3 t4 : Word) (replayed : Bool) (s : State) : Out :=
  needSome s.timeParent "the block has no parent port" fun p =>
  needSome s.net.t1 "no request stands out" fun t1 =>
  if replayed then .next s
  else
    let e := timeOffset t1 t2.toNat t3.toNat t4.toNat (s.port p).asym
    let first := !s.net.timed
    let s := { s with net := { s.net with t1 := none } }.noteOffset e
    if first || decide (32000 < e.natAbs) then .next (s.stepBtime e) else .next (s.discipline e)

/-- CLK_STATUS_READ (R14). -/
def execClkStatusRead (s : State) : Out := .next (s.swRead R.CLK_STATUS 0 0).1

/-- CLK_STEP_READ (R14). -/
def execClkStepRead (s : State) : Out := .next (s.swRead R.CLK_STEP 0 0).1

/-- CLK_PLL_READ (R14). -/
def execClkPllRead (e : EngineId) (s : State) : Out := .next (s.swRead R.CLK_PLL (e.val + 1) 0).1

/-- CLK_CANARY_READ (R14). -/
def execClkCanaryRead (e : EngineId) (s : State) : Out := .next (s.swRead R.CLK_CANARY (e.val + 1) 0).1

end Sys2Proof.Machine
end

