-- ==== Sys2Proof/Machine/Commits.lean ====
section
/-! DEFINITION. Staged settings: the commit of an epoch and its application at each unit's safe boundary (R141, R331, R332, R334, R338). -/
namespace Sys2Proof.Machine

/-- A unit has applied a commit when it is out of service or its bit says so: the vector as a new commit begins (R334, R335). -/
def State.startCommit (s : State) (epoch : Nat) : State :=
  let s := { s.put F.AV_EPOCH_STATUS.committed epoch rb with lateLogged := [] }
  (List.range 208).foldl (fun s u => s.putApplied u (s.unitOut u || s.appliedOf u == epoch)) s

/-- A write of `AV_EPOCH_COMMIT` (R331, R338). -/
def State.writeCommit (s : State) (v : Nat) : State :=
  let epoch := nbits v 31 0
  let s := s.put F.AV_EPOCH_COMMIT.epoch epoch rb
  if !nbit v 32 then s
  else if !epochNewer epoch s.committed || !s.on F.AV_EPOCH_STATUS.all rb then s.put F.AV_EPOCH_STATUS.bad_commit 1 rb
  else s.startCommit epoch

/-- AV_EPOCH_COMMIT (R331). -/
def execAvEpochCommit (v : Word) (s : State) : Out := .next (s.writeCommit v.toNat)

/-- EPOCH_STAGED (R331): the multicast of the commit reaches a unit. -/
def execEpochStaged (u : Fin 208) (s : State) : Out :=
  let p := unitField false u.val
  .next (s.put p.1 s.committed p.2)

/-- The boundary of an engine (R141): nothing of the held classes is in flight, a waiting SYNC.EPOCH apart. -/
def State.engineBoundary (s : State) (e : EngineId) : Bool :=
  (s.eng e).inflight.all fun y => y.completed || !heldClass (opOf y.word) || opOf y.word == 0x83

/-- Whether a packet belongs to a transaction that carries an epoch, and does not wait for the staged one (R332, R333). -/
def carriesEpoch (staged : Nat) : MeshBody → Bool
  | .request r => r.epoch.any fun x => x.toNat != staged
  | .completion (.core _) _ _ _ _ => false
  | .completion _ _ _ _ _ => true
  | .sync _ ep => ep.any fun x => x.toNat != staged
  | .multicast _ _ _ _ _ _ ep => ep.any fun x => x.toNat != staged

/-- The boundary of a router with its square: it holds no packet, no request that waits there for a core store's region or epoch, and no fill, of such a
transaction (R332). -/
def State.routerBoundary (s : State) (k : SquareId) : Bool :=
  let staged := s.get F.AV_EPOCH.staged k.val
  !((s.mesh ++ s.parked).any fun p => p.at_ == k && carriesEpoch staged p.body) && !((s.sq k).fills.any fun f => f.req.epoch.any fun x => x.toNat != staged)

/-- The boundary of a Pyler port (R332). -/
def State.portBoundary (s : State) (p : PortId) : Bool :=
  let staged := s.get F.PL_EPOCH.staged p.val
  let old (k : Pkt) : Bool := k.epochValid && k.epoch.toNat != staged
  !((s.port p).txq.any fun q => old q.out) && !((s.port p).inq.any old) && !((s.port p).compq.any old)

/-- Put a port's staged routing in force; the even ports of a pair hold it (R353, R375). -/
def State.applyRoute (s : State) (p : Nat) : State :=
  if p = 0 ∨ p = 2 ∨ p = 4 then s.setReg R.PL_ROUTE (s.reg R.PL_ROUTE_NEXT p) p else s

/-- A unit at its boundary applies (R141, R305, R332); none where it is not at its boundary. -/
def State.applyUnit (s : State) (u : Nat) : Option State :=
  match engineOf? u, engineOf? (u - 80), squareOf? (u - 160) with
  | some e, _, _ => if s.engineBoundary e then some (s.noteApplied u) else none
  | none, some e, _ => if s.bauBoundary e then some (s.applyBauMode e) else none
  | none, none, some k =>
    if s.routerBoundary k then some ((s.put F.AV_MODE.floor_weight (s.get F.AV_MODE_NEXT.floor_weight k.val) k.val).noteApplied u) else none
  | none, none, none =>
    let p : PortId := ⟨(u - 200) % 8, Nat.mod_lt _ (by decide)⟩
    if s.portBoundary p then some ((s.applyRoute p.val).noteApplied u) else none

/-- EPOCH_APPLY (R332). -/
def execEpochApply (u : Fin 208) (s : State) : Out :=
  need (s.stagedOf u.val != s.appliedOf u.val) "no commit has reached the unit" <|
  needSome (s.applyUnit u.val) "the unit is not at its safe boundary" fun t => .next t

/-- EPOCH_LATE (R334): the limit has passed and the unit has not applied. -/
def execEpochLate (u : Fin 208) (s : State) : Out :=
  need (s.get F.AV_EPOCH_STATUS.limit rb != 0 && !s.unitApplied u.val) "the unit has applied, or there is no limit" <|
  let s := s.put F.AV_EPOCH_STATUS.late 1 rb
  if s.lateLogged.contains u.val then .next s
  else .next ({ s with lateLogged := s.lateLogged ++ [u.val] }.logEvent 0x0403 0x12 19 1 (u.val + s.committed * 2 ^ 32))

end Sys2Proof.Machine
end

