-- ==== Sys2Proof/Machine/Elog.lean ====
section
/-! DEFINITION. The error log (R520-R532, R538, R539). -/
namespace Sys2Proof.Machine

/-- The 32 bytes of an entry as a number, byte 0 lowest (R524). -/
def LogEntry.word (e : LogEntry) : Nat :=
  e.firstT % 2 ^ 64 + e.lastDt % 2 ^ 32 * 2 ^ 64 + e.count % 2 ^ 32 * 2 ^ 96 + e.source % 2 ^ 28 * 2 ^ 128 + e.typ % 2 ^ 16 * 2 ^ 160
    + (e.code % 16 + e.sev % 4 * 16) * 2 ^ 176 + (b2n e.storm + b2n e.differ * 2) * 2 ^ 184 + e.detail % 2 ^ 64 * 2 ^ 192

/-- The entry that a report opens (R527). -/
def LogEntry.ofReport (r : Report) : LogEntry :=
  ⟨r.btime, 0, 1, srcOf r, r.typ.toNat, r.code.toNat, r.sev, false, false, r.detail⟩

/-- Private-space address of the ring (R528). -/
def elogRing : Nat := 0x0E000000

/-- Put an entry into four registers (R530, R528). -/
def State.putEntry (s : State) (r : Reg) (e : LogEntry) : State :=
  (List.range 4).foldl (fun s i => s.setReg r (getBits e.word (64 * i) 64) 0 i) s

/-- Entries the ring holds (R528). -/
def State.elogHeld (s : State) : Nat := (s.get F.ELOG_STATUS.head + 8192 - s.get F.ELOG_STATUS.tail) % 8192

/-- Raise the interrupt of the log (R532). -/
def State.elogIrq (s : State) : State := (s.put F.ELOG_STATUS.irq 1).emit (.logInterrupt (s.get F.ELOG_CTL.irq_cores))

/-- A closing entry (R528, R532). -/
def State.closeEntry (s : State) (e : LogEntry) : State :=
  let s := s.putEntry R.ELOG_LATEST e
  let s := if s.elogHeld = 4096 then (s.count F.ELOG_COUNTS.overflow 1).put F.ELOG_STATUS.overflowed 1
    else (s.writeSram (elogRing + 32 * (s.get F.ELOG_STATUS.head % 4096)) (leBytes 32 e.word)).bump F.ELOG_STATUS.head
  if s.get F.ELOG_CTL.irq_sev ≤ e.sev then s.elogIrq else s

/-- Set the list of open entries and the field that counts it. -/
def State.setOpen (s : State) (l : List LogEntry) : State :=
  { s with elog := { s.elog with opened := l } }.put F.ELOG_STATUS.open l.length

/-- Close the oldest open entry. -/
def State.closeOldest (s : State) : State :=
  match s.elog.opened with
  | [] => s
  | e :: rest => (s.setOpen rest).closeEntry e

/-- Close every open entry, oldest first (R527, R539). -/
def State.closeAll (s : State) : State :=
  let l := s.elog.opened
  l.foldl State.closeEntry (s.setOpen [])

/-- Whether an open entry has a report's source and type. -/
def LogEntry.matches (e : LogEntry) (r : Report) : Bool := e.source == srcOf r && e.typ == r.typ.toNat

/-- A report joins an open entry (R527). -/
def LogEntry.join (e : LogEntry) (r : Report) : LogEntry :=
  { e with lastDt := r.btime - e.firstT, count := min (e.count + 1) 0xFFFFFFFF, differ := e.differ || e.detail != r.detail }

/-- Open an entry (R527). -/
def State.openEntry (s : State) (e : LogEntry) : State := s.setOpen (s.elog.opened ++ [e])

/-- Coalesce a report or open an entry (R527). -/
def State.coalesce (s : State) (r : Report) : State :=
  let opened := s.elog.opened
  match opened.find? (·.matches r) with
  | some e =>
    if r.btime < e.firstT + 1000000 then s.setOpen (opened.map fun x => if x.matches r then x.join r else x)
    else ((s.setOpen (opened.filter fun x => !x.matches r)).closeEntry e).openEntry (LogEntry.ofReport r)
  | none => (if opened.length = 64 then s.closeOldest else s).openEntry (LogEntry.ofReport r)

/-- The position of a class in the order of the summary registers (R531). -/
def sumIndex (cls : Nat) : Nat := ([0, 1, 2, 3, 4, 5, 6, 0x10, 0x11, 0x12, 0x13, 0x14, 0x20, 0x21, 0x22, 0x30].idxOf? cls).getD 0

/-- Every accepted report updates the summary of its class (R531). -/
def State.summarise (s : State) (r : Report) : State :=
  let i := sumIndex r.cls
  let s := (s.count F.ELOG_SUM.reports 1 0 i).put F.ELOG_SUM.last_inst r.inst 0 i
  s.put F.ELOG_SUM.sev (s.get F.ELOG_SUM.sev 0 i ||| 2 ^ r.sev) 0 i

/-- The first severe report is copied at once while `first_valid` is 0 (R530, R532). -/
def State.firstError (s : State) (r : Report) : State :=
  if 2 ≤ r.sev ∧ s.on F.ELOG_STATUS.first_valid = false then
    ((s.putEntry R.ELOG_FIRST (LogEntry.ofReport r)).put F.ELOG_STATUS.first_valid 1).elogIrq
  else s

/-- The next multiple of `len` after `t`. -/
def nextMultiple (t len : Nat) : Nat := (t / len + 1) * len

/-- Set the masks and the field that counts them. -/
def State.setMasks (s : State) (l : List StormMask) : State :=
  { s with elog := { s.elog with masks := l } }.put F.ELOG_STATUS.masked_src (min l.length 255)

/-- The mask that a storm sets: to the end of the current period of the gauge named, or to the next whole second (R529). -/
def State.newMask (s : State) (r : Report) : StormMask :=
  let g : GaugeId := ⟨s.get F.ELOG_CTL.storm_gauge % 64, Nat.mod_lt _ (by decide)⟩
  if s.on F.GAUGE_STATUS.live g.val then ⟨srcOf r, nextMultiple r.btime (vget s.gauges g).lenNow, some g⟩
  else ⟨srcOf r, nextMultiple r.btime 1000000000, none⟩

/-- Whether a report falls under a mask; one stamped at the end belongs to the new period (R529). -/
def State.isMasked (s : State) (r : Report) : Bool := s.elog.masks.any fun m => m.source == srcOf r && decide (r.btime < m.endT)

/-- The reports of a source counted in the millisecond of a report, that report included (R529). -/
def State.stormCount (s : State) (r : Report) : State × Nat :=
  let ms := r.btime / 1000000
  let counts := if s.elog.ms = ms then s.elog.counts else []
  match counts.lookup (srcOf r) with
  | some n =>
    ({ s with elog := { s.elog with ms := ms, counts := counts.map fun p => if p.1 = srcOf r then (p.1, n + 1) else p } }, n + 1)
  | none =>
    if counts.length < 256 then ({ s with elog := { s.elog with ms := ms, counts := counts ++ [(srcOf r, 1)] } }, 1)
    else ({ s with elog := { s.elog with ms := ms, counts := counts } }, 0)

/-- The storm entry (R529). -/
def stormEntry (r : Report) (n : Nat) : LogEntry :=
  ⟨r.btime, 0, 1, srcOf r, 0x0B01, r.code.toNat, 1, true, false, n % 2 ^ 32 + r.typ.toNat * 2 ^ 32⟩

/-- The log accepts one report (R527, R529-R532). -/
def State.accept (s : State) (r : Report) : State :=
  let s := s.summarise r
  let (s, n) := s.stormCount r
  if s.isMasked r then s.count F.ELOG_COUNTS.masked 1
  else if 10 < n then
    let s := (s.count F.ELOG_COUNTS.masked 1).put F.ELOG_SUM.storm 1 0 (sumIndex r.cls)
    let s := s.setMasks ((s.elog.masks.filter fun m => m.source != srcOf r) ++ [s.newMask r])
    s.closeEntry (stormEntry r n)
  else (s.firstError r).coalesce r

/-- ERROR_REPORT (R526): a report that a unit sends now joins the queue; the log then accepts the report at its front. -/
def execErrorReport (r : Option Report) (s : State) : Out :=
  let s := match r with
    | some r => s.sendReport r
    | none => s
  match s.elog.queue with
  | [] => .refused (.notEnabled "no report waits")
  | q :: rest => .next ({ s with elog := { s.elog with queue := rest } }.accept q)

/-- ENTRY_CLOSE (R527): the oldest open entry closes, 1 ms after its first report. -/
def execEntryClose (s : State) : Out :=
  need (!s.elog.opened.isEmpty) "no open entry" (.next s.closeOldest)

/-- ELOG_FLUSH (R527, R539): every open entry closes. -/
def execElogFlush (s : State) : Out := .next s.closeAll

/-- STORM_MASK_END (R529): the mask of a source ends. -/
def execStormMaskEnd (cls inst sub : Nat) (s : State) : Out :=
  let src := cls % 256 + inst % 4096 * 256 + sub % 256 * 2 ^ 20
  need (s.elog.masks.any fun m => m.source == src) "the source is not masked"
    (.next (s.setMasks (s.elog.masks.filter fun m => m.source != src)))

/-- ELOG_TAIL_WRITE (R528): a write of tail is taken unless it would leave more than 4,096 entries between tail and head. -/
def State.writeTail (s : State) (v : Nat) : State :=
  let t := v % 8192
  if (s.get F.ELOG_STATUS.head + 8192 - t) % 8192 ≤ 4096 then s.put F.ELOG_STATUS.tail t else s

/-- A write of `ELOG_STATUS`: its W1C bits clear and tail moves (R528, R539). -/
def State.writeElogStatus (s : State) (v : Nat) : State :=
  let s := if nbit v 63 then s.put F.ELOG_STATUS.first_valid 0 else s
  let s := if nbit v 62 then s.put F.ELOG_STATUS.overflowed 0 else s
  let s := if nbit v 61 then s.put F.ELOG_STATUS.irq 0 else s
  s.writeTail v

/-- ELOG_TAIL_WRITE (R528). -/
def execElogTailWrite (v : Word) (s : State) : Out := .next (s.writeElogStatus v.toNat)

/-- ELOG_COUNTS_READ (R14, R539): the counters clear. -/
def execElogCountsRead (s : State) : Out := .next (s.swRead R.ELOG_COUNTS 0 0).1

/-- ELOG_SUM_READ (R14, R539): the report count of a class clears. -/
def execElogSumRead (i : Fin 16) (s : State) : Out := .next (s.swRead R.ELOG_SUM 0 i.val).1

end Sys2Proof.Machine
end

