-- ==== Sys2Proof/Machine/Lms.lean ====
section
/-! DEFINITION. Verification of an LMS signature (RFC 8554, NIST SP 800-208) with LMS_SHA256_M24_H15 and LMOTS_SHA256_N24_W4 (R481, R501). -/
namespace Sys2Proof

/-- SHA-256 truncated to 192 bits. -/
def sha192 (m : List Byte) : List Byte := (sha256 m).take 24

/-- The chain from a digit to its end: `fuel` steps from step `j`. -/
def lmsChain (pre : List Byte) (j : Nat) (x : List Byte) : Nat → List Byte
  | 0 => x
  | fuel + 1 => lmsChain pre (j + 1) (sha192 (pre ++ [BitVec.ofNat 8 j] ++ x)) fuel

/-- The 4-bit digits of bytes, high half first. -/
def nibbles (b : List Byte) : List Nat := b.flatMap fun x => [x.toNat / 16, x.toNat % 16]

/-- The 51 digits that are signed: those of the hash, and the three of its checksum. -/
def lmsDigits (q : List Byte) : List Nat :=
  let d := nibbles q
  d ++ (nibbles (beBytes 2 (16 * d.foldl (fun n x => n + (15 - x)) 0))).take 3

/-- The node of the tree that a leaf and its path lead to, from a node upward. -/
def lmsRoot (id : List Byte) (node : Nat) (t : List Byte) : List (List Byte) → List Byte
  | [] => t
  | p :: ps =>
    let pre := id ++ beBytes 4 (node / 2) ++ [0x83#8, 0x83#8]
    lmsRoot id (node / 2) (sha192 (pre ++ if node % 2 = 1 then p ++ t else t ++ p)) ps

/-- Whether an LMS signature of 1,620 bytes over a message verifies under a public key of 48 bytes (R501). -/
def lmsOk (pub msg sig : List Byte) : Bool :=
  let id := (pub.drop 8).take 16
  let q := beNat (sig.take 4)
  let c := (sig.drop 8).take 24
  let pre := id ++ beBytes 4 q
  let digits := lmsDigits (sha192 (pre ++ [0x81#8, 0x81#8] ++ c ++ msg))
  let ys := chunk 24 51 (sig.drop 32)
  let z := (List.range 51).flatMap fun i => lmsChain (pre ++ beBytes 2 i) (digits.getD i 0) (ys.getD i []) (15 - digits.getD i 0)
  let k := sha192 (pre ++ [0x80#8, 0x80#8] ++ z)
  let leaf := sha192 (id ++ beBytes 4 (2 ^ 15 + q) ++ [0x82#8, 0x82#8] ++ k)
  pub.length == 48 && sig.length == 1620 && beNat (pub.take 4) == 0xC && beNat ((pub.drop 4).take 4) == 7
    && beNat ((sig.drop 4).take 4) == 7 && beNat ((sig.drop 1256).take 4) == 0xC && decide (q < 2 ^ 15)
    && lmsRoot id (2 ^ 15 + q) leaf (chunk 24 15 (sig.drop 1260)) == pub.drop 24

end Sys2Proof
end

