-- ==== Sys2Proof/Machine/Security.lean ====
section
/-! DEFINITION. The security unit and the TAP: OTP, owners, counters, measurements, the mailbox operations and debug (R498-R519). -/
namespace Sys2Proof.Machine

/-! ## OTP (R499, R500) -/

/-- Blow words one after another from `w` upward. -/
def State.blowWords (s : State) (w : Nat) : List Nat → State
  | [] => s
  | v :: vs => (s.blow w v).blowWords (w + 1) vs

/-- A list of bytes as little-endian words. -/
def wordsLe (b : List Byte) : List Nat := (chunk 4 (b.length / 4) b).map leNat

/-- Places of OTP (R499). -/
def otpKey (i : Nat) : Nat := 0x200 + 0x18 * i
def otpKeyState : Nat := 0x230
def otpLifecycle : Nat := 0x231
def otpSlot (i : Nat) : Nat := 0x3A0 + 40 * i

/-- The digest that production test recorded matches the words that it covers (R500). -/
def State.otpDigestOk (s : State) : Bool :=
  sha384 (s.otpBytes 0x200 0x30 ++ s.otpBytes 0x232 2 ++ s.otpBytes 0x240 0x52 ++ s.otpBytes 0x29E 0x101) == s.otpBytes 0x292 12

/-- Lifecycle bits (R499). -/
def State.life (s : State) (i : Nat) : Bool := nbit (s.otp otpLifecycle) i

/-- A 64-bit serial number (R499). -/
def State.serial (s : State) : List Byte := s.otpBytes 0x232 2

/-- Fuses counted upward from the first of `n` words (R504). -/
def State.counter (s : State) (w n : Nat) : Nat :=
  ((List.range (32 * n)).takeWhile fun i => nbit (s.otp (w + i / 32)) (i % 32)).length
def State.bootCounter (s : State) : Nat := s.counter 0x234 8
def State.cfgCounter (s : State) : Nat := s.counter 0x23C 2

/-- State bits of an owner slot: enrolled, revoked, and whether any of its words is blown (R499, R507). -/
def State.enrolled (s : State) (i : Nat) : Bool := nbit (s.otp (otpSlot i + 36)) 0
def State.revoked (s : State) (i : Nat) : Bool := nbit (s.otp (otpSlot i + 36)) 1
def State.slotBlown (s : State) (i : Nat) : Bool := (List.range 40).any fun w => s.otp (otpSlot i + w) != 0

/-- The active owner slot: the highest enrolled one, unless it is revoked (R502). -/
def State.activeOwner (s : State) : Option Nat :=
  match [3, 2, 1, 0].find? fun i => s.enrolled i with
  | some i => if s.revoked i then none else some i
  | none => none

/-- The state of the TAP (R514): 0 OPEN, 1 LOCKED, 2 DEBUG. -/
def State.tapState (s : State) : Nat := if s.on F.SEC_STATUS.debug then 2 else if s.life 0 || s.life 1 then 1 else 0

/-- Fields of the security registers that come from OTP (R519). -/
def State.refreshOtp (s : State) : State :=
  let s := ((s.put F.SEC_STATUS.production_done (b2n (s.life 0))).put F.SEC_STATUS.jtag_locked (b2n (s.life 1))).put F.SEC_STATUS.owner_only (b2n (s.life 2))
  let s := (s.put F.SEC_STATUS.debug_disabled (b2n (s.life 3))).put F.SEC_STATUS.owner_valid (b2n s.activeOwner.isSome)
  let s := ((s.put F.SEC_STATUS.owner_slot (s.activeOwner.getD 0)).put F.SEC_SVN.boot s.bootCounter).put F.SEC_SVN.cfg s.cfgCounter
  let s := [0, 1, 2, 3].foldl (fun s i =>
    s.put (F.SEC_OWNER.slot i) (b2n (s.enrolled i) + 2 * b2n (s.revoked i) + 4 * b2n (s.slotBlown i && !s.enrolled i))) s
  s.put F.SEC_JTAG.state s.tapState

/-! ## Keys (R501, R502, R506) -/

/-- The hashes of a signing key: ECDSA, then LMS. -/
def State.keyHashes (s : State) (w : Nat) : List Byte × List Byte := (s.otpBytes w 12, s.otpBytes (w + 12) 12)

/-- The place and the index of the key set that an image's signer selects (R502, R509). -/
def State.selectKey (s : State) (signer : Nat) : Option (Nat × Nat) :=
  if signer = 0 then
    if s.life 2 then none else if nbit (s.otp otpKeyState) 0 then some (otpKey 1, 1) else some (otpKey 0, 0)
  else if signer = 1 then s.activeOwner.map fun i => (otpSlot i, 2)
  else none

/-- Bytes of a record or a header. -/
def sliceOf (b : List Byte) (at_ n : Nat) : List Byte := (b.drop at_).take n

/-- Whether bytes are all zero. -/
def zeroAt (b : List Byte) (at_ n : Nat) : Bool := (sliceOf b at_ n).all fun x => x == 0#8

/-- Whether two signatures over the first 512 bytes verify under keys whose hashes OTP holds (R501, R506). -/
def State.keysOk (s : State) (w : Nat) (b ecdsa lms ecdsaSig lmsSig : List Byte) : Bool :=
  let h := s.keyHashes w
  sha384 ecdsa == h.1 && sha384 lms == h.2 && ecdsaOk ecdsa (sha384 (b.take 512)) ecdsaSig && lmsOk lms (b.take 512) lmsSig

/-! ## Records (R505-R507) -/

/-- The action of a record, and its target slot. -/
def recAction (b : List Byte) : Nat := leNat (sliceOf b 6 2)
def recSlot (b : List Byte) : Nat := leNat (sliceOf b 8 4)

/-- Whether a record's authorising keys are those at a place of OTP, and both sign it. -/
def State.authOk (s : State) (w : Nat) (b : List Byte) : Bool :=
  s.keysOk w b (sliceOf b 0x160 97) (sliceOf b 0x1C8 48) (sliceOf b 0x260 96) (sliceOf b 0x300 1620)

/-- Whether the fields of the authorising key are unused. -/
def noAuth (b : List Byte) : Bool := zeroAt b 0x160 97 && zeroAt b 0x1C8 48 && zeroAt b 0x260 96 && zeroAt b 0x300 1620

/-- Whether the fields of a new key are unused. -/
def noNewKey (b : List Byte) : Bool := zeroAt b 0x080 97 && zeroAt b 0x100 48 && zeroAt b 0x130 48 && zeroAt b 0x200 96

/-- Form, serial and nonce of a record (R507). -/
def State.recordOk (s : State) (b : List Byte) : Bool :=
  b.length == 4096 && leNat (b.take 4) == 0x4B524E45 && leNat (sliceOf b 4 2) == 1
    && [(0x00C, 4), (0x038, 72), (0x0E1, 31), (0x1C1, 7), (0x1F8, 8), (0x2C0, 64), (0x954, 1708)].all (fun z => zeroAt b z.1 z.2)
    && sliceOf b 0x010 8 == s.serial && s.on F.SEC_STATUS.nonce_valid
    && sliceOf b 0x018 32 == (List.range 4).flatMap (fun i => leBytes 8 (s.reg R.SEC_NONCE 0 i))

/-- Authorisation of DEBUG and NO_DEBUG: the active owner, or the Aulays key that an image of signer 0 would select (R506). -/
def State.debugAuth (s : State) (b : List Byte) : Bool :=
  match s.activeOwner with
  | some i => s.authOk (otpSlot i) b
  | none => match s.selectKey 0 with
    | some k => s.authOk k.1 b
    | none => false

/-- The lowest slot whose 40 words are all unblown (R506). -/
def State.freeSlot (s : State) : Option Nat := [0, 1, 2, 3].find? fun i => !s.slotBlown i

/-- The conditions of an action (R506). -/
def State.actionOk (s : State) (b : List Byte) : Bool :=
  match recAction b with
  | 1 =>
    s.freeSlot == some (recSlot b) && ecdsaOk (sliceOf b 0x080 97) (sha384 (b.take 512)) (sliceOf b 0x200 96) &&
      (match s.activeOwner with
      | some i => s.authOk (otpSlot i) b
      | none => noAuth b && s.get F.SEC_STATUS.signer != 2)
  | 2 => noNewKey b && !s.life 2 && (match s.activeOwner with
      | some i => recSlot b == i && s.authOk (otpSlot i) b
      | none => false)
  | 3 => noNewKey b && recSlot b == 0 && (match s.activeOwner with
      | some i => s.authOk (otpSlot i) b
      | none => false)
  | 4 => noNewKey b && recSlot b == 0 && s.authOk (otpKey 1) b
  | 5 => noNewKey b && recSlot b == 0 && !s.life 3 && s.debugAuth b
  | 6 => noNewKey b && recSlot b == 0 && s.debugAuth b
  | _ => false

/-- What an action blows: the first word, and the words in order (R506, R507). -/
def actionFuses (b : List Byte) : Nat × List Nat :=
  match recAction b with
  | 1 => (otpSlot (recSlot b), wordsLe (sha384 (sliceOf b 0x080 97)) ++ wordsLe (sha384 (sliceOf b 0x100 48)) ++ wordsLe (sliceOf b 0x130 48) ++ [1])
  | 2 => (otpSlot (recSlot b) + 36, [2])
  | 3 => (otpLifecycle, [4])
  | 4 => (otpKeyState, [1])
  | 6 => (otpLifecycle, [8])
  | _ => (otpLifecycle, [])

/-- A record that is accepted uses up its nonce and has its effect; the word that does not verify stays unblown, and so do those after it. -/
def State.takeRecord (s : State) (b : List Byte) (badFuse : Option Nat) : State × Code :=
  let f := actionFuses b
  let n := min (badFuse.getD f.2.length) f.2.length
  let s := (s.put F.SEC_STATUS.nonce_valid 0).blowWords f.1 (f.2.take n)
  let s := if recAction b = 5 then s.put F.SEC_STATUS.debug_pending 1 else s
  (s.refreshOtp, if n = f.2.length then .ok else .dataErr)

/-- A record is checked as one of DEBUG, or of every other action (R507, R517). -/
def State.record (s : State) (debug : Bool) (b : List Byte) (badFuse : Option Nat) : State × Code :=
  if (recAction b == 5) == debug && s.recordOk b && s.actionOk b then s.takeRecord b badFuse else (s, .accessDenied)

/-! ## Floor SRAM (R380, R510, R517, R528) -/

/-- The log of measurements in the cores' private space (R510), and the packet buffer (R380). -/
def mlog : Nat := 0x0F000000
def pktBuf : Nat := 0x10000000

/-- Whether `n` bytes lie in Floor SRAM, and whether they lie in a part that is read-only for its users. -/
def inWindow (a n base size : Nat) : Bool := decide (base ≤ a) && decide (a + n ≤ base + size)
def sramReadOnly (a n : Nat) : Bool := inWindow a n 0x0E000000 0x20000 || inWindow a n mlog 0x10000
def inSram (a n : Nat) : Bool :=
  sramReadOnly a n || inWindow a n pktBuf 0x1000000 || (List.range n).all fun i => Config.floorSram (a + i)

/-- The code of an operation that reads `n` bytes at src and writes `m` bytes at dst, before it acts (R517). -/
def SecReq.addr (q : SecReq) (n m : Nat) (parity : Bool) : Code :=
  let src := q.src
  let dst := q.dst
  if (n ≠ 0 ∧ inSram src n = false) ∨ (m ≠ 0 ∧ inSram dst m = false) then .unmapped
  else if (n ≠ 0 ∧ src % 64 ≠ 0) ∨ (m ≠ 0 ∧ (dst % 64 ≠ 0 ∨ sramReadOnly dst m)) then .accessDenied
  else if parity then .dataErr
  else .ok

/-! ## Measurements (R509, R510) -/

/-- Extend a measurement register and append the entry to the log. -/
def State.extendMr (s : State) (i : Fin 8) (kind : Nat) (d : List Byte) : State :=
  let n := s.get F.SEC_LOG.entries
  let s := s.setSec fun x => { x with mrs := vset x.mrs i (sha384 (vget x.mrs i ++ d)) }
  (s.writeSram (mlog + 64 * n) ([BitVec.ofNat 8 i.val, BitVec.ofNat 8 kind, 0#8, 0#8] ++ leBytes 4 n ++ leBytes 8 s.btime ++ d)).put F.SEC_LOG.entries (n + 1)

/-- The bytes of MR0-MR7. -/
def State.mrBytes (s : State) : List Byte := s.sec.mrs.toList.flatten

/-! ## The mailbox (R517) -/

/-- An operation has been done: its code and length wait for its completion. -/
def State.secJob (s : State) (c : Code) (len : Nat) : State := s.setSec fun x => { x with job := some ⟨c, len⟩ }

/-- An operation starts with the fields that stand; a write while it runs no longer reaches it (R517, R561). -/
def State.secStart (s : State) (op : Nat) : State :=
  (s.put F.SEC_CMD.busy 1).setSec fun x =>
    { x with req := some ⟨op, s.get F.SEC_CMD.param, s.get F.SEC_ARG.src, s.get F.SEC_ARG.dst⟩, job := none }

/-- A write of `SEC_CMD` (R15, R517, R519, R561): op and param take their values; go starts an operation unless one runs, and a reserved one is
refused. -/
def State.writeSecCmd (s : State) (v : Nat) : State :=
  let s := s.swFields R.SEC_CMD v 0
  if nbit v 0 && !s.on F.SEC_CMD.busy then
    let op := s.get F.SEC_CMD.op
    let s := s.secStart op
    if op = 0 ∨ 8 < op then s.secJob .accessDenied 0 else s
  else s

/-- An operation acts: the one that was started and has not been done, or, while the mailbox is idle, a start of it with the fields that stand
(R517). A start while busy is ignored. -/
def State.secRow (s : State) (op : Nat) (k : SecReq → State → State) : Out :=
  let s := if s.on F.SEC_CMD.busy then s else (s.put F.SEC_CMD.op op).secStart op
  match s.sec.req with
  | some q => if q.op = op ∧ s.sec.job.isNone then .next (k q s) else .next s
  | none => .next s

/-- SEC_ENROLL (R505-R507, R517): every action but DEBUG. -/
def execSecEnroll (parity : Bool) (badFuse : Option Nat) (s : State) : Out :=
  s.secRow 1 fun q s =>
    match q.addr 4096 0 parity with
    | .ok => let r := s.record false (s.readSram q.src 4096) badFuse; r.1.secJob r.2 0
    | c => s.secJob c 0

/-- SEC_DEBUG (R506, R507, R515, R517). -/
def execSecDebug (parity : Bool) (s : State) : Out :=
  s.secRow 8 fun q s =>
    match q.addr 4096 0 parity with
    | .ok => let r := s.record true (s.readSram q.src 4096) none; r.1.secJob r.2 0
    | c => s.secJob c 0

/-- SEC_SIGN (R517). -/
def execSecSign (parity : Bool) (s : State) : Out :=
  s.secRow 2 fun q s =>
    match q.addr 48 96 parity with
    | .ok => ((s.writeSram q.dst (s.signature (s.readSram q.src 48))).noteSigned).secJob .ok 96
    | c => s.secJob c 0

/-- SEC_EXTEND (R509, R510, R517): registers 1-7 and kinds 0x10-0xFF, while the log has room. -/
def execSecExtend (parity : Bool) (s : State) : Out :=
  s.secRow 3 fun q s =>
    let p := q.param
    match q.addr 48 0 parity with
    | .ok =>
      let i : Fin 8 := ⟨p % 8, Nat.mod_lt _ (by decide)⟩
      if i.val = 0 ∨ p / 256 < 0x10 ∨ 1024 ≤ s.get F.SEC_LOG.entries then s.secJob .accessDenied 0
      else (s.extendMr i (p / 256) (s.readSram q.src 48)).secJob .ok 0
    | c => s.secJob c 0

/-- The signed part of a quote (R513). -/
def State.quoteBody (s : State) (nonce : List Byte) : List Byte :=
  let flags := b2n (s.on F.SEC_STATUS.debug) + 2 * b2n (s.on F.SEC_STATUS.owner_valid) + 4 * s.get F.SEC_STATUS.owner_slot + 16 * s.get F.SEC_STATUS.signer
  leBytes 4 0x51554F54 ++ leBytes 2 1 ++ leBytes 2 0 ++ nonce ++ leBytes 8 s.btime ++ s.serial
    ++ leBytes 2 (s.get F.AON_BLOCK_ID.id + 2 ^ 15 * s.get F.AON_BLOCK_ID.valid) ++ leBytes 2 (s.get F.AON_STATUS.boots) ++ leBytes 4 flags
    ++ s.mrBytes ++ leBytes 4 (s.get F.SEC_LOG.entries) ++ List.replicate 60 0#8

/-- SEC_QUOTE (R513, R517). -/
def execSecQuote (parity : Bool) (s : State) : Out :=
  s.secRow 4 fun q s =>
    match q.addr 32 608 parity with
    | .ok =>
      let body := s.quoteBody (s.readSram q.src 32)
      ((s.writeSram q.dst (body ++ s.signature (sha384 body))).noteSigned).secJob .ok 608
    | c => s.secJob c 0

/-- Blow fuses of a counter one after another (R504). -/
def State.blowFuses (s : State) (w : Nat) : List Nat → State
  | [] => s
  | i :: is => (s.blow (w + i / 32) (2 ^ (i % 32))).blowFuses w is

/-- Advance a counter to `target` (R504): its first word, its value, and the largest target allowed. -/
def State.advance (s : State) (w now most target : Nat) (badFuse : Option Nat) : State :=
  if most < target then s.secJob .accessDenied 0
  else
    let fuses := (List.range (target - now)).map fun i => now + i
    let n := min (badFuse.getD fuses.length) fuses.length
    ((s.blowFuses w (fuses.take n)).refreshOtp).secJob (if n = fuses.length then .ok else .dataErr) 0

/-- SEC_SVN_ADV (R504, R517). -/
def execSecSvnAdv (badFuse : Option Nat) (s : State) : Out :=
  s.secRow 5 fun q s =>
    let p := q.param
    if nbit p 15 then
      if s.on F.AON_STATUS.cfg_ok then s.advance 0x23C s.cfgCounter (min 64 s.boot.cfgSvn) (p % 512) badFuse else s.secJob .accessDenied 0
    else s.advance 0x234 s.bootCounter (min 256 (s.get F.SEC_SVN.img_svn)) (p % 512) badFuse

/-- SEC_NONCE (R517). -/
def execSecNonce (fresh : BitVec 256) (s : State) : Out :=
  s.secRow 6 fun _ s =>
    let s := (List.range 4).foldl (fun s i => s.setReg R.SEC_NONCE (fresh.toNat / 2 ^ (64 * i) % 2 ^ 64) 0 i) s
    (s.put F.SEC_STATUS.nonce_valid 1).secJob .ok 0

/-- SEC_CERT (R512, R517). -/
def execSecCert (s : State) : Out :=
  s.secRow 7 fun q s =>
    let chain := s.certChain
    match q.addr 0 chain.length false with
    | .ok => (s.writeSram q.dst chain).secJob .ok chain.length
    | c => s.secJob c 0

/-- SECURITY_OPERATION_DONE (R517). -/
def execSecurityOperationDone (s : State) : Out :=
  needSome s.sec.job "no operation has been performed" fun j =>
  need (s.on F.SEC_CMD.busy) "no operation runs" <|
  .next (((s.put F.SEC_CMD.code j.code.toNat).put F.SEC_CMD.len j.len).put F.SEC_CMD.busy 0 |>.setSec fun x => { x with req := none, job := none })

/-! ## The alias key (R508, R511) -/

/-- The identity seed, and the keys of the ledger and of the memo (R508). -/
def State.identitySeed (s : State) : List Byte := s.otpBytes 0x27A 12
def State.ledgerKey (s : State) : List Byte := hkdf384 (s.otpBytes 0x286 12) (ascii [108, 101, 100, 103, 101, 114]) 48
def State.memoKey (s : State) : List Byte := hkdf384 (s.otpBytes 0x286 12) (ascii [109, 101, 109, 111]) 48

/-- The octets of the certificate's extension (R511). -/
def State.certExtension (s : State) : List Byte :=
  vget s.sec.mrs 0 ++ leBytes 4 (s.get F.SEC_SVN.img_svn) ++
    ([s.get F.SEC_STATUS.signer, s.activeOwner.getD 0xFF, b2n (s.on F.SEC_STATUS.debug)].map fun x => BitVec.ofNat 8 x) ++ List.replicate 9 0#8

/-- The alias certificate is issued; it is signed by the identity key but in a debug start (R511, R515). -/
def State.issueAlias (s : State) : State :=
  let cdi := hmac384 s.identitySeed (vget s.sec.mrs 0)
  let ext := s.certExtension
  let cert := (List.range (Config.certLen cdi ext).val).map fun i => Config.certByte cdi ext i
  (s.setSec fun x => { x with cdi := cdi, cert := cert }).put F.SEC_STATUS.identity_ok (b2n (!s.on F.SEC_STATUS.debug))

/-! ## The TAP (R514, R515) -/

/-- A value is shifted out. -/
def State.tapShift (s : State) (v : Nat) : State := (s.setSec fun x => { x with tapOut := v }).emit (.tap v)

/-- TAP_IDCODE (R514). -/
def execTapIdcode (s : State) : Out := .next (s.tapShift 0x1B240A5F)

/-- TAP_NONCE_READ (R514). -/
def execTapNonceRead (s : State) : Out :=
  .next (s.tapShift ((List.range 4).foldl (fun n i => n + s.reg R.SEC_NONCE 0 i * 2 ^ (64 * i)) 0))

/-- TAP_TOKEN_LOAD (R514, R515): a record of 32,768 bits is checked as DEBUG. -/
def execTapTokenLoad (record : List Byte) (s : State) : Out :=
  need (record.length == 4096) "a record has 32,768 bits" (.next (s.record true record none).1)

/-- TAP_BYPASS (R514): BYPASS itself acts in every state; a LOCKED TAP takes any other instruction as BYPASS and notes it. -/
def execTapBypass (ir : BitVec 8) (s : State) : Out :=
  need (!([0x01#8, 0x20#8, 0x21#8].contains ir)) "the instruction has a row of its own" <|
  if ir = 0xFF#8 then .next s
  else if s.tapState = 1 then .next (s.put F.SEC_JTAG.tap_denied 1)
  else .refused (.tapInstruction ir.toNat)

end Sys2Proof.Machine
end

