-- ==== Sys2Proof/Machine/Flash.lean ====
section
/-! DEFINITION. The serial flash: the repair ledger and the training memo, and the always-on registers that append, seal, identify the block and
enter service (R30, R477, R480, R483, R487, R488, R492-R494, R497). -/
namespace Sys2Proof.Machine

/-! ## The repair ledger (R487, R488) -/

/-- The flash offset of a bank of the ledger, and its 65,536 slots of 32 bytes (R480). -/
def ledgerBank (b : Nat) : Nat := 0x2600000 + 0x200000 * b
def ledgerSlots : Nat := 65536

/-- An entry of the ledger (R487). -/
structure LedgerEntry where
  seq : Nat
  kind : Nat
  source : Nat
  action : Nat
  loc : Nat
  bytes : List Byte
  deriving DecidableEq, Repr

/-- Read the fields of an entry. -/
def LedgerEntry.ofBytes (b : List Byte) : LedgerEntry :=
  ⟨leNat (b.take 4), leNat (sliceOf b 4 1), leNat (sliceOf b 5 1), leNat (sliceOf b 6 1), leNat (sliceOf b 8 8), b⟩

/-- The bytes of an entry before its MAC. -/
def ledgerHead (seq kind source action loc boots : Nat) : List Byte :=
  leBytes 4 seq ++ leBytes 1 kind ++ leBytes 1 source ++ leBytes 1 action ++ leBytes 1 0 ++ leBytes 8 loc ++ leBytes 4 boots ++ leBytes 4 0

/-- The MAC of an entry. -/
def State.ledgerMac (s : State) (head : List Byte) : List Byte := (hmac384 s.ledgerKey head).take 8

/-- Slots of a bank that are not erased, in order: erased flash reads 0xFF, so they are those that list a byte. -/
def State.usedSlots (s : State) (b : Nat) : List Nat :=
  let lo := spFlash + ledgerBank b
  ((s.mem.filter fun c => decide (lo ≤ c.1) && decide (c.1 < lo + 0x200000)).map fun c => (c.1 - lo) / 32).eraseDups

/-- Entries that stand in a bank. -/
def State.bankEntries (s : State) (b : Nat) : List LedgerEntry :=
  (s.usedSlots b).map fun i => LedgerEntry.ofBytes (s.bytes (spFlash + ledgerBank b + 32 * i) 32)

/-- Entries of both banks; a copy of an entry counts once (R488). -/
def State.ledgerEntries (s : State) : List LedgerEntry := (s.bankEntries 0 ++ s.bankEntries 1).eraseDups

/-- Whether the MAC of an entry verifies. -/
def State.ledgerVerified (s : State) (x : LedgerEntry) : Bool :=
  x.seq != 0xFFFFFFFF && x.bytes.drop 24 == s.ledgerMac (x.bytes.take 24)

/-- Effective entries: verified, with a seq that no other verified entry has. -/
def State.effective (s : State) : List LedgerEntry :=
  let l := s.ledgerEntries.filter s.ledgerVerified
  l.filter fun x => (l.filter fun y => y.seq == x.seq).length == 1

/-- Effective repair entries, and open candidates: those that no later confirm or dismiss names. -/
def State.repairs (s : State) : List LedgerEntry := s.effective.filter fun x => x.action == 0
def State.candidates (s : State) : List LedgerEntry :=
  let l := s.effective
  l.filter fun x => x.action == 1 && !l.any fun y => (y.action == 2 || y.action == 3) && decide (x.seq < y.seq) && y.loc / 2 ^ 32 == x.seq

/-- The highest seq in a list of entries. -/
def highestSeq (l : List LedgerEntry) : Nat := l.foldl (fun n x => if x.seq = 0xFFFFFFFF then n else max n x.seq) 0

/-- The active bank: the one with the highest seq (log entry 42). -/
def State.activeBank (s : State) : Nat := if highestSeq (s.bankEntries 0) < highestSeq (s.bankEntries 1) then 1 else 0

/-- The lowest erased slot of a bank. -/
def State.erasedSlot (s : State) (b : Nat) : Option Nat :=
  let used := s.usedSlots b
  (List.range (min ledgerSlots (used.length + 1))).find? fun i => !used.contains i

/-- Store bytes in flash. -/
def State.writeFlash (s : State) (at_ : Nat) (b : List Byte) : State := s.setBytes (spFlash + at_) b

/-- Erase a part of flash. -/
def State.eraseFlash (s : State) (at_ n : Nat) : State :=
  { s with mem := s.mem.filter fun c => decide (c.1 < spFlash + at_) || decide (spFlash + at_ + n ≤ c.1) }

/-- What a failed write leaves: bytes that the spec does not give. -/
def State.failFlash (s : State) (at_ n : Nat) : State :=
  (s.writeFlash at_ ((List.range n).map fun i => Config.flashByte s.drawn (at_ + i))).draw

/-- Append an entry at the lowest erased slot of the active bank, with seq one above the highest in both banks; none when the bank is full. -/
def State.appendEntry (s : State) (kind source action loc : Nat) : Option State :=
  let b := s.activeBank
  (s.erasedSlot b).map fun i =>
    let head := ledgerHead (highestSeq s.ledgerEntries + 1) kind source action loc (s.get F.AON_STATUS.boots)
    s.writeFlash (ledgerBank b + 32 * i) (head ++ s.ledgerMac head)

/-- Append, where the bank has room (the ROM's entries: R488, R489). -/
def State.romEntry (s : State) (kind source action loc : Nat) : State := (s.appendEntry kind source action loc).getD s

/-- Put entries at the lowest erased slots of a bank. -/
def State.placeEntries (s : State) (b : Nat) (l : List LedgerEntry) : State :=
  l.foldl (fun s x => match s.erasedSlot b with
    | some i => s.writeFlash (ledgerBank b + 32 * i) x.bytes
    | none => s) s

/-- With fewer than 1,024 erased slots, every repair entry and open candidate goes to the other bank and the old one is erased (R488). -/
def State.copyBank (s : State) : State :=
  let b := s.activeBank
  if ledgerSlots - (s.usedSlots b).length < 1024 then
    let held := s.bankEntries (1 - b)
    let keep := (s.repairs ++ s.candidates).filter fun x => !held.contains x
    (s.placeEntries (1 - b) keep).eraseFlash (ledgerBank b) 0x200000
  else s

/-- Kinds of the repair table (R485). -/
def repairKind (k : Nat) : Bool := decide (1 ≤ k) && decide (k ≤ 9)

/-- A write of `AON_LEDGER` (R488, R497): go starts the append of a candidate, or ends it with ACCESS_DENIED. -/
def State.writeLedger (s : State) (v : Nat) : State :=
  let s := s.swFields R.AON_LEDGER v 0
  if !nbit v 0 || s.on F.AON_LEDGER.busy then s
  else if s.get F.AON_STATUS.stage < 12 ∨ repairKind (s.get F.AON_LEDGER.kind) = false then s.put F.AON_LEDGER.code 5
  else (s.put F.AON_LEDGER.busy 1).setBoot fun b => { b with append := (s.get F.AON_LEDGER.kind, s.reg R.AON_LEDGER_LOC) }

/-- AON_LEDGER_GO (R488, R497). -/
def execAonLedgerGo (v : Word) (s : State) : Out := .next (s.writeLedger v.toNat)

/-- An append ends with a code. -/
def State.ledgerDone (s : State) (c : Code) : State := (s.put F.AON_LEDGER.code c.toNat).put F.AON_LEDGER.busy 0

/-- LEDGER_APPEND_DONE (R487, R488, R497): the candidate stands in flash with source 2; `ok` is its read-back (log entry 43). -/
def execLedgerAppendDone (ok : Bool) (s : State) : Out :=
  need (s.on F.AON_LEDGER.busy) "no append is in progress" <|
  let b := s.activeBank
  let seq := highestSeq s.ledgerEntries + 1
  match s.erasedSlot b with
  | none => .next (s.ledgerDone .dataErr)
  | some i =>
    if !ok then .next ((s.failFlash (ledgerBank b + 32 * i) 32).ledgerDone .dataErr)
    else
      let head := ledgerHead seq s.boot.append.1 2 1 s.boot.append.2 (s.get F.AON_STATUS.boots)
      .next (((s.writeFlash (ledgerBank b + 32 * i) (head ++ s.ledgerMac head)).put F.AON_LEDGER.seq seq).ledgerDone .ok)

/-! ## The training memo (R492-R494) -/

/-- The flash offset of a copy of the memo, and the bytes before its MAC. -/
def memoAt (c : Nat) : Nat := 0x2400000 + 0x100000 * c
def memoBody : Nat := 0x10C40

/-- Whether magic and format of a memo are right. -/
def memoForm (b : List Byte) : Bool := leNat (b.take 4) == 0x4F4D454D && leNat (sliceOf b 4 4) == 1

/-- Whether a copy is valid (R493). -/
def State.memoValid (s : State) (c : Nat) : Bool :=
  memoForm (s.bytes (spFlash + memoAt c) 8) &&
    s.bytes (spFlash + memoAt c + memoBody) 48 == hmac384 s.memoKey (s.bytes (spFlash + memoAt c) memoBody)

/-- The generation of a copy. -/
def State.memoGen (s : State) (c : Nat) : Nat := leNat (s.bytes (spFlash + memoAt c + 8) 8)

/-- The valid copy with the larger generation (R493). -/
def State.newestMemo (s : State) : Option Nat :=
  match s.memoValid 0, s.memoValid 1 with
  | true, true => some (if s.memoGen 0 < s.memoGen 1 then 1 else 0)
  | true, false => some 0
  | false, true => some 1
  | false, false => none

/-- A write of `AON_MEMO` (R494, R497). -/
def State.writeMemo (s : State) (v : Nat) : State :=
  let s := s.swFields R.AON_MEMO v 0
  if nbit v 0 && !s.on F.AON_MEMO.busy then (s.put F.AON_MEMO.busy 1).setBoot fun b => { b with memoSrc := s.get F.AON_MEMO.src } else s

/-- AON_MEMO_GO (R494). -/
def execAonMemoGo (v : Word) (s : State) : Out := .next (s.writeMemo v.toNat)

/-- A seal ends with a code. -/
def State.memoDone (s : State) (c : Code) : State := (s.put F.AON_MEMO.code c.toNat).put F.AON_MEMO.busy 0

/-- MEMO_SEAL_DONE (R494): body and MAC stand in the other copy, or the write failed its read-back. A body outside Floor SRAM, or with another
magic or format, is not written (log entry 44). -/
def execMemoSealDone (readBackOk : Bool) (s : State) : Out :=
  need (s.on F.AON_MEMO.busy) "no seal is in progress" <|
  let src := s.boot.memoSrc
  if inSram src memoBody = false then .next (s.memoDone .unmapped)
  else
    let b := s.readSram src memoBody
    if memoForm b = false then .next (s.memoDone .dataErr)
    else
      let gen := match s.newestMemo with
        | some c => s.memoGen c + 1
        | none => 1
      let c := match s.newestMemo with
        | some c => 1 - c
        | none => 0
      let s := s.eraseFlash (memoAt c) 0x100000
      if !readBackOk then .next ((s.failFlash (memoAt c) (memoBody + 48)).memoDone .dataErr)
      else
        let body := b.take 8 ++ leBytes 8 gen ++ b.drop 16
        .next ((s.writeFlash (memoAt c) (body ++ hmac384 s.memoKey body)).memoDone .ok)

/-! ## Identity and service (R30, R351, R477, R483) -/

/-- A write of `AON_BLOCK_ID`: id and valid take their values unless they are locked, and then lock (R30). -/
def State.writeBlockId (s : State) (v : Nat) : State := s.swWrite R.AON_BLOCK_ID v 0 0 (s.on F.AON_BLOCK_ID.lock)

/-- AON_BLOCK_ID_WRITE (R30, R351, R561). -/
def execAonBlockIdWrite (v : Word) (s : State) : Out := .next (s.writeBlockId v.toNat)

/-- The block enters service (R477, R479, R483): the time taken is that since the whole-block reset ended, which no step of block time moves. -/
def State.enterService (s : State) : State :=
  let s := (s.put F.AON_STATUS.stage 12).put F.AON_STATUS.start_ms (min 0xFFFF (s.clock.ticks / 1000000))
  (s.put F.AON_BOOT.fails 0).put F.AON_BOOT.service 1

/-- SERVICE (R477): firmware, which runs in stage 11, writes `AON_BOOT.service`. -/
def execService (s : State) : Out :=
  need (s.get F.AON_STATUS.stage == 11 && s.boot.firmware) "firmware does not run in stage 11" (.next s.enterService)

/-- A write of `AON_BOOT` (R482, R497): outside stage 11, service has no effect. -/
def State.writeBoot (s : State) (v : Nat) : State :=
  let s := s.swFields R.AON_BOOT v 0
  if nbit v 5 ∧ s.get F.AON_STATUS.stage = 11 ∧ s.boot.firmware = true then s.enterService else s

end Sys2Proof.Machine
end

