-- ==== Sys2Proof/Machine/Dtls.lean ====
section
/-! DEFINITION. The record protection of DTLS 1.3 (RFC 9147 with TLS_AES_256_GCM_SHA384) and the frames that a Frontage port sends (R378, R379,
R381-R384). -/
namespace Sys2Proof

/-! ## Traffic keys (R381, R384, R386) -/

/-- HKDF-Expand-Label of DTLS 1.3 with an empty context: the label follows "dtls13". -/
def expandLabel (secret : List Byte) (label : List Nat) (n : Nat) : List Byte :=
  let l := ascii ([100, 116, 108, 115, 49, 51] ++ label)
  hkdfExpand secret (beBytes 2 n ++ beBytes 1 l.length ++ l ++ [0#8]) n

/-- The keys of one direction: AES-256 key, IV and record-number key. -/
structure RecordKeys where
  key : List Byte
  iv : List Byte
  sn : List Byte
  deriving DecidableEq, Repr

/-- The keys of a traffic secret: labels "key", "iv" and "sn". -/
def recordKeys (secret : List Byte) : RecordKeys :=
  ⟨expandLabel secret [107, 101, 121] 32, expandLabel secret [105, 118] 12, expandLabel secret [115, 110] 32⟩

/-- The traffic secret after a KeyUpdate: label "traffic upd". -/
def nextSecret (secret : List Byte) : List Byte := expandLabel secret [116, 114, 97, 102, 102, 105, 99, 32, 117, 112, 100] 48

/-! ## Records (R379, R382) -/

/-- The nonce of a record: its number, big-endian, with the IV. -/
def recordIv (iv : List Byte) (num : Nat) : List Byte := xorBytes (beBytes 12 num) iv

/-- Record-number encryption, which is its own inverse: the number's bytes with the leading bytes of AES of the ciphertext's first 16 bytes. -/
def maskNumber (sn ct num : List Byte) : List Byte := xorBytes num (aes256 sn (ct.take 16))

/-- The unified header with a connection ID, a 16-bit sequence number and a length. -/
def recordHead (epoch : Nat) (cid num : List Byte) (len : Nat) : List Byte := [BitVec.ofNat 8 (0x3C + epoch % 4)] ++ cid ++ num ++ beBytes 2 len

/-- A plaintext becomes a record of inner content type 23 (R382). -/
def sealRecord (k : RecordKeys) (epoch : Nat) (cid : List Byte) (num : Nat) (plain : List Byte) : List Byte :=
  let n := beBytes 2 (num % 2 ^ 16)
  let head := recordHead epoch cid n (plain.length + 17)
  let c := gcmSeal k.key (recordIv k.iv num) head (plain ++ [23#8])
  let ct := c.1 ++ c.2
  recordHead epoch cid (maskNumber k.sn ct n) ct.length ++ ct

/-- The first byte of a UDP payload: the unified header, and its bits C, S and L. -/
def unified (b : List Byte) : Bool := (b.headD 0#8).toNat / 32 == 1
def headBit (b : List Byte) (i : Nat) : Bool := nbit (b.headD 0#8).toNat i

/-- The connection ID of a DTLS 1.3 ciphertext record (R379). -/
def recordCid (b : List Byte) : Option (List Byte) := if unified b && headBit b 4 && decide (9 ≤ b.length) then some ((b.drop 1).take 8) else none

/-- The record number next to the expected one whose low `bits` bits are `x` (RFC 9147). -/
def fullNumber (bits expected x : Nat) : Nat :=
  let m := 2 ^ bits
  let c := expected / m * m + x
  if c + m / 2 < expected then c + m else if expected + m / 2 < c ∧ m ≤ c then c - m else c

/-- A plaintext without its padding and its content type; none where it has no content type. -/
def innerContent (b : List Byte) : Option (List Byte) :=
  match b.reverse.dropWhile fun x => x == 0#8 with
  | [] => none
  | _ :: r => some r.reverse

/-- A record is opened: its number and its plaintext, where its epoch is that of the keys, its length is that of the datagram and its tag verifies. -/
def openRecord (k : RecordKeys) (epoch expected : Nat) (b : List Byte) : Option (Nat × List Byte) :=
  let n := if headBit b 3 then 2 else 1
  let ct := b.drop (9 + n + if headBit b 2 then 2 else 0)
  let len := (b.drop (9 + n)).take (b.length - ct.length - (9 + n))
  if (b.headD 0#8).toNat % 4 ≠ epoch % 4 ∨ ct.length < 16 ∨ (headBit b 2 = true ∧ beNat len ≠ ct.length) then none
  else
    let seq := maskNumber k.sn ct ((b.drop 9).take n)
    let num := fullNumber (8 * n) expected (beNat seq)
    match gcmOpen k.key (recordIv k.iv num) (b.take 9 ++ seq ++ len) (ct.take (ct.length - 16)) (ct.drop (ct.length - 16)) with
    | some p => (innerContent p).map fun x => (num, x)
    | none => none

/-! ## Frames (R378, R383) -/

/-- The Internet checksum of bytes, the last of an odd number followed by a zero. -/
def checksum (b : List Byte) : Nat :=
  let s := (chunk 2 (ceilDiv b.length 2) b).foldl (fun n x => n + beNat ((x ++ [0#8]).take 2)) 0
  let fold (x : Nat) : Nat := x % 2 ^ 16 + x / 2 ^ 16
  0xFFFF - fold (fold s)

/-- The pseudo-header of IPv6. -/
def pseudoHead (src dst : List Byte) (len next : Nat) : List Byte := src ++ dst ++ beBytes 4 len ++ beBytes 4 next

/-- A UDP datagram with its checksum; a sum of zero is sent as all ones. -/
def udpBytes (src dst : List Byte) (sport dport : Nat) (payload : List Byte) : List Byte :=
  let n := 8 + payload.length
  let head := beBytes 2 sport ++ beBytes 2 dport ++ beBytes 2 n
  let c := checksum (pseudoHead src dst n 17 ++ head ++ beBytes 2 0 ++ payload)
  head ++ beBytes 2 (if c = 0 then 0xFFFF else c) ++ payload

/-- An ICMPv6 message with its checksum, which stands in its third and fourth bytes. -/
def icmpBytes (src dst payload : List Byte) : List Byte :=
  let a := payload.take 2
  let b := payload.drop 4
  a ++ beBytes 2 (checksum (pseudoHead src dst payload.length 58 ++ a ++ beBytes 2 0 ++ b)) ++ b

/-- An IPv6 packet with a hop limit of 64. -/
def ipBytes (src dst : List Byte) (next : Nat) (body : List Byte) : List Byte :=
  [0x60#8, 0#8, 0#8, 0#8] ++ beBytes 2 body.length ++ beBytes 1 next ++ beBytes 1 64 ++ src ++ dst ++ body

/-- One step of the CRC-32 of IEEE 802.3, over a byte. -/
def crc32Step (c : Nat) (b : Byte) : Nat :=
  (List.range 8).foldl (fun c _ => if nbit c 0 then c / 2 ^^^ 0xEDB88320 else c / 2) (c ^^^ b.toNat)

/-- The FCS of a frame, in the order in which it is sent. -/
def fcsBytes (b : List Byte) : List Byte := leBytes 4 (b.foldl crc32Step 0xFFFFFFFF ^^^ 0xFFFFFFFF)

/-- An Ethernet frame of IPv6, with the tag of a VLAN ID at priority 0 where there is one, padded to 64 bytes with its FCS (R378). -/
def frameBytes (dst src : List Byte) (vid : Option Nat) (packet : List Byte) : List Byte :=
  let tag := match vid with
    | some v => [0x81#8, 0x00#8] ++ beBytes 2 v
    | none => []
  let b := dst ++ src ++ tag ++ [0x86#8, 0xDD#8] ++ packet
  let b := b ++ List.replicate (60 - b.length) 0#8
  b ++ fcsBytes b

end Sys2Proof
end

