-- ==== Sys2Proof/Machine/Frontage.lean ====
section
/-! DEFINITION. The hardware of the Frontage ports: filtering, records, rings, sending and rate caps (R378-R383, R402, R404). -/
namespace Sys2Proof.Machine

/-! ## Addresses and slots (R378-R380) -/

/-- A port's IPv6 address with its first octet in the low bits, and its last three octets (R404). -/
def State.frIp (s : State) (p : FrId) : Nat := s.reg R.FR_IP_HI p.val + s.reg R.FR_IP_LO p.val * 2 ^ 64
def State.frTail (s : State) (p : FrId) : Nat := s.reg R.FR_IP_LO p.val / 2 ^ 40 % 2 ^ 24

/-- Whether a destination MAC address is accepted (R378). -/
def State.macOk (s : State) (p : FrId) (m : Nat) : Bool :=
  m == s.get F.FR_MAC.mac p.val || m == 0x010000003333 || m == 0xFF3333 + s.frTail p * 2 ^ 24

/-- The solicited-node address of a port (R379). -/
def State.solicited (s : State) (p : FrId) : Nat := 0xFF + 0x02 * 2 ^ 8 + 0x01 * 2 ^ 88 + 0xFF * 2 ^ 96 + s.frTail p * 2 ^ 104

/-- A field of slot `i` in the packet buffer (R380). -/
def slotAt (i off : Nat) : Nat := pktBuf + 256 * i + off
def State.slotNat (s : State) (i off n : Nat) : Nat := leNat (s.readSram (slotAt i off) n)
def State.setSlotNat (s : State) (i off n v : Nat) : State := s.writeSram (slotAt i off) (leBytes n v)

/-- The valid slot that a connection ID matches (R379, R380). -/
def State.slotOf (s : State) (cid : Nat) : Option Nat :=
  (List.range 64).find? fun i => s.slotNat i 0 1 % 2 == 1 && s.slotNat i 8 8 == cid

/-- Whether a record number is new to the replay window of a slot (R379, R381). -/
def State.recordNew (s : State) (i num : Nat) : Bool :=
  let top := s.slotNat i 0x30 8
  if top < num then true else if top < num + 64 then !nbit (s.slotNat i 0x38 8) (top - num) else false

/-- A record is accepted (R380). -/
def State.acceptRecord (s : State) (p : FrId) (i num : Nat) : State :=
  let top := s.slotNat i 0x30 8
  let map := s.slotNat i 0x38 8
  let s := s.setSlotNat i 1 1 p.val
  if top < num then
    (s.setSlotNat i 0x30 8 num).setSlotNat i 0x38 8 ((if num - top < 64 then map * 2 ^ (num - top) else 0) % 2 ^ 64 + 1)
  else s.setSlotNat i 0x38 8 (putBits map (top - num) 1 1)

/-- Keys in a slot at an offset (R380): AES-256 key, IV, record-number key. -/
def State.slotKeys (s : State) (key iv sn i : Nat) : RecordKeys :=
  ⟨s.readSram (slotAt i key) 32, s.readSram (slotAt i iv) 12, s.readSram (slotAt i sn) 32⟩
def State.rxKeys (s : State) (i : Nat) : RecordKeys := s.slotKeys 0x40 0x60 0x70 i
def State.txKeys (s : State) (i : Nat) : RecordKeys := s.slotKeys 0x90 0xB0 0xC0 i

/-- Write keys into a slot. -/
def State.setSlotKeys (s : State) (key iv sn i : Nat) (k : RecordKeys) : State :=
  ((s.writeSram (slotAt i key) k.key).writeSram (slotAt i iv) k.iv).writeSram (slotAt i sn) k.sn

/-! ## Rings (R382) -/

/-- Entries that hardware owns. -/
def owned (head tail : Nat) : Nat := (tail + 2 ^ 17 - head) % 2 ^ 17

/-- A write of tail is ignored when it would leave more than the ring's entries, or fewer than before. -/
def tailOk (size head old new : Nat) : Bool := decide (owned head new ≤ 2 ^ (size + 6)) && decide (owned head old ≤ owned head new)

/-- Address of the entry with an index. -/
def ringAt (base size idx : Nat) : Nat := pktBuf + (base * 16 + 16 * (idx % 2 ^ (size + 6))) % 2 ^ 24

/-- A write of `FR_RXPTR` or `FR_TXPTR`. -/
def State.writeRxPtr (s : State) (p : FrId) (v : Nat) : State :=
  if tailOk (s.get F.FR_RXRING.size p.val) (s.get F.FR_RXPTR.head p.val) (s.get F.FR_RXPTR.tail p.val) (nbits v 48 32) then
    s.put F.FR_RXPTR.tail (nbits v 48 32) p.val else s
def State.writeTxPtr (s : State) (p : FrId) (v : Nat) : State :=
  if tailOk (s.get F.FR_TXRING.size p.val) (s.get F.FR_TXPTR.head p.val) (s.get F.FR_TXPTR.tail p.val) (nbits v 48 32) then
    s.put F.FR_TXPTR.tail (nbits v 48 32) p.val else s

/-- FR_RXPTR_TAIL (R382). -/
def execFrRxptrTail (p : FrId) (v : Word) (s : State) : Out := .next (s.writeRxPtr p v.toNat)

/-- FR_TXPTR_TAIL (R382). -/
def execFrTxptrTail (p : FrId) (v : Word) (s : State) : Out := .next (s.writeTxPtr p v.toNat)

/-- A write of `FR_RXRING` or `FR_TXRING` (R404): ignored while the port is enabled; a size above 10 stores 10. -/
def State.writeRing (s : State) (r : Reg) (size : Field) (p : FrId) (v : Nat) : State :=
  if s.on F.FR_CTL.enable p.val then s
  else
    let s := s.swWrite r v p.val 0 false
    s.put size (min 10 (s.get size p.val)) p.val

/-- Both rings are empty. -/
def State.emptyRings (s : State) (p : FrId) : State := (s.resetReg R.FR_RXPTR p.val).resetReg R.FR_TXPTR p.val

/-- The enable bit of a port changes (R404): without it the lanes are idle and both rings empty. A held block keeps its ports disabled (R477). -/
def State.setFrEnable (s : State) (p : FrId) (want : Bool) : State :=
  let on := want && !s.on F.AON_STATUS.held
  let s := s.put F.FR_CTL.enable (b2n on) p.val
  if on then s else ((s.put F.FR_STATUS.link 0 p.val).put F.FR_STATUS.pcs_lock 0 p.val).emptyRings p

/-- A write of `FR_CTL`. -/
def State.writeFrCtl (s : State) (p : FrId) (v : Nat) : State := (s.swWrite R.FR_CTL v p.val 0 false).setFrEnable p (nbit v 0)

/-- FR_ENABLE (R404). -/
def execFrEnable (p : FrId) (on : Bool) (s : State) : Out := .next (s.setFrEnable p on)

/-- FRONTAGE_LINK_CHANGE (R404). -/
def execFrontageLinkChange (p : FrId) (up : Bool) (s : State) : Out :=
  need (s.on F.FR_CTL.enable p.val) "the port is not enabled" <|
  .next ((s.put F.FR_STATUS.pcs_lock (b2n up) p.val).put F.FR_STATUS.link (b2n up) p.val)

/-! ## Receiving (R378, R379, R382) -/

/-- What becomes of a received frame. -/
inductive RxClass where
  /-- A bad frame, or a pause frame. -/
  | frame
  /-- Filtered. -/
  | filter
  /-- A record of a slot that fails, and one that is accepted, with its plaintext. -/
  | auth
  | record (slot num : Nat) (plain : List Byte)
  /-- Raw UDP, or ICMPv6. -/
  | raw (cls : Nat)
  deriving DecidableEq, Repr

/-- Whether the frame passes the options of R378. -/
def State.framePasses (s : State) (p : FrId) (f : Frame) : Bool :=
  let tag := if s.on F.FR_CTL.vlan_en p.val then f.vlan.any (fun v => v.toNat == s.get F.FR_CTL.vid p.val) else f.vlan.isNone
  tag && s.macOk p f.dstMac.toNat && f.ipv6 && f.plain && decide (f.ipLen ≤ 9200)

/-- The class of a frame (R378, R379). -/
def State.classify (s : State) (p : FrId) (f : Frame) : RxClass :=
  if f.size < 64 ∨ 9222 < f.size ∨ f.fcsOk = false ∨ f.pause then .frame
  else if !s.framePasses p f then .filter
  else if f.nextHeader = 17 then
    if !f.sumOk || f.sumZero || f.dstIp.toNat != s.frIp p || f.dstPort.toNat != s.get F.FR_UDP.port p.val then .filter
    else match (recordCid f.payload).bind fun c => s.slotOf (leNat c) with
      | none => .raw 1
      | some i => match openRecord (s.rxKeys i) (s.slotNat i 2 2) (s.slotNat i 0x30 8 + 1) f.payload with
        | some q => if s.recordNew i q.1 then .record i q.1 q.2 else .auth
        | none => .auth
  else if f.nextHeader = 58 then if f.dstIp.toNat = s.frIp p ∨ f.dstIp.toNat = s.solicited p then .raw 2 else .filter
  else .filter

/-- The prefix of a raw packet (R382). -/
def rawPrefix (f : Frame) (cls : Nat) : List Byte :=
  leBytes 16 f.srcIp.toNat ++ leBytes 6 f.srcMac.toNat ++ leBytes 2 (if cls = 1 then f.srcPort.toNat else 0)

/-- A packet goes to the receive ring, when hardware owns an entry (R382). -/
def State.toRing (s : State) (p : FrId) (cls slot : Nat) (data : List Byte) : State :=
  let head := s.get F.FR_RXPTR.head p.val
  let a := ringAt (s.get F.FR_RXRING.base p.val) (s.get F.FR_RXRING.size p.val) head
  let off := leNat (s.readSram (a + 8) 3)
  let s := s.writeSram (pktBuf + off) data
  let s := s.writeSram a (leBytes 8 (data.length % 2 ^ 14 + slot * 2 ^ 14 + p.val * 2 ^ 20 + cls * 2 ^ 21))
  (s.put F.FR_RXPTR.head ((head + 1) % 2 ^ 17) p.val).count F.FR_COUNT.rx_dgrams 1 p.val

/-- Whether the receive ring has an area for a packet. -/
def State.rxRoom (s : State) (p : FrId) : Bool := owned (s.get F.FR_RXPTR.head p.val) (s.get F.FR_RXPTR.tail p.val) != 0

/-- A packet for which hardware owns no entry is dropped (R382). -/
def State.ringFull (s : State) (p : FrId) : State := (s.count F.FR_DROP.ring_full 1 p.val).put F.FR_STATUS.rx_full 1 p.val

/-- FRAME_RECEIVE (R378, R379, R382, R404). -/
def execFrameReceive (p : FrId) (f : Frame) (s : State) : Out :=
  need (s.on F.FR_CTL.enable p.val) "the port is not enabled" <|
  let s := (s.count F.FR_FEC.corrected f.corrected p.val).count F.FR_FEC.uncorrectable f.uncorrected p.val
  match s.classify p f with
  | .frame => .next (s.count F.FR_DROP.frame 1 p.val)
  | .filter => .next (s.count F.FR_DROP.filter 1 p.val)
  | .auth => .next (s.count F.FR_DROP.auth 1 p.val)
  | .record i num plain => if s.rxRoom p then .next ((s.acceptRecord p i num).toRing p 0 i plain) else .next (s.ringFull p)
  | .raw c => if s.rxRoom p then .next (s.toRing p c 0 (rawPrefix f c ++ f.payload)) else .next (s.ringFull p)

/-! ## Sending (R382, R383, R402) -/

/-- The token buckets refilled to now: rates in units of 0.25 GB/s and of 10,000 datagrams per second (R402). -/
def State.refilled (s : State) (p : FrId) : Buckets :=
  let b := vget s.front.buckets p
  let dt := s.btime - b.t
  let fill (x rate most : Nat) : Nat := min most (x + rate * dt)
  { bytes := fill b.bytes (s.get F.FR_TXCAP.bytes p.val) Buckets.full.bytes
    dgrams := fill b.dgrams (s.get F.FR_TXCAP.dgrams p.val) Buckets.full.dgrams
    rawBytes := fill b.rawBytes (s.get F.FR_TXCAP.raw_bytes p.val) Buckets.full.rawBytes
    rawDgrams := fill b.rawDgrams (s.get F.FR_TXCAP.raw_dgrams p.val) Buckets.full.rawDgrams
    t := s.btime }

/-- Take a datagram of `n` payload bytes from its buckets; none when it would exceed a limit (R402). -/
def Buckets.take (b : Buckets) (raw : Bool) (n : Nat) : Option Buckets :=
  if raw then if 4 * n ≤ b.rawBytes ∧ 100000 ≤ b.rawDgrams then some { b with rawBytes := b.rawBytes - 4 * n, rawDgrams := b.rawDgrams - 100000 } else none
  else if 4 * n ≤ b.bytes ∧ 100000 ≤ b.dgrams then some { b with bytes := b.bytes - 4 * n, dgrams := b.dgrams - 100000 } else none

/-- UDP payload bytes of an entry: a raw payload without its prefix; a record with its header of 13 bytes, content type and tag (R382, R402). -/
def wireBytes (raw : Bool) (len : Nat) : Nat := if raw then len - 24 else len + 30

/-- A frame leaves a port for an address and MAC: the port's own MAC, address and UDP port are inserted, and the checksum of UDP, or of ICMPv6 where the
destination port is 0, is computed (R378, R382, R383). -/
def State.frameTo (s : State) (p : FrId) (ip mac : List Byte) (port : Nat) (payload : List Byte) : List Byte :=
  let src := leBytes 16 (s.frIp p)
  let body := if port = 0 then icmpBytes src ip payload else udpBytes src ip (s.get F.FR_UDP.port p.val) port payload
  frameBytes mac (leBytes 6 (s.get F.FR_MAC.mac p.val)) (if s.on F.FR_CTL.vlan_en p.val then some (s.get F.FR_CTL.vid p.val) else none)
    (ipBytes src ip (if port = 0 then 58 else 17) body)

/-- The frame of a raw payload, which begins with the prefix of its destination (R382). -/
def State.rawFrame (s : State) (p : FrId) (data : List Byte) : List Byte :=
  s.frameTo p (data.take 16) (sliceOf data 16 6) (leNat (sliceOf data 22 2)) (data.drop 24)

/-- The frame of a plaintext, as a record of a slot to its peer (R380, R382). -/
def State.recordFrame (s : State) (p : FrId) (i : Nat) (data : List Byte) : List Byte :=
  s.frameTo p (s.readSram (slotAt i 0x10) 16) (s.readSram (slotAt i 0x20) 6) (s.slotNat i 0x26 2)
    (sealRecord (s.txKeys i) (s.slotNat i 0xBC 2) (s.readSram (slotAt i 8) 8) (s.slotNat i 0x28 8) data)

/-- TX_ENTRY_SEND (R378, R382, R383, R402): the entry at head is sent by the port that it names (log entry 82), or waits for that port's limits. -/
def execTxEntrySend (p : FrId) (s : State) : Out :=
  let head := s.get F.FR_TXPTR.head p.val
  need (s.on F.FR_CTL.enable p.val && owned head (s.get F.FR_TXPTR.tail p.val) != 0) "the port is not enabled, or its ring has nothing to send" <|
  let a := ringAt (s.get F.FR_TXRING.base p.val) (s.get F.FR_TXRING.size p.val) head
  let w := leNat (s.readSram a 8)
  let len := nbits w 13 0
  let slot := nbits w 19 14
  let q : FrId := ⟨nbits w 20 20, Nat.mod_lt _ (by decide)⟩
  let raw := nbit w 21
  need (s.on F.FR_CTL.enable q.val) "the port that the entry names is not enabled" <|
  match (s.refilled q).take raw (wireBytes raw len) with
  | none => .next (s.put F.FR_STATUS.cap_hit 1 q.val)
  | some b =>
    let data := s.readSram (pktBuf + leNat (s.readSram (a + 8) 3)) len
    let s := { s with front := { s.front with buckets := vset s.front.buckets q b } }.emit
      (.frame q (if raw then s.rawFrame q data else s.recordFrame q slot data))
    let s := if raw then s else s.setSlotNat slot 0x28 8 (s.slotNat slot 0x28 8 + 1)
    .next ((s.put F.FR_TXPTR.head ((head + 1) % 2 ^ 17) p.val).count F.FR_COUNT.tx_dgrams 1 q.val)

/-- Store a field of `FR_TXCAP` clamped to the same field of `FR_TXCEIL` (R402). -/
def State.clampTx (s : State) (p : FrId) (f : Field) (v : Nat) : State :=
  s.put f (min (getBits v f.lo f.w) (getBits (s.reg R.FR_TXCEIL p.val) f.lo f.w)) p.val

/-- A write of `FR_TXCAP` (R402). The buckets are filled at the old rates up to now. -/
def State.writeTxcap (s : State) (p : FrId) (v : Nat) : State :=
  let s := { s with front := { s.front with buckets := vset s.front.buckets p (s.refilled p) } }
  (((s.clampTx p F.FR_TXCAP.bytes v).clampTx p F.FR_TXCAP.dgrams v).clampTx p F.FR_TXCAP.raw_bytes v).clampTx p F.FR_TXCAP.raw_dgrams v

/-- FR_TXCAP_WRITE (R402). -/
def execFrTxcapWrite (p : FrId) (v : Word) (s : State) : Out := .next (s.writeTxcap p v.toNat)

/-- FR_COUNT_READ (R14). -/
def execFrCountRead (p : FrId) (s : State) : Out := .next (s.swRead R.FR_COUNT p.val 0).1

/-- FR_DROP_READ (R14). -/
def execFrDropRead (p : FrId) (s : State) : Out := .next (s.swRead R.FR_DROP p.val 0).1

/-- FR_FEC_READ (R14). -/
def execFrFecRead (p : FrId) (s : State) : Out := .next (s.swRead R.FR_FEC p.val 0).1

end Sys2Proof.Machine
end

