-- ==== Sys2Proof/Machine/ThermalModel.lean ====
section
/-! DEFINITION. The thermal model in FP32: nodes, nodeNeighbours, coefficients, coolant, and one step of 1 ms (R434, R445, R446, R484). -/
namespace Sys2Proof.Machine

/-- FP32 operations, each rounded once (R446). -/
def f32Add (a b : Val) : Val := (a.add b).f32
def f32Sub (a b : Val) : Val := (a.sub b).f32
def f32Mul (a b : Val) : Val := (a.mul b).f32
def f32Div (a b : Val) : Val :=
  match a, b with
  | .fin x, .fin y => if y.isZero then (if x.isZero then .nan else .inf x.isNeg) else (Val.fin (x.div y)).f32
  | .inf s, .fin y => .inf (s != y.isNeg)
  | .fin _, .inf _ => .zero
  | _, _ => .nan

/-- A whole number as a value. -/
def natVal (n : Nat) : Val := .fin (Q.ofNat n)

/-- A reading in 1/16 degree as a value. -/
def degVal (r : Int) : Val := .fin (Q.norm r 16)

/-- A temperature in the form of the registers: 1/16 degree, signed, nearest (R55, R58, R458). -/
def degField (v : Val) : Nat := encodeInt 16 (-32768) (v.mul (natVal 16)) .rna

/-- Node number of layer, column and third (R445). -/
def nodeOf (l k j : Nat) : Nat := 120 * l + 3 * k + j

/-- The node that a diode lies in (R434). -/
def nodeOfDiode (d : Nat) : Nat :=
  if d < 320 then
    let e := d / 4
    let j := [1, 0, 2, 1].getD (d % 4) 0
    nodeOf (if e < 40 then 1 else 3) (e % 40) j
  else if d < 400 then nodeOf 2 ((d - 320) / 2) (2 * (d % 2))
  else if d < 720 then nodeOf (4 + (d - 400) / 80) ((d - 400) % 80 / 2) (2 * (d % 2))
  else nodeOf 0 (d - 720 + 4) 1

/-- The nodeNeighbours of a node in the order of its record: j - 1, j + 1, x - 1, x + 1, below, above (R445, R484). A neighbour in y beyond the
column's edge is the nearest third of the next column (log entry 32). -/
def nodeNeighbours (n : Nat) : List (Option Nat) :=
  let l := n / 120
  let k := n % 120 / 3
  let j := n % 3
  let x := k % 8
  let y := k / 8
  [ if 0 < j then some (n - 1) else if 0 < y then some (nodeOf l (k - 8) 2) else none,
    if j < 2 then some (n + 1) else if y < 4 then some (nodeOf l (k + 8) 0) else none,
    if 0 < x then some (n - 3) else none,
    if x < 7 then some (n + 3) else none,
    if 0 < l then some (n - 120) else none,
    if l < 7 then some (n + 120) else none ]

/-- The coefficient words in force: the image's, or the fused default set (R445, R484). -/
def coefWord (coefs : List (BitVec 32)) (n i : Nat) : Val :=
  ofF32 (if coefs.isEmpty then Config.thermalDefault n i else coefs.getD (16 * n + i) 0#32).toNat

/-- The record of a node (R484). -/
structure NodeRec where
  c : Val
  gc : Val
  share : Val
  g : List Val
  w : List Val
  deriving DecidableEq, Repr

/-- Read a node's record. -/
def nodeRec (coefs : List (BitVec 32)) (n : Nat) : NodeRec :=
  let f (i : Nat) : Val := coefWord coefs n i
  ⟨f 0, f 1, f 2, (List.range 6).map fun i => f (3 + i), (List.range 6).map fun i => f (9 + i)⟩

/-- Power of a node in the round: coefficients in W per count per ms, over a round of 4 ms (R484). -/
def nodePower (r : NodeRec) (counts : List Nat) : Val :=
  (r.w.zipIdx).foldl (fun p q => f32Add p (f32Mul q.1 (f32Div (natVal (counts.getD q.2 0)) (natVal 4)))) Val.zero

/-- The integer fifth root, bit by bit. -/
def root5 (n : Nat) : Nat := (List.range (n.log2 / 5 + 2)).reverse.foldl (fun r i => if (r + 2 ^ i) ^ 5 ≤ n then r + 2 ^ i else r) 0

/-- x to the power 0.8, rounded once to FP32 (R446). -/
def pow08 (x : Val) : Val :=
  match x with
  | .fin q =>
    if q.isZero || q.isNeg then .zero
    else (Val.fin (Q.norm (root5 (q.num.natAbs ^ 4 * 2 ^ 1500 / q.den ^ 4)) (2 ^ 300))).f32
  | v => v

/-- Flow factor from the flow in L/min: 2.0 while it is unknown (R446). -/
def flowFactor (flow : Option Val) : Val := pow08 (f32Div (flow.getD (natVal 2)).f32 (.fin ⟨5, 2⟩))

/-- The step of 1 ms in seconds, as FP32. -/
def stepH : Val := (Val.fin ⟨1, 1000⟩).f32

/-- Heat that flows in from the nodeNeighbours. -/
def inflow (a : Array Val) (r : NodeRec) (n : Nat) (x : Val) : Val :=
  ((nodeNeighbours n).zip r.g).foldl (fun s q => match q.1 with
    | some m => f32Add s (f32Mul q.2 (f32Sub (a.getD m Val.zero) x))
    | none => s) Val.zero

/-- One node's next temperature (R446). -/
def nodeStep (a : Array Val) (r : NodeRec) (n : Nat) (p tc flowfac : Val) : Val :=
  let x := a.getD n Val.zero
  let sum := f32Add (f32Add p (inflow a r n x)) (f32Mul (f32Mul r.gc flowfac) (f32Sub tc x))
  f32Add x (f32Mul (f32Div stepH r.c) sum)

/-- What a round holds fixed for every step: records, powers, coolant temperatures at the nodes and the flow factor. -/
structure ModelIn where
  recs : List NodeRec
  powers : List Val
  tcs : List Val
  flowfac : Val
  deriving DecidableEq, Repr

/-- One step of every node (R446). -/
def modelStep (m : ModelIn) (x : List Val) : List Val :=
  let a := x.toArray
  ((m.recs.zip m.powers).zip m.tcs).zipIdx.map fun q => nodeStep a q.1.1.1 q.2 q.1.1.2 q.1.2 m.flowfac

/-- `n` steps. -/
def modelSteps (m : ModelIn) : Nat → List Val → List Val
  | 0, x => x
  | n + 1, x => modelSteps m n (modelStep m x)

/-- The inputs of a round: coefficients, counts by node, used inlet and outlet, and the flow (R446). -/
def modelIn (coefs : List (BitVec 32)) (counts : List (Nat × List Nat)) (inlet outlet : Val) (flow : Option Val) : ModelIn :=
  let recs := (List.range 960).map (nodeRec coefs)
  let rise := f32Sub outlet inlet
  { recs := recs
    powers := recs.zipIdx.map fun q => nodePower q.1 (((counts.find? fun c => c.1 == q.2).map Prod.snd).getD [])
    tcs := recs.map fun r => f32Add inlet (f32Mul r.share rise)
    flowfac := flowFactor flow }

/-- The mean of readings (R446). -/
def meanOf (l : List Val) : Val := f32Div (l.foldl f32Add Val.zero) (natVal l.length)

/-- A node corrected by the good diodes within 12 degrees of it (R446): `goods` are nodes with readings, in order of the diodes. -/
def correctNode (goods : List (Nat × Val)) (n : Nat) (t : Val) : Val :=
  let near := ((goods.filter fun q => q.1 == n && ((q.2.sub t).abs).le (natVal 12)).map Prod.snd)
  if near.isEmpty then t else f32Add t (f32Div (f32Sub (meanOf near) t) (natVal 2))

/-- A level from a control temperature, start and full in degrees (R448). -/
def levelOf (t : Val) (start full : Nat) : Nat :=
  if t.lt (natVal start) then 0
  else match t with
    | .fin q => min 7 (1 + ((((q.sub (Q.ofNat start)).mul (Q.ofNat 7)).div (Q.ofNat (full - start))).floor).toNat)
    | _ => 7

end Sys2Proof.Machine
end

