-- ==== Sys2Proof/Machine/Thermal.lean ====
section
/-! DEFINITION. The thermal controller: sensors, coolant, the round, levels, the step limit, the ceiling fallback and the limits (R260, R434-R453,
R458). -/
namespace Sys2Proof.Machine

/-- Change the thermal controller's data. -/
def State.setThermal (s : State) (f : Thermal → Thermal) : State := { s with thermal := f s.thermal }

/-! ## Sensors (R441-R444): diodes 0-751, thermistors 752-757 -/

/-- The counts of `THM_STATUS` follow the bits. -/
def State.countSensors (s : State) : State :=
  (s.put F.THM_STATUS.broken_n ((List.range 758).filter fun n => s.isBroken n).length).put F.THM_STATUS.suspect_n
    ((List.range 752).filter fun n => s.isSuspect n).length

/-- Mark a sensor. -/
def State.markBroken (s : State) (n : Nat) : State :=
  s.setReg R.THM_BROKEN (putBits (s.reg R.THM_BROKEN 0 (n / 64)) (n % 64) 1 1) 0 (n / 64)
def State.markSuspect (s : State) (n : Nat) : State :=
  s.setReg R.THM_SUSPECT (putBits (s.reg R.THM_SUSPECT 0 (n / 64)) (n % 64) 1 1) 0 (n / 64)

/-- The register field that shows a sensor's reading. -/
def readingOf (s : State) (n : Nat) : Nat :=
  if n < 752 then s.get (F.THM_DIODE.reading (n % 4)) 0 (n / 4)
  else if n < 756 then s.get (F.THM_EXT0.th (n - 752)) else s.get (F.THM_EXT1.th (n - 756))
def State.showReading (s : State) (n v : Nat) : State :=
  if n < 752 then s.put (F.THM_DIODE.reading (n % 4)) v 0 (n / 4)
  else if n < 756 then s.put (F.THM_EXT0.th (n - 752)) v else s.put (F.THM_EXT1.th (n - 756)) v

/-- The reading of a sensor in a round, none where it failed its ideality check (R442): one that the round does not list reads as in the round
before. -/
def State.roundReading (s : State) (r : AdcRound) (n : Nat) : Option Int :=
  match (if n < 752 then r.diodes.find? fun q => q.1 == n else (r.therms.find? fun q => q.1 + 752 == n)) with
  | some q => q.2
  | none => if readingOf s n = 0x8000 then none else some (toSigned 16 (readingOf s n))

/-- A reading that is valid: within -40 and 150 degrees (R442). -/
def validReading (v : Option Int) : Option Int := v.filter fun x => decide (-640 ≤ x) && decide (x ≤ 2400)

/-- The number of a sensor in a report (R525). -/
def sensorNo (n : Nat) : Nat := if n < 752 then n else 0x3F0 + (n - 752)

/-- The second invalid reading in a row breaks a sensor (R442). -/
def State.judgeValid (s : State) (n : Nat) (v : Option Int) : State :=
  if s.isBroken n then s
  else
    let c := Tbl.get (fun _ => 0) s.thermal.invalid n + 1
    match validReading v with
    | some _ => s.setThermal fun t => { t with invalid := Tbl.set (fun _ => 0) t.invalid n 0 }
    | none =>
      let s := s.setThermal fun t => { t with invalid := Tbl.set (fun _ => 0) t.invalid n (if c = 2 then 0 else c) }
      if c = 2 then (s.markBroken n).logEvent 0x0701 0x03 0 1 (sensorNo n) else s

/-- The third reading in a row that lies below P by more than 12 degrees makes a diode suspect (R443). A round in which it is broken, or has no reading,
ends the row. -/
def State.judgeLow (s : State) (n : Nat) (v : Option Int) (p : Val) : State :=
  let none_ := s.setThermal fun t => { t with low := Tbl.set (fun _ => 0) t.low n 0 }
  if s.isBroken n then none_
  else if s.isSuspect n then s
  else match v with
    | none => none_
    | some x =>
      if (degVal x).lt (p.sub (natVal 12)) then
        let c := Tbl.get (fun _ => 0) s.thermal.low n + 1
        let s := s.setThermal fun t => { t with low := Tbl.set (fun _ => 0) t.low n (if c = 3 then 0 else c) }
        if c = 3 then (s.markSuspect n).logEvent 0x0702 0x03 0 1 (n + ofSigned 16 x * 2 ^ 16 + degField p * 2 ^ 32) else s
      else none_

/-- Throttle start of a diode's layer, in degrees (R441, R448). -/
def State.startOf (s : State) (d : Nat) : Nat :=
  if d < 320 then s.get F.THM_LIM_COMP.start else if d < 400 then s.get F.THM_LIM_OTHER.plaza_start
  else if d < 720 then s.get F.THM_LIM_MEM.start else s.get F.THM_LIM_OTHER.floor_start

/-- What the block uses of a good sensor whose ideality check failed, which has no reading: a free value (R441). -/
def State.badUse (s : State) (n : Nat) : Val := ofF32 (Config.badReading s.drawn n).toNat

/-- The value used of a diode, with P (R441). -/
def State.usedDiode (s : State) (d : Nat) (v : Option Int) (p : Val) : Val :=
  if s.isBroken d then (p.add (natVal 12)).max (natVal (s.startOf d))
  else if s.isSuspect d then p
  else match v with
    | some x => degVal x
    | none => s.badUse d

/-- The values used of the inlet and the outlet (R441). -/
def State.usedInlet (s : State) (v : Option Int) : Val :=
  if s.isBroken 752 then natVal 40 else match v with
    | some x => degVal x
    | none => s.badUse 752
def State.usedOutlet (s : State) (v : Option Int) (inlet : Val) : Val :=
  if s.isBroken 753 then inlet.add (natVal 25) else match v with
    | some x => degVal x
    | none => s.badUse 753

/-! ## Flow and coolant (R437, R440) -/

/-- The flow in L/min; none while it is unknown (R437). -/
def State.flow (s : State) : Option Q :=
  let k := s.get F.THM_COOL_CFG.k
  match s.thermal.edges with
  | a :: b :: _ =>
    if k = 0 ∨ s.pinFaulted 0 then none
    else if s.thermal.flowStopped then some Q.zero
    else some ((Q.ofNat 60000000).div (Q.ofNat (k * (a - b))))
  | _ => none

/-- FLOW_EDGE (R437): a filtered rising edge, timed to 1 µs. -/
def execFlowEdge (s : State) : Out :=
  if s.pinFaulted 0 then .next s
  else .next (s.setThermal fun t => { t with edges := (s.btime / 1000 :: t.edges).take 2, flowStopped := false })

/-- FLOW_TIMEOUT (R437): 1 s has passed without an edge. -/
def execFlowTimeout (s : State) : Out := .next (s.setThermal fun t => { t with flowStopped := true })

/-- An alarm that has held for three rounds is set, and logged once per setting (R440). -/
def State.alarm (s : State) (f : Field) (rounds bit : Nat) : State :=
  if 3 ≤ rounds ∧ s.on f = false then (s.put f 1).logEvent 0x0703 0x03 0 1 (2 ^ bit) else s

/-- The coolant alarms and what `THM_COOLANT` shows (R437, R440, R458). -/
def State.coolant (s : State) (inlet outlet : Val) : State :=
  let hotIn := inlet.lt (natVal 20) || (natVal 40).lt inlet
  let hotOut := (inlet.add (natVal 25)).lt outlet
  let slow := match s.flow with
    | some q => q.lt (Q.ofNat 2)
    | none => false
  let next (b : Bool) (n : Nat) : Nat := if b then min 3 (n + 1) else 0
  let s := s.setThermal fun t =>
    { t with inletRounds := next hotIn t.inletRounds, outletRounds := next hotOut t.outletRounds, flowRounds := next slow t.flowRounds }
  let s := ((s.alarm F.THM_STATUS.inlet_alarm s.thermal.inletRounds 0).alarm F.THM_STATUS.outlet_alarm s.thermal.outletRounds 1).alarm
    F.THM_STATUS.flow_low s.thermal.flowRounds 2
  let s := (s.put F.THM_COOLANT.inlet (degField inlet)).put F.THM_COOLANT.outlet (degField outlet)
  match s.flow with
  | some q => (s.put F.THM_STATUS.flow_unknown 0).put F.THM_COOLANT.flow (min 0xFFFE ((q.mul (Q.ofNat 100)).roundUnits .rna))
  | none => (s.put F.THM_STATUS.flow_unknown 1).put F.THM_COOLANT.flow 0xFFFF

/-! ## The round (R446, R447) -/

/-- What a round computes: P by node, the forecast by node, and the used values of the diodes. -/
structure Round where
  p : List Val
  f : List Val
  used : List Val
  deriving DecidableEq, Repr

/-- The largest of a list of values. -/
def maxVal : List Val → Val
  | [] => .inf true
  | v :: vs => vs.foldl Val.max v

/-- Used values of diodes `a .. a + n - 1`, and forecasts of nodes `a .. a + n - 1`. -/
def Round.diodes (r : Round) (a n : Nat) : List Val := (r.used.drop a).take n
def Round.nodes (r : Round) (a n : Nat) : List Val := (r.f.drop a).take n

/-- The control temperatures (R447). -/
def Round.engine (r : Round) (e : Nat) : Val :=
  maxVal (r.diodes (4 * e) 4 ++ r.nodes (nodeOf (if e < 40 then 1 else 3) (e % 40) 0) 3)
def Round.plaza (r : Round) (k : Nat) : Val := maxVal (r.diodes (320 + 2 * k) 2 ++ r.nodes (nodeOf 2 k 0) 3)
def Round.memory (r : Round) (k : Nat) : Val :=
  maxVal ((List.range 4).flatMap fun m => r.diodes (400 + 80 * m + 2 * k) 2 ++ r.nodes (nodeOf (4 + m) k 0) 3)
def Round.floor (r : Round) : Val := maxVal (r.diodes 720 32 ++ r.nodes 0 120)

/-- The model runs through the round (R446): the sensors have been judged for validity; `reads` are their readings. -/
def State.runModel (s : State) (reads : List (Option Int)) (counts : List (Nat × List Nat)) (inlet outlet : Val) : State × Round :=
  let m := modelIn s.thermal.coefs counts inlet.f32 outlet.f32 (s.flow.map Val.fin)
  let start := if s.thermal.nodes.isEmpty then List.replicate 960 inlet.f32 else s.thermal.nodes.map fun w => ofF32 w.toNat
  let p := modelSteps m 4 start
  let pa := p.toArray
  let at_ (d : Nat) : Val := pa.getD (nodeOfDiode d) Val.zero
  let ds := (reads.take 752).zipIdx
  let s := ds.foldl (fun s q => s.judgeLow q.2 q.1 (at_ q.2)) s
  let goods := ds.filterMap fun q => match q.1 with
    | some x => if s.isBroken q.2 || s.isSuspect q.2 then none else some (nodeOfDiode q.2, degVal x)
    | none => none
  let t := p.zipIdx.map fun q => correctNode goods q.2 q.1
  let f := modelSteps m 10 t
  (s.setThermal fun x => { x with nodes := t.map fun v => BitVec.ofNat 32 (toF32 v) }, ⟨p, f, ds.map fun q => s.usedDiode q.2 q.1 (at_ q.2)⟩)

/-- The readings, where they are valid, and the forecast are published together (R435, R446, R458). -/
def State.publish (s : State) (reads : List (Option Int)) (r : Round) : State :=
  let s := reads.zipIdx.foldl (fun s q => s.showReading q.2 (match validReading q.1 with
    | some x => if s.isBroken q.2 then 0x8000 else ofSigned 16 x
    | none => 0x8000)) s
  r.f.zipIdx.foldl (fun s q => s.put (F.THM_NODE.forecast (q.2 % 4)) (degField q.1) 0 (q.2 / 4)) s

/-- The refresh rate of a column's layer (R260, R444): fast above 85 degrees or with a broken or suspect diode, normal at 82 degrees or below. -/
def State.refreshRate (s : State) (reads : List (Option Int)) (k m : Nat) : State :=
  let d := 400 + 80 * m + 2 * k
  let vs := (reads.drop d).take 2
  let bad := [d, d + 1].any fun n => s.isBroken n || s.isSuspect n
  let above := vs.any fun v => v.any fun x => decide (1360 < x)
  let low := vs.all fun v => v.any fun x => decide (x ≤ 1312)
  let set (b : Nat) : State := [k, k + 40].foldl (fun s e => s.put F.LND_STATUS.fast_ref (putBits (s.get F.LND_STATUS.fast_ref e) m 1 b) e) s
  if bad || above then set 1 else if low then set 0 else s

/-! ## Levels and limits (R448-R452) -/

/-- The levels of a round (R448). -/
def State.compLevel (s : State) (v : Val) : Nat := levelOf v (s.get F.THM_LIM_COMP.start) (s.get F.THM_LIM_COMP.full)
def State.plazaLevel (s : State) (v : Val) : Nat := levelOf v (s.get F.THM_LIM_OTHER.plaza_start) (s.get F.THM_LIM_OTHER.plaza_full)
def State.memLevel (s : State) (v : Val) : Nat := levelOf v (s.get F.THM_LIM_MEM.start) (s.get F.THM_LIM_MEM.full)
def State.floorLevel (s : State) (v : Val) : Nat := levelOf v (s.get F.THM_LIM_OTHER.floor_start) (s.get F.THM_LIM_OTHER.floor_full)

/-- The applied thermal level of an engine, and setting it (R458). -/
def State.thermalLevel (s : State) (e : Nat) : Nat := s.get (F.THM_LEVEL.level (e % 16)) 0 (e / 16)
def State.setThermalLevel (s : State) (e v : Nat) : State := s.put (F.THM_LEVEL.level (e % 16)) v 0 (e / 16)

/-- The applied level rises to its target at once and falls by one a round (R449). -/
def nextLevel (old target : Nat) : Nat := if old ≤ target then target else old - 1

/-- The target level of an engine (R449). -/
def State.targetLevel (s : State) (r : Round) (e : Nat) : Nat :=
  max (s.compLevel (r.engine e)) (max (s.plazaLevel (r.plaza (e % 40))) (s.memLevel (r.memory (e % 40))))

/-- The levels are applied, and a column's memory level is kept for its broadcast ports (R449). -/
def State.applyLevels (s : State) (r : Round) : State :=
  let s := (List.range 80).foldl (fun s e => s.setThermalLevel e (nextLevel (s.thermalLevel e) (s.targetLevel r e))) s
  let s := s.setThermal fun t => { t with memLevels := Vector.ofFn fun k => s.memLevel (r.memory k.val) }
  s.put F.THM_STATUS.max_level (((List.range 80).map s.thermalLevel).foldl max 0)

/-- The step limit follows (R451). -/
def State.stepLimit (s : State) (floorLevel : Nat) : State :=
  let many := decide (20 ≤ ((List.range 80).filter fun e => decide (5 ≤ s.thermalLevel e)).length)
  let calm := floorLevel == 0 && (List.range 80).all fun e => decide (s.thermalLevel e ≤ 2)
  let t := s.thermal
  let hot := if many then min 4 (t.hot + 1) else 0
  let hotFloor := if 1 ≤ floorLevel then min 4 (t.hotFloor + 1) else 0
  let since := min 4 (t.sinceLow + 1)
  let cool := if calm then t.cool + 1 else 0
  let limit := s.get F.THM_STEP.limit
  if (hot = 4 ∨ hotFloor = 4) ∧ since = 4 ∧ limit < 7 then
    ((s.setThermal fun t => { t with hot := hot, hotFloor := hotFloor, sinceLow := 0, cool := cool }).put F.THM_STEP.limit (limit + 1)).count
      F.THM_STEP.lowerings 1 |>.logEvent 0x0704 0x03 0 1 (limit + 1)
  else if cool = 64 then
    (s.setThermal fun t => { t with hot := hot, hotFloor := hotFloor, sinceLow := since, cool := 0 }).put F.THM_STEP.limit (limit - 1)
  else s.setThermal fun t => { t with hot := hot, hotFloor := hotFloor, sinceLow := since, cool := cool }

/-- The fallback of one region (R452): its level, its control temperature, its start. -/
def State.fallbackOne (s : State) (r : RegionId) (level : Nat) (t : Val) (start : Nat) : State :=
  let x := vget s.thermal.fallback r
  let sevens := if level = 7 then min 3 (x.sevens + 1) else 0
  let rising := match x.temps with
    | _ :: two :: _ => two.lt t
    | _ => false
  let below := if t.lt (natVal start) then x.below + 1 else 0
  let i := instOf r
  let cut := s.get F.PWR_RG_CEIL.thermal i
  let s := s.setThermal fun y => { y with fallback := vset y.fallback r ⟨(t :: x.temps).take 2, sevens, if below = 8 then 4 else below⟩ }
  if sevens = 3 ∧ rising = true then
    let s := s.put F.PWR_RG_CEIL.thermal (min 12 (cut + 1)) i
    if cut = 0 then s.logEvent 0x0705 0x03 0 1 i else s
  else if (below = 4 ∨ below = 8) ∧ 0 < cut then s.put F.PWR_RG_CEIL.thermal (cut - 1) i
  else s

/-- The fallback of every region (R452), and what shows it. -/
def State.fallbacks (s : State) (r : Round) : State :=
  let s := (List.finRange 80).foldl (fun s e =>
    s.fallbackOne (regionOf e) (s.thermalLevel e.val) (r.engine e.val) (s.get F.THM_LIM_COMP.start)) s
  let s := (List.finRange 40).foldl (fun s k =>
    s.fallbackOne (regionOfSq k) (s.plazaLevel (r.plaza k.val)) (r.plaza k.val) (s.get F.THM_LIM_OTHER.plaza_start)) s
  let s := (List.range 80).foldl (fun s e =>
    s.put (F.THM_LEVEL.fb (e % 16)) (b2n (s.get F.PWR_RG_CEIL.thermal (e + 1) != 0)) 0 (e / 16)) s
  s.put F.THM_STATUS.fallback (b2n ((List.range 120).any fun r => s.get F.PWR_RG_CEIL.thermal (r + 1) != 0))

/-- What follows the model in a round (R260, R440, R447-R452). -/
def State.actOn (s : State) (reads : List (Option Int)) (r : Round) (inlet outlet : Val) : State :=
  let s := ((s.publish reads r).coolant inlet outlet).countSensors
  let s := (List.range 40).foldl (fun s k => (List.range 4).foldl (fun s m => s.refreshRate reads k m) s) s
  (((s.applyLevels r).stepLimit (s.floorLevel r.floor)).fallbacks r).draw

/-- The round of a set of readings. -/
def State.thermalRound (s : State) (reads : List (Option Int)) (counts : List (Nat × List Nat)) : State :=
  let inlet := s.usedInlet (reads.getD 752 none)
  let outlet := s.usedOutlet (reads.getD 753 none) inlet
  let q := s.runModel reads counts inlet outlet
  q.1.actOn reads q.2 inlet outlet

/-- ADC_ROUND_END (R435, R440-R452). -/
def execAdcRoundEnd (r : AdcRound) (s : State) : Out :=
  let reads := (List.range 758).map (s.roundReading r)
  let s := reads.zipIdx.foldl (fun s q => s.judgeValid q.2 q.1) s
  .next (((s.bump F.THM_STATUS.rounds).put F.THM_STATUS.adc_fail 0).thermalRound reads r.counts)

/-- ADC_FAIL (R442): no round has completed for 8 ms. Every sensor is broken, and the model goes on without corrections; `counts` are the activity
counts of the time since the last update. -/
def execAdcFail (counts : List (Nat × List Nat)) (s : State) : Out :=
  let s := (List.range 758).foldl State.markBroken s
  .next ((s.put F.THM_STATUS.adc_fail 1).thermalRound (List.replicate 758 none) counts)

/-! ## Writes (R442, R443, R448) -/

/-- A pair of limits in degrees: a value above the reset value stores that, and a start at or above its full is ignored with the full. -/
def State.limPair (s : State) (start full : Field) (v : Nat) : State :=
  let a := min (getBits v start.lo start.w) (getBits start.reg.reset start.lo start.w)
  let b := min (getBits v full.lo full.w) (getBits full.reg.reset full.lo full.w)
  if a < b then (s.put start a).put full b else s.put F.THM_STATUS.bad_cfg 1

/-- A write of `THM_LIM_COMP`, `THM_LIM_MEM` or `THM_LIM_OTHER` (R448). -/
def State.writeLim (s : State) (which v : Nat) : State :=
  if which = 0 then s.limPair F.THM_LIM_COMP.start F.THM_LIM_COMP.full v
  else if which = 1 then s.limPair F.THM_LIM_MEM.start F.THM_LIM_MEM.full v
  else (s.limPair F.THM_LIM_OTHER.plaza_start F.THM_LIM_OTHER.plaza_full v).limPair F.THM_LIM_OTHER.floor_start F.THM_LIM_OTHER.floor_full v

/-- THM_LIM_WRITE (R448). -/
def execThmLimWrite (which : Fin 3) (v : Word) (s : State) : Out := .next (s.writeLim which.val v.toNat)

/-- A write of `THM_SUSPECT`: the three-round rule starts afresh (R443). -/
def State.writeSuspect (s : State) (i v : Nat) : State :=
  let s := s.swWrite R.THM_SUSPECT v 0 i false
  (s.setThermal fun t => { t with low := t.low.filter fun q => !(q.1 / 64 == i && nbit v (q.1 % 64)) }).countSensors

/-- THM_SUSPECT_CLEAR (R443). -/
def execThmSuspectClear (i : Fin 12) (v : Word) (s : State) : Out := .next (s.writeSuspect i.val v.toNat)

/-- A write of `THM_BROKEN`: the state of a sensor is decided again from the next round (R442). -/
def State.writeBroken (s : State) (i v : Nat) : State :=
  let s := s.swWrite R.THM_BROKEN v 0 i false
  (s.setThermal fun t => { t with invalid := t.invalid.filter fun q => !(q.1 / 64 == i && nbit v (q.1 % 64)) }).countSensors

/-- THM_BROKEN_CLEAR (R442). -/
def execThmBrokenClear (i : Fin 12) (v : Word) (s : State) : Out := .next (s.writeBroken i.val v.toNat)

/-- THM_STEP_READ (R14). -/
def execThmStepRead (s : State) : Out := .next (s.swRead R.THM_STEP 0 0).1

end Sys2Proof.Machine
end

