-- ==== Sys2Proof/Machine/Access.lean ====
section
/-! DEFINITION. Control space: what a write of each register does, what a read gives, and the accesses of a control core (R11-R15, R31-R38,
R561). -/
namespace Sys2Proof.Machine

/-- A number as one of `n`. -/
def fin? (n x : Nat) : Option (Fin n) := if h : x < n then some ⟨x, h⟩ else none

/-- Act on a unit that a number names. -/
def State.onFin (s : State) {n : Nat} (x : Nat) (f : Fin n → State) : State :=
  match fin? n x with
  | some i => f i
  | none => s

/-- Bits of `AON_ENG_RST0` or `AON_ENG_RST1` change: an engine whose bit is set enters reset; one whose bit is cleared leaves it when its crossings
are recalibrated, ENGINE_RESET_RELEASE (R474, R476; log entry 45). -/
def State.writeEngRst (s : State) (r : Reg) (base v : Nat) : State :=
  let s := s.swWrite r v 0 0 false
  (List.finRange 80).foldl (fun s e =>
    if base ≤ e.val ∧ e.val < base + 64 ∧ nbit v (e.val - base) = true ∧ (s.eng e).inReset = false then s.engineReset e else s) s

/-- A write of `AON_RESET` (R474, R497): a layer's bit holds its engines in reset, and block resets the whole block. -/
def State.writeAonReset (s : State) (v : Nat) : State :=
  let s := s.swFields R.AON_RESET v 0
  let s := if nbit v 0 then (layerEngines false).foldl (fun s e => if (s.eng e).inReset then s else s.engineReset e) s else s
  let s := if nbit v 1 then (layerEngines true).foldl (fun s e => if (s.eng e).inReset then s else s.engineReset e) s else s
  if nbit v 3 then s.wholeReset 2 else s

/-- Writes of class 0x00. -/
def State.writeAon (s : State) (r : Reg) (v idx : Nat) : State :=
  if r = R.AON_BLOCK_ID then s.writeBlockId v
  else if r = R.AON_BOOT then s.writeBoot v
  else if r = R.AON_RESET then s.writeAonReset v
  else if r = R.AON_ENG_RST0 then s.writeEngRst r 0 v
  else if r = R.AON_ENG_RST1 then s.writeEngRst r 64 v
  else if r = R.AON_WDOG then s.writeWdog v
  else if r = R.AON_MEMO then s.writeMemo v
  else if r = R.AON_LEDGER then s.writeLedger v
  else s.swWrite r v 0 idx false

/-- Writes of class 0x02 (R431, R432). -/
def State.writePwr (s : State) (r : Reg) (v inst idx : Nat) : State :=
  if r = R.PWR_CTL then s.writePwrCtl v
  else if r = R.PWR_CAP then s.writeCap v
  else if r = R.PWR_HINT then s.writePwrHint v
  else if r = R.PWR_PMB then s.writePmb v
  else if r = R.PWR_RG_CTL then s.onFin (inst - 1) fun q => s.writeRgCtl q v
  else if r = R.PWR_RG_CEIL then s.onFin (inst - 1) fun q => s.writeRgCeil q v
  else s.swWrite r v inst idx false

/-- Writes of class 0x03 (R458). -/
def State.writeThm (s : State) (r : Reg) (v idx : Nat) : State :=
  if r = R.THM_LIM_COMP then s.writeLim 0 v
  else if r = R.THM_LIM_MEM then s.writeLim 1 v
  else if r = R.THM_LIM_OTHER then s.writeLim 2 v
  else if r = R.THM_SUSPECT then s.writeSuspect idx v
  else if r = R.THM_BROKEN then s.writeBroken idx v
  else s.swWrite r v 0 idx false

/-- Writes of class 0x04 (R473). -/
def State.writeClk (s : State) (r : Reg) (v inst idx : Nat) : State :=
  if r = R.CLK_STEP then s.writeStepReq v
  else if r = R.CLK_BTIME_ADJ then s.writeAdj v
  else if r = R.CLK_PLL then s.onFin (inst - 1) fun e => s.writePll e v
  else s.swWrite r v inst idx false

/-- Writes of class 0x05 (R539). -/
def State.writeElog (s : State) (r : Reg) (v idx : Nat) : State :=
  if r = R.ELOG_CTL then
    let s := s.swFields r v 0
    if nbit v 0 then s.closeAll else s
  else if r = R.ELOG_STATUS then s.writeElogStatus v
  else s.swWrite r v 0 idx false

/-- Writes of class 0x12 (R336-R338): a staged weight of 0 stores 1. -/
def State.writeAv (s : State) (r : Reg) (v inst idx : Nat) : State :=
  if r = R.AV_MODE_NEXT then s.put F.AV_MODE_NEXT.floor_weight (max 1 (nbits v 3 0)) inst
  else if r = R.AV_BAR_CFG then s.onFin idx fun b => s.writeBarCfg b v
  else if r = R.AV_FLAG_SET then s.setFlags idx v true
  else if r = R.AV_FLAG_CLR then s.setFlags idx v false
  else if r = R.AV_EPOCH_COMMIT then s.writeCommit v
  else s.swWrite r v inst idx false

/-- Writes of class 0x20 (R351, R370, R373, R375): reserved parents are ignored. -/
def State.writePl (s : State) (r : Reg) (v inst idx : Nat) : State :=
  if r = R.PL_CTL then s.onFin inst fun p => s.writePlCtl p v
  else if r = R.PL_TWIN_WIN then s.writeTwinWin v
  else if r = R.PL_TIME then (if 8 ≤ nbits v 3 0 ∧ nbits v 3 0 ≤ 13 then s else s.put F.PL_TIME.parent (nbits v 3 0))
  else s.swWrite r v inst idx (s.on F.AON_BLOCK_ID.lock)

/-- Writes of class 0x22 (R380-R382, R402-R404). -/
def State.writeFr (s : State) (r : Reg) (v inst idx : Nat) : State :=
  s.onFin inst fun p =>
    if r = R.FR_CTL then s.writeFrCtl p v
    else if r = R.FR_RXRING then s.writeRing r F.FR_RXRING.size p v
    else if r = R.FR_TXRING then s.writeRing r F.FR_TXRING.size p v
    else if r = R.FR_RXPTR then s.writeRxPtr p v
    else if r = R.FR_TXPTR then s.writeTxPtr p v
    else if r = R.FR_TXCAP then s.writeTxcap p v
    else s.swWrite r v inst idx false

/-- Writes of the classes of engines, squares, landings and BAU ports (R145-R149, R277, R279, R311). -/
def State.writeColumnUnit (s : State) (r : Reg) (v inst idx : Nat) : State :=
  if r = R.ENG_CTL then s.onFin inst fun e => s.writeEngCtl e v
  else if r = R.ENG_PGCMD then s.onFin inst fun e => s.writePgcmd e v
  else if r = R.SQ_CTL then s.onFin inst fun k => s.writeSqCtl k v
  else if r = R.SQ_FLUSH then s.onFin inst fun k => s.writeSqFlush k v
  else if r = R.LND_SCRUB then s.onFin inst fun e => s.writeScrub e v
  else if r = R.BAU_MODE_NEXT then
    let s := if nbits v 1 0 < 2 then s.put F.BAU_MODE_NEXT.wave_mode (nbits v 1 0) inst else s
    s.put F.BAU_MODE_NEXT.stagger (max 1 (nbits v 9 4)) inst
  else s.swWrite r v inst idx false

/-- A write of a register (R14, R15, R561). -/
def State.writeReg (s : State) (r : Reg) (inst idx v : Nat) : State :=
  match r.cls with
  | 0x00 => s.writeAon r v idx
  | 0x01 => if r = R.SEC_CMD then s.writeSecCmd v else s.swWrite r v inst idx false
  | 0x02 => s.writePwr r v inst idx
  | 0x03 => s.writeThm r v idx
  | 0x04 => s.writeClk r v inst idx
  | 0x05 => s.writeElog r v idx
  | 0x06 =>
    if r = R.GAUGE_CFG then s.onFin inst fun g => s.writeGaugeCfg g v
    else if r = R.GAUGE_PERIOD then s.onFin inst fun g => s.writeGaugePeriod g v
    else s.swWrite r v inst idx false
  | 0x12 => s.writeAv r v inst idx
  | 0x20 => s.writePl r v inst idx
  | 0x21 => if r = R.TOLL_RATE then s.onFin inst fun p => s.writeTollRate p v else s.swWrite r v inst idx false
  | 0x22 => s.writeFr r v inst idx
  | 0x30 => if r = R.PIN_FAULT then s.writePinFault v else if r = R.PIN_GPIO then s.writePinGpio v else s.swWrite r v inst idx false
  | _ => s.writeColumnUnit r v inst idx

/-- The routing registers exist at PL0, PL2 and PL4 (R374). -/
def regHere (r : Reg) (inst : Nat) : Bool := !(r == R.PL_ROUTE || r == R.PL_ROUTE_NEXT) || inst == 0 || inst == 2 || inst == 4

/-- The register at an offset that its instance assigns. -/
def assigned (off : Nat) : Option (Reg × Nat × Nat) := (regAt off).filter fun q => regHere q.1 q.2.1

/-- The largest instance of a unit class; none where the class does not exist (R36). -/
def lastInstance (cls : Nat) : Option Nat :=
  match cls with
  | 0x00 => some 0 | 0x01 => some 0 | 0x02 => some 122 | 0x03 => some 0 | 0x04 => some 80 | 0x05 => some 0 | 0x06 => some 63
  | 0x10 => some 79 | 0x11 => some 39 | 0x12 => some 39 | 0x13 => some 79 | 0x14 => some 79
  | 0x20 => some 7 | 0x21 => some 7 | 0x22 => some 1 | 0x30 => some 0
  | _ => none

/-- Whether the unit at a control-space offset exists. -/
def unitExists (off : Nat) : Bool :=
  match lastInstance (off / 0x1000000) with
  | some n => decide (off / 0x1000 % 0x1000 ≤ n)
  | none => false

/-- The code of an access to the unit at an offset (R12, R35, R38): every unit is in reset during a whole-block reset. -/
def State.unitCode (s : State) (off : Nat) : Code :=
  let inst := off / 0x1000 % 0x1000
  if unitExists off = false then .unmapped
  else if s.get F.AON_STATUS.stage = 0 then .targetReset
  else match off / 0x1000000, engineOf? inst with
    | 0x10, some e => if (s.eng e).mappedOut then .unmapped else if (s.eng e).inReset then .targetReset else .ok
    | 0x13, some e => if nbit (s.get F.PWR_VM_STATE.dark 121) (columnOf e).val then .unmapped else .ok
    | _, _ => .ok

/-- A write at a control-space offset: unassigned offsets ignore it (R12). -/
def State.writeControl (s : State) (off v : Nat) : State :=
  match assigned off with
  | some (r, inst, idx) => s.writeReg r inst idx v
  | none => s

/-- A read at a control-space offset: RC fields clear, `PWR_RG_VMIN` holds its stamp, `CLK_BTIME` is block time (R12, R14, R421, R470). -/
def State.readControl (s : State) (off : Nat) : State × Nat :=
  match assigned off with
  | some (r, inst, idx) =>
    if r = R.CLK_BTIME then (s, s.btime)
    else if r = R.PWR_RG_VMIN then (s.onFin (inst - 1) fun q => s.readVmin q, s.reg r inst idx)
    else s.swRead r inst idx
  | none => (s, 0)

/-- REGISTER_WRITE (R13-R15, R561): a write that reaches a unit in reset, or one that does not exist, has no effect. -/
def execRegisterWrite (offset : BitVec 32) (v : Word) (s : State) : Out :=
  .next (if s.unitCode offset.toNat = .ok ∧ offset.toNat % 8 = 0 then s.writeControl offset.toNat v.toNat else s)

/-- An access of a core to control space: one register, whole and aligned, which is judged before the unit (R11, R12, R33, R521). -/
def State.controlAccess (s : State) (c : CoreId) (id off : Nat) (op : MemOp) : State :=
  let done (s : State) (code : Code) (data : List Byte) : State := s.complete (.core c) id code 0 data
  if off % 8 ≠ 0 ∨ op.size ≠ 8 then done s .accessDenied []
  else if s.unitCode off ≠ .ok then done s (s.unitCode off) []
  else match op with
    | .read _ => let q := s.readControl off; done q.1 .ok (leBytes 8 q.2)
    | .write b => done (s.writeControl off (leNat b)) .ok []

/-- An access of a core to the Floor SRAM of the cores' private space (R380, R510, R521, R528): the log's ring and the log of measurements are read-only,
a parity error completes a read with DATA_ERR, and an address without SRAM with UNMAPPED. -/
def State.ownAccess (s : State) (c : CoreId) (id a : Nat) (op : MemOp) (parity : Bool) : State :=
  let done (s : State) (code : Code) (data : List Byte) : State := s.complete (.core c) id code 0 data
  if inSram a op.size = false then done s .unmapped []
  else match op with
    | .read n => if parity then done s .dataErr [] else done s .ok (s.readSram a n)
    | .write b => if sramReadOnly a b.length then done s .accessDenied [] else done (s.writeSram a b) .ok []

/-- CONTROL_CORE_ACCESS (R11-R15, R28-R38, R333, R380): an access to the cores' private space acts at once; one that leaves the block goes out on the
links; one to a memory reaches the router of its unit, or is held while a region wakes; one to control space acts at once. A core whose test failed runs
nothing (R491). -/
def execControlCoreAccess (c : CoreId) (sp : CoreSpace) (addr : Word) (op : MemOp) (s : State) : Out :=
  need (!vget s.boot.coresOff c && decide (1 ≤ op.size)) "the core is disabled, or names no byte" <|
  let id := s.net.nextAccess
  let t := { s with net := { s.net with nextAccess := id + 1 } }
  match sp with
  | .own parity => .next (t.ownAccess c id addr.toNat op parity)
  | .global =>
    if !s.isLocal addr.toNat then execPacketOriginate (.core c) addr op none s
    else match t.target addr.toNat op.size with
      | none => .next (t.complete (.core c) id .unmapped 0 [])
      | some (.control off) => .next (t.controlAccess c id off op)
      | some m =>
        if t.get F.AON_STATUS.stage = 0 then .next (t.complete (.core c) id .targetReset 0 [])
        else needSome (m.router.bind fun k => t.deliverRequest k ⟨.core c, id, addr, op, none⟩) "the access waits for its unit" .next

end Sys2Proof.Machine
end

