-- ==== Sys2Proof/Machine/Compute.lean ====
section
/-! DEFINITION. The computing instructions: matrix, vector, special-function, normalisation and attention (R75-R77, R79, R94-R97, R103, R125,
R126, R181-R208, R213, R222-R239, R246-R250). -/
namespace Sys2Proof.Machine

/-- The structure that a parity error is reported for (R105, R522). -/
def subUnit (op : Nat) (place : ParityPlace) : Nat :=
  match op / 16 with
  | 1 => if place = .sideStreet then 0x02 else 0x01
  | 2 => 0x04
  | 3 => 0x05
  | 4 => 0x06
  | _ => 0x07

/-- A parity error in the unit: the instruction faults, its values are discarded, and the log hears of it (R103, R105, R208, R250). -/
def State.unitParity (s : State) (e : EngineId) (x : Entry) (h : ParityHit) : State :=
  let y := match h.core with
    | some c => x.fail .dataErr c.val
    | none => x.fail .dataErr (noDetail .dataErr x.idx)
  let n := match h.core with
    | some c => c.val
    | none => 0x7F
  (s.setEntry e y).log 0x0102 0x10 e.val 2 .dataErr (x.idx % 16384 + n * 2 ^ 16) (subUnit (opOf x.word) h.place)

/-- What a unit's work yields: results and a capture, or what ends it. -/
abbrev Work := Except Stop (Writes × Option CapReq)

/-- Run an instruction of a unit: reads, then the parity error that it met, or its work. -/
def State.runUnit (s : State) (e : EngineId) (u : Unt) (op : Nat) (parity : Parity) (work : Entry → Work) : Out :=
  s.unitOp e u op fun x =>
  need (!s.awaitsReply x && !s.readsWait x x.ownReads) "an operand of another block has not returned, or a read waits at its unit" <|
  let s' := s.noteReads e x.ownReads
  match parity, s.readRefusal x x.ownReads with
  | some h, _ => .next (s'.unitParity e x h)
  | none, some ep => .next (s.setEntry e (x.fail .epochSkew ep))
  | none, none =>
    match work x with
    | .ok (w, cap) => .next (s'.setEntry e (x.result w cap))
    | .error (c, d) => .next (s'.setEntry e (x.failAt c d))

/-- A scalar taken from an S register as FP32; register 0 means absent (R114). -/
def Entry.f32 (x : Entry) (r : Nat) (absent : Val) : Val := if r = 0 then absent else ofF32 ((sGet x.sr r).toNat % 2 ^ 32)

/-- One row of values packed into its destination. -/
def Entry.store (x : Entry) (i : Nat) (md : Bool) (rows : List (List Val)) : Writes :=
  let d := x.desc i
  match d.fmt with
  | some f => writeTensor f (f.rnd md) d (x.scaleDesc d) rows
  | none => []

/-! ## Matrix instructions -/

/-- The parameters of the conversion stage (R64, R125). -/
def Entry.conv (x : Entry) : Conv :=
  let w := x.word
  let clip := (sGet x.sr (fld w 60 56)).toNat
  let one := Val.fin Q.one
  { sa := x.f32 (fld w 50 46) one, sb := x.f32 (fld w 55 51) one
    lo := if bitOf w 61 then some (ofF32 (clip % 2 ^ 32)) else none, hi := if bitOf w 62 then some (ofF32 (clip / 2 ^ 32)) else none }

/-- The bias values by column, or none without a bias. -/
def State.biasVals (s : State) (x : Entry) : Except Stop (Option (List Val)) :=
  if bitOf x.word 39 then
    match s.operand x (fld x.word 45 40) with
    | .ok t => .ok (some (t.vals.headD []))
    | .error e => .error e
  else .ok none

/-- The capture request of an instruction (R68, R215). -/
def Entry.capReq (x : Entry) (rows : List (List Val)) : Option CapReq :=
  if bitOf x.word 38 then
    let r := (sGet x.sr (fld x.word 67 63)).toNat
    some ⟨r / 128 * 128, r % 4, captureOf rows⟩
  else none

/-- The accumulators that a matrix product starts from (R77, R94): none for +0, or what refuses it. With no matrix instruction before it since reset,
the instruction before it is no OS instruction, and it is refused (DESIGN CHOICE, log entry 70). -/
def Engine.contStart (g : Engine) (x : Entry) : Except Code (List Acc1) :=
  if bitOf x.word 36 then
    match g.acc with
    | some a =>
      let h := x.matShape
      if a.os && a.batch == h.batch && a.m == h.m && a.n == h.n && a.int == h.int then (if a.ok then .ok g.accs else .error .cancelled)
      else .error .accessDenied
    | none => .error .accessDenied
  else .ok []

/-- The outlier operands of a product: indices, stream tile and stationary tile (R212, R213). -/
def State.outliers (s : State) (x : Entry) : Except Stop (Option (List Nat × List (List Val) × List (List Val))) :=
  let w := x.word
  if bitOf w 68 then
    let a := (sGet x.sr (fld w 85 81)).toNat
    let lst : Except Stop (List Byte) := match x.raw.head? with
      | some p => .ok p.2
      | none => match s.readSpan (.engine x.eng) a 264 with
        | (.ok, b) => .ok b
        | (c, _) => .error (c, blockOf a)
    match lst with
    | .error e => .error e
    | .ok b =>
      match outlierList b (x.desc (fld w 27 22)).n0 with
      | none => .error (.accessDenied, noDetail .accessDenied x.idx)
      | some l =>
        match s.operand x (fld w 74 69), s.operand x (fld w 80 75) with
        | .ok p, .ok q => .ok (some (l, p.vals, q.vals))
        | .error e, _ => .error e
        | _, .error e => .error e
  else .ok none

/-- The product as the array forms it, before the conversion stage: accumulators, and accumulators joined with the Side Street (R75-R77,
R95, R96). -/
def State.matProduct (s : State) (x : Entry) (init : List Acc1) (ol : Option (List Nat × List (List Val) × List (List Val))) :
    Except Stop (List Acc1 × List Val) :=
  let w := x.word
  let h := x.matShape
  let is := fld w 35 34 == 2
  match s.operand x (fld w 27 22) false 0, s.operand x (fld w 33 28) false 1 with
  | .ok a, .ok b =>
    let mi : MatIn := { m := h.m, n := h.n, k := (x.desc (fld w 27 22)).n0, batch := h.batch, bBatch := (x.desc (fld w 33 28)).n2
                        aF32 := a.fmt == .fp32, bF32 := b.fmt == .fp32, int := h.int, a := a.vals, b := b.vals
                        skip := match ol with
                          | some o => o.1
                          | none => [] }
    let accs := mi.accs init
    let joined := match ol with
      | none => accs.map Acc1.val
      | some (l, tol, tow) =>
        (List.range accs.length).map fun i =>
          let n := i % h.n
          let m := i / h.n % h.m
          let it := i / (h.n * h.m)
          facc ((accs.getD i (.f Val.zero)).val) (if is then sideSum tol tow (it * h.n + n) 0 m l.length else sideSum tol tow (it * h.m + m) 0 n l.length)
    .ok (accs, joined)
  | .error e, _ => .error e
  | _, .error e => .error e

/-- The converted values as rows of the destination (R65, R79, R125). -/
def Entry.matRows (x : Entry) (joined : List Val) (bias : Option (List Val)) : List (List Val) :=
  let w := x.word
  let h := x.matShape
  let is := fld w 35 34 == 2
  let nFirst := is == bitOf w 86
  let c := x.conv
  let out (it m n : Nat) : Val :=
    c.apply (joined.getD ((it * h.m + m) * h.n + n) Val.zero) (match bias with
      | some l => l.getD (if is then m else n) Val.zero
      | none => Val.zero)
  (List.range h.batch).flatMap fun it =>
    if nFirst then (List.range h.m).map fun m => (List.range h.n).map fun n => out it m n
    else (List.range h.n).map fun n => (List.range h.m).map fun m => out it m n

/-- What ends a matrix product before the array runs it: its instruction counts as faulted for a continuing one (R94, R103). -/
def State.matEnds (s : State) (e : EngineId) (x y : Entry) : State := (s.setEntry e y).arrayFails e x

/-- The stationary operand of an instruction, where it has been delivered (R80). -/
def Entry.stationary (x : Entry) : Option Tensor :=
  let w := x.word
  if opOf w = 0x10 ∧ fld w 35 34 ≠ 1 then (x.operands.find? fun p => p.1 == (if fld w 35 34 = 0 then fld w 33 28 else fld w 27 22)).map Prod.snd
  else none

/-- The registers of the array after a product (R80, R86, R93, R94): WS and IS swap their tile in and leave the accumulators at their last value, and
the next tile that has been delivered loads into the shadow registers; OS holds its sums, and its finished accumulators drain through them. -/
def Engine.arrayRan (g : Engine) (x : Entry) (t : Option Tensor) (accs : List Acc1) : Engine :=
  if fld x.word 35 34 = 1 then { g with acc := some (x.accState true), accs := accs, shadow := .drain accs }
  else
    let next := g.inflight.find? fun y => y.unit == .array && !y.done && y.id != x.id
    { g with
      acc := some (x.accState true)
      weights := t
      shadow := match next.bind fun y => y.stationary.map fun t => (y.id, t) with
        | some p => .tile p.1 p.2
        | none => .empty }

/-- The array's memory of its last instruction. -/
def State.setAcc (s : State) (e : EngineId) (a : Option AccState) : State := s.modEng e fun g => { g with acc := a }

/-- The stationary operand as a product reads it. -/
def State.tile (s : State) (x : Entry) : Option Tensor :=
  let i := if fld x.word 35 34 = 0 then fld x.word 33 28 else fld x.word 27 22
  match s.operand x i with
  | .ok t => some t
  | .error _ => none

/-- A matrix product with its operands at hand. A continuing one that the array refuses changes no accumulator (R94). -/
def State.matRun (s : State) (e : EngineId) (x : Entry) (parity : Parity) : State :=
  let s' := s.noteReads e x.ownReads
  match (s.eng e).contStart x with
  | .error c => s'.setEntry e (x.fail c (noDetail c x.idx))
  | .ok init =>
    match parity with
    | some h => (s'.unitParity e x h).arrayFails e x
    | none =>
      match s.outliers x with
      | .error (c, d) => s'.matEnds e x (x.failAt c d)
      | .ok ol =>
        match s.matProduct x init ol, s.biasVals x with
        | .ok (accs, joined), .ok bias =>
          let rows := x.matRows joined bias
          (s'.setEntry e (x.result (x.store (fld x.word 21 16) (bitOf x.word 37) rows) (x.capReq rows))).modEng e fun g =>
            g.arrayRan x (s.tile x) accs
        | .error (c, d), _ => s'.matEnds e x (x.failAt c d)
        | _, .error (c, d) => s'.matEnds e x (x.failAt c d)

/-- MAT_MUL (R125). -/
def execMatMul (e : EngineId) (parity : Parity) (s : State) : Out :=
  s.unitOp e .array 0x10 fun x =>
  need (!s.awaitsReply x && !s.readsWait x x.ownReads) "an operand of another block has not returned, or a read waits at its unit" <|
  .next (s.matRun e x parity)

/-- The work of MAT.CVT (R126). -/
def State.cvtWork (s : State) (x : Entry) : Work :=
  let w := x.word
  match s.operand x (fld w 27 22), s.biasVals x with
  | .ok a, .ok bias =>
    let c := x.conv
    let rows := a.vals.map fun r => (List.range r.length).map fun i =>
      c.apply (r.getD i Val.zero) (match bias with
        | some l => l.getD i Val.zero
        | none => Val.zero)
    .ok (x.store (fld w 21 16) (bitOf w 37) rows, x.capReq rows)
  | .error e, _ => .error e
  | _, .error e => .error e

/-- MAT_CVT (R126): it passes the conversion stage alone, and a continuing instruction after it continues what stood in the array before (DESIGN CHOICE,
log entry 71). -/
def execMatCvt (e : EngineId) (parity : Parity) (s : State) : Out := s.runUnit e .array 0x11 parity s.cvtWork

/-! ## The vector unit -/

/-- An element of an operand that is repeated along dimensions of size 1 (R184). -/
def bcast (d : Desc) (rows : List (List Val)) (i0 i1 i2 i3 : Nat) : Val :=
  let p (n i : Nat) : Nat := if n = 1 then 0 else i
  at2 rows (p d.n1 i1 + d.n1 * (p d.n2 i2 + d.n2 * p d.n3 i3)) (p d.n0 i0)

/-- The second operand: a tensor, or one FP32 value for every element (R184). -/
def State.vecB (s : State) (x : Entry) : Except Stop (Nat → Nat → Nat → Nat → Val) :=
  let w := x.word
  if bitOf w 49 then .ok fun _ _ _ _ => ofF32 ((sGet x.sr (fld w 48 44)).toNat % 2 ^ 32)
  else
    match s.operand x (fld w 33 28) with
    | .ok t => .ok (bcast (x.desc (fld w 33 28)) t.vals)
    | .error e => .error e

/-- The third operand of VEC.FMA and VEC.SEL. -/
def State.vecC (s : State) (x : Entry) : Except Stop (Nat → Nat → Nat → Nat → Val) :=
  match s.operand x (fld x.word 39 34) with
  | .ok t => .ok (bcast (x.desc (fld x.word 39 34)) t.vals)
  | .error e => .error e

/-- A function of every element of the first operand, at its position (R183). -/
def Entry.mapA (x : Entry) (a : Tensor) (f : Val → Nat → Nat → Nat → Nat → Val) : Writes :=
  let w := x.word
  let d := x.desc (fld w 27 22)
  let rows := a.vals
  x.store (fld w 21 16) (bitOf w 50) ((List.range rows.length).map fun r =>
    let row := rows.getD r []
    (List.range row.length).map fun i => f (row.getD i Val.zero) i (r % d.n1) (r / d.n1 % d.n2) (r / (d.n1 * d.n2)))

/-- The work of an operation on a and b. -/
def State.vec2 (s : State) (x : Entry) (f : Val → Val → Val) : Work :=
  match s.operand x (fld x.word 27 22), s.vecB x with
  | .ok a, .ok b => .ok (x.mapA a fun v i i1 i2 i3 => f v (b i i1 i2 i3), none)
  | .error e, _ => .error e
  | _, .error e => .error e

/-- The work of an operation on a, b and c. -/
def State.vec3 (s : State) (x : Entry) (f : Val → Val → Val → Val) : Work :=
  match s.operand x (fld x.word 27 22), s.vecB x, s.vecC x with
  | .ok a, .ok b, .ok c => .ok (x.mapA a fun v i i1 i2 i3 => f v (b i i1 i2 i3) (c i i1 i2 i3), none)
  | .error e, _, _ => .error e
  | _, .error e, _ => .error e
  | _, _, .error e => .error e

/-- The work of an operation on a alone, row by row. -/
def State.vecRows (s : State) (x : Entry) (f : List Val → List Val) : Work :=
  match s.operand x (fld x.word 27 22) with
  | .ok a => .ok (x.store (fld x.word 21 16) (bitOf x.word 50) (a.vals.map f), none)
  | .error e => .error e

/-- VEC_BIN (R183). -/
def execVecBin (e : EngineId) (parity : Parity) (s : State) : Out :=
  s.runUnit e .vector 0x20 parity fun x => s.vec2 x (vecBin (fld x.word 43 40))

/-- VEC_FMA (R183). -/
def execVecFma (e : EngineId) (parity : Parity) (s : State) : Out :=
  s.runUnit e .vector 0x21 parity fun x => s.vec3 x fun a b c => (a.mul b).add c

/-- VEC_UN (R183). -/
def execVecUn (e : EngineId) (parity : Parity) (s : State) : Out :=
  s.runUnit e .vector 0x22 parity fun x => s.vecRows x (List.map (vecUn (fld x.word 43 40)))

/-- VEC_RED (R183, R186). -/
def execVecRed (e : EngineId) (parity : Parity) (s : State) : Out :=
  s.runUnit e .vector 0x23 parity fun x => s.vecRows x fun r => [vecRed (fld x.word 43 40) r]

/-- VEC_SEL (R183, R185). -/
def execVecSel (e : EngineId) (parity : Parity) (s : State) : Out :=
  s.runUnit e .vector 0x24 parity fun x => s.vec3 x fun a b c => vecSel a b c

/-! ## The special-function unit -/

/-- One rounding to FP32 in a mode. -/
def roundBy (v : Val) (md : Rnd) : Val :=
  match v with
  | .fin q => fsFp32.decode (fsFp32.round q md)
  | v => v

/-- The argument u of SFN.EVAL (R187, R199): one rounding, or two under RNE in the compatibility mode. -/
def sfnArg (niber : Bool) (x a b : Val) : Val :=
  if niber then roundBy ((roundBy (x.mul a) .rne).add b) .rne else ((x.mul a).add b).f32

/-- The value of a function of the compatibility mode: the special values of R188, else the Niber's (R199, R200). -/
def niberVal (fn : Nat) (u : Val) : Val :=
  match u, builtin fn u with
  | .fin _, .exact (.fin _) => ofF32 (Config.niberValue fn (toF32 u)).toNat
  | _, .exact v => v
  | _, .irr _ => ofF32 (Config.niberValue fn (toF32 u)).toNat

/-- Whether the active bank lacks the user slot that an SFN.EVAL names (R190). -/
def Engine.slotMissing (g : Engine) (fn : Nat) : Bool := decide (16 ≤ fn) && !nbit g.sfnActive.valid (fn - 16)

/-- The destination rows of SFN.EVAL, elements and scales already encoded where the element alone decides (R187-R189, R193, R199). -/
def Engine.sfnRows (g : Engine) (f : Fmt) (fn : Nat) (a b c : Val) (cBits : Nat) (rows : List (List Val)) : List (List Nat × List Nat) :=
  let md : Rnd := if g.niber then .rne else .rna
  rows.map fun r =>
    let us := r.map fun v => sfnArg g.niber v a b
    if 16 ≤ fn then encodeRow f md (us.map fun u => (userEval g.sfnActive.img (fn - 16) u md).mul c)
    else if g.niber then encodeRow f md (us.map fun u => (niberVal fn u).mul c)
    else if f.isBlock then sfnBlocks f fn cBits (us.map toF32)
    else (us.map fun u => sfnElem f fn (toF32 u) cBits, [])

/-- Writes of encoded rows: data, then scale entries with their tags (R70, R117). -/
def encodedWrites (f : Fmt) (d sd : Desc) (enc : List (List Nat × List Nat)) : Writes :=
  let nb := blocksOf d.n0
  ((d.rowAddrs.zip enc).map fun p => (p.1, packRow f f.isBlock d.n0 p.2.1)) ++
    (if f.isBlock then ((List.range d.rows).zip (sd.rowAddrs.zip enc)).map fun p =>
        (p.2.1, ((List.range nb).zip p.2.2.2).flatMap fun q => leBytes 2 (scaleEntry q.2 (d.blk0 + p.1 * nb + q.1)))
      else [])

/-- The work of SFN.EVAL. -/
def State.sfnWork (s : State) (e : EngineId) (x : Entry) : Work :=
  let w := x.word
  let g := s.eng e
  let d := x.desc (fld w 21 16)
  let c := x.f32 (fld w 47 43) (.fin Q.one)
  let cBits := if fld w 47 43 = 0 then 0x3F800000 else (sGet x.sr (fld w 47 43)).toNat % 2 ^ 32
  if g.slotMissing (fld w 32 28) then .error (.accessDenied, noDetail .accessDenied x.idx)
  else
    match s.operand x (fld w 27 22), d.fmt with
    | .ok t, some f =>
      .ok (encodedWrites f d (x.scaleDesc d)
        (g.sfnRows f (fld w 32 28) (x.f32 (fld w 37 33) (.fin Q.one)) (x.f32 (fld w 42 38) Val.zero) c cBits t.vals), none)
    | .error e, _ => .error e
    | _, none => .error (.accessDenied, noDetail .accessDenied x.idx)

/-- SFN_EVAL (R187-R190, R193, R199). -/
def execSfnEval (e : EngineId) (parity : Parity) (s : State) : Out := s.runUnit e .sfn 0x30 parity (s.sfnWork e)

/-- Valid slots of an image. -/
def imageValid (img : List Byte) : Nat := (List.range 8).foldl (fun v i => v + b2n (slotValid img i) * 2 ^ i) 0

/-- Where a table load meets a parity error (R195, R208): in the headers that it reads and checks, or after their checks. -/
def atHeaders (parity : Parity) : Bool := parity.any fun h => h.place == .headers

/-- The shadow bank after a load, and the code of the load (R191, R192, R195, R208): the headers are read and checked before any part of the bank
is written. -/
def State.sfnLoad (s : State) (e : EngineId) (base : Nat) (old : SfnBank) (parity : Parity) : SfnBank × Code :=
  match s.readSpan (.engine e) base 512 with
  | (.ok, h) =>
    if atHeaders parity then (old, .dataErr)
    else if (List.range 8).all (headerOk h) then
      match s.readSpan (.engine e) (addrAdd base 512) 131072 with
      | (.ok, c) => if parity.isSome then ({ old with valid := 0 }, .dataErr) else (⟨imageValid h, h ++ c⟩, .ok)
      | (c, _) => ({ old with valid := 0 }, c)
    else (old, .accessDenied)
  | (c, _) => (old, c)

/-- The reads of a table load: its headers, and its coefficients. -/
def sfnReads (base : Nat) : List (Nat × Nat) := [(base, 512), (addrAdd base 512, 131072)]

/-- SFN_LOAD (R191-R195, R208): it starts after every earlier SFN instruction has completed. -/
def execSfnLoad (e : EngineId) (parity : Parity) (s : State) : Out :=
  s.unitOp e .sfn 0x31 fun x =>
  let g := s.eng e
  let base := (x.desc (fld x.word 27 22)).base
  need (((g.inflight.takeWhile fun y => y.id != x.id).all fun y => y.unit != .sfn || y.completed) && !s.heldReads e (sfnReads base))
    "an earlier SFN instruction has not completed, or a read waits at its unit" <|
  let r := s.sfnLoad e base g.sfnShadow parity
  let s' := (s.noteReads e (sfnReads base)).modEng e fun g => { g with sfnShadow := r.1 }
  match parity, r.2 with
  | some h, .dataErr => .next (s'.unitParity e x h)
  | _, .ok => .next (s'.setEntry e (x.finish .ok))
  | _, c => .next (s'.setEntry e ((x.failAt c (if c = .accessDenied then noDetail c x.idx else blockOf base))))

/-- SFN_SWAP (R196). -/
def execSfnSwap (e : EngineId) (s : State) : Out :=
  s.unitOp e .sfn 0x32 fun x =>
  need (((s.eng e).inflight.takeWhile fun y => y.id != x.id).all fun y => opOf y.word != 0x31 || y.completed) "an earlier SFN.LOAD has not completed" <|
  .next ((s.setEntry e (x.finish .ok)).modEng e fun g => { g with sfnActive := g.sfnShadow, sfnShadow := g.sfnActive })

/-! ## Normalisation -/

/-- The values of a gain or bias row. -/
def State.nrmVec (s : State) (x : Entry) (en : Bool) (i : Nat) : Except Stop (List Val) :=
  if en then
    match s.operand x i with
    | .ok t => .ok (t.vals.headD [])
    | .error e => .error e
  else .ok []

/-- The work of NRM.LN and NRM.RMS. -/
def State.nrmWork (s : State) (x : Entry) (f : List Val → Val → List Val → List Val → List Val) : Work :=
  let w := x.word
  match s.operand x (fld w 27 22), s.nrmVec x (bitOf w 45) (fld w 33 28), s.nrmVec x (bitOf w 46) (fld w 39 34) with
  | .ok t, .ok g, .ok b => .ok (x.store (fld w 21 16) false (t.vals.map fun r => f r (x.f32 (fld w 44 40) Val.zero) g b), none)
  | .error e, _, _ => .error e
  | _, .error e, _ => .error e
  | _, _, .error e => .error e

/-- NRM_STAT (R202-R204). -/
def execNrmStat (e : EngineId) (parity : Parity) (s : State) : Out :=
  s.runUnit e .nrm 0x40 parity fun x =>
    match s.operand x (fld x.word 27 22) with
    | .ok t => .ok (x.store (fld x.word 21 16) false (t.vals.map nrmStat), none)
    | .error e => .error e

/-- NRM_LN (R205). -/
def execNrmLn (e : EngineId) (parity : Parity) (s : State) : Out := s.runUnit e .nrm 0x41 parity fun x => s.nrmWork x nrmLn

/-- NRM_RMS (R205). -/
def execNrmRms (e : EngineId) (parity : Parity) (s : State) : Out := s.runUnit e .nrm 0x42 parity fun x => s.nrmWork x nrmRms

/-! ## Attention -/

/-- The score scale σ (R224). -/
def Entry.sigma (x : Entry) : Val :=
  let b := if fld x.word 67 63 = 0 then 0 else (sGet x.sr (fld x.word 67 63)).toNat / 2 ^ 32
  if b = 0 then rsqrt32 (.fin (Q.ofNat (x.desc (fld x.word 21 16)).n0)) else ofF32 b

/-- The masks and positions of an attention instruction, with the position of its first key (R224, R234). -/
def Entry.attMask (x : Entry) (kShift : Nat) : AttMask :=
  let w := x.word
  let sw := if fld w 67 63 = 0 then 0 else (sGet x.sr (fld w 67 63)).toNat
  let sp := if fld w 72 68 = 0 then 0 else (sGet x.sr (fld w 72 68)).toNat
  { causal := bitOf w 58, win := if bitOf w 59 then some (sw % 2 ^ 20) else none, q0 := sp % 2 ^ 32, k0 := sp / 2 ^ 32 + kShift }

/-- The tables that attention reads beside queries, keys and values. -/
structure AttTables where
  bias : Option (List (List Val))
  pad : Option (List (List Nat))
  deriving DecidableEq, Repr

/-- Read the bias table and the padding bitmap (R222, R233, R234). -/
def State.attTables (s : State) (x : Entry) : Except Stop AttTables :=
  let w := x.word
  let b : Except Stop (Option (List (List Val))) :=
    if fld w 45 40 = 0 then .ok none
    else match s.operand x (fld w 45 40) with
      | .ok t => .ok (some t.vals)
      | .error e => .error e
  let p : Except Stop (Option (List (List Nat))) :=
    if bitOf w 60 then
      match s.operand x (fld w 51 46) with
      | .ok t => .ok (some t.elems)
      | .error e => .error e
    else .ok none
  match b, p with
  | .ok b, .ok p => .ok ⟨b, p⟩
  | .error e, _ => .error e
  | _, .error e => .error e

/-- The row of a table for a head: its own, or the one that serves all (R233). -/
def headRow {α : Type} (rows : List α) (d : α) (h : Nat) : α := if rows.length ≤ 1 then rows.headD d else rows.getD h d

/-- Every query row of an attention over one range of keys, in walk order of the output (R222, R226-R229, R247). -/
def attRows (fallback : Bool) (dq dk dv : Desc) (q k v : List (List Val)) (sigma : Val) (mask : AttMask) (tb : AttTables) : List AttRow :=
  let group := dq.n2 / dk.n2
  (List.range (dq.n1 * dq.n2)).map fun r =>
    let i := r % dq.n1
    let h := r / dq.n1
    let hk := h / group
    let keys := (k.drop (hk * dk.n1)).take dk.n1
    let vals := (v.drop (hk * dk.n1)).take dk.n1
    let bias (delta : Int) : Val := match tb.bias with
      | some b => (headRow b [] h).getD (biasIndex delta) Val.zero
      | none => Val.zero
    let sc := attScores (q.getD r []) keys sigma bias mask (tb.pad.map fun p => headRow p [] h) i
    if fallback then fbRow dv.n0 sc vals else attRow dv.n0 sc vals

/-- The writes of attention rows: outputs, and statistics where asked for (R228). -/
def Entry.attWrites (x : Entry) (rows : List AttRow) : Writes :=
  x.store (fld x.word 39 34) false (rows.map AttRow.o) ++
    (if bitOf x.word 61 then x.store (fld x.word 57 52) false (rows.map fun r => [r.m, r.l]) else [])

/-- The work of ATT.RUN. -/
def State.attWork (s : State) (e : EngineId) (x : Entry) : Work :=
  let w := x.word
  let kv := bitOf w 62
  match s.operand x (fld w 21 16), s.operand x (fld w 27 22) kv 0, s.operand x (fld w 33 28) kv 1, s.attTables x with
  | .ok q, .ok k, .ok v, .ok tb =>
    .ok (x.attWrites (attRows (s.eng e).fallback (x.desc (fld w 21 16)) (x.desc (fld w 27 22)) (x.desc (fld w 33 28)) q.vals k.vals v.vals
      x.sigma (x.attMask 0) tb), none)
  | .error e, _, _, _ => .error e
  | _, .error e, _, _ => .error e
  | _, _, .error e, _ => .error e
  | _, _, _, .error e => .error e

/-- ATT_RUN (R226-R229, R246): the array's next continuing instruction finds no accumulators of its own kind (R94, R106). -/
def execAttRun (e : EngineId) (parity : Parity) (s : State) : Out := (s.setAcc e none).runUnit e .array 0x50 parity (s.attWork e)

/-- The work of ATT.MERGE (R239). -/
def State.mergeWork (s : State) (x : Entry) : Work :=
  let w := x.word
  match s.operand x (fld w 27 22), s.operand x (fld w 33 28), s.operand x (fld w 39 34), s.operand x (fld w 45 40) with
  | .ok a, .ok b, .ok sa, .ok sb =>
    let row (t st : Tensor) (r : Nat) : AttRow := ⟨at2 st.vals r 0, at2 st.vals r 1, t.vals.getD r []⟩
    let rows := (List.range a.elems.length).map fun r => attMergeRow (row a sa r) (row b sb r)
    .ok (x.store (fld w 21 16) false (rows.map AttRow.o) ++ x.store (fld w 51 46) false (rows.map fun r => [r.m, r.l]), none)
  | .error e, _, _, _ => .error e
  | _, .error e, _, _ => .error e
  | _, _, .error e, _ => .error e
  | _, _, _, .error e => .error e

/-- ATT_MERGE (R238, R239): like ATT.RUN it ends the accumulators of an earlier matrix instruction (DESIGN CHOICE, log entry 72). -/
def execAttMerge (e : EngineId) (parity : Parity) (s : State) : Out := (s.setAcc e none).runUnit e .array 0x51 parity s.mergeWork

end Sys2Proof.Machine
end

