-- ==== Sys2Proof/Machine/RingRoad.lean ====
section
/-! DEFINITION. Attention over a Ring Road: the ring record, the steps and the forwards (R240-R245, R251). -/
namespace Sys2Proof.Machine

/-- End a ring instruction with a code: its results are discarded (R166, R245). -/
def State.ringEnd (s : State) (e : EngineId) (x : Entry) (c : Code) (detail : Nat) : State :=
  (s.setEntry e (x.failAt c detail)).modEng e fun g => { g with ring := none }

/-- The ring of a record's bytes (R241), or none for a broken record. -/
def ringOf (id addr : Nat) (b : List Byte) : Option Ring :=
  let prev := numAt b 0 8
  let next := numAt b 8 8
  let len := numAt b 0x10 4
  let pos := numAt b 0x14 4
  if prev / 4096 = 0 ∧ next / 4096 = 0 ∧ 1 ≤ len ∧ len ≤ 4096 ∧ pos < len then
    some { id := id, record := addr, prev := prev, next := next, length := len, position := pos, stride := toSigned 64 (numAt b 0x18 8)
           step := 0, attended := false, fwd := .none, running := [] }
  else none

/-- ATT_RING (R240, R241, R243): the record is read and checked, and the ring begins at step 0. -/
def execAttRing (e : EngineId) (s : State) : Out :=
  s.unitOp e .array 0x52 fun x =>
  let a := (sGet x.sr (fld x.word 77 73)).toNat
  need ((s.eng e).ring.isNone && !s.readsWait x [(a, 64)]) "the ring has begun, or the read waits at its unit" <|
  let s := s.setAcc e none
  match s.readRefusal x [(a, 64)] with
  | some ep => .next (s.ringEnd e x .epochSkew ep)
  | none =>
    let s' := s.noteReads e [(a, 64)]
    match s.readSpan (.engine e) a 64 with
    | (.ok, b) =>
      match ringOf x.id a b with
      | some r => .next ((s'.setEntry e { x with sent := true }).modEng e fun g => { g with ring := some r })
      | none => .next (s'.ringEnd e x .accessDenied (blockOf a))
    | (c, _) => .next (s'.ringEnd e x c (blockOf a))

/-- The running ring and its instruction. -/
def State.ringOp (s : State) (e : EngineId) (k : Ring → Entry → Out) : Out :=
  needSome (s.eng e).ring "no ring runs" fun r =>
  needSome ((s.eng e).inflight.find? fun y => y.id == r.id) "no ring runs" fun x =>
  need (s.regionOn e && !(s.eng e).inReset) "the engine does not run" (k r x)

/-- A sequence word of the record, which lies in a direct window; −1 for one that cannot be read. -/
def State.ringWord (s : State) (r : Ring) (off : Nat) : Int :=
  match s.readLocal (addrAdd r.record off) 8 with
  | (.ok, b) => toSigned 64 (leNat b)
  | _ => -1

/-- The slot of the present step (R243). -/
def Ring.slot (r : Ring) : Nat := r.step % 2

/-- Whether the chunk of the present step is complete (R243). -/
def State.chunkHere (s : State) (r : Ring) : Bool := s.ringWord r (0x20 + 8 * r.slot) == (r.step : Int)

/-- Whether the next block has finished with its other slot (R243). -/
def State.slotFree (s : State) (r : Ring) : Bool := decide ((r.step : Int) - 1 ≤ s.ringWord r (0x30 + 8 * (1 - r.slot)))

/-- A descriptor moved to a slot. -/
def Desc.inSlot (d : Desc) (r : Ring) (slot : Nat) : Desc := if slot = 1 then { d with base := addrAdd d.base r.stride } else d

/-- A key or value operand in a slot. -/
def State.ringOperand (s : State) (x : Entry) (r : Ring) (i slot num : Nat) : Except Stop Tensor :=
  let d := (x.desc i).inSlot r slot
  match d.fmt with
  | some f => readTensor (s.localReader x.eng) f (bitOf x.word 62) d ((x.scaleDesc d).inSlot r slot) num
  | none => .error (.accessDenied, 0)

/-- Rows rounded to FP32, as a running result holds them (R244). -/
def AttRow.f32 (a : AttRow) : AttRow := ⟨a.m.f32, a.l.f32, a.o.map Val.f32⟩

/-- Join a step to the running result (R244). -/
def Ring.join (r : Ring) (rows : List AttRow) : List AttRow :=
  let rows := rows.map AttRow.f32
  if r.step = 0 then rows else (r.running.zip rows).map fun p => (attMergeRow p.1 p.2).f32

/-- The attention of the present step (R243, R244). -/
def State.ringAttend (s : State) (e : EngineId) (x : Entry) (r : Ring) : Except Stop (List AttRow) :=
  let w := x.word
  let n := (x.desc (fld w 27 22)).n1
  let chunk := (r.position + r.length - r.step % r.length) % r.length
  match s.operand x (fld w 21 16), s.ringOperand x r (fld w 27 22) r.slot 0, s.ringOperand x r (fld w 33 28) r.slot 1, s.attTables x with
  | .ok q, .ok k, .ok v, .ok tb =>
    .ok (r.join (attRows (s.eng e).fallback (x.desc (fld w 21 16)) (x.desc (fld w 27 22)) (x.desc (fld w 33 28)) q.vals k.vals v.vals x.sigma
      (x.attMask (chunk * n)) tb))
  | .error e, _, _, _ => .error e
  | _, .error e, _, _ => .error e
  | _, _, .error e, _ => .error e
  | _, _, _, .error e => .error e

/-- The reads of the attention of a step. -/
def Entry.ringReads (x : Entry) (r : Ring) : List (Nat × Nat) :=
  let w := x.word
  let slot (i : Nat) : List (Nat × Nat) :=
    let d := x.desc i
    (d.inSlot r r.slot).reads ((x.scaleDesc d).inSlot r r.slot) (bitOf w 62)
  x.readList (fld w 21 16) false ++ slot (fld w 27 22) ++ slot (fld w 33 28) ++ (if fld w 45 40 = 0 then [] else x.readList (fld w 45 40) false)

/-- Whether the record or an operand of a step waits at its unit (R35, R267, R333). -/
def State.ringHeld (s : State) (x : Entry) (r : Ring) : Bool := s.readsWait x ((r.record, 64) :: x.ringReads r)

/-- Set the ring of an engine. -/
def State.setRing (s : State) (e : EngineId) (r : Ring) : State := s.modEng e fun g => { g with ring := some r }

/-- RING_CHUNK_READY (R243, R244, R250). -/
def execRingChunkReady (e : EngineId) (parity : Parity) (s : State) : Out :=
  s.ringOp e fun r x =>
  need (!r.attended && s.chunkHere r && !s.ringHeld x r) "the chunk of the step is not complete, its attention has run, or a window is held" <|
  match parity with
  | some h => .next ((s.unitParity e x h).modEng e fun g => { g with ring := none })
  | none =>
    match s.readRefusal x (x.ringReads r) with
    | some ep => .next (s.ringEnd e x .epochSkew ep)
    | none =>
      let s' := s.noteReads e (x.ringReads r)
      match s.ringAttend e x r with
      | .ok rows => .next (s'.setRing e { r with attended := true, running := rows })
      | .error (c, d) => .next (s'.ringEnd e x c d)

/-- The writes of a forward: keys and values with their scales, to the other slot of the next block (R243). -/
def State.forwardWrites (s : State) (x : Entry) (r : Ring) : Except Stop Writes :=
  let w := x.word
  let one (i : Nat) : List (Nat × Nat × Nat) :=
    let d := x.desc i
    match d.fmt with
    | none => []
    | some f =>
      let kv := bitOf w 62
      let go (d : Desc) (len : Nat) : List (Nat × Nat × Nat) :=
        ((d.inSlot r r.slot).rowAddrs.zip (d.inSlot r (1 - r.slot)).rowAddrs).map fun p => (p.1, p.2, len)
      go d (rowBytes f (f.isBlock || kv) d.n0) ++ (if kv then go (x.scaleDesc d) (2 * blocksOf d.n0) else [])
  (one (fld w 27 22) ++ one (fld w 33 28)).foldr (fun p acc =>
    match acc, s.readSpan (.engine x.eng) p.1 p.2.2 with
    | .ok l, (.ok, b) => .ok ((putBits p.2.1 52 12 r.next, b) :: l)
    | .error e, (.ok, _) => .error e
    | _, (c, _) => .error (c, blockOf p.1)) (.ok [])

/-- The reads of a forward. -/
def Entry.forwardReads (x : Entry) (r : Ring) : List (Nat × Nat) :=
  let w := x.word
  let slot (i : Nat) : List (Nat × Nat) :=
    let d := x.desc i
    (d.inSlot r r.slot).reads ((x.scaleDesc d).inSlot r r.slot) (bitOf w 62)
  slot (fld w 27 22) ++ slot (fld w 33 28)

/-- RING_FORWARD_START (R243, R245, R251): the forward runs beside the attention; the acknowledgement of its remote writes comes with its end, and a
write within this block that fails ends the instruction. -/
def execRingForwardStart (e : EngineId) (s : State) : Out :=
  s.ringOp e fun r x =>
  need (r.fwd == .none && decide (r.step + 1 < r.length) && s.chunkHere r && s.slotFree r && !s.ringHeld x r) "no forward can start" <|
  match s.readRefusal x (x.forwardReads r), s.forwardWrites x r with
  | some ep, _ => .next (s.ringEnd e x .epochSkew ep)
  | none, .ok w =>
    need (!s.writesWait e (some x.epoch) (Writes.places w)) "a write waits at its unit" <|
    let s' := s.noteReads e (x.forwardReads r)
    match s.epochRefusal e x.epoch (Writes.places w) with
    | some ep => .next (s'.ringEnd e x .epochSkew ep)
    | none =>
      let q := s'.writeAll x .ok w
      match q.2 with
      | none => .next (q.1.setRing e { r with fwd := .started })
      | some (c, b) => .next (q.1.ringEnd e x c b)
  | none, .error (c, d) => .next ((s.noteReads e (x.forwardReads r)).ringEnd e x c d)

/-- The write of a sequence word into a neighbour's record, which `r` answers where it leaves this block (R243, R245). -/
def State.ringSeq (s : State) (e : EngineId) (x : Entry) (r : Reply) (a n : Nat) (block : Nat) (k : State → Out) : Out :=
  need (!s.writesWait e (some x.epoch) [(a, 8)]) "the write waits at its unit" <|
  match s.epochRefusal e x.epoch [(a, 8)] with
  | some ep => .next (s.ringEnd e x .epochSkew ep)
  | none =>
    let q := s.drainWrite e (some x.epoch) a (leBytes 8 n) r.write
    if q.2 = .ok then k q.1 else .next (q.1.ringEnd e x q.2 (if q.2 = .epochSkew then r.epoch.toNat else block))

/-- RING_FORWARD_DONE (R243, R245, R250): every byte is acknowledged and the next block's in_seq is written; or the forward failed, or met a parity
error in the ring mover. `r` holds the code of the forward, that of the write of in_seq, and the epoch of a unit that refused either. -/
def execRingForwardDone (e : EngineId) (parity : Bool) (r : Reply) (s : State) : Out :=
  s.ringOp e fun g x =>
  let a := putBits (addrAdd g.record (0x20 + 8 * (1 - g.slot))) 52 12 g.next
  need (g.fwd == .started) "no forward is under way" <|
  if parity then .next ((s.unitParity e x ⟨.unit, none⟩).modEng e fun g => { g with ring := none })
  else if r.code = .ok then s.ringSeq e x r a (g.step + 1) g.next fun s => .next (s.setRing e { g with fwd := .done })
  else .next (s.ringEnd e x r.code (if r.code = .epochSkew then r.epoch.toNat else g.next))

/-- The end of the last step: the running output is rounded into its destination (R244). -/
def State.ringResult (s : State) (e : EngineId) (x : Entry) (r : Ring) : State :=
  (s.setEntry e (x.result (x.attWrites r.running) none)).modEng e fun g => { g with ring := none }

/-- RING_STEP_END (R243, R245): the previous block's free_seq is written, and `r` answers that write. -/
def execRingStepEnd (e : EngineId) (r : Reply) (s : State) : Out :=
  s.ringOp e fun g x =>
  let a := putBits (addrAdd g.record (0x30 + 8 * g.slot)) 52 12 g.prev
  need (g.attended && (g.fwd == .done || g.step + 1 == g.length)) "the attention or the forward of the step is not done" <|
  s.ringSeq e x r a g.step g.prev fun s =>
    if g.step + 1 = g.length then .next (s.ringResult e x g)
    else .next (s.setRing e { g with step := g.step + 1, attended := false, fwd := .none })

/-- What a ring waits for (R243): the chunk of the step, the other slot of the next block, or the end of its forward. -/
def State.ringWaits (s : State) (r : Ring) : Bool :=
  (!r.attended && !s.chunkHere r) || (r.fwd == .none && decide (r.step + 1 < r.length) && !s.slotFree r) || (r.attended && r.fwd == .started)

/-- RING_WAIT_TIMEOUT (R243, R245): a wait of the step exceeds remote_timeout. -/
def execRingWaitTimeout (e : EngineId) (s : State) : Out :=
  s.ringOp e fun r x =>
  need (s.ringWaits r) "the ring waits for nothing" <|
  .next (s.ringEnd e x .timeout (noDetail .timeout x.idx))

end Sys2Proof.Machine
end

