-- ==== Sys2Proof/Machine/Scrub.lean ====
section
/-! DEFINITION. Patrol scrub of the banks (R262, R270, R273, R275). -/
namespace Sys2Proof.Machine

/-- The addressable row whose data a physical row holds: rows 0-1,535 unless a spare replaces them, spares in use for the rows they replace
(R252, R270). -/
def State.scrubRow (s : State) (e : EngineId) (b phys : Nat) : Option Nat :=
  let base := rowKey e b 0 / 1024
  if phys < 1536 then (if Tbl.get (fun _ => 0) s.spareRow (base + phys) = 0 then some phys else none)
  else (s.spareRow.find? fun p => p.2 == phys && p.1 / 2048 == base / 2048).map fun p => p.1 % 2048

/-- What scrub does with one word (R270, R272, R273): a single-bit error is corrected by rewriting and counted, an uncorrectable word is
counted, recorded and logged, a poisoned word stays. -/
def State.scrubWord (s : State) (e : EngineId) (w : Nat) : State :=
  let m := layerOfKey (16 * w)
  match s.markOf w with
  | 1 => (s.setMark w 0).count (F.LND_CE_COUNT.m m) 1 e.val
  | 2 => ((s.count (F.LND_UE_COUNT.m m) 1 e.val).noteErr e (16 * w) 1).log 0x0201 0x13 e.val 2 .dataErr (locOf (16 * w) + 2 ^ 32)
  | _ => s

/-- Whether scrub makes a repair candidate of a row: too many corrected errors in the pass, or any uncorrectable error (R275). -/
def State.candidateRow (s : State) (e : EngineId) (key : Nat) : Bool :=
  let ws := (List.range 64).map fun i => s.markOf (key / 16 + i)
  let lim := s.get F.LND_ROW_LIMIT.limit e.val
  (lim != 0 && decide (lim ≤ (ws.filter fun m => m == 1).length)) || ws.any fun m => m == 2

/-- Scrub goes on to the next bank, and after the last bank to the next row and pass (R270, R277). -/
def State.scrubNext (s : State) (e : EngineId) : State :=
  let x := vget s.scrubAt e
  let due := x.due + s.scrubStep e
  if x.bank + 1 < 2048 then { s with scrubAt := vset s.scrubAt e ⟨x.bank + 1, due⟩ }
  else
    let s := { s with scrubAt := vset s.scrubAt e ⟨0, due⟩ }
    let row := s.get F.LND_SCRUB.row e.val + 1
    if row < 1568 then s.put F.LND_SCRUB.row row e.val else (s.put F.LND_SCRUB.row 0 e.val).bump F.LND_SCRUB.passes e.val

/-- SCRUB_READ (R262, R270, R273, R275): the banks are read in increasing number (log entry 20); a read on schedule lets a waiting step of a
broadcast go first, one that is more than 1 s late does not. -/
def execScrubRead (e : EngineId) (b : BankId) (ups : List Upset) (s : State) : Out :=
  need (s.on F.LND_SCRUB.enable e.val) "patrol scrub is off" <|
  need ((vget s.scrubAt e).bank == b.val && s.scrubDue e) "another bank is read next, or the read is not due" <|
  need (s.scrubLate e || !s.bauReady e b.val) "a step of a broadcast goes before scrub" <|
  need (decide ((s.bank e b.val).owed = 0) && !s.queued e b.val) "something goes before scrub" <|
  match s.scrubRow e b.val (s.get F.LND_SCRUB.row e.val) with
  | none => .next (s.scrubNext e)
  | some row =>
    let key := rowKey e b.val row
    let s := s.upsets key ups
    let cand := s.candidateRow e key
    let s := (List.range 64).foldl (fun s i => s.scrubWord e (key / 16 + i)) s
    let s := if cand then s.logEvent 0x0203 0x13 e.val 1 (locOf key + 2 ^ 32) else s
    .next ((s.setBank e b.val { s.bank e b.val with openRow := none }).scrubNext e)

end Sys2Proof.Machine
end

