-- ==== Sys2Proof/Machine/Startup.lean ====
section
/-! DEFINITION. Start-up: the stages, the images, the defect records and the repairs that they set (R21, R22, R246, R327, R408, R409, R413, R456,
R468, R477-R493, R500-R511, R563). -/
namespace Sys2Proof.Machine

/-! ## Stages (R477) -/

/-- A stage's work is done while it is in progress and start-up is not held. -/
def State.inStage (s : State) (n : Nat) (k : Out) : Out :=
  powered s <| need (s.get F.AON_STATUS.stage == n && !s.on F.AON_STATUS.held) "another stage is in progress, or start-up is held" k

/-- The next stage, and start-up held, with every link and Frontage port disabled (R477). -/
def State.toStage (s : State) (n : Nat) : State := s.put F.AON_STATUS.stage n
def State.hold (s : State) : State :=
  let s := s.put F.AON_STATUS.held 1
  let s := (List.finRange 8).foldl (fun s p => if s.portState p = 0 then s else s.disablePort p) s
  (List.finRange 2).foldl (fun s p => if s.on F.FR_CTL.enable p.val then s.setFrEnable p false else s) s

/-- STAGE_RAILS (R461, R473, R477, R552): VPM_EN is asserted, the PLLs of the Floor lock, the step PLL among them, and the wait for VPM_PG begins. -/
def execStageRails (s : State) : Out :=
  s.inStage 1 (.next { (s.put F.CLK_STATUS.floor_lock 1).put F.CLK_STATUS.step_lock 1 with pins := { s.pins with vpmEn := true } })

/-- VPM_POWER_GOOD (R477): VPM_PG is accepted as asserted. -/
def execVpmPowerGood (s : State) : Out :=
  s.inStage 1 (need s.pins.vpmEn "VPM_EN is not asserted" (.next ((s.setLevel 16 true).toStage 2)))

/-- VPM_PG_TIMEOUT (R477, R554): 20 ms pass; a block held at stage 1 drives VPM_EN low. -/
def execVpmPgTimeout (s : State) : Out :=
  s.inStage 1 (need s.pins.vpmEn "VPM_EN is not asserted" (.next { s with pins := { s.pins with vpmEn := false } }.hold))

/-- STAGE_ROM (R477): control core 0 runs the boot ROM. -/
def execStageRom (s : State) : Out := s.inStage 2 (.next (s.toStage 3))

/-- STAGE_TRIP_TEST (R456, R477): the comparators that fail. -/
def execStageTripTest (failed : List (Fin 48)) (s : State) : Out :=
  s.inStage 3 (.next (if failed.isEmpty then (s.put F.THM_STATUS.trip_armed 1).toStage 4 else s.hold))

/-- VOUT_MODE (R408; its code is PMBus's). -/
def pmbVoutMode : Nat := 0x20

/-- The PLLs of the engines whose regions are ON lock (R466; log entry 81). -/
def State.lockEngines (s : State) : State :=
  (List.finRange 80).foldl (fun s e => if s.regState (regionOf e) = 0 ∧ s.on F.CLK_PLL.fail (e.val + 1) = false then s.pllLock e else s) s

/-- STAGE_VPM (R408, R409, R411, R466, R477): whether the VPM answers with ULINEAR16 on every page; a telemetry frame must have been accepted. -/
def execStageVpm (answers : Bool) (s : State) : Out :=
  s.inStage 4 <|
  let s := (List.range 4).foldl (fun s p => (s.emit (.pmbus p pmbVoutMode true 0)).emit (.pmbus p pmbStatusWord true 0)) s
  .next (if answers && s.power.lastSeq.isSome then (((s.commandVcore 7).setSlices 7).lockEngines).toStage 5 else s.hold)

/-! ## The fuse list (R486) -/

/-- An entry of the fuse list: the defect, or none where its fields lie outside the block's ranges. -/
def fuseEntry (w w2 : Nat) : Option Defect :=
  match w / 2 ^ 28 with
  | 1 =>
    let e := nbits w 27 21
    let site := nbits w 20 13
    if e < 80 ∧ site < 132 ∧ nbits w 12 0 = 0 then some ⟨1, e + site * 2 ^ 8⟩ else none
  | 2 =>
    let e := nbits w 27 21
    if e < 80 ∧ nbits w 9 0 = 0 ∧ w2 < 1568 then some ⟨2, e + nbits w 20 10 * 2 ^ 8 + w2 * 2 ^ 20⟩ else none
  | 3 =>
    let port := nbits w 27 24
    let lane := nbits w 22 17
    if port < 8 ∧ lane < 34 ∧ nbits w 16 0 = 0 then some ⟨3, port + nbits w 23 23 * 2 ^ 8 + lane * 2 ^ 16⟩ else none
  | 4 =>
    let q := nbits w 27 22
    if q < 40 ∧ nbits w 17 0 = 0 then some ⟨4, q + nbits w 21 18 * 2 ^ 8⟩ else none
  | _ => none

/-- The entries of the words left, and how many were ignored. -/
def fuseEntries : List Nat → List Defect × Nat
  | [] => ([], 0)
  | w :: ws =>
    if w = 0xFFFFFFFF then fuseEntries ws
    else if w / 2 ^ 28 = 15 then ([], 0)
    else if w / 2 ^ 28 = 2 then
      match ws with
      | [] => ([], 1)
      | w2 :: rest =>
        let r := fuseEntries rest
        match fuseEntry w w2 with
        | some d => (d :: r.1, r.2)
        | none => (r.1, r.2 + 1)
    else
      let r := fuseEntries ws
      match fuseEntry w 0 with
      | some d => (d :: r.1, r.2)
      | none => (r.1, r.2 + 1)

/-- The fuse list: words 0x000-0x1FF of OTP (R486, R499). -/
def State.fuseList (s : State) : List Defect × Nat :=
  let w := s.otp 0
  if nbits w 31 16 = 0x4E42 ∧ nbits w 15 9 = 2 then fuseEntries ((List.range (nbits w 8 0)).map fun i => s.otp (i + 1)) else ([], 1)

/-- STAGE_FUSES (R477, R486, R500): no uncorrectable word, and the production digest must match. -/
def execStageFuses (eccOk : Bool) (s : State) : Out :=
  s.inStage 5 <|
  if eccOk && s.otpDigestOk then
    let s := (s.put F.SEC_STATUS.otp_ok 1).refreshOtp
    let r := s.fuseList
    .next (((s.setBoot fun b => { b with defects := r.1.eraseDups }).count F.AON_STATUS.ignored r.2).toStage 6)
  else .next s.hold

/-! ## Images (R481, R482, R484, R501, R509) -/

/-- The flash region of an image slot: boot slots 0 and 1, and the configuration image at 2 (R480). -/
def slotAtFlash (n : Nat) : Nat := 0x1000000 * n
def slotSize (n : Nat) : Nat := if n = 2 then 0x400000 else 0x1000000

/-- The header of an image slot, and its payload. -/
def State.imageHeader (s : State) (n : Nat) : List Byte := s.bytes (spFlash + slotAtFlash n) 4096
def payloadLen (h : List Byte) : Nat := leNat (sliceOf h 0x020 4)
def State.imagePayload (s : State) (n : Nat) : List Byte := s.bytes (spFlash + slotAtFlash n + 4096) (payloadLen (s.imageHeader n))
def imageSvn (h : List Byte) : Nat := leNat (sliceOf h 0x008 4)
def imageSigner (h : List Byte) : Nat := leNat (sliceOf h 0x00C 4)

/-- Fields of a header in range and zero fields zero (R481). -/
def imageFormOk (n : Nat) (h : List Byte) : Bool :=
  leNat (h.take 4) == 0x5342594C && leNat (sliceOf h 4 2) == 1 && leNat (sliceOf h 6 2) == (if n = 2 then 2 else 1)
    && decide (imageSigner h ≤ 1) && payloadLen h % 64 == 0 && decide (payloadLen h + 4096 ≤ slotSize n)
    && ([(0x024, 4), (0x058, 40), (0x0E1, 31), (0x130, 208), (0x260, 160), (0x954, 1708)] ++ if n = 2 then [(0x010, 16)] else []).all
      fun z => zeroAt h z.1 z.2

/-- The rollback counter of an image's kind (R504). -/
def State.counterOf (s : State) (n : Nat) : Nat := if n = 2 then s.cfgCounter else s.bootCounter

/-- An image verifies: the index of its key (R501). -/
def State.verifyImage (s : State) (n : Nat) : Option Nat :=
  let h := s.imageHeader n
  if imageFormOk n h && sha384 (s.imagePayload n) == sliceOf h 0x028 48 then
    match s.selectKey (imageSigner h) with
    | some k =>
      if s.keysOk k.1 h (sliceOf h 0x080 97) (sliceOf h 0x100 48) (sliceOf h 0x200 96) (sliceOf h 0x300 1620) && decide (s.counterOf n ≤ imageSvn h)
      then some k.2 else none
    | none => none
  else none

/-- Sections of a configuration payload: type, version and data (R484). -/
def sections : Nat → List Byte → List (Nat × Nat × List Byte)
  | 0, _ => []
  | fuel + 1, b =>
    if b.length < 8 then []
    else
      let n := leNat (sliceOf b 4 4)
      if b.length < 8 + n then []
      else (leNat (b.take 2), leNat (sliceOf b 2 2), sliceOf b 8 n) :: sections fuel (b.drop (8 + ceilDiv n 8 * 8))

/-- Sections of the configuration image. -/
def State.cfgSections (s : State) : List (Nat × Nat × List Byte) := let p := s.imagePayload 2; sections (p.length / 8 + 1) p

/-- The 32-bit words of node records (R484). -/
def coefWords (b : List Byte) : List (BitVec 32) := (wordsLe b).map (BitVec.ofNat 32)

/-- Whether a section is one of the model's coefficients, or of register pairs. -/
def isCoefs (x : Nat × Nat × List Byte) : Bool := x.1 == 1 && x.2.1 == 1 && x.2.2.length == 61440
def isPairs (x : Nat × Nat × List Byte) : Bool := x.1 == 2 && x.2.1 == 1 && x.2.2.length % 16 == 0

/-- One section takes effect at stage 6: coefficients, or it is ignored and counted; register pairs wait for the end of stage 10. -/
def State.takeSection (s : State) (x : Nat × Nat × List Byte) : State :=
  if isCoefs x then (s.setThermal fun t => { t with coefs := coefWords x.2.2 }).put F.THM_STATUS.model_ok 1
  else if isPairs x then s
  else s.count F.AON_STATUS.ignored 1

/-- The configuration image, where it verifies (R484). -/
def State.takeConfig (s : State) : State :=
  match s.verifyImage 2 with
  | some _ =>
    let s := (s.put F.AON_STATUS.cfg_ok 1).setBoot fun b => { b with cfgSvn := imageSvn (s.imageHeader 2) }
    s.cfgSections.foldl State.takeSection s
  | none => s

/-- The record of the OTP state (R509). -/
def State.otpRecord (s : State) (key : Nat) : List Byte :=
  leBytes 4 (s.otp otpLifecycle) ++ leBytes 4 (s.otp otpKeyState) ++ leBytes 4 s.bootCounter ++ leBytes 4 s.cfgCounter
    ++ leBytes 1 (s.activeOwner.getD 0xFF) ++ leBytes 1 key ++ s.serial ++ List.replicate 6 0#8

/-- The five entries of MR0 (R509). -/
def State.measure (s : State) (slot key : Nat) : State :=
  let s := s.extendMr 0 1 ((List.range 48).map Config.romDigest)
  let s := s.extendMr 0 2 (sha384 (s.otpRecord key))
  let s := s.extendMr 0 3 (sha384 (s.imageHeader slot))
  let s := s.extendMr 0 4 (if s.on F.AON_STATUS.cfg_ok then sha384 (s.imageHeader 2) else List.replicate 48 0#8)
  s.extendMr 0 5 (BitVec.ofNat 8 (b2n (s.on F.SEC_STATUS.debug)) :: List.replicate 47 0#8)

/-- A boot image is loaded into the control cores' private space (R482). -/
def State.loadImage (s : State) (slot key : Nat) : State :=
  let h := s.imageHeader slot
  let at_ := leNat (sliceOf h 0x010 8)
  let s := if at_ + payloadLen h ≤ 2 ^ 48 then s.writeSram at_ (s.imagePayload slot) else s
  let s := (s.put F.AON_STATUS.slot slot).setBoot fun b => { b with image := some (slotAtFlash slot) }
  (s.put F.SEC_SVN.img_svn (imageSvn h)).put F.SEC_STATUS.signer key

/-- STAGE_IMAGES (R477, R482, R484, R501, R509): the slot of `AON_BOOT.slot` is tried first. -/
def execStageImages (s : State) : Out :=
  s.inStage 6 <|
  let a := s.get F.AON_BOOT.slot
  let go (slot key : Nat) : Out := .next ((((s.loadImage slot key).takeConfig).measure slot key).toStage 7)
  match s.verifyImage a, s.verifyImage (1 - a) with
  | some k, _ => go a k
  | none, some k => go (1 - a) k
  | none, none => .next s.hold

/-! ## Defects and repairs (R21, R22, R246, R268, R413-R417, R485, R490, R563) -/

/-- The fields of a location that its kind defines. -/
def cleanLoc (kind loc : Nat) : Nat :=
  match kind with
  | 1 => nbits loc 6 0 + nbits loc 15 8 * 2 ^ 8
  | 2 => nbits loc 6 0 + nbits loc 18 8 * 2 ^ 8 + nbits loc 30 20 * 2 ^ 20
  | 3 => nbits loc 2 0 + nbits loc 8 8 * 2 ^ 8 + nbits loc 21 16 * 2 ^ 16
  | 4 => nbits loc 5 0 + nbits loc 11 8 * 2 ^ 8
  | 5 => nbits loc 7 0 + (if 121 ≤ nbits loc 7 0 then nbits loc 13 8 * 2 ^ 8 else 0) + nbits loc 19 16 * 2 ^ 16
  | 8 => nbits loc 5 0 + nbits loc 10 8 * 2 ^ 8 + nbits loc 19 16 * 2 ^ 16
  | 9 => nbits loc 6 0 + nbits loc 11 8 * 2 ^ 8
  | _ => nbits loc 6 0

/-- Whether a defect names a resource of the block. -/
def Defect.ok (d : Defect) : Bool :=
  match d.kind with
  | 1 => decide (nbits d.loc 6 0 < 80) && decide (nbits d.loc 15 8 < 132)
  | 2 => decide (nbits d.loc 6 0 < 80) && decide (nbits d.loc 30 20 < 1568)
  | 3 => decide (nbits d.loc 21 16 < 34)
  | 4 => decide (nbits d.loc 5 0 < 40)
  | 5 => sliceExists (nbits d.loc 7 0) (nbits d.loc 13 8) (nbits d.loc 19 16)
  | 6 => decide (nbits d.loc 6 0 < 80)
  | 7 => decide (nbits d.loc 6 0 < 80)
  | 8 => decide (nbits d.loc 5 0 < 40) && decide (nbits d.loc 10 8 < 7) && xwPresent (nbits d.loc 10 8) (nbits d.loc 19 16)
  | 9 => decide (nbits d.loc 6 0 < 80)
  | _ => false

/-- The band of a site (R20). -/
def bandOf (site : Nat) : Nat := if site < 128 then site / 32 else site - 128

/-- Defective sites of an engine's band among recorded defects. -/
def badSites (l : List Defect) (e band : Nat) : List Nat :=
  (l.filter fun d => d.kind == 1 && nbits d.loc 6 0 == e && bandOf (nbits d.loc 15 8) == band).map fun d => nbits d.loc 15 8

/-- Defective rows of a bank, in increasing order. -/
def badRows (l : List Defect) (e bank : Nat) : List Nat :=
  let rows := (l.filter fun d => d.kind == 2 && nbits d.loc 6 0 == e && nbits d.loc 18 8 == bank).map fun d => nbits d.loc 30 20
  (List.range 1568).filter fun r => rows.contains r

/-- Rows of a bank and the spares that replace them: the lowest good spare for the lowest defective row (R252, R485; log entry 47). -/
def rowRepairs (bad : List Nat) : List (Nat × Nat) :=
  (bad.filter fun r => decide (r < 1536)).zip (((List.range 32).map (1536 + ·)).filter fun r => !bad.contains r)

/-- Act on an engine that a number names. -/
def State.onEngine (s : State) (n : Nat) (f : EngineId → State) : State :=
  match engineOf? n with
  | some e => f e
  | none => s

/-- The rows of a bank are remapped; beyond 32 defective rows the engine is mapped out with its DRAM. -/
def State.repairRows (s : State) (e : EngineId) (bank : Nat) : State :=
  let bad := badRows s.boot.defects e.val bank
  if 32 < bad.length then s.mapOutEngine e true
  else
    let base := e.val * 2 ^ 22 + bank * 2 ^ 11
    let clear := { s with spareRow := s.spareRow.filter fun p => p.1 / 2 ^ 11 != base / 2 ^ 11 }
    (rowRepairs bad).foldl (fun s p => { s with spareRow := Tbl.set (fun _ => 0) s.spareRow (base + p.1) p.2 }) clear

/-- A Plaza way goes out of service; with eight gone the square's storage is mapped out. -/
def State.repairWay (s : State) (k : SquareId) (way : Nat) : State :=
  if s.on F.SQ_STATUS.mapped_out k.val then s
  else
    let ways := (s.sq k).ways.filter fun w => w != way
    let s := (s.setSq k { s.sq k with ways := ways }).put F.SQ_STATUS.ways_ok ways.length k.val
    if ways.length ≤ 8 then s.mapOutSquare k else s

/-- A slice is out of service at start: a square whose group has lost two is dark at once (R415-R417). -/
def State.repairSlice (s : State) (inst group slice : Nat) : State :=
  if nbit (s.failedSlices inst group) slice then s
  else
    let s := s.sliceOut inst group slice
    s.onFin (inst - 81) fun k : SquareId =>
      if 81 ≤ inst ∧ (s.region (regionOfSq k)).dying = true then
        ((s.setRegion (regionOfSq k) { s.region (regionOfSq k) with dying := false }).regionDark (regionOfSq k)).mapOutSquare k
      else s

/-- The engine that a Crosswalk bundle of 8-15 serves (R563). -/
def bundleEngine (col b : Nat) : Nat := if b < 12 then col else col + 40

/-- One recorded defect takes effect (R485). -/
def State.applyDefect (s : State) (d : Defect) : State :=
  let lo := nbits d.loc 6 0
  match d.kind with
  | 1 => s.onEngine lo fun e => if 2 ≤ (badSites s.boot.defects lo (bandOf (nbits d.loc 15 8))).length then s.mapOutEngine e false else s
  | 2 => s.onEngine lo fun e => s.repairRows e (nbits d.loc 18 8)
  | 3 => s.setBoot fun b => { b with lanes := b.lanes ++ [(nbits d.loc 2 0, nbit d.loc 8, nbits d.loc 21 16)] }
  | 4 => s.onFin (nbits d.loc 5 0) fun k => s.repairWay k (nbits d.loc 11 8)
  | 5 => s.repairSlice (nbits d.loc 7 0) (if 121 ≤ nbits d.loc 7 0 then nbits d.loc 13 8 else 0) (nbits d.loc 19 16)
  | 6 => s.onEngine lo fun e => s.modEng e fun g => { g with fallback := true }
  | 8 =>
    if nbits d.loc 19 16 < 8 then s
    else s.onEngine (bundleEngine (nbits d.loc 5 0) (nbits d.loc 19 16)) fun e => s.mapOutEngine e (decide (4 ≤ nbits d.loc 10 8))
  | _ => s.onEngine lo fun e => s.mapOutEngine e false

/-- Defects join the record and take effect one by one; a defect that is recorded already is applied once (R485). -/
def State.applyDefects (s : State) (l : List Defect) : State :=
  l.foldl (fun s d => if s.boot.defects.contains d then s else (s.setBoot fun b => { b with defects := b.defects ++ [d] }).applyDefect d) s

/-- `AON_REPAIR` counts the repairs in force (R497). -/
def State.countRepairs (s : State) : State :=
  let ds := s.boot.defects
  let sites := (ds.filter fun d => d.kind == 1 && decide (nbits d.loc 15 8 < 128)
    && (badSites ds (nbits d.loc 6 0) (bandOf (nbits d.loc 15 8))).length == 1).length
  let ledger := (s.repairs.map fun x => (⟨x.kind, cleanLoc x.kind x.loc⟩ : Defect)).eraseDups.filter Defect.ok
  let n (k : Nat) : Nat := (ds.filter fun d => d.kind == k).length
  let s := ((s.put F.AON_REPAIR.rows (min 0xFFFF s.spareRow.length)).put F.AON_REPAIR.sites sites).put F.AON_REPAIR.ways (min 255 (n 4))
  ((s.put F.AON_REPAIR.slices (min 255 (n 5))).put F.AON_REPAIR.lanes (min 255 (ledger.filter fun d => d.kind == 3).length)).put
    F.AON_REPAIR.engines_out ((List.finRange 80).filter fun e => (s.eng e).mappedOut).length

/-- The seq of the last repair entry (R478). -/
def State.lastRepair (s : State) : Nat := highestSeq s.repairs

/-- Whether the present start is cold (R478). -/
def State.isCold (s : State) : Bool :=
  s.on F.AON_BOOT.force_cold || (match s.newestMemo with
    | none => true
    | some c => leNat (s.bytes (spFlash + memoAt c + 0x10) 4) != s.lastRepair)

/-- STAGE_REPAIR (R477, R478, R485, R487, R488, R490): ledger and memo are read, and the repairs of the fuse list and of the ledger applied. -/
def execStageRepair (s : State) : Out :=
  s.inStage 7 <|
  let repairs := (s.repairs.map fun x => (⟨x.kind, cleanLoc x.kind x.loc⟩ : Defect)).eraseDups
  let ignored := (s.ledgerEntries.filter fun x => !s.ledgerVerified x).length + (repairs.filter fun d => !d.ok).length
  let cold := s.isCold
  let s := (s.count F.AON_STATUS.ignored ignored).put F.AON_STATUS.cold (b2n cold)
  let s := s.setBoot fun b => { b with memo := if cold then none else s.newestMemo.map memoAt }
  let s := s.copyBank
  let fuses := s.boot.defects
  let s := (s.setBoot fun b => { b with defects := [] }).applyDefects (fuses ++ repairs.filter Defect.ok)
  if s.get F.AON_STATUS.stage = 7 then .next (s.countRepairs.toStage 8) else .next s

/-! ## Crosswalk and memory (R327, R468, R493, R563) -/

/-- Every present bundle: column, interface and number. -/
def allBundles : List (SquareId × Nat × Nat) :=
  (List.finRange 40).flatMap fun k => (List.range 7).flatMap fun i => (xwBundles i).map fun b => (k, i, b)

/-- The tap that the memo holds (R492). -/
def State.memoTap (s : State) (key : Nat) : Option Nat :=
  s.boot.memo.bind fun m =>
    let x := (s.byte (spFlash + m + 0x40 + key)).toNat
    if nbit x 7 then some (x % 64) else none

/-- A bundle is calibrated at a step with the sweep that the command names; a sweep that it does not name passes, and is free (log entry 46). -/
def State.sweep (s : State) (sweeps : List (Nat × BitVec 64)) (step : Nat) (q : SquareId × Nat × Nat) : State :=
  match sweeps.find? fun x => x.1 == xwKey q.1.val q.2.1 q.2.2 step with
  | some x => s.calibrate q.1 q.2.1 q.2.2 step x.2.toNat
  | none => s.calibrateFree q.1 q.2.1 q.2.2 step

/-- A bundle takes the memo's tap, whose margin is free (log entry 30), where the memo holds one and the command names no sweep. -/
def State.warmTap (s : State) (sweeps : List (Nat × BitVec 64)) (step : Nat) (q : SquareId × Nat × Nat) : State :=
  let key := xwKey q.1.val q.2.1 q.2.2 step
  match s.memoTap key, sweeps.any fun x => x.1 == key with
  | some t, false => (s.setTap key t (Config.xwMargin s.drawn key).toNat).draw
  | _, _ => s.sweep sweeps step q

/-- The sweeps that are made: on a warm start those of step 7, whose taps it verifies, and of taps that the memo does not hold (R468, R493). -/
def State.madeSweeps (s : State) (sweeps : List (Nat × BitVec 64)) : List (Nat × BitVec 64) :=
  sweeps.filter fun x => s.on F.AON_STATUS.cold || x.1 % 8 == 7 || (s.memoTap x.1).isNone

/-- The bundles, keyed with a step, whose sweeps fail (R327). -/
def failedKeys (sweeps : List (Nat × BitVec 64)) : List Nat := (sweeps.filter fun x => (sweepTap x.2.toNat).isNone).map Prod.fst

/-- A failed bundle of 8-15 maps out its engine (R563). -/
def State.mapOutBundle (s : State) (failed : List Nat) (q : SquareId × Nat × Nat) : State :=
  if q.2.2 < 8 ∨ ((List.range 8).all fun step => !failed.contains (xwKey q.1.val q.2.1 q.2.2 step)) = true then s
  else s.onEngine (bundleEngine q.1.val q.2.2) fun e => s.mapOutEngine e (decide (4 ≤ q.2.1))

/-- Whether a through-lane bundle fails or is recorded as defective (R485, R563). -/
def State.laneHolds (s : State) (failed : List Nat) : Bool :=
  (s.boot.defects.any fun d => d.kind == 8 && decide (nbits d.loc 19 16 < 8))
    || failed.any fun x => decide (x / 8 % 16 < 8) && xwPresent (x / 128 % 7) (x / 8 % 16)

/-- STAGE_CROSSWALK (R327, R468, R477, R493, R563): `sweeps` are the taps that pass, by bundle and step, keyed as the memo keys them. -/
def execStageCrosswalk (sweeps : List (Nat × BitVec 64)) (s : State) : Out :=
  s.inStage 8 <|
  let cold := s.on F.AON_STATUS.cold
  let made := s.madeSweeps sweeps
  let failed := failedKeys made
  let s := allBundles.foldl (fun s q => (List.range 8).foldl (fun s step => s.warmTap made step q) s) s
  let s := allBundles.foldl (fun s q => s.mapOutBundle failed q) s
  let s := (s.setClock fun c => { c with verified := if cold then List.range 8 else [7] }).refreshAllXw
  .next (if s.laneHolds failed then s.hold else s.countRepairs.toStage 9)

/-- STAGE_MEMORY (R477, R493): a channel that fails cold training is a defect of its site. -/
def execStageMemory (failedChannels : List (EngineId × Fin 132)) (s : State) : Out :=
  s.inStage 9 <|
  let ds := ((failedChannels.map fun q => (⟨1, q.1.val + q.2.val * 2 ^ 8⟩ : Defect)).filter fun d => !s.boot.defects.contains d).eraseDups
  let s := ds.foldl (fun s d => s.romEntry d.kind 1 0 d.loc) s
  .next ((s.applyDefects ds).countRepairs.toStage 10)

/-! ## Self-test and firmware (R484, R488, R489, R491, R511) -/

/-- An open candidate is retested: it fails again, or passes (R489). -/
def State.retest (s : State) (found : List Defect) (x : LedgerEntry) : State :=
  let d : Defect := ⟨x.kind, cleanLoc x.kind x.loc⟩
  let loc := x.loc % 2 ^ 32 + x.seq * 2 ^ 32
  if found.contains d then
    let s := s.romEntry x.kind 1 2 loc
    if s.boot.defects.contains d then s else (s.romEntry x.kind 1 0 x.loc).applyDefects [d]
  else s.romEntry x.kind 1 3 loc

/-- A defect that self-test finds is recorded and applied, unless it is recorded already. -/
def State.newDefect (s : State) (d : Defect) : State :=
  if s.boot.defects.contains d then s
  else
    let s := s.romEntry d.kind 1 0 d.loc
    let s := if d.kind = 5 then
      let g := if 121 ≤ nbits d.loc 7 0 then nbits d.loc 13 8 else 0
      s.noteSlice (nbits d.loc 7 0) g (nbits d.loc 19 16) (bitCount (s.failedSlices (nbits d.loc 7 0) g) == 0) else s
    s.applyDefects [d]

/-- Register pairs of the configuration image are written in list order; class 0x01 is skipped and counted (R484). -/
def State.writePairs (s : State) (b : List Byte) : State :=
  (chunk 16 (b.length / 16) b).foldl (fun s p =>
    let off := leNat (p.take 8)
    if s.get F.AON_STATUS.stage ≠ 10 then s
    else if off / 0x1000000 = 1 then s.count F.AON_STATUS.ignored 1
    else if off < 2 ^ 32 ∧ s.unitCode off = .ok ∧ off % 8 = 0 then s.writeControl off (leNat (p.drop 8)) else s) s

/-- The register pairs of every section that holds them, where the image verified. -/
def State.writeAllPairs (s : State) : State :=
  if s.on F.AON_STATUS.cfg_ok then (s.cfgSections.filter isPairs).foldl (fun s x => s.writePairs x.2.2) s else s

/-- STAGE_SELF_TEST (R246, R477, R484, R488, R489, R491, R511): the control cores that fail, the defects that the tests find, and the engines for which
they select the fallback mode. -/
def execStageSelfTest (badCores : List CoreId) (defects : List (BitVec 8 × Word)) (fallback : List EngineId) (s : State) : Out :=
  s.inStage 10 <|
  if badCores.contains 0 then .next s.hold
  else
    let found := ((defects.map fun d => (⟨d.1.toNat, cleanLoc d.1.toNat d.2.toNat⟩ : Defect)).filter Defect.ok).eraseDups
    let s := s.setBoot fun b => { b with coresOff := Vector.ofFn fun i => badCores.contains i }
    let s := s.candidates.foldl (fun s x => s.retest found x) s
    let s := found.foldl (fun s d => s.newDefect d) s
    let s := fallback.foldl (fun s e => s.modEng e fun g => { g with fallback := true }) s
    let s := if s.get F.AON_STATUS.stage = 10 then (s.countRepairs.issueAlias).writeAllPairs else s
    .next (if s.get F.AON_STATUS.stage = 10 then s.toStage 11 else s)

/-- STAGE_FIRMWARE (R477, R482): firmware is entered on the cores that passed their test. -/
def execStageFirmware (s : State) : Out :=
  s.inStage 11 (need (!s.boot.firmware) "firmware runs already" (.next (s.setBoot fun b => { b with firmware := true })))

end Sys2Proof.Machine
end

