-- ==== Sys2Proof/Machine/Sessions.lean ====
section
/-! DEFINITION. The service protocol of the resident firmware: DTLS sessions, FSP messages and operations (R384-R401, R416). -/
namespace Sys2Proof.Machine

/-! ## Sessions and messages (R386-R392) -/

/-- A session, and changing one. -/
def State.sess (s : State) (i : SlotId) : Session := vget s.front.sessions i
def State.setSess (s : State) (i : SlotId) (x : Session) : State := { s with front := { s.front with sessions := vset s.front.sessions i x } }
def State.setFront (s : State) (f : Front → Front) : State := { s with front := f s.front }

/-- The message types of R388. -/
def mtOpen : Nat := 1
def mtSubmit : Nat := 2
def mtStatus : Nat := 3
def mtResult : Nat := 7
def mtClose : Nat := 8
def mtAck : Nat := 9

/-- Whether a session has its keys: it takes and sends messages. -/
def Session.keyed (x : Session) : Bool := x.phase != .free && x.phase != .handshake

/-- A message leaves the block (R387): a record is sent. -/
def State.putMsg (s : State) (i : SlotId) (m : FspMsg) : State :=
  (s.setSess i { s.sess i with sent := (s.sess i).sent + 1 }).emit (.fsp i m)

/-- The message of a type, with the highest seq received in order as its ack (R387). -/
def Session.msg (x : Session) (t seq op : Nat) (body : List Byte) : FspMsg :=
  ⟨1, BitVec.ofNat 8 t, 0, BitVec.ofNat 32 body.length, BitVec.ofNat 64 seq, BitVec.ofNat 64 x.rxSeq, BitVec.ofNat 64 op, body⟩

/-- An ACK: seq 0, never acknowledged and never resent (R389). -/
def State.sendAck (s : State) (i : SlotId) : State := s.putMsg i ((s.sess i).msg mtAck 0 0 [])

/-- A message is sent with the next seq and kept until it is acknowledged; beyond 64 of them it waits (R389). -/
def State.sendFsp (s : State) (i : SlotId) (t op : Nat) (body : List Byte) : State :=
  let x := s.sess i
  if x.keyed = false then s
  else if 64 ≤ x.unacked.length then s.setSess i { x with waiting := x.waiting ++ [(t, op, body)] }
  else
    let m := x.msg t x.txSeq op body
    (s.setSess i { x with txSeq := x.txSeq + 1, unacked := x.unacked ++ [(m, 0)] }).putMsg i m

/-- Messages that waited are sent while the window has room. -/
def State.sendWaiting (s : State) (i : SlotId) : State :=
  let l := (s.sess i).waiting
  l.foldl (fun s q => s.sendFsp i q.1 q.2.1 q.2.2) (s.setSess i { s.sess i with waiting := [] })

/-- An ack advances: acknowledged messages go, and rto returns to its opened value (R389). -/
def State.takeAck (s : State) (i : SlotId) (ack : Nat) : State :=
  let x := s.sess i
  let left := x.unacked.filter fun q => decide (ack < q.1.seq.toNat)
  if left.length < x.unacked.length then (s.setSess i { x with unacked := left, rto := x.rtoOpen }).sendWaiting i else s

/-! ## Operations (R395-R401) -/

/-- The code of an operation's state (R397). -/
def OpPhase.code : OpPhase → Nat
  | .queued => 1 | .loading => 2 | .running => 3 | .suspending => 4 | .suspended => 5 | .cancelling => 6 | .done => 7

/-- An operation by its ID, and changing it. -/
def State.opOf (s : State) (id : Nat) : Option Operation := s.front.ops.find? fun o => o.id == id
def State.setOp (s : State) (o : Operation) : State :=
  s.setFront fun f => { f with ops := f.ops.map fun q => if q.id = o.id then o else q }

/-- Operations that are not DONE, and the SUBMITs that the block accepts now (R396). -/
def State.openOps (s : State) : List Operation := s.front.ops.filter fun o => o.phase != .done
def State.credits (s : State) : Nat := 64 - s.openOps.length

/-- A mask of engines as 16 bytes. -/
def engineMask (l : List EngineId) : List Byte := leBytes 16 (l.foldl (fun n e => n ||| 2 ^ e.val) 0)

/-- Whether an engine is out of service for an operation: in reset or mapped out (R396, R416). -/
def State.outOfService (s : State) (e : EngineId) : Bool := (s.eng e).inReset || (s.eng e).mappedOut

/-- Whether an engine still runs: RUN, SUSPENDING or CANCELLING, SUSPENDED where a cancel is sought. -/
def State.engBusy (s : State) (e : EngineId) : Bool := !s.outOfService e && [1, 2, 4].contains (s.engState e)

/-- Engines that have not yet reached the state being approached (R390, R400; log entry 49). -/
def State.waitingFor (s : State) (o : Operation) : List EngineId :=
  match o.phase with
  | .loading => o.engines
  | .suspending => o.engines.filter fun e => !s.outOfService e && s.engState e != 3 && s.engState e != 6
  | .cancelling => o.engines.filter fun e => s.engBusy e
  | _ => []

/-- The status body (R390). -/
def State.statusBody (s : State) (code reason replyTo : Nat) (o : Option Operation) : List Byte :=
  let st := match o with
    | some o => o.phase.code
    | none => 0
  let waiting := match o with
    | some o => engineMask (s.waitingFor o)
    | none => List.replicate 16 0#8
  leBytes 1 code ++ leBytes 1 reason ++ leBytes 1 st ++ leBytes 1 s.credits ++ leBytes 4 0 ++ leBytes 8 s.btime ++ leBytes 8 replyTo
    ++ waiting ++ List.replicate 24 0#8

/-- The capability record (R391). -/
def State.capability (s : State) : List Byte :=
  let squares := (List.finRange 40).foldl (fun n k => if s.on F.SQ_STATUS.mapped_out k.val then n else n ||| 2 ^ k.val) 0
  engineMask ((List.finRange 80).filter fun e => !s.outOfService e) ++ engineMask ((List.finRange 80).filter fun e => (s.eng e).fallback)
    ++ leBytes 8 squares ++ leBytes 1 (s.get F.CLK_STEP.eff) ++ leBytes 1 (s.get F.THM_STEP.limit) ++ List.replicate 6 0#8 ++ List.replicate 16 0#8

/-- Answer a request with STATUS; `cap` adds the capability record (R390, R391). -/
def State.status (s : State) (i : SlotId) (code reason : Nat) (m : FspMsg) (op : Nat) (cap : Bool) : State :=
  let o := if op = 0 then none else s.opOf op
  s.sendFsp i mtStatus op (s.statusBody code reason m.seq.toNat o ++ if cap then s.capability else [])

/-- Refuse a request: ACCESS_DENIED with a reason. -/
def State.refuse (s : State) (i : SlotId) (reason : Nat) (m : FspMsg) (op : Nat) : State := s.status i 5 reason m op false

/-- The OWNER session (R393). -/
def State.owner (s : State) : Option SlotId := (List.finRange 64).find? fun i => (s.sess i).phase == .owner

/-- The unsolicited STATUS of an operation that reaches SUSPENDED goes to the owner (R400). -/
def State.tellSuspended (s : State) (o : Operation) : State :=
  match s.owner with
  | some i => s.sendFsp i mtStatus o.id (s.statusBody 0 0 0 (some o))
  | none => s

/-- Firmware writes a register of an engine in service. -/
def State.fwEng (s : State) (e : EngineId) (f : State → State) : State := if s.outOfService e then s else f s

/-- The value of `ENG_CTL` that carries a command of an operation. -/
def Operation.ctl (o : Operation) (cmd : Nat) : Nat := o.entry % 2 ^ 14 * 2 ^ 8 + o.flags % 2 * 16 + o.flags / 2 % 2 * 32 + cmd

/-- The bytes of a read of result data from another block are free. -/
def State.readResult (s : State) (o : Operation) : State × Nat × List Byte :=
  if o.outLen = 0 then (s, 0, [])
  else if s.isLocal o.outAddr then
    let q := s.readSpan (.core 0) o.outAddr o.outLen
    (s.noteSpan (.core 0) o.outAddr o.outLen, q.1.toNat, if q.1 = .ok then q.2 else [])
  else
    let c := (Code.ofCode (Config.remoteCode s.drawn o.outAddr).toNat).getD .linkDown
    (s.draw, c.toNat, if c = .ok then (List.range o.outLen).map fun i => Config.remoteByte s.drawn (o.outAddr + i) else [])

/-- RESULT goes to the owner, or is held; beyond 64 the oldest is dropped and counted (R398). -/
def State.sendResult (s : State) (op : Nat) (body : List Byte) : State :=
  match s.owner with
  | some i => s.sendFsp i mtResult op body
  | none =>
    s.setFront fun f =>
      if 64 ≤ f.held.length then { f with held := f.held.tail ++ [(op, body)], dropped := f.dropped + 1 } else { f with held := f.held ++ [(op, body)] }

/-- An operation becomes DONE: its engines return to IDLE, the result data is read, and the RESULT sent after the reply to the request that ended it
(R397, R398, R401). -/
def State.finishOp (s : State) (o : Operation) (say : State → State := fun t => t) : State :=
  let s := o.engines.foldl (fun s e => if s.engState e = 5 ∨ s.engState e = 6 then s.fwEng e fun s => s.writeEngCtl e (o.ctl 64) else s) s
  let r := s.readResult o
  let s := r.1
  let low := o.faulted.find? fun q => o.faulted.all fun p => decide (q.1 ≤ p.1)
  let code := match low with
    | some q => q.2 % 16
    | none => (o.code.map Code.toNat).getD 0
  let body := leBytes 1 code ++ leBytes 1 r.2.1 ++ leBytes 2 0 ++ leBytes 4 r.2.2.length ++ leBytes 8 o.tStart ++ leBytes 8 s.btime
    ++ leBytes 8 o.tag ++ engineMask (o.engines.filter fun e => o.faulted.any fun q => q.1 == e.val)
    ++ leBytes 8 ((low.map Prod.snd).getD 0) ++ List.replicate 8 0#8 ++ r.2.2
  (say (s.setOp { o with phase := .done })).sendResult o.id body

/-- Cancel is written to every engine that is not IDLE (R139, R397). -/
def State.cancelEngines (s : State) (o : Operation) : State :=
  o.engines.foldl (fun s e => if s.engState e = 0 then s else s.fwEng e fun s => s.writeEngCtl e (o.ctl 8)) s

/-- A cancelling operation whose engines have stopped is DONE. -/
def State.settleOp (s : State) (o : Operation) (say : State → State := fun t => t) : State :=
  if o.engines.any fun e => s.engBusy e then say (s.setOp o) else s.finishOp o say

/-- An operation is cancelled, or ended by a fault: its engines are cancelled. -/
def State.endOp (s : State) (o : Operation) (say : State → State := fun t => t) : State := (s.cancelEngines o).settleOp { o with phase := .cancelling } say

/-- The page loads of an operation stop (R399): the pages that were loading hold no valid instructions. -/
def State.stopLoads (s : State) (o : Operation) : State :=
  o.engines.foldl (fun s e => s.fwEng e fun s =>
    match (s.eng e).pgLoad with
    | some l => (s.modEng e fun g => { g.markPages l.2.1 l.2.2 true false with pgLoad := none }).put F.ENG_PGCMD.busy 0 e.val
    | none => s) s

/-- Cancel an operation, with the reply to the request (R399, R401): none where the state refuses it. -/
def State.cancelOp (s : State) (o : Operation) (say : State → State := fun t => t) : Option State :=
  match o.phase with
  | .queued => some (s.finishOp { o with code := some .cancelled } say)
  | .loading => some ((s.stopLoads o).finishOp { o with code := some .cancelled } say)
  | .cancelling => some (say s)
  | .done => none
  | _ => some (if o.started then s.endOp { o with code := some .cancelled } say else s.finishOp { o with code := some .cancelled } say)

/-- Suspend is written to every engine in RUN (R397). -/
def State.suspendEngines (s : State) (o : Operation) : State :=
  o.engines.foldl (fun s e => if s.engState e = 1 then s.fwEng e fun s => s.writeEngCtl e (o.ctl 2) else s) s

/-- An operation goes on as its engines stop (R397): all HALTED, DONE; all SUSPENDED or HALTED, SUSPENDED. A reply to a request comes before what the
operation itself sends. -/
def State.advanceOp (s : State) (o : Operation) (say : State → State := fun t => t) : State :=
  match o.phase with
  | .running => if o.engines.all fun e => s.engState e == 6 then s.finishOp o say else say (s.setOp o)
  | .suspending =>
    if o.engines.all fun e => s.engState e == 6 then s.finishOp o say
    else if o.engines.all fun e => s.engState e == 3 || s.engState e == 6 then
      let o := { o with phase := .suspended }
      (say (s.setOp o)).tellSuspended o
    else say (s.setOp o)
  | .cancelling => s.settleOp o say
  | _ => say (s.setOp o)

/-! ## The end of a session (R392, R394) -/

/-- A session ends and its slot is free; one that ends other than by CLOSE takes its cancel_on_loss operations with it. -/
def State.endSession (s : State) (i : SlotId) (byClose : Bool) : State :=
  let s := (s.setSess i Session.none).setSlotNat i.val 0 1 0
  let mine := s.openOps.filter fun o => o.slot == some i
  mine.foldl (fun s o =>
    let o := { o with slot := none }
    let s := s.setOp o
    if byClose = false ∧ nbit o.flags 2 = true then (s.cancelOp o).getD s else s) s

/-- Firmware must run for the service to act. -/
def State.inFirmware (s : State) (k : Out) : Out := need s.boot.firmware "no firmware runs" k

/-- Whether a ClientHello offers the profile of R384: TLS_AES_256_GCM_SHA384, secp384r1 and ecdsa_secp384r1_sha384, a connection ID, and none of what is not
supported. -/
def offerOk (o : Offer) : Bool :=
  o.suites.contains 0x1302 && o.groups.contains 0x0018 && o.schemes.contains 0x0503 && o.connId && !o.early && !o.psk && !o.postAuth

/-- CLIENT_HELLO (R384-R386, R392): a bad offer is refused; a first ClientHello is answered with a cookie; one that returns its cookie takes the lowest free
slot, and the block authenticates with its alias key over the digest of the handshake so far. -/
def execClientHello (o : Offer) (cid : Word) (digest : List Byte) (s : State) : Out :=
  s.inFirmware <|
  if !offerOk o then .next (s.emit (.alert false))
  else if o.cookie ≠ some (Config.cookie o.ip o.port) then .next (s.emit (.helloRetry (Config.cookie o.ip o.port)))
  else match (List.finRange 64).find? fun i => (s.sess i).phase == .free with
    | none => .next (s.emit (.alert true))
    | some i =>
      need ((List.finRange 64).all fun j => (s.sess j).phase == .free || (s.sess j).cid != cid.toNat) "the connection ID is in use" <|
      let s' := s.setSess i { Session.none with phase := .handshake, cid := cid.toNat, ip := o.ip.toNat, mac := o.mac.toNat, port := o.port.toNat }
      .next (s'.noteSigned.emit (.serverAuth i s.certChain (s.signature digest)))

/-- Whether a client's chain is accepted (R385, R502): each certificate is well formed and verifies under the key of the next, and the key of the last has the
active owner slot's anchor hash, or, with no owner active, is the device CA key. -/
def State.clientChainOk (s : State) (chain : List (List Byte)) : Bool :=
  !chain.isEmpty && chain.all Config.certFormed && (chain.zip chain.tail).all (fun q => Config.certSigned q.1 (Config.certKey q.2)) &&
    (match s.activeOwner with
    | some k => sha384 (Config.certKey (chain.getLastD [])) == s.otpBytes (otpSlot k + 24) 12
    | none => Config.certKey (chain.getLastD []) == s.deviceCa)

/-- Firmware changes a slot (R381): it clears valid, writes the fields, and sets valid again. -/
def State.changeSlot (s : State) (i : SlotId) (f : State → State) : State := (f (s.setSlotNat i.val 0 1 0)).setSlotNat i.val 0 1 1

/-- The receive fields of a slot for a traffic secret, and the transmit fields: keys, epoch and record numbers (R380, R381). -/
def State.rxSlot (s : State) (i : SlotId) (epoch : Nat) (secret : List Byte) : State :=
  (((s.setSlotKeys 0x40 0x60 0x70 i.val (recordKeys secret)).setSlotNat i.val 2 2 epoch).setSlotNat i.val 0x30 8 0).setSlotNat i.val 0x38 8 0
def State.txSlot (s : State) (i : SlotId) (epoch : Nat) (secret : List Byte) : State :=
  ((s.setSlotKeys 0x90 0xB0 0xC0 i.val (recordKeys secret)).setSlotNat i.val 0xBC 2 epoch).setSlotNat i.val 0x28 8 0

/-- The connection ID and the address of the peer in a slot (R380). -/
def State.peerSlot (s : State) (i : SlotId) : State :=
  let x := s.sess i
  (((s.setSlotNat i.val 8 8 x.cid).setSlotNat i.val 0x10 16 x.ip).setSlotNat i.val 0x20 6 x.mac).setSlotNat i.val 0x26 2 x.port

/-- The epoch of the first application keys of DTLS 1.3. -/
def firstEpoch : Nat := 3

/-- DTLS_HANDSHAKE_DONE (R380, R381, R384, R385, R392): a client whose chain does not end at a trust anchor, or whose signature over the digest of the
handshake does not verify, is refused with an alert; else the slot takes the client's address and the keys of the secrets that the handshake agreed. -/
def execDtlsHandshakeDone (i : SlotId) (chain : List (List Byte)) (digest sig : List Byte) (rx tx : List Byte) (s : State) : Out :=
  s.inFirmware <|
  need ((s.sess i).phase == .handshake) "no handshake runs in the slot" <|
  let key := Config.certKey (chain.headD [])
  if s.clientChainOk chain && ecdsaOk key digest sig then
    let s := s.setSess i { s.sess i with phase := .established, key := key, rxSecret := rx, txSecret := tx }
    .next (s.changeSlot i fun s => ((s.peerSlot i).rxSlot i firstEpoch rx).txSlot i firstEpoch tx)
  else .next ((s.endSession i false).emit (.alert false))

/-- DTLS_ALERT (R392). -/
def execDtlsAlert (i : SlotId) (s : State) : Out :=
  need ((s.sess i).phase != .free) "the slot has no session" (.next (s.endSession i false))

/-- KEY_UPDATE_SEND (R381, R386): 2^24 records have gone in one direction; the keys of sending change. -/
def execKeyUpdateSend (i : SlotId) (s : State) : Out :=
  let x := s.sess i
  need (x.keyed && decide (2 ^ 24 ≤ max x.sent x.received)) "no direction has carried 2^24 records" <|
  let secret := nextSecret x.txSecret
  let s := s.setSess i { x with sent := 0, received := if 2 ^ 24 ≤ x.received then 0 else x.received, txSecret := secret }
  .next ((s.changeSlot i fun t => t.txSlot i (s.slotNat i.val 0xBC 2 + 1) secret).emit (.keyUpdate i))

/-- KEY_UPDATE_RECEIVE (R381, R386): the keys of receiving change. -/
def execKeyUpdateReceive (i : SlotId) (s : State) : Out :=
  let x := s.sess i
  need x.keyed "the slot has no keys" <|
  let secret := nextSecret x.rxSecret
  let s := s.setSess i { x with received := 0, rxSecret := secret }
  .next (s.changeSlot i fun t => t.rxSlot i (s.slotNat i.val 2 2 + 1) secret)

/-- KEEPALIVE_EXPIRY (R392). -/
def execKeepaliveExpiry (i : SlotId) (s : State) : Out :=
  need ((s.sess i).phase != .free) "the slot has no session" (.next (s.endSession i false))

/-- KEEPALIVE_ACK (R392). -/
def execKeepaliveAck (i : SlotId) (s : State) : Out := need (s.sess i).keyed "the slot has no keys" (.next (s.sendAck i))

/-- FSP_RETRANSMIT (R389): every unacknowledged message is sent again and rto doubles; the eighth resend of one ends the session. -/
def execFspRetransmit (i : SlotId) (s : State) : Out :=
  let x := s.sess i
  need (!x.unacked.isEmpty) "nothing is unacknowledged" <|
  let again := x.unacked.map fun q => (q.1, q.2 + 1)
  let s := again.foldl (fun s q => s.putMsg i q.1) (s.setSess i { x with unacked := again, rto := min 64000 (2 * x.rto) })
  .next (if again.any fun q => decide (8 ≤ q.2) then s.endSession i false else s)

/-! ## Messages received (R387-R389) -/

/-- A message with a reserved type, or RESULT, which only the block sends, or a non-zero reserved field (R388). -/
def reservedMsg (m : FspMsg) : Bool := !([1, 2, 3, 4, 5, 6, 8, 9].contains m.mtype.toNat) || (m.reserved != 0 && m.mtype != 9)

/-- A message whose answer waits for the window is acknowledged by an ACK of its own (R389): nothing was sent since `sent` records. -/
def State.ackIfSilent (s : State) (i : SlotId) (sent : Nat) : State := if (s.sess i).keyed && (s.sess i).sent == sent then s.sendAck i else s

/-- A record arrives in a session: a bad form is discarded and counted; an ack is taken; a duplicate is acknowledged again; a gap is discarded; the
next message is acted on. -/
def State.fspIn (s : State) (i : SlotId) (m : FspMsg) (mine : Bool) (act : State → State) : Out :=
  need (s.sess i).keyed "the slot has no session that takes messages" <|
  need mine "the message is of another type" <|
  let s := s.setSess i { s.sess i with received := (s.sess i).received + 1 }
  if m.version ≠ 1 ∨ m.length.toNat ≠ m.body.length ∨ 9056 < m.body.length then .next (s.setFront fun f => { f with discarded := f.discarded + 1 })
  else
    let s := s.takeAck i m.ack.toNat
    let n := m.seq.toNat
    let last := (s.sess i).rxSeq
    if m.mtype = 9 ∨ n = 0 then .next s
    else if n ≤ last then .next (s.sendAck i)
    else if n ≠ last + 1 then .next s
    else .next ((act (s.setSess i { s.sess i with rxSeq := n })).ackIfSilent i (s.sess i).sent)

/-- Whether a message is of a type, with its reserved field zero. -/
def isType (m : FspMsg) (t : Nat) : Bool := m.mtype.toNat == t && !reservedMsg m

/-- FSP_RESERVED_TYPE (R388). -/
def execFspReservedType (i : SlotId) (m : FspMsg) (s : State) : Out := s.fspIn i m (reservedMsg m) fun s => s.refuse i 1 m 0

/-- FSP_ACK (R389). -/
def execFspAck (i : SlotId) (m : FspMsg) (s : State) : Out := s.fspIn i m (isType m mtAck) fun s => s

/-- A message in a session that is OWNER, and refused in another state (R392). -/
def State.asOwner (s : State) (i : SlotId) (m : FspMsg) (k : State) : State :=
  match (s.sess i).phase with
  | .owner => k
  | .observer => s.refuse i 2 m 0
  | _ => s.refuse i 4 m 0

/-- The fields of an OPEN (R393): role, keepalive and rto; none out of range. -/
def openFields (b : List Byte) : Option (Nat × Nat × Nat) :=
  let role := leNat (b.take 4)
  let ka := leNat (sliceOf b 4 4)
  let rto := leNat (sliceOf b 8 4)
  if b.length = 16 ∧ (role = 1 ∨ role = 2) ∧ (ka = 0 ∨ (100 ≤ ka ∧ ka ≤ 600000)) ∧ (rto = 0 ∨ (200 ≤ rto ∧ rto ≤ 100000)) ∧ leNat (sliceOf b 12 4) = 0
  then some (role, if ka = 0 then 10000 else ka, if rto = 0 then 2000 else rto) else none

/-- Held RESULTs go to the owner, oldest first (R393, R398). -/
def State.sendHeld (s : State) (i : SlotId) : State :=
  s.front.held.foldl (fun s q => s.sendFsp i mtResult q.1 q.2) (s.setFront fun f => { f with held := [] })

/-- OPEN as owner or observer is accepted (R393). -/
def State.opened (s : State) (i : SlotId) (q : Nat × Nat × Nat) : State :=
  s.setSess i { s.sess i with phase := if q.1 = 1 then .owner else .observer, keepalive := q.2.1, rto := q.2.2, rtoOpen := q.2.2 }

/-- FSP_OPEN (R391-R393). -/
def State.openReq (s : State) (i : SlotId) (m : FspMsg) : State :=
  let deny (reason : Nat) : State := s.status i 5 reason m 0 true
  if (s.sess i).phase = .observer then deny 2
  else match openFields m.body with
    | none => deny 7
    | some q =>
      if q.1 = 2 then (s.opened i q).status i 0 0 m 0 true
      else match s.owner with
        | none => ((s.opened i q).status i 0 0 m 0 true).sendHeld i
        | some j =>
          if j = i then ((s.opened i q).status i 0 0 m 0 true).sendHeld i
          else if (s.sess j).key = (s.sess i).key then
            let s := (s.sendFsp j mtClose 0 []).endSession j true
            ((s.opened i q).status i 0 0 m 0 true).sendHeld i
          else deny 2
def execFspOpen (i : SlotId) (m : FspMsg) (s : State) : Out := s.fspIn i m (isType m mtOpen) fun s => s.openReq i m

/-- FSP_CLOSE (R392): the session ends; in ESTABLISHED the answer denies it. -/
def execFspClose (i : SlotId) (m : FspMsg) (s : State) : Out :=
  s.fspIn i m (isType m mtClose) fun s =>
    (if (s.sess i).phase = .established then s.refuse i 4 m 0 else s.status i 0 0 m 0 false).endSession i true

/-- FSP_STATUS (R390, R391, R399). -/
def State.statusReq (s : State) (i : SlotId) (m : FspMsg) : State :=
  if (s.sess i).phase = .established then s.status i 5 4 m 0 (m.op == 0)
  else if m.op = 0 then s.status i 0 0 m 0 true
  else if (s.opOf m.op.toNat).isSome then s.status i 0 0 m m.op.toNat false
  else s.status i 6 5 m m.op.toNat false
def execFspStatus (i : SlotId) (m : FspMsg) (s : State) : Out := s.fspIn i m (isType m mtStatus) fun s => s.statusReq i m

/-! ## Operations by request (R395, R396, R399) -/

/-- Engines that a mask selects. -/
def maskEngines (n : Nat) : List EngineId := (List.finRange 80).filter fun e => nbit n e.val

/-- A number in the SUBMIT body. -/
def subNat (b : List Byte) (at_ n : Nat) : Nat := leNat (sliceOf b at_ n)

/-- Whether every field of a SUBMIT body is in range (R395). -/
def submitOk (b : List Byte) : Bool :=
  let page := subNat b 0x18 1
  let count := subNat b 0x19 1
  let flags := subNat b 0x1C 4
  let inLen := subNat b 0x58 4
  decide (0x68 ≤ b.length) && decide (b.length = 0x68 + inLen) && decide (subNat b 0 16 < 2 ^ 80) && decide (page ≤ 15) && decide (1 ≤ count)
    && decide (page + count ≤ 16) && decide (subNat b 0x1A 2 < 2 ^ 14) && decide (flags < 16) && decide (inLen ≤ 8192)
    && decide (subNat b 0x5C 4 ≤ 8192) && (flags % 4 == 0 || subNat b 0x40 8 % 4096 == 0)

/-- The operation that a SUBMIT describes (R395). -/
def submitted (id : Nat) (i : SlotId) (b : List Byte) : Operation :=
  { id := id, engines := maskEngines (subNat b 0 16), pgSrc := subNat b 0x10 8, page := subNat b 0x18 1, count := subNat b 0x19 1
    entry := subNat b 0x1A 2, flags := subNat b 0x1C 4, args := (List.range 4).map fun j => subNat b (0x20 + 8 * j) 8, ctxBase := subNat b 0x40 8
    inAddr := subNat b 0x48 8, outAddr := subNat b 0x50 8, inline := b.drop 0x68, outLen := subNat b 0x5C 4, tag := subNat b 0x60 8
    phase := .queued, slot := some i, started := false, tStart := 0, suspendAsked := false, code := none, faulted := [] }

/-- FSP_SUBMIT (R390, R395, R396). -/
def State.submitReq (s : State) (i : SlotId) (m : FspMsg) : State :=
  s.asOwner i m <|
  if m.op ≠ 0 then s.refuse i 1 m 0
  else if s.credits = 0 then s.refuse i 3 m 0
  else if submitOk m.body = false ∨ maskEngines (subNat m.body 0 16) = [] then s.refuse i 7 m 0
  else if (maskEngines (subNat m.body 0 16)).any fun e => s.outOfService e then s.refuse i 6 m 0
  else
    let id := s.front.nextOp
    (s.setFront fun f => { f with ops := f.ops ++ [submitted id i m.body], nextOp := id + 1 }).status i 0 0 m id false
def execFspSubmit (i : SlotId) (m : FspMsg) (s : State) : Out := s.fspIn i m (isType m mtSubmit) fun s => s.submitReq i m

/-- The reply to a request about an operation, with the state then in force. -/
def tellOk (i : SlotId) (m : FspMsg) (o : Operation) (s : State) : State := s.status i 0 0 m o.id false

/-- A request about an operation (R399, R401): one that the block does not hold is answered with UNMAPPED, reason 5; `k` applies it, answers with the state
then in force, and sends what the operation itself has to say after that. -/
def State.onOp (s : State) (i : SlotId) (m : FspMsg) (k : Operation → Option State) : State :=
  s.asOwner i m <|
  match s.opOf m.op.toNat with
  | none => s.status i 6 5 m m.op.toNat false
  | some o => (k o).getD (s.refuse i 4 m o.id)

/-- FSP_SUSPEND (R399, R400). -/
def State.suspendOp (s : State) (o : Operation) (say : State → State) : Option State :=
  match o.phase with
  | .queued => let o := { o with phase := .suspended }; some ((say (s.setOp o)).tellSuspended o)
  | .loading => some (say (s.setOp { o with suspendAsked := true }))
  | .running => some ((s.suspendEngines o).advanceOp { o with phase := .suspending } say)
  | .suspending => some (say s)
  | .suspended => some (say s)
  | _ => none
def execFspSuspend (i : SlotId) (m : FspMsg) (s : State) : Out := s.fspIn i m (isType m 4) fun s => s.onOp i m fun o => s.suspendOp o (tellOk i m o)

/-- FSP_RESUME (R399, R400). -/
def State.resumeOp (s : State) (o : Operation) (say : State → State) : Option State :=
  match o.phase with
  | .suspended =>
    if o.started then
      let s := o.engines.foldl (fun s e => if s.engState e = 3 then s.fwEng e fun s => s.writeEngCtl e (o.ctl 4) else s) s
      some (say (s.setOp { o with phase := .running }))
    else some (say (s.setOp { o with phase := .queued }))
  | _ => none
def execFspResume (i : SlotId) (m : FspMsg) (s : State) : Out := s.fspIn i m (isType m 5) fun s => s.onOp i m fun o => s.resumeOp o (tellOk i m o)

/-- FSP_CANCEL (R399, R401). -/
def execFspCancel (i : SlotId) (m : FspMsg) (s : State) : Out := s.fspIn i m (isType m 6) fun s => s.onOp i m fun o => s.cancelOp o (tellOk i m o)

/-! ## Operations under way (R396, R397, R416) -/

/-- Whether two operations name an engine in common. -/
def sharesEngine (a b : Operation) : Bool := a.engines.any fun e => b.engines.contains e

/-- Whether an operation is QUEUED and every earlier operation that shares an engine with it is DONE (R396). -/
def State.opReady (s : State) (o : Operation) : Bool := o.phase == .queued && !s.openOps.any fun q => decide (q.id < o.id) && sharesEngine q o

/-- Loading begins: the inline data is written, and pages are loaded into each engine (R397). -/
def State.loadOp (s : State) (o : Operation) : State :=
  let w := if o.inline.isEmpty ∨ s.isLocal o.inAddr = false then (s, Code.ok) else s.writeSpan (.core 0) o.inAddr o.inline
  let s := if o.inline.isEmpty = false ∧ s.isLocal o.inAddr = false then s.emit (.remoteWrite o.inAddr o.inline none) else w.1
  let s := s.setOp { o with phase := .loading, code := if w.2 = .ok then none else some w.2 }
  o.engines.foldl (fun s e => s.fwEng e fun s => (s.setReg R.ENG_PGSRC o.pgSrc e.val).writePgcmd e (o.page + o.count * 16 + 512)) s

/-- OPERATION_START (R396, R397): ready operations start in increasing ID. -/
def execOperationStart (op : Word) (s : State) : Out :=
  s.inFirmware <|
  needSome (s.opOf op.toNat) "no such operation" fun o =>
  need (s.opReady o) "the operation is not QUEUED, or an earlier one shares an engine" <|
  need (!s.openOps.any fun q => decide (q.id < o.id) && s.opReady q) "an earlier operation is ready" <|
  .next (s.loadOp o)

/-- The code that ends loading: that of the inline data, else the first page load that failed, else TARGET_RESET for an engine that is gone. -/
def State.loadCode (s : State) (o : Operation) (code : Code) : Code :=
  match o.code with
  | some c => c
  | none =>
    if o.inline.isEmpty = false ∧ s.isLocal o.inAddr = false ∧ code ≠ .ok then code
    else match o.engines.find? fun e => s.outOfService e || s.get F.ENG_PGCMD.code e.val != 0 with
      | some e => if s.outOfService e then .targetReset else (Code.ofCode (s.get F.ENG_PGCMD.code e.val)).getD .dataErr
      | none => .ok

/-- One engine of an operation is started (R395, R397). -/
def State.startOne (s : State) (o : Operation) (e : EngineId) : State :=
  s.fwEng e fun s =>
    let s := (o.args.zipIdx).foldl (fun s q => s.setReg R.ENG_ARG (if q.2 = 3 ∧ nbit o.flags 3 = true then e.val else q.1) e.val q.2) s
    (s.swWrite R.ENG_CTX_ADDR (o.ctxBase + 0x1000 * e.val) e.val 0 false).writeEngCtl e (o.ctl 1)

/-- OPERATION_LOADED (R397, R399): `code` answers the write of inline data that leaves the block. -/
def execOperationLoaded (op : Word) (code : Code) (s : State) : Out :=
  s.inFirmware <|
  needSome (s.opOf op.toNat) "no such operation" fun o =>
  need (o.phase == .loading) "the operation does not load" <|
  need (o.engines.all fun e => s.outOfService e || !s.on F.ENG_PGCMD.busy e.val) "a page load has not ended" <|
  let c := s.loadCode o code
  if c ≠ .ok then .next (s.finishOp { o with code := some c })
  else
    let t := s.btime
    let s := o.engines.foldl (fun s e => s.startOne o e) s
    let o := { o with started := true, tStart := t, phase := .running }
    if o.suspendAsked then .next ((s.suspendEngines o).advanceOp { o with phase := .suspending, suspendAsked := false }) else .next (s.setOp o)

/-- The state that an engine event reports (R134). -/
def EngEvent.holds (ev : EngEvent) (s : State) (e : EngineId) : Bool :=
  match ev with
  | .suspended => s.engState e == 3
  | .halted => s.engState e == 6
  | .faulted => s.engState e == 5 || s.outOfService e
  | .idle => s.engState e == 0

/-- An engine of an operation faulted: its `ENG_FAULT`, or TARGET_RESET where the engine is gone (R397, R416). -/
def State.faultOp (s : State) (o : Operation) (e : EngineId) : State :=
  let w := if s.outOfService e then Code.targetReset.toNat else s.reg R.ENG_FAULT e.val
  let o := { o with faulted := if o.faulted.any fun q => q.1 == e.val then o.faulted else o.faulted ++ [(e.val, w)] }
  if o.started then s.endOp o else s.finishOp o

/-- OPERATION_ENGINE_EVENT (R397, R400, R416). -/
def execOperationEngineEvent (e : EngineId) (ev : EngEvent) (s : State) : Out :=
  s.inFirmware <|
  need (EngEvent.holds ev s e) "the engine is in another state" <|
  needSome (s.openOps.find? fun o => o.engines.contains e && (o.started || (ev == .faulted && s.outOfService e))) "no operation awaits the engine" fun o =>
  .next (if ev = .faulted then s.faultOp o e else s.advanceOp o)

end Sys2Proof.Machine
end

