-- ==== Sys2Proof/Machine/Dispatch.lean ====
section
/-! DEFINITION. One arm per command of the block: each calls the meaning of its row of spec/opcode_table.json. -/
namespace Sys2Proof.Machine

/-- The effect of a command on everything but the queue. -/
def exec (i : Instr) (s : State) : Host.Outcome State Fault Refusal :=
  match i with
  | .instructionIssue e parity => Sys2Proof.Machine.execInstructionIssue e parity s
  | .instructionComplete e id => Sys2Proof.Machine.execInstructionComplete e id s
  | .instructionRetire e => Sys2Proof.Machine.execInstructionRetire e s
  | .enterFaulted e => Sys2Proof.Machine.execEnterFaulted e s
  | .ctlNop e => Sys2Proof.Machine.execCtlNop e s
  | .ctlBr e => Sys2Proof.Machine.execCtlBr e s
  | .ctlLoop e => Sys2Proof.Machine.execCtlLoop e s
  | .ctlEndl e => Sys2Proof.Machine.execCtlEndl e s
  | .ctlYield e => Sys2Proof.Machine.execCtlYield e s
  | .ctlPhase e => Sys2Proof.Machine.execCtlPhase e s
  | .ctlPage e r => Sys2Proof.Machine.execCtlPage e r s
  | .ctlHalt e => Sys2Proof.Machine.execCtlHalt e s
  | .ctlSets e => Sys2Proof.Machine.execCtlSets e s
  | .ctlAlu e => Sys2Proof.Machine.execCtlAlu e s
  | .ctlCmp e => Sys2Proof.Machine.execCtlCmp e s
  | .ctlTset e => Sys2Proof.Machine.execCtlTset e s
  | .ctlTadv e => Sys2Proof.Machine.execCtlTadv e s
  | .ctlLds e r => Sys2Proof.Machine.execCtlLds e r s
  | .ctlSts e r => Sys2Proof.Machine.execCtlSts e r s
  | .matMul e parity => Sys2Proof.Machine.execMatMul e parity s
  | .matCvt e parity => Sys2Proof.Machine.execMatCvt e parity s
  | .vecBin e parity => Sys2Proof.Machine.execVecBin e parity s
  | .vecFma e parity => Sys2Proof.Machine.execVecFma e parity s
  | .vecUn e parity => Sys2Proof.Machine.execVecUn e parity s
  | .vecRed e parity => Sys2Proof.Machine.execVecRed e parity s
  | .vecSel e parity => Sys2Proof.Machine.execVecSel e parity s
  | .sfnEval e parity => Sys2Proof.Machine.execSfnEval e parity s
  | .sfnLoad e parity => Sys2Proof.Machine.execSfnLoad e parity s
  | .sfnSwap e => Sys2Proof.Machine.execSfnSwap e s
  | .nrmStat e parity => Sys2Proof.Machine.execNrmStat e parity s
  | .nrmLn e parity => Sys2Proof.Machine.execNrmLn e parity s
  | .nrmRms e parity => Sys2Proof.Machine.execNrmRms e parity s
  | .attRun e parity => Sys2Proof.Machine.execAttRun e parity s
  | .attMerge e parity => Sys2Proof.Machine.execAttMerge e parity s
  | .attRing e => Sys2Proof.Machine.execAttRing e s
  | .ringChunkReady e parity => Sys2Proof.Machine.execRingChunkReady e parity s
  | .ringForwardStart e => Sys2Proof.Machine.execRingForwardStart e s
  | .ringForwardDone e parity r => Sys2Proof.Machine.execRingForwardDone e parity r s
  | .ringStepEnd e r => Sys2Proof.Machine.execRingStepEnd e r s
  | .ringWaitTimeout e => Sys2Proof.Machine.execRingWaitTimeout e s
  | .movCopy e r => Sys2Proof.Machine.execMovCopy e r s
  | .movMcast e r => Sys2Proof.Machine.execMovMcast e r s
  | .bauAdd e => Sys2Proof.Machine.execBauAdd e s
  | .bauAxpy e => Sys2Proof.Machine.execBauAxpy e s
  | .bauScale e => Sys2Proof.Machine.execBauScale e s
  | .bauFill e => Sys2Proof.Machine.execBauFill e s
  | .bauCopy e => Sys2Proof.Machine.execBauCopy e s
  | .bauQnt e => Sys2Proof.Machine.execBauQnt e s
  | .bauDqt e => Sys2Proof.Machine.execBauDqt e s
  | .bauOpt e => Sys2Proof.Machine.execBauOpt e s
  | .bauSum e => Sys2Proof.Machine.execBauSum e s
  | .bauMaxabs e => Sys2Proof.Machine.execBauMaxabs e s
  | .bauWait e => Sys2Proof.Machine.execBauWait e s
  | .syncFence e => Sys2Proof.Machine.execSyncFence e s
  | .syncBar e => Sys2Proof.Machine.execSyncBar e s
  | .syncFlag e => Sys2Proof.Machine.execSyncFlag e s
  | .syncEpoch e => Sys2Proof.Machine.execSyncEpoch e s
  | .cfgSet e => Sys2Proof.Machine.execCfgSet e s
  | .cfgGet e => Sys2Proof.Machine.execCfgGet e s
  | .engStart e v => Sys2Proof.Machine.execEngStart e v s
  | .engSuspend e v => Sys2Proof.Machine.execEngSuspend e v s
  | .engResume e v => Sys2Proof.Machine.execEngResume e v s
  | .engCancel e v => Sys2Proof.Machine.execEngCancel e v s
  | .engClear e v => Sys2Proof.Machine.execEngClear e v s
  | .yieldSuspend e => Sys2Proof.Machine.execYieldSuspend e s
  | .contextWriteDone e r => Sys2Proof.Machine.execContextWriteDone e r s
  | .contextReadDone e r => Sys2Proof.Machine.execContextReadDone e r s
  | .cancelDrained e => Sys2Proof.Machine.execCancelDrained e s
  | .engPgcmdGo e v => Sys2Proof.Machine.execEngPgcmdGo e v s
  | .pageLoadDone e r => Sys2Proof.Machine.execPageLoadDone e r s
  | .streamGrant e => Sys2Proof.Machine.execStreamGrant e s
  | .resultBufferReserve e => Sys2Proof.Machine.execResultBufferReserve e s
  | .streamReadReturn e id r => Sys2Proof.Machine.execStreamReadReturn e id r s
  | .drainWriteDone e code => Sys2Proof.Machine.execDrainWriteDone e code s
  | .scaleRecordUpdate e parity => Sys2Proof.Machine.execScaleRecordUpdate e parity s
  | .remoteAccessTimeout e id => Sys2Proof.Machine.execRemoteAccessTimeout e id s
  | .controlCoreAccess c sp addr op => Sys2Proof.Machine.execControlCoreAccess c sp addr op s
  | .broadcastAccept e => Sys2Proof.Machine.execBroadcastAccept e s
  | .landingRecallDone e => Sys2Proof.Machine.execLandingRecallDone e s
  | .waveRelease e => Sys2Proof.Machine.execWaveRelease e s
  | .checkPassDone e => Sys2Proof.Machine.execCheckPassDone e s
  | .bauStep e b err => Sys2Proof.Machine.execBauStep e b err s
  | .bauBusTransfer e layer => Sys2Proof.Machine.execBauBusTransfer e layer s
  | .bauResultWrite e => Sys2Proof.Machine.execBauResultWrite e s
  | .optRecordUpdate e => Sys2Proof.Machine.execOptRecordUpdate e s
  | .bauModeApply e => Sys2Proof.Machine.execBauModeApply e s
  | .verticalChannelRequest e chan req badFlag => Sys2Proof.Machine.execVerticalChannelRequest e chan req badFlag s
  | .bankAccess e b ups => Sys2Proof.Machine.execBankAccess e b ups s
  | .rowCloseTimeout e b => Sys2Proof.Machine.execRowCloseTimeout e b s
  | .refreshDue e b => Sys2Proof.Machine.execRefreshDue e b s
  | .refresh e b => Sys2Proof.Machine.execRefresh e b s
  | .refreshCatchup e b => Sys2Proof.Machine.execRefreshCatchup e b s
  | .scrubRead e b ups => Sys2Proof.Machine.execScrubRead e b ups s
  | .squareRequest k req bad => Sys2Proof.Machine.execSquareRequest k req bad s
  | .plazaFillDone k failed => Sys2Proof.Machine.execPlazaFillDone k failed s
  | .sqCtlWrite k v => Sys2Proof.Machine.execSqCtlWrite k v s
  | .windowChangeDone k => Sys2Proof.Machine.execWindowChangeDone k s
  | .sqFlushGo k v => Sys2Proof.Machine.execSqFlushGo k v s
  | .sqFlushDone k => Sys2Proof.Machine.execSqFlushDone k s
  | .meshPacket k plane p => Sys2Proof.Machine.execMeshPacket k plane p s
  | .multicastBranch k plane p => Sys2Proof.Machine.execMulticastBranch k plane p s
  | .deliveredResetTimeout e => Sys2Proof.Machine.execDeliveredResetTimeout e s
  | .barrierArrival e => Sys2Proof.Machine.execBarrierArrival e s
  | .childArrival b child => Sys2Proof.Machine.execChildArrival b child s
  | .parentRelease b gen => Sys2Proof.Machine.execParentRelease b gen s
  | .flagSet f who m => Sys2Proof.Machine.execFlagSet f who m s
  | .flagClear f who m => Sys2Proof.Machine.execFlagClear f who m s
  | .flagWatch f who forSet m => Sys2Proof.Machine.execFlagWatch f who forSet m s
  | .flagAnswer f e a => Sys2Proof.Machine.execFlagAnswer f e a s
  | .watchRetry f e => Sys2Proof.Machine.execWatchRetry f e s
  | .avBarCfgWrite b v => Sys2Proof.Machine.execAvBarCfgWrite b v s
  | .avFlagSetWrite n v => Sys2Proof.Machine.execAvFlagSetWrite n v s
  | .avFlagClrWrite n v => Sys2Proof.Machine.execAvFlagClrWrite n v s
  | .avEpochCommit v => Sys2Proof.Machine.execAvEpochCommit v s
  | .epochStaged u => Sys2Proof.Machine.execEpochStaged u s
  | .epochApply u => Sys2Proof.Machine.execEpochApply u s
  | .epochLate u => Sys2Proof.Machine.execEpochLate u s
  | .xwMarginLow k n b margin => Sys2Proof.Machine.execXwMarginLow k n b margin s
  | .engineReset e => Sys2Proof.Machine.execEngineReset e s
  | .engineResetRelease e sweeps => Sys2Proof.Machine.execEngineResetRelease e sweeps s
  | .layerReset b => Sys2Proof.Machine.execLayerReset b s
  | .layerResetRelease b sweeps => Sys2Proof.Machine.execLayerResetRelease b sweeps s
  | .aonResetBlock => Sys2Proof.Machine.execAonResetBlock s
  | .alwaysOnReset => Sys2Proof.Machine.execAlwaysOnReset s
  | .alwaysOnResetExit => Sys2Proof.Machine.execAlwaysOnResetExit s
  | .resetNAssert => Sys2Proof.Machine.execResetNAssert s
  | .resetNDeassert => Sys2Proof.Machine.execResetNDeassert s
  | .vpmPgLost => Sys2Proof.Machine.execVpmPgLost s
  | .watchdogExpiry => Sys2Proof.Machine.execWatchdogExpiry s
  | .watchdogKick v => Sys2Proof.Machine.execWatchdogKick v s
  | .watchdogEnable v => Sys2Proof.Machine.execWatchdogEnable v s
  | .stageRails => Sys2Proof.Machine.execStageRails s
  | .vpmPgTimeout => Sys2Proof.Machine.execVpmPgTimeout s
  | .stageRom => Sys2Proof.Machine.execStageRom s
  | .stageTripTest failed => Sys2Proof.Machine.execStageTripTest failed s
  | .stageVpm answers => Sys2Proof.Machine.execStageVpm answers s
  | .stageFuses eccOk => Sys2Proof.Machine.execStageFuses eccOk s
  | .stageImages => Sys2Proof.Machine.execStageImages s
  | .stageRepair => Sys2Proof.Machine.execStageRepair s
  | .stageCrosswalk sweeps => Sys2Proof.Machine.execStageCrosswalk sweeps s
  | .stageMemory failedChannels => Sys2Proof.Machine.execStageMemory failedChannels s
  | .stageSelfTest badCores defects fallback => Sys2Proof.Machine.execStageSelfTest badCores defects fallback s
  | .stageFirmware => Sys2Proof.Machine.execStageFirmware s
  | .service => Sys2Proof.Machine.execService s
  | .aonBlockIdWrite v => Sys2Proof.Machine.execAonBlockIdWrite v s
  | .aonMemoGo v => Sys2Proof.Machine.execAonMemoGo v s
  | .memoSealDone readBackOk => Sys2Proof.Machine.execMemoSealDone readBackOk s
  | .aonLedgerGo v => Sys2Proof.Machine.execAonLedgerGo v s
  | .ledgerAppendDone ok => Sys2Proof.Machine.execLedgerAppendDone ok s
  | .plEnable p => Sys2Proof.Machine.execPlEnable p s
  | .plDisable p => Sys2Proof.Machine.execPlDisable p s
  | .plDown p => Sys2Proof.Machine.execPlDown p s
  | .plRekey p => Sys2Proof.Machine.execPlRekey p s
  | .plTwinWinWrite v => Sys2Proof.Machine.execPlTwinWinWrite v s
  | .electricalDone p rxBad txBad memoOk => Sys2Proof.Machine.execElectricalDone p rxBad txBad memoOk s
  | .alignDone p ok asym => Sys2Proof.Machine.execAlignDone p ok asym s
  | .hello p h => Sys2Proof.Machine.execHello p h s
  | .finish p sig => Sys2Proof.Machine.execFinish p sig s
  | .holdoffExpiry p => Sys2Proof.Machine.execHoldoffExpiry p s
  | .flitReceive p bits => Sys2Proof.Machine.execFlitReceive p bits s
  | .idleFlit p => Sys2Proof.Machine.execIdleFlit p s
  | .keyPhaseAdvance p => Sys2Proof.Machine.execKeyPhaseAdvance p s
  | .rekeyTimer p => Sys2Proof.Machine.execRekeyTimer p s
  | .laneErrorWindow p => Sys2Proof.Machine.execLaneErrorWindow p s
  | .laneSwitch p => Sys2Proof.Machine.execLaneSwitch p s
  | .noFlitTimeout p => Sys2Proof.Machine.execNoFlitTimeout p s
  | .packetOriginate who addr op epoch => Sys2Proof.Machine.execPacketOriginate who addr op epoch s
  | .remoteRequest p => Sys2Proof.Machine.execRemoteRequest p s
  | .remoteCompletion p => Sys2Proof.Machine.execRemoteCompletion p s
  | .creditReturn p cls vc cells => Sys2Proof.Machine.execCreditReturn p cls vc cells s
  | .mgtProbe p received src => Sys2Proof.Machine.execMgtProbe p received src s
  | .probeAnswer src => Sys2Proof.Machine.execProbeAnswer src s
  | .probeTimeout b => Sys2Proof.Machine.execProbeTimeout b s
  | .blockLost b onPort => Sys2Proof.Machine.execBlockLost b onPort s
  | .plLostClear n v => Sys2Proof.Machine.execPlLostClear n v s
  | .timeExchange t1 => Sys2Proof.Machine.execTimeExchange t1 s
  | .timeRequest p t1 t2 replayed => Sys2Proof.Machine.execTimeRequest p t1 t2 replayed s
  | .timeReply t2 t3 t4 replayed => Sys2Proof.Machine.execTimeReply t2 t3 t4 replayed s
  | .frEnable p on => Sys2Proof.Machine.execFrEnable p on s
  | .frameReceive p f => Sys2Proof.Machine.execFrameReceive p f s
  | .frRxptrTail p v => Sys2Proof.Machine.execFrRxptrTail p v s
  | .frTxptrTail p v => Sys2Proof.Machine.execFrTxptrTail p v s
  | .txEntrySend p => Sys2Proof.Machine.execTxEntrySend p s
  | .frTxcapWrite p v => Sys2Proof.Machine.execFrTxcapWrite p v s
  | .clientHello o cid digest => Sys2Proof.Machine.execClientHello o cid digest s
  | .dtlsHandshakeDone n chain digest sig rx tx => Sys2Proof.Machine.execDtlsHandshakeDone n chain digest sig rx tx s
  | .dtlsAlert n => Sys2Proof.Machine.execDtlsAlert n s
  | .keyUpdateSend n => Sys2Proof.Machine.execKeyUpdateSend n s
  | .keyUpdateReceive n => Sys2Proof.Machine.execKeyUpdateReceive n s
  | .fspOpen n m => Sys2Proof.Machine.execFspOpen n m s
  | .fspSubmit n m => Sys2Proof.Machine.execFspSubmit n m s
  | .fspStatus n m => Sys2Proof.Machine.execFspStatus n m s
  | .fspSuspend n m => Sys2Proof.Machine.execFspSuspend n m s
  | .fspResume n m => Sys2Proof.Machine.execFspResume n m s
  | .fspCancel n m => Sys2Proof.Machine.execFspCancel n m s
  | .fspClose n m => Sys2Proof.Machine.execFspClose n m s
  | .fspAck n m => Sys2Proof.Machine.execFspAck n m s
  | .fspRetransmit n => Sys2Proof.Machine.execFspRetransmit n s
  | .keepaliveExpiry n => Sys2Proof.Machine.execKeepaliveExpiry n s
  | .keepaliveAck n => Sys2Proof.Machine.execKeepaliveAck n s
  | .operationStart op => Sys2Proof.Machine.execOperationStart op s
  | .operationLoaded op code => Sys2Proof.Machine.execOperationLoaded op code s
  | .operationEngineEvent e ev => Sys2Proof.Machine.execOperationEngineEvent e ev s
  | .telemetryFrame f => Sys2Proof.Machine.execTelemetryFrame f s
  | .telemetryLost => Sys2Proof.Machine.execTelemetryLost s
  | .telRetry => Sys2Proof.Machine.execTelRetry s
  | .pmbAlert words => Sys2Proof.Machine.execPmbAlert words s
  | .pwrPmbGo v => Sys2Proof.Machine.execPwrPmbGo v s
  | .pmbTransactionDone answered data => Sys2Proof.Machine.execPmbTransactionDone answered data s
  | .sliceFail inst group slice => Sys2Proof.Machine.execSliceFail inst group slice s
  | .sliceShed inst group => Sys2Proof.Machine.execSliceShed inst group s
  | .sliceUnshed inst group => Sys2Proof.Machine.execSliceUnshed inst group s
  | .regionSleep r auto => Sys2Proof.Machine.execRegionSleep r auto s
  | .regionWake r => Sys2Proof.Machine.execRegionWake r s
  | .inrushWaitTimeout r => Sys2Proof.Machine.execInrushWaitTimeout r s
  | .regionOn r => Sys2Proof.Machine.execRegionOn r s
  | .regionClearDone r => Sys2Proof.Machine.execRegionClearDone r s
  | .pwrRgCtlWrite r v => Sys2Proof.Machine.execPwrRgCtlWrite r v s
  | .pwrRgRearm r => Sys2Proof.Machine.execPwrRgRearm r s
  | .pwrRgVminRead r => Sys2Proof.Machine.execPwrRgVminRead r s
  | .droopSample r mv => Sys2Proof.Machine.execDroopSample r mv s
  | .droopSkipEnd r => Sys2Proof.Machine.execDroopSkipEnd r s
  | .currentReport r amps => Sys2Proof.Machine.execCurrentReport r amps s
  | .guardDecay r => Sys2Proof.Machine.execGuardDecay r s
  | .capEvaluate mv => Sys2Proof.Machine.execCapEvaluate mv s
  | .preStage e => Sys2Proof.Machine.execPreStage e s
  | .phaseEnd e => Sys2Proof.Machine.execPhaseEnd e s
  | .pwrCapWrite v => Sys2Proof.Machine.execPwrCapWrite v s
  | .pwrRgCeilWrite r v => Sys2Proof.Machine.execPwrRgCeilWrite r v s
  | .adcRoundEnd r => Sys2Proof.Machine.execAdcRoundEnd r s
  | .adcFail counts => Sys2Proof.Machine.execAdcFail counts s
  | .flowEdge => Sys2Proof.Machine.execFlowEdge s
  | .flowTimeout => Sys2Proof.Machine.execFlowTimeout s
  | .thmLimWrite which v => Sys2Proof.Machine.execThmLimWrite which v s
  | .thmSuspectClear n v => Sys2Proof.Machine.execThmSuspectClear n v s
  | .thmBrokenClear n v => Sys2Proof.Machine.execThmBrokenClear n v s
  | .tripFire c => Sys2Proof.Machine.execTripFire c s
  | .clkStepReq v => Sys2Proof.Machine.execClkStepReq v s
  | .stepChange => Sys2Proof.Machine.execStepChange s
  | .vcoreSettleEnd => Sys2Proof.Machine.execVcoreSettleEnd s
  | .stepPause found => Sys2Proof.Machine.execStepPause found s
  | .referenceLost => Sys2Proof.Machine.execReferenceLost s
  | .referenceRestored => Sys2Proof.Machine.execReferenceRestored s
  | .crystalLost => Sys2Proof.Machine.execCrystalLost s
  | .pllLockTimeout e => Sys2Proof.Machine.execPllLockTimeout e s
  | .pllLockLost e => Sys2Proof.Machine.execPllLockLost e s
  | .canaryWindow e below5 below10 => Sys2Proof.Machine.execCanaryWindow e below5 below10 s
  | .clkBtimeAdjWrite v => Sys2Proof.Machine.execClkBtimeAdjWrite v s
  | .clkPllFailClear e v => Sys2Proof.Machine.execClkPllFailClear e v s
  | .secEnroll parity badFuse => Sys2Proof.Machine.execSecEnroll parity badFuse s
  | .secSign parity => Sys2Proof.Machine.execSecSign parity s
  | .secExtend parity => Sys2Proof.Machine.execSecExtend parity s
  | .secQuote parity => Sys2Proof.Machine.execSecQuote parity s
  | .secSvnAdv badFuse => Sys2Proof.Machine.execSecSvnAdv badFuse s
  | .secNonce fresh => Sys2Proof.Machine.execSecNonce fresh s
  | .secCert => Sys2Proof.Machine.execSecCert s
  | .secDebug parity => Sys2Proof.Machine.execSecDebug parity s
  | .tapIdcode => Sys2Proof.Machine.execTapIdcode s
  | .tapNonceRead => Sys2Proof.Machine.execTapNonceRead s
  | .tapTokenLoad record => Sys2Proof.Machine.execTapTokenLoad record s
  | .tapBypass ir => Sys2Proof.Machine.execTapBypass ir s
  | .errorReport r => Sys2Proof.Machine.execErrorReport r s
  | .entryClose => Sys2Proof.Machine.execEntryClose s
  | .elogFlush => Sys2Proof.Machine.execElogFlush s
  | .stormMaskEnd cls inst sub => Sys2Proof.Machine.execStormMaskEnd cls inst sub s
  | .elogTailWrite v => Sys2Proof.Machine.execElogTailWrite v s
  | .gaugeSample g value stamp => Sys2Proof.Machine.execGaugeSample g value stamp s
  | .periodBoundary g => Sys2Proof.Machine.execPeriodBoundary g s
  | .gaugeLatch g => Sys2Proof.Machine.execGaugeLatch g s
  | .gaugeCfgWrite g v => Sys2Proof.Machine.execGaugeCfgWrite g v s
  | .gaugePeriodWrite g v => Sys2Proof.Machine.execGaugePeriodWrite g v s
  | .inputEdge n level => Sys2Proof.Machine.execInputEdge n level s
  | .chatterWindowEnd => Sys2Proof.Machine.execChatterWindowEnd s
  | .inputStuck n => Sys2Proof.Machine.execInputStuck n s
  | .pinFaultClear v => Sys2Proof.Machine.execPinFaultClear v s
  | .tollRateWrite p v => Sys2Proof.Machine.execTollRateWrite p v s
  | .lndCeCountRead e => Sys2Proof.Machine.execLndCeCountRead e s
  | .lndUeCountRead e => Sys2Proof.Machine.execLndUeCountRead e s
  | .lndPoisonRead e => Sys2Proof.Machine.execLndPoisonRead e s
  | .lndRefreshRead e => Sys2Proof.Machine.execLndRefreshRead e s
  | .sqRefetchRead k => Sys2Proof.Machine.execSqRefetchRead k s
  | .sqPoisonRead k => Sys2Proof.Machine.execSqPoisonRead k s
  | .bauCountsRead e => Sys2Proof.Machine.execBauCountsRead e s
  | .avDiscardRead k => Sys2Proof.Machine.execAvDiscardRead k s
  | .plFecCountRead p => Sys2Proof.Machine.execPlFecCountRead p s
  | .plRetryRead p => Sys2Proof.Machine.execPlRetryRead p s
  | .tollCountRead p => Sys2Proof.Machine.execTollCountRead p s
  | .frCountRead p => Sys2Proof.Machine.execFrCountRead p s
  | .frDropRead p => Sys2Proof.Machine.execFrDropRead p s
  | .frFecRead p => Sys2Proof.Machine.execFrFecRead p s
  | .pwrRgDroopRead r => Sys2Proof.Machine.execPwrRgDroopRead r s
  | .thmStepRead => Sys2Proof.Machine.execThmStepRead s
  | .clkStatusRead => Sys2Proof.Machine.execClkStatusRead s
  | .clkStepRead => Sys2Proof.Machine.execClkStepRead s
  | .clkPllRead e => Sys2Proof.Machine.execClkPllRead e s
  | .clkCanaryRead e => Sys2Proof.Machine.execClkCanaryRead e s
  | .elogCountsRead => Sys2Proof.Machine.execElogCountsRead s
  | .elogSumRead n => Sys2Proof.Machine.execElogSumRead n s
  | .registerWrite offset v => Sys2Proof.Machine.execRegisterWrite offset v s
  | .vpmPowerGood => Sys2Proof.Machine.execVpmPowerGood s
  | .frontageLinkChange p up => Sys2Proof.Machine.execFrontageLinkChange p up s
  | .securityOperationDone => Sys2Proof.Machine.execSecurityOperationDone s
  | .squareGoesDark k => Sys2Proof.Machine.execSquareGoesDark k s
  | .vaonOrAuxAbsent => Sys2Proof.Machine.execVaonOrAuxAbsent s
  | .fspReservedType n m => Sys2Proof.Machine.execFspReservedType n m s

end Sys2Proof.Machine
end

