-- ==== Sys2Proof/WellFormed.lean ====
section
/-! DEFINITION. Well-formed commands: operands in the ranges that the spec gives them, where their types allow more. -/
namespace Sys2Proof

/-- An access names at least one byte. -/
def MemOp.wf (op : MemOp) : Bool := decide (1 ≤ op.size)

/-- A transaction stays within one 64-byte sector (R152, R254). -/
def MemReq.wf (r : MemReq) : Bool := r.op.wf && decide (r.addr.toNat % 64 + r.op.size ≤ 64)

/-- A source of the error log: class, instance and sub-unit of 8, 12 and 8 bits (R524). -/
def sourceWf (cls inst sub : Nat) : Bool := decide (cls < 256) && decide (inst < 4096) && decide (sub < 256)

/-- A report: its source, and a severity of 0-3 (R524, R525). -/
def Report.wf (r : Report) : Bool := sourceWf r.cls r.inst r.sub && decide (r.sev ≤ 3)

/-- A slice of a group of a power instance (R36, R412). -/
def sliceWf (inst group slice : Nat) : Bool :=
  if inst = 121 then decide (group < 40) && decide (slice < 16)
  else if inst = 122 then decide (group < 4) && decide (slice < 16)
  else decide (1 ≤ inst) && decide (inst ≤ 120) && group == 0 && decide (slice < (if inst ≤ 80 then 16 else 8))

/-- Nodes of the thermal model: 0-959 (R445). -/
def countsWf (l : List (Nat × List Nat)) : Bool := l.all fun q => decide (q.1 < 960)

/-- A housekeeping round: diodes 0-751, thermistors 0-5 (R435, R436). -/
def AdcRound.wf (r : AdcRound) : Bool :=
  (r.diodes.all fun q => decide (q.1 < 752)) && (r.therms.all fun q => decide (q.1 < 6)) && countsWf r.counts

/-- A HELLO: a 32-byte nonce and a 97-byte public key (R356). -/
def Hello.wf (h : Hello) : Bool := h.nonce.length == 32 && h.pubKey.length == 97

/-- What arrives on the lanes of a port: distinct physical lanes 0-33 (R339, R340). -/
def laneBitsWf (l : LaneBits) : Bool := (l.all fun q => decide (q.1 < 34)) && decide (l.map (·.1)).Nodup

/-- A command is well formed. -/
def Instr.wf : Instr → Bool
  | .controlCoreAccess _ _ _ op => op.wf
  | .packetOriginate _ _ op _ => op.wf
  | .verticalChannelRequest _ _ r _ => r.wf
  | .squareRequest _ r _ => r.wf
  | .stormMaskEnd cls inst sub => sourceWf cls inst sub
  | .errorReport (some r) => r.wf
  | .sliceFail i g n => sliceWf i g n
  | .sliceShed i g => sliceWf i g 0
  | .sliceUnshed i g => sliceWf i g 0
  | .pmbAlert words => words.length == 4
  | .tapTokenLoad record => record.length == 4096
  | .adcRoundEnd r => r.wf
  | .adcFail counts => countsWf counts
  | .stageCrosswalk sweeps => sweeps.all fun q => decide (q.1 < 35840)
  | .stepPause found => found.all fun q => decide (q.1 < 4480)
  | .engineResetRelease _ sweeps => sweeps.length == 8
  | .layerResetRelease _ sweeps => sweeps.all fun q => q.2.length == 8
  | .hello _ h => h.wf
  | .finish _ sig => sig.length == 96
  | .flitReceive _ bits => laneBitsWf bits
  | .clientHello _ _ digest => digest.length == 48
  | .dtlsHandshakeDone _ _ digest sig rx tx => digest.length == 48 && sig.length == 96 && rx.length == 48 && tx.length == 48
  | _ => true

end Sys2Proof
end

