-- ==== Sys2Proof/Safety.lean ====
section
/-! DEFINITION. What the claims speak of: the canonical form of the sparse tables, the parts of the state that a command leaves alone, and a step
that goes on. -/
namespace Sys2Proof.Machine

/-- The memory is in its canonical form: keys strictly rising, and no entry equal to what an unlisted byte reads as. -/
abbrev Memory.wf (m : List Host.Cell) : Bool := Tbl.wf memDefault m

/-- The register file is in its canonical form. -/
def State.regsWf (s : State) : Bool := Tbl.wf regReset s.regs

/-- Every sparse table of the state is in its canonical form, so that equal contents are equal data. -/
structure State.Canon (s : State) : Prop where
  regs : Tbl.wf regReset s.regs = true
  mem : Memory.wf s.mem = true
  banks : Tbl.wf (fun _ => Bank.idle) s.banks = true
  marks : Tbl.wf (fun _ => 0) s.marks = true
  spareRow : Tbl.wf (fun _ => 0) s.spareRow = true
  taps : Tbl.wf (fun _ => 0) s.taps = true
  margins : Tbl.wf (fun _ => 0) s.margins = true
  otp : Tbl.wf (fun _ => 0#32) s.sec.otp = true

/-- Every fuse that is blown in `s` is blown in `t` (R499). -/
def State.FusesKept (s t : State) : Prop := ∀ w i, nbit (s.otp w) i = true → nbit (t.otp w) i = true

/-- The two bounds of the error log (R526, R527). -/
structure Elog.Bounded (e : Elog) : Prop where
  queue : e.queue.length ≤ 256
  opened : e.opened.length ≤ 64

/-- A part of the state: a field, or what the security unit keeps in three parts (its fuses, its measurements, the rest). -/
inductive Part where
  | regs | mem | clock | pins | engines | hints | banks | marks | landq | scrubAt | spareRow | squares | mesh | parked | bars | watches | lateLogged | taps | margins | power | net | boot | front | thermal | elog | gauges | outbox | drawn | otp | mrs | sec
  deriving DecidableEq, Repr

/-- A part is the same in two states. -/
def Part.Same (p : Part) (s t : State) : Prop :=
  match p with
  | .regs => t.regs = s.regs
  | .mem => t.mem = s.mem
  | .clock => t.clock = s.clock
  | .pins => t.pins = s.pins
  | .engines => t.engines = s.engines
  | .hints => t.hints = s.hints
  | .banks => t.banks = s.banks
  | .marks => t.marks = s.marks
  | .landq => t.landq = s.landq
  | .scrubAt => t.scrubAt = s.scrubAt
  | .spareRow => t.spareRow = s.spareRow
  | .squares => t.squares = s.squares
  | .mesh => t.mesh = s.mesh
  | .parked => t.parked = s.parked
  | .bars => t.bars = s.bars
  | .watches => t.watches = s.watches
  | .lateLogged => t.lateLogged = s.lateLogged
  | .taps => t.taps = s.taps
  | .margins => t.margins = s.margins
  | .power => t.power = s.power
  | .net => t.net = s.net
  | .boot => t.boot = s.boot
  | .front => t.front = s.front
  | .thermal => t.thermal = s.thermal
  | .elog => t.elog = s.elog
  | .gauges => t.gauges = s.gauges
  | .outbox => t.outbox = s.outbox
  | .drawn => t.drawn = s.drawn
  | .otp => t.sec.otp = s.sec.otp
  | .mrs => t.sec.mrs = s.sec.mrs
  | .sec => (t.sec.job, t.sec.req, t.sec.signed, t.sec.cdi, t.sec.cert, t.sec.tapOut) = (s.sec.job, s.sec.req, s.sec.signed, s.sec.cdi, s.sec.cert, s.sec.tapOut)

/-- Nothing but the parts named, and the queue of commands, may differ. -/
def OnlyParts (ps : List Part) (s t : State) : Prop := ∀ p, p ∉ ps → p.Same s t

/-- No engine but those named differs. -/
def OnlyEngines (es : EngineId → Prop) (s t : State) : Prop := ∀ e, ¬ es e → t.eng e = s.eng e

/-- The parts of the state that a command may change. -/
def partsOf : Instr → List Part
  | .keyPhaseAdvance .. | .probeAnswer .. =>
    [.net]
  | .stageFirmware .. =>
    [.boot]
  | .bauModeApply .. | .epochStaged .. | .epochApply .. | .stageRom .. | .service .. | .aonBlockIdWrite .. | .plTwinWinWrite ..
  | .plLostClear .. | .frEnable .. | .frRxptrTail .. | .frTxptrTail .. | .pmbTransactionDone .. | .pwrRgVminRead .. | .guardDecay ..
  | .pwrCapWrite .. | .pwrRgCeilWrite .. | .thmLimWrite .. | .clkStepReq .. | .clkBtimeAdjWrite .. | .clkPllFailClear .. | .tapBypass ..
  | .elogTailWrite .. | .gaugePeriodWrite .. | .tollRateWrite .. | .lndCeCountRead .. | .lndUeCountRead .. | .lndPoisonRead ..
  | .lndRefreshRead .. | .sqRefetchRead .. | .sqPoisonRead .. | .bauCountsRead .. | .avDiscardRead .. | .plFecCountRead ..
  | .plRetryRead .. | .tollCountRead .. | .frCountRead .. | .frDropRead .. | .frFecRead .. | .pwrRgDroopRead .. | .thmStepRead ..
  | .clkStatusRead .. | .clkStepRead .. | .clkPllRead .. | .clkCanaryRead .. | .elogCountsRead .. | .elogSumRead ..
  | .frontageLinkChange .. =>
    [.regs]
  | .rowCloseTimeout .. | .refresh .. =>
    [.banks]
  | .vcoreSettleEnd .. =>
    [.clock]
  | .telRetry .. | .sliceShed .. | .sliceUnshed .. | .inrushWaitTimeout .. | .droopSkipEnd .. =>
    [.power]
  | .gaugeSample .. =>
    [.gauges]
  | .instructionComplete .. | .ctlNop .. | .ctlYield .. | .ctlSets .. | .ctlAlu .. | .ctlCmp .. | .ctlTset .. | .ctlTadv .. | .sfnSwap ..
  | .ringWaitTimeout .. | .bauAdd .. | .bauAxpy .. | .bauScale .. | .bauFill .. | .bauCopy .. | .bauQnt .. | .bauDqt .. | .bauOpt ..
  | .bauSum .. | .bauMaxabs .. | .bauWait .. | .syncFence .. | .syncBar .. | .syncEpoch .. | .cfgSet .. | .cfgGet .. | .streamGrant ..
  | .resultBufferReserve .. =>
    [.engines]
  | .flowEdge .. | .flowTimeout .. =>
    [.thermal]
  | .frameReceive .. =>
    [.regs, .mem]
  | .holdoffExpiry .. =>
    [.regs, .net]
  | .tapTokenLoad .. =>
    [.regs, .otp]
  | .secNonce .. | .securityOperationDone .. =>
    [.regs, .sec]
  | .keyUpdateReceive .. =>
    [.mem, .front]
  | .alwaysOnResetExit .. | .watchdogKick .. | .watchdogEnable .. | .aonMemoGo .. | .aonLedgerGo .. | .referenceRestored .. =>
    [.regs, .boot]
  | .crystalLost .. | .canaryWindow .. | .stormMaskEnd .. | .inputStuck .. =>
    [.regs, .elog]
  | .stageRails .. | .pinFaultClear .. | .vpmPowerGood .. =>
    [.regs, .pins]
  | .tapIdcode .. | .tapNonceRead .. =>
    [.outbox, .sec]
  | .refreshDue .. | .refreshCatchup .. =>
    [.regs, .banks]
  | .frTxcapWrite .. =>
    [.regs, .front]
  | .phaseEnd .. =>
    [.regs, .hints]
  | .regionWake .. | .pwrRgCtlWrite .. | .pwrRgRearm .. | .currentReport .. =>
    [.regs, .power]
  | .gaugeLatch .. =>
    [.regs, .gauges]
  | .fspSubmit .. | .fspStatus .. | .fspAck .. | .keepaliveAck .. | .fspReservedType .. =>
    [.front, .outbox]
  | .instructionIssue .. | .instructionRetire .. | .ctlBr .. | .ctlLoop .. | .ctlEndl .. | .waveRelease .. | .checkPassDone ..
  | .bauBusTransfer .. | .flagAnswer .. =>
    [.regs, .engines]
  | .sqCtlWrite .. | .sqFlushGo .. =>
    [.regs, .squares]
  | .thmSuspectClear .. | .thmBrokenClear .. =>
    [.regs, .thermal]
  | .ctlPhase .. =>
    [.engines, .hints]
  | .secSign .. | .secQuote .. | .secCert .. =>
    [.regs, .mem, .sec]
  | .secEnroll .. | .secSvnAdv .. | .secDebug .. =>
    [.regs, .otp, .sec]
  | .avEpochCommit .. =>
    [.regs, .lateLogged]
  | .laneSwitch .. =>
    [.regs, .net, .elog]
  | .memoSealDone .. | .ledgerAppendDone .. =>
    [.regs, .mem, .drawn]
  | .resetNDeassert .. =>
    [.regs, .pins, .boot]
  | .chatterWindowEnd .. =>
    [.regs, .pins, .elog]
  | .telemetryFrame .. | .telemetryLost .. | .droopSample .. | .capEvaluate .. =>
    [.regs, .power, .elog]
  | .clientHello .. =>
    [.front, .outbox, .sec]
  | .keyUpdateSend .. =>
    [.mem, .front, .outbox]
  | .plRekey .. | .rekeyTimer .. =>
    [.net, .outbox, .drawn]
  | .periodBoundary .. | .gaugeCfgWrite .. =>
    [.regs, .elog, .gauges]
  | .pmbAlert .. =>
    [.regs, .elog, .outbox]
  | .preStage .. =>
    [.regs, .hints, .power]
  | .inputEdge .. =>
    [.regs, .pins, .outbox]
  | .stepChange .. =>
    [.regs, .clock, .outbox]
  | .xwMarginLow .. =>
    [.regs, .margins, .elog]
  | .pwrPmbGo .. =>
    [.regs, .power, .outbox]
  | .engineReset .. | .layerReset .. =>
    [.regs, .engines, .hints]
  | .engPgcmdGo .. =>
    [.regs, .engines, .power]
  | .sqFlushDone .. =>
    [.regs, .marks, .squares]
  | .secExtend .. =>
    [.regs, .mem, .mrs, .sec]
  | .epochLate .. =>
    [.regs, .lateLogged, .elog]
  | .errorReport .. | .entryClose .. | .elogFlush .. =>
    [.regs, .mem, .elog, .outbox]
  | .remoteCompletion .. =>
    [.regs, .mesh, .net, .outbox]
  | .idleFlit .. | .laneErrorWindow .. | .creditReturn .. | .timeExchange .. | .timeRequest .. =>
    [.regs, .net, .elog, .outbox]
  | .txEntrySend .. =>
    [.regs, .mem, .front, .outbox]
  | .windowChangeDone .. =>
    [.regs, .mem, .marks, .squares]
  | .deliveredResetTimeout .. =>
    [.regs, .mesh, .parked, .outbox]
  | .adcRoundEnd .. | .adcFail .. =>
    [.regs, .thermal, .elog, .drawn]
  | .ctlHalt .. | .yieldSuspend .. | .cancelDrained .. =>
    [.regs, .engines, .hints, .outbox]
  | .landingRecallDone .. =>
    [.regs, .engines, .marks, .squares]
  | .stageTripTest .. | .plEnable .. | .plDisable .. | .packetOriginate .. =>
    [.regs, .mesh, .net, .elog, .outbox]
  | .timeReply .. =>
    [.regs, .clock, .net, .elog, .gauges]
  | .scrubRead .. =>
    [.regs, .banks, .marks, .scrubAt, .elog]
  | .pllLockTimeout .. | .pllLockLost .. =>
    [.regs, .engines, .hints, .power, .elog]
  | .enterFaulted .. =>
    [.regs, .engines, .hints, .elog, .outbox]
  | .regionSleep .. =>
    [.regs, .mem, .engines, .squares, .power]
  | .engStart .. | .engSuspend .. | .engResume .. | .engCancel .. | .engClear .. =>
    [.regs, .engines, .hints, .power, .outbox]
  | .ctlPage .. | .ctlLds .. | .matMul .. | .matCvt .. | .vecBin .. | .vecFma .. | .vecUn .. | .vecRed .. | .vecSel .. | .sfnEval ..
  | .sfnLoad .. | .nrmStat .. | .nrmLn .. | .nrmRms .. | .attRun .. | .attMerge .. | .attRing .. | .ringChunkReady .. | .pageLoadDone ..
  | .streamReadReturn .. | .broadcastAccept .. =>
    [.regs, .engines, .marks, .squares, .elog]
  | .stageFuses .. =>
    [.regs, .mesh, .net, .boot, .elog, .outbox]
  | .vpmPgTimeout .. =>
    [.regs, .pins, .mesh, .net, .elog, .outbox]
  | .stageVpm .. =>
    [.regs, .clock, .mesh, .net, .elog, .outbox]
  | .syncFlag .. | .watchRetry .. =>
    [.regs, .engines, .mesh, .net, .elog, .outbox]
  | .flagWatch .. =>
    [.regs, .mesh, .watches, .net, .elog, .outbox]
  | .stepPause .. =>
    [.regs, .clock, .taps, .margins, .elog, .outbox]
  | .scaleRecordUpdate .. | .bauResultWrite .. | .optRecordUpdate .. =>
    [.regs, .mem, .engines, .marks, .squares, .elog]
  | .engineResetRelease .. | .layerResetRelease .. =>
    [.regs, .engines, .taps, .margins, .elog, .drawn]
  | .fspResume .. =>
    [.regs, .engines, .hints, .power, .front, .outbox]
  | .barrierArrival .. | .childArrival .. | .parentRelease .. | .avBarCfgWrite .. =>
    [.regs, .engines, .mesh, .bars, .net, .elog, .outbox]
  | .flagSet .. | .flagClear .. | .avFlagSetWrite .. | .avFlagClrWrite .. | .plDown .. | .finish .. | .flitReceive .. | .noFlitTimeout ..
  | .mgtProbe .. | .probeTimeout .. | .blockLost .. =>
    [.regs, .engines, .mesh, .watches, .net, .elog, .outbox]
  | .bauStep .. =>
    [.regs, .mem, .engines, .banks, .marks, .squares, .elog]
  | .ctlSts .. | .ringForwardStart .. | .ringForwardDone .. | .ringStepEnd .. | .drainWriteDone .. =>
    [.regs, .mem, .engines, .marks, .squares, .elog, .outbox]
  | .contextReadDone .. =>
    [.regs, .engines, .hints, .marks, .squares, .elog, .outbox]
  | .verticalChannelRequest .. | .squareRequest .. =>
    [.regs, .mem, .marks, .landq, .squares, .mesh, .elog, .outbox]
  | .electricalDone .. | .alignDone .. =>
    [.regs, .engines, .mesh, .watches, .net, .elog, .outbox, .drawn]
  | .contextWriteDone .. =>
    [.regs, .mem, .engines, .hints, .marks, .squares, .elog, .outbox]
  | .movCopy .. | .movMcast .. =>
    [.regs, .mem, .engines, .marks, .squares, .elog, .outbox, .drawn]
  | .stageImages .. =>
    [.regs, .mem, .mesh, .net, .boot, .thermal, .elog, .outbox, .mrs]
  | .hello .. =>
    [.regs, .engines, .mesh, .watches, .net, .elog, .outbox, .drawn, .sec]
  | .bankAccess .. | .plazaFillDone .. =>
    [.regs, .mem, .banks, .marks, .landq, .squares, .mesh, .elog, .outbox]
  | .operationStart .. =>
    [.regs, .mem, .engines, .marks, .squares, .power, .front, .elog, .outbox]
  | .remoteAccessTimeout .. =>
    [.regs, .mem, .engines, .marks, .squares, .mesh, .net, .elog, .outbox, .drawn]
  | .stageCrosswalk .. =>
    [.regs, .clock, .engines, .mesh, .taps, .margins, .net, .elog, .outbox, .drawn]
  | .multicastBranch .. | .regionOn .. =>
    [.regs, .mem, .marks, .landq, .squares, .mesh, .parked, .power, .elog, .outbox]
  | .fspSuspend .. | .fspCancel .. | .operationLoaded .. | .operationEngineEvent .. =>
    [.regs, .engines, .hints, .marks, .squares, .power, .front, .elog, .outbox, .drawn]
  | .meshPacket .. | .remoteRequest .. =>
    [.regs, .mem, .marks, .landq, .squares, .mesh, .parked, .power, .net, .elog, .outbox]
  | .dtlsHandshakeDone .. | .dtlsAlert .. | .fspOpen .. | .fspClose .. | .fspRetransmit .. | .keepaliveExpiry .. =>
    [.regs, .mem, .engines, .hints, .marks, .squares, .power, .front, .elog, .outbox, .drawn]
  | .regionClearDone .. | .squareGoesDark .. =>
    [.regs, .mem, .engines, .marks, .landq, .squares, .mesh, .parked, .power, .elog, .outbox]
  | .controlCoreAccess .. | .aonResetBlock .. | .alwaysOnReset .. | .resetNAssert .. | .vpmPgLost .. | .watchdogExpiry .. | .stageRepair ..
  | .stageMemory .. | .stageSelfTest .. | .sliceFail .. | .tripFire .. | .referenceLost .. | .registerWrite .. | .vaonOrAuxAbsent .. =>
    [.regs, .mem, .clock, .pins, .engines, .hints, .banks, .marks, .landq, .scrubAt, .spareRow, .squares, .mesh, .parked, .bars, .watches, .lateLogged, .taps, .margins, .power, .net, .boot, .front, .thermal, .elog, .gauges, .outbox, .drawn, .mrs, .sec]

/-- The engine of a command that changes no other engine. -/
def engineOf : Instr → Option EngineId
  | .instructionIssue e _ => some e
  | .instructionComplete e _ => some e
  | .instructionRetire e => some e
  | .enterFaulted e => some e
  | .ctlNop e => some e
  | .ctlBr e => some e
  | .ctlLoop e => some e
  | .ctlEndl e => some e
  | .ctlYield e => some e
  | .ctlPhase e => some e
  | .ctlPage e _ => some e
  | .ctlHalt e => some e
  | .ctlSets e => some e
  | .ctlAlu e => some e
  | .ctlCmp e => some e
  | .ctlTset e => some e
  | .ctlTadv e => some e
  | .ctlLds e _ => some e
  | .ctlSts e _ => some e
  | .matMul e _ => some e
  | .matCvt e _ => some e
  | .vecBin e _ => some e
  | .vecFma e _ => some e
  | .vecUn e _ => some e
  | .vecRed e _ => some e
  | .vecSel e _ => some e
  | .sfnEval e _ => some e
  | .sfnLoad e _ => some e
  | .sfnSwap e => some e
  | .nrmStat e _ => some e
  | .nrmLn e _ => some e
  | .nrmRms e _ => some e
  | .attRun e _ => some e
  | .attMerge e _ => some e
  | .attRing e => some e
  | .ringChunkReady e _ => some e
  | .ringForwardStart e => some e
  | .ringForwardDone e _ _ => some e
  | .ringStepEnd e _ => some e
  | .ringWaitTimeout e => some e
  | .movCopy e _ => some e
  | .movMcast e _ => some e
  | .bauAdd e => some e
  | .bauAxpy e => some e
  | .bauScale e => some e
  | .bauFill e => some e
  | .bauCopy e => some e
  | .bauQnt e => some e
  | .bauDqt e => some e
  | .bauOpt e => some e
  | .bauSum e => some e
  | .bauMaxabs e => some e
  | .bauWait e => some e
  | .syncFence e => some e
  | .syncBar e => some e
  | .syncFlag e => some e
  | .syncEpoch e => some e
  | .cfgSet e => some e
  | .cfgGet e => some e
  | .engStart e _ => some e
  | .engSuspend e _ => some e
  | .engResume e _ => some e
  | .engCancel e _ => some e
  | .engClear e _ => some e
  | .yieldSuspend e => some e
  | .contextWriteDone e _ => some e
  | .contextReadDone e _ => some e
  | .cancelDrained e => some e
  | .engPgcmdGo e _ => some e
  | .pageLoadDone e _ => some e
  | .streamGrant e => some e
  | .resultBufferReserve e => some e
  | .streamReadReturn e _ _ => some e
  | .drainWriteDone e _ => some e
  | .scaleRecordUpdate e _ => some e
  | .remoteAccessTimeout e _ => some e
  | .broadcastAccept e => some e
  | .landingRecallDone e => some e
  | .waveRelease e => some e
  | .checkPassDone e => some e
  | .bauStep e _ _ => some e
  | .bauBusTransfer e _ => some e
  | .bauResultWrite e => some e
  | .optRecordUpdate e => some e
  | .flagAnswer _ e _ => some e
  | .watchRetry _ e => some e
  | .engineReset e => some e
  | .engineResetRelease e _ => some e
  | .pllLockTimeout e => some e
  | .pllLockLost e => some e
  | .controlCoreAccess .. | .bauModeApply .. | .verticalChannelRequest .. | .bankAccess .. | .rowCloseTimeout .. | .refreshDue ..
  | .refresh .. | .refreshCatchup .. | .scrubRead .. | .squareRequest .. | .plazaFillDone .. | .sqCtlWrite .. | .windowChangeDone ..
  | .sqFlushGo .. | .sqFlushDone .. | .meshPacket .. | .multicastBranch .. | .deliveredResetTimeout .. | .barrierArrival ..
  | .childArrival .. | .parentRelease .. | .flagSet .. | .flagClear .. | .flagWatch .. | .avBarCfgWrite .. | .avFlagSetWrite ..
  | .avFlagClrWrite .. | .avEpochCommit .. | .epochStaged .. | .epochApply .. | .epochLate .. | .xwMarginLow .. | .layerReset ..
  | .layerResetRelease .. | .aonResetBlock .. | .alwaysOnReset .. | .alwaysOnResetExit .. | .resetNAssert .. | .resetNDeassert ..
  | .vpmPgLost .. | .watchdogExpiry .. | .watchdogKick .. | .watchdogEnable .. | .stageRails .. | .vpmPgTimeout .. | .stageRom ..
  | .stageTripTest .. | .stageVpm .. | .stageFuses .. | .stageImages .. | .stageRepair .. | .stageCrosswalk .. | .stageMemory ..
  | .stageSelfTest .. | .stageFirmware .. | .service .. | .aonBlockIdWrite .. | .aonMemoGo .. | .memoSealDone .. | .aonLedgerGo ..
  | .ledgerAppendDone .. | .plEnable .. | .plDisable .. | .plDown .. | .plRekey .. | .plTwinWinWrite .. | .electricalDone ..
  | .alignDone .. | .hello .. | .finish .. | .holdoffExpiry .. | .flitReceive .. | .idleFlit .. | .keyPhaseAdvance .. | .rekeyTimer ..
  | .laneErrorWindow .. | .laneSwitch .. | .noFlitTimeout .. | .packetOriginate .. | .remoteRequest .. | .remoteCompletion ..
  | .creditReturn .. | .mgtProbe .. | .probeAnswer .. | .probeTimeout .. | .blockLost .. | .plLostClear .. | .timeExchange ..
  | .timeRequest .. | .timeReply .. | .frEnable .. | .frameReceive .. | .frRxptrTail .. | .frTxptrTail .. | .txEntrySend ..
  | .frTxcapWrite .. | .clientHello .. | .dtlsHandshakeDone .. | .dtlsAlert .. | .keyUpdateSend .. | .keyUpdateReceive .. | .fspOpen ..
  | .fspSubmit .. | .fspStatus .. | .fspSuspend .. | .fspResume .. | .fspCancel .. | .fspClose .. | .fspAck .. | .fspRetransmit ..
  | .keepaliveExpiry .. | .keepaliveAck .. | .operationStart .. | .operationLoaded .. | .operationEngineEvent .. | .telemetryFrame ..
  | .telemetryLost .. | .telRetry .. | .pmbAlert .. | .pwrPmbGo .. | .pmbTransactionDone .. | .sliceFail .. | .sliceShed ..
  | .sliceUnshed .. | .regionSleep .. | .regionWake .. | .inrushWaitTimeout .. | .regionOn .. | .regionClearDone .. | .pwrRgCtlWrite ..
  | .pwrRgRearm .. | .pwrRgVminRead .. | .droopSample .. | .droopSkipEnd .. | .currentReport .. | .guardDecay .. | .capEvaluate ..
  | .preStage .. | .phaseEnd .. | .pwrCapWrite .. | .pwrRgCeilWrite .. | .adcRoundEnd .. | .adcFail .. | .flowEdge .. | .flowTimeout ..
  | .thmLimWrite .. | .thmSuspectClear .. | .thmBrokenClear .. | .tripFire .. | .clkStepReq .. | .stepChange .. | .vcoreSettleEnd ..
  | .stepPause .. | .referenceLost .. | .referenceRestored .. | .crystalLost .. | .canaryWindow .. | .clkBtimeAdjWrite ..
  | .clkPllFailClear .. | .secEnroll .. | .secSign .. | .secExtend .. | .secQuote .. | .secSvnAdv .. | .secNonce .. | .secCert ..
  | .secDebug .. | .tapIdcode .. | .tapNonceRead .. | .tapTokenLoad .. | .tapBypass .. | .errorReport .. | .entryClose .. | .elogFlush ..
  | .stormMaskEnd .. | .elogTailWrite .. | .gaugeSample .. | .periodBoundary .. | .gaugeLatch .. | .gaugeCfgWrite .. | .gaugePeriodWrite ..
  | .inputEdge .. | .chatterWindowEnd .. | .inputStuck .. | .pinFaultClear .. | .tollRateWrite .. | .lndCeCountRead .. | .lndUeCountRead ..
  | .lndPoisonRead .. | .lndRefreshRead .. | .sqRefetchRead .. | .sqPoisonRead .. | .bauCountsRead .. | .avDiscardRead ..
  | .plFecCountRead .. | .plRetryRead .. | .tollCountRead .. | .frCountRead .. | .frDropRead .. | .frFecRead .. | .pwrRgDroopRead ..
  | .thmStepRead .. | .clkStatusRead .. | .clkStepRead .. | .clkPllRead .. | .clkCanaryRead .. | .elogCountsRead .. | .elogSumRead ..
  | .registerWrite .. | .vpmPowerGood .. | .frontageLinkChange .. | .securityOperationDone .. | .squareGoesDark .. | .vaonOrAuxAbsent ..
  | .fspReservedType .. => none

/-- A command answers a next state, and `P` holds of it. -/
def Answers (c : Instr) (s : State) (P : State → Prop) : Prop := ∃ t, exec c s = .next t ∧ P t

/-- No register but those with the keys named differs. -/
def OnlyKeys (ks : List Nat) (s t : State) : Prop := ∀ k, k ∉ ks → t.rd k = s.rd k

/-- Two fields share no bit: they lie in different registers, or in different bits of one. -/
abbrev Apart (g : Field) (i j : Nat) (f : Field) (i' j' : Nat) : Prop :=
  g.reg.key i j ≠ f.reg.key i' j' ∨ g.lo + g.w ≤ f.lo ∨ f.lo + f.w ≤ g.lo

/-- A field that lies within its register. -/
abbrev Field.fits (f : Field) : Prop := f.lo + f.w ≤ 64

/-- A field of an instance and an index, and what it holds. -/
structure Holds where
  field : Field
  inst : Nat := 0
  idx : Nat := 0
  value : Nat

/-- The fields listed hold their values, and every field that shares no bit with them is as it was. -/
def FieldsBecome (l : List Holds) (s t : State) : Prop :=
  (∀ q ∈ l, t.get q.field q.inst q.idx = q.value) ∧
    ∀ g i j, g.fits → (∀ q ∈ l, Apart g i j q.field q.inst q.idx) → t.get g i j = s.get g i j

/-- Registers alone change: the fields listed, to the values listed. -/
def OnlyFields (l : List Holds) (s t : State) : Prop := FieldsBecome l s t ∧ OnlyParts [.regs] s t

/-- Of the engines only `e` changes, to `g`; of the registers only the fields listed. -/
def EngineBecomes (e : EngineId) (g : Engine) (l : List Holds) (s t : State) : Prop :=
  t.eng e = g ∧ OnlyEngines (· = e) s t ∧ FieldsBecome l s t ∧ OnlyParts [.engines, .regs] s t

/-- The counter of lost reports after a report (R526). -/
def lostAfter (s : State) : Holds :=
  ⟨F.ELOG_COUNTS.dropped, 0, 0, if s.elog.queue.length < 256 then s.get F.ELOG_COUNTS.dropped else min (s.get F.ELOG_COUNTS.dropped + 1) 255⟩

/-- The log after a report: the report waits where the queue has room (R526). -/
def logAfter (s : State) (r : Report) : Elog :=
  if s.elog.queue.length < 256 then { s.elog with queue := s.elog.queue ++ [r] } else s.elog

/-- A report of a unit with the present time. -/
def reportOf (s : State) (typ cls inst sev : Nat) (code : Code) (detail : Nat) (sub : Nat := 0) : Report :=
  ⟨cls, inst, sub, BitVec.ofNat 16 typ, sev, code, detail % 2 ^ 64, s.btime⟩

/-- A report of an event that completes no access, with a code that the spec does not give (log entry 53). -/
def eventOf (s : State) (typ cls inst sev detail : Nat) : Report := reportOf s typ cls inst sev (freeCode typ detail) detail

/-- A command answers a next state. -/
def Completes (c : Instr) (s : State) : Prop := ∃ t, exec c s = .next t

/-- A run of a block is safe while no step stops with a fault. -/
def SafeStep (s : State) : Prop := ∀ f, step s ≠ .fault f

/-- Nothing but the registers differs. -/
def OnlyRegs (s t : State) : Prop := { t with regs := s.regs } = s

/-- Nothing but the registers and what the block sent differs. -/
def OnlyRegsOut (s t : State) : Prop := { t with regs := s.regs, outbox := s.outbox } = s

/-- Every byte of memory reads as before (DRAM, core stores, windows, SRAM and flash). -/
def SameMem (s t : State) : Prop := ∀ k, t.byte k = s.byte k

/-- Every byte of memory outside `n` bytes from a key reads as before. -/
def SameMemBut (s t : State) (key n : Nat) : Prop := ∀ k, (k < key ∨ key + n ≤ k) → t.byte k = s.byte k

end Sys2Proof.Machine
end

