-- ==== Sys2Proof/Certificates/Slice0/Obligations.lean ====
section
/-! DEFINITION. The statements for the provers: what the rules of the spec say of the block, in terms of the model. A statement in several
parts is the conjunction of the claims that it names; each claim carries its own description. -/
open Sys2Proof Sys2Proof.Machine

/-! ## The machine -/

/-- One step takes the command at the front of the queue and runs it on the rest. -/
def Obligations.StepRunsTheFrontCommand : Prop :=
  ∀ (c : Instr) (s : State), step { s with pending := c :: s.pending } = exec c s

/-- Right after reset every table is canonical, nothing waits and nothing was sent, and the log holds nothing; the registers named hold
the values that the register tables of the spec give them. -/
def Obligations.ResetIsCanonical : Prop :=
  State.reset.Canon ∧ State.reset.elog.Bounded ∧ State.reset.pending = [] ∧ State.reset.outbox = [] ∧
    State.reset.get F.AON_STATUS.stage = 0 ∧ (∀ e : EngineId, State.reset.engState e = 0) ∧ State.reset.get F.CLK_STEP.eff = 7 ∧
    (∀ w, State.reset.otp w = 0) ∧ State.reset.pins.vpmEn = false ∧ State.reset.pins.thermtrip = false

/-- Every step keeps the sparse tables canonical, memory among them (the model's own form of its tables). -/
def Claim.EveryStepKeepsTheTablesCanonical : Prop :=
  ∀ s t : State, s.Canon → step s = .next t → t.Canon

/-- A fuse only ever changes from 0 to 1, whatever the step (R499). -/
def Claim.NoStepUnblowsAFuse : Prop :=
  ∀ s t : State, step s = .next t → s.FusesKept t

/-- Only ENROLL, DEBUG, SVN_ADV and a token on the TAP blow fuses: any other command leaves the OTP as it was (R499, R504, R506, R515). -/
def Claim.OnlyRecordsBlowFuses : Prop :=
  ∀ (c : Instr) (s t : State), exec c s = .next t → t.sec.otp ≠ s.sec.otp →
    (∃ p b, c = .secEnroll p b) ∨ (∃ b, c = .secSvnAdv b) ∨ (∃ p, c = .secDebug p) ∨ ∃ r, c = .tapTokenLoad r

/-- The log's queue of 256 reports and its 64 open entries are never exceeded (R526, R527). -/
def Claim.EveryStepKeepsTheLogsBounds : Prop :=
  ∀ s t : State, s.elog.Bounded → step s = .next t → t.elog.Bounded

/-- What the block sent stays sent, free values are only drawn (the model's own counter), and a step takes exactly one command from its queue. -/
def Claim.EveryStepOnlyAddsToTheOutputs : Prop :=
  ∀ s t : State, step s = .next t → s.outbox <+: t.outbox ∧ s.drawn ≤ t.drawn ∧ t.pending = s.pending.tail

/-- A command changes no part of the state but its own, and a command of one engine changes no other engine. -/
def Obligations.EveryCommandKeepsToItsParts : Prop :=
  ∀ (c : Instr) (s t : State), exec c s = .next t → OnlyParts (partsOf c) s t ∧ t.pending = s.pending ∧ ∀ e, engineOf c = some e → OnlyEngines (· = e) s t

/-! ## Registers -/

/-- The commands that are a read of a register with fields that clear, and the register (R14). -/
def clearingRead : Instr → Option (Reg × Nat × Nat)
  | .lndCeCountRead e => some (R.LND_CE_COUNT, e.val, 0)
  | .lndUeCountRead e => some (R.LND_UE_COUNT, e.val, 0)
  | .lndPoisonRead e => some (R.LND_POISON, e.val, 0)
  | .lndRefreshRead e => some (R.LND_REFRESH, e.val, 0)
  | .sqRefetchRead k => some (R.SQ_REFETCH, k.val, 0)
  | .sqPoisonRead k => some (R.SQ_POISON, k.val, 0)
  | .bauCountsRead e => some (R.BAU_COUNTS, e.val, 0)
  | .avDiscardRead k => some (R.AV_DISCARD, k.val, 0)
  | .plFecCountRead p => some (R.PL_FEC_COUNT, p.val, 0)
  | .plRetryRead p => some (R.PL_RETRY, p.val, 0)
  | .tollCountRead p => some (R.TOLL_COUNT, p.val, 0)
  | .frCountRead p => some (R.FR_COUNT, p.val, 0)
  | .frDropRead p => some (R.FR_DROP, p.val, 0)
  | .frFecRead p => some (R.FR_FEC, p.val, 0)
  | .pwrRgDroopRead r => some (R.PWR_RG_DROOP, instOf r, 0)
  | .thmStepRead => some (R.THM_STEP, 0, 0)
  | .clkStatusRead => some (R.CLK_STATUS, 0, 0)
  | .clkStepRead => some (R.CLK_STEP, 0, 0)
  | .clkPllRead e => some (R.CLK_PLL, e.val + 1, 0)
  | .clkCanaryRead e => some (R.CLK_CANARY, e.val + 1, 0)
  | .elogCountsRead => some (R.ELOG_COUNTS, 0, 0)
  | .elogSumRead i => some (R.ELOG_SUM, 0, i.val)
  | _ => none

/-- A read clears the RC fields of its register, and changes no other bit of any register and nothing else (R14). -/
def Claim.ClearingReadsClearRcFieldsAlone : Prop :=
  ∀ (c : Instr) (r : Reg) (i j : Nat) (s : State), clearingRead c = some (r, i, j) →
    Answers c s fun t => OnlyParts [.regs] s t ∧ OnlyKeys [r.key i j] s t ∧
      ∀ b, (t.reg r i j).testBit b = ((s.reg r i j).testBit b && !r.rc.testBit b)

/-- A write at an offset that no register has, or to a unit that does not exist or is in reset, has no effect (R12, R38). -/
def Claim.WritesBesideTheRegistersHaveNoEffect : Prop :=
  ∀ (off : BitVec 32) (v : Word) (s : State),
    off.toNat % 8 ≠ 0 ∨ unitExists off.toNat = false ∨ s.unitCode off.toNat ≠ .ok ∨ assigned off.toNat = none →
      exec (.registerWrite off v) s = .next s

/-- The registers whose writes do more than store: those with commands, with limits on what is stored, or with an effect on a unit. -/
def actingRegs : List Reg :=
  [R.AON_BLOCK_ID, R.AON_BOOT, R.AON_RESET, R.AON_ENG_RST0, R.AON_ENG_RST1, R.AON_WDOG, R.AON_MEMO, R.AON_LEDGER, R.SEC_CMD, R.PWR_CTL, R.PWR_CAP,
    R.PWR_HINT, R.PWR_PMB, R.PWR_RG_CTL, R.PWR_RG_CEIL, R.THM_LIM_COMP, R.THM_LIM_MEM, R.THM_LIM_OTHER, R.THM_SUSPECT, R.THM_BROKEN, R.CLK_STEP,
    R.CLK_BTIME_ADJ, R.CLK_PLL, R.ELOG_CTL, R.ELOG_STATUS, R.GAUGE_CFG, R.GAUGE_PERIOD] ++
  [R.ENG_CTL, R.ENG_PGCMD, R.SQ_CTL, R.SQ_FLUSH, R.LND_SCRUB, R.BAU_MODE_NEXT, R.AV_MODE_NEXT, R.AV_BAR_CFG, R.AV_FLAG_SET, R.AV_FLAG_CLR,
    R.AV_EPOCH_COMMIT, R.PL_CTL, R.PL_TWIN_WIN, R.PL_TIME, R.TOLL_RATE, R.FR_CTL, R.FR_RXRING, R.FR_TXRING, R.FR_RXPTR, R.FR_TXPTR, R.FR_TXCAP,
    R.PIN_FAULT, R.PIN_GPIO]

/-- The bits of a register that a write takes: those of RW fields, and those of RWL fields while nothing locks them; the block ID's lock
locks the RWL fields of the links (R14, R351). -/
def taken (s : State) (r : Reg) (j b : Nat) : Bool := (r.rwMask j).testBit b || (r.rwl.testBit b && !s.on F.AON_BLOCK_ID.lock)

/-- A write of every other register takes the bits of RW fields and of unlocked RWL fields, clears the W1C bits written as 1, and
leaves every other bit, every other register and everything else (R13-R15). -/
def Claim.StoringWritesTakeWritableBitsAlone : Prop :=
  ∀ (off : BitVec 32) (v : Word) (s : State) (r : Reg) (i j : Nat),
    off.toNat % 8 = 0 → s.unitCode off.toNat = .ok → assigned off.toNat = some (r, i, j) → r ∉ actingRegs →
      Answers (.registerWrite off v) s fun t => OnlyParts [.regs] s t ∧ OnlyKeys [r.key i j] s t ∧
        ∀ b, b < 64 → (t.reg r i j).testBit b =
          if taken s r j b then v.toNat.testBit b else (s.reg r i j).testBit b && !(r.w1c.testBit b && v.toNat.testBit b)


/-- The commands that are a write of one register, with the register and the value written. -/
def registerRow : Instr → Option (Reg × Nat × Nat × Word)
  | .aonBlockIdWrite v => some (R.AON_BLOCK_ID, 0, 0, v)
  | .aonMemoGo v => some (R.AON_MEMO, 0, 0, v)
  | .aonLedgerGo v => some (R.AON_LEDGER, 0, 0, v)
  | .watchdogKick v => some (R.AON_WDOG, 0, 0, v)
  | .watchdogEnable v => some (R.AON_WDOG, 0, 0, v)
  | .pwrPmbGo v => some (R.PWR_PMB, 0, 0, v)
  | .pwrCapWrite v => some (R.PWR_CAP, 0, 0, v)
  | .pwrRgCtlWrite r v => some (R.PWR_RG_CTL, instOf r, 0, v)
  | .pwrRgCeilWrite r v => some (R.PWR_RG_CEIL, instOf r, 0, v)
  | .thmLimWrite i v => some (if i = 0 then R.THM_LIM_COMP else if i = 1 then R.THM_LIM_MEM else R.THM_LIM_OTHER, 0, 0, v)
  | .thmSuspectClear i v => some (R.THM_SUSPECT, 0, i.val, v)
  | .thmBrokenClear i v => some (R.THM_BROKEN, 0, i.val, v)
  | .clkStepReq v => some (R.CLK_STEP, 0, 0, v)
  | .clkBtimeAdjWrite v => some (R.CLK_BTIME_ADJ, 0, 0, v)
  | .clkPllFailClear e v => some (R.CLK_PLL, e.val + 1, 0, v)
  | .elogTailWrite v => some (R.ELOG_STATUS, 0, 0, v)
  | .gaugeCfgWrite g v => some (R.GAUGE_CFG, g.val, 0, v)
  | .gaugePeriodWrite g v => some (R.GAUGE_PERIOD, g.val, 0, v)
  | .engPgcmdGo e v => some (R.ENG_PGCMD, e.val, 0, v)
  | .sqCtlWrite k v => some (R.SQ_CTL, k.val, 0, v)
  | .sqFlushGo k v => some (R.SQ_FLUSH, k.val, 0, v)
  | .avBarCfgWrite b v => some (R.AV_BAR_CFG, 19, b.val, v)
  | .avFlagSetWrite i v => some (R.AV_FLAG_SET, 19, i.val, v)
  | .avFlagClrWrite i v => some (R.AV_FLAG_CLR, 19, i.val, v)
  | .avEpochCommit v => some (R.AV_EPOCH_COMMIT, 19, 0, v)
  | .plTwinWinWrite v => some (R.PL_TWIN_WIN, 6, 0, v)
  | .plLostClear i v => some (R.PL_LOST, 0, i.val, v)
  | .tollRateWrite p v => some (R.TOLL_RATE, p.val, 0, v)
  | .frRxptrTail p v => some (R.FR_RXPTR, p.val, 0, v)
  | .frTxptrTail p v => some (R.FR_TXPTR, p.val, 0, v)
  | .frTxcapWrite p v => some (R.FR_TXCAP, p.val, 0, v)
  | .pinFaultClear v => some (R.PIN_FAULT, 0, 0, v)
  | _ => none

/-- A write that reaches its unit by its offset in control space does what the command of its register does (R32, R36). -/
def Claim.WritesByOffsetAreTheCommandsOfTheirRegisters : Prop :=
  ∀ (c : Instr) (r : Reg) (i j : Nat) (v : Word) (off : BitVec 32) (s : State), registerRow c = some (r, i, j, v) → off.toNat = r.key i j →
    s.unitCode (r.key i j) = .ok → exec (.registerWrite off v) s = exec c s


/-- The part of a written word that a field takes, at most what the same field of a ceiling holds. -/
def atMost (f : Field) (v ceil : Nat) : Nat := min (getBits v f.lo f.w) (getBits ceil f.lo f.w)

/-- A pair of temperature limits: below each other they are stored, each at most its default; otherwise nothing is, and bad_cfg is set (R448). -/
def limitPair (start full : Field) (v : Nat) (s t : State) : Prop :=
  let a := atMost start v start.reg.reset
  let b := atMost full v full.reg.reset
  if a < b then OnlyFields [⟨full, 0, 0, b⟩, ⟨start, 0, 0, a⟩] s t else OnlyFields [⟨F.THM_STATUS.bad_cfg, 0, 0, 1⟩] s t

/-- Writes of registers with a limit store no more than the limit, and change no other field: the caps (R428), a region's current limit (R428),
the temperature limits of the compute and memory layers (R448), the rates of a port (R376, R402), the frequency adjustment (R470, R471) and a
gauge's period (R537); a step request takes bits [2:0] (R464). -/
def Claim.LimitedWritesStoreNoMoreThanTheirLimits : Prop :=
  ∀ (v : Word) (s : State),
    Answers (.pwrCapWrite v) s (OnlyFields
      [⟨F.PWR_CAP.vmem_a, 0, 0, atMost F.PWR_CAP.vmem_a v.toNat (s.reg R.PWR_CEIL)⟩, ⟨F.PWR_CAP.vcore_a, 0, 0, atMost F.PWR_CAP.vcore_a v.toNat (s.reg R.PWR_CEIL)⟩,
        ⟨F.PWR_CAP.sust_w, 0, 0, atMost F.PWR_CAP.sust_w v.toNat (s.reg R.PWR_CEIL)⟩, ⟨F.PWR_CAP.fast_w, 0, 0, atMost F.PWR_CAP.fast_w v.toNat (s.reg R.PWR_CEIL)⟩] s) ∧
    (∀ r, Answers (.pwrRgCeilWrite r v) s
      (OnlyFields [⟨F.PWR_RG_CEIL.limit, instOf r, 0, min (v.toNat % 1024) (30 * s.get F.PWR_RG_STATUS.in_service (instOf r))⟩] s)) ∧
    Answers (.thmLimWrite 0 v) s (limitPair F.THM_LIM_COMP.start F.THM_LIM_COMP.full v.toNat s) ∧
    Answers (.thmLimWrite 1 v) s (limitPair F.THM_LIM_MEM.start F.THM_LIM_MEM.full v.toNat s) ∧
    (Answers (.thmLimWrite 2 v) s fun t => ∃ m, limitPair F.THM_LIM_OTHER.plaza_start F.THM_LIM_OTHER.plaza_full v.toNat s m ∧
      limitPair F.THM_LIM_OTHER.floor_start F.THM_LIM_OTHER.floor_full v.toNat m t) ∧
    (∀ p, Answers (.tollRateWrite p v) s fun t => OnlyParts [.regs] s t ∧ OnlyKeys [R.TOLL_RATE.key p.val 0] s t ∧
      ∀ f ∈ [F.TOLL_RATE.request, F.TOLL_RATE.completion, F.TOLL_RATE.sync, F.TOLL_RATE.twin, F.TOLL_RATE.mgmt],
        t.get f p.val = atMost f v.toNat (s.reg R.TOLL_CEIL p.val)) ∧
    (∀ p, Answers (.frTxcapWrite p v) s fun t => OnlyParts [.regs, .front] s t ∧ FieldsBecome
      [⟨F.FR_TXCAP.raw_dgrams, p.val, 0, atMost F.FR_TXCAP.raw_dgrams v.toNat (s.reg R.FR_TXCEIL p.val)⟩,
        ⟨F.FR_TXCAP.raw_bytes, p.val, 0, atMost F.FR_TXCAP.raw_bytes v.toNat (s.reg R.FR_TXCEIL p.val)⟩,
        ⟨F.FR_TXCAP.dgrams, p.val, 0, atMost F.FR_TXCAP.dgrams v.toNat (s.reg R.FR_TXCEIL p.val)⟩,
        ⟨F.FR_TXCAP.bytes, p.val, 0, atMost F.FR_TXCAP.bytes v.toNat (s.reg R.FR_TXCEIL p.val)⟩] s t) ∧
    Answers (.clkStepReq v) s (OnlyFields [⟨F.CLK_STEP.req, 0, 0, v.toNat % 8⟩] s) ∧
    Answers (.clkBtimeAdjWrite v) s (OnlyFields
      (if 14 ≤ s.get F.PL_TIME.parent then [⟨F.CLK_BTIME_ADJ.adj, 0, 0, ofSigned 32 (max (-adjMax) (min adjMax (toSigned 32 v.toNat)))⟩] else []) s) ∧
    ∀ g, Answers (.gaugePeriodWrite g v) s (OnlyFields [⟨F.GAUGE_PERIOD.length, g.val, 0, max (v.toNat % 2 ^ 48) 10000⟩] s)


/-- What a write of `AON_WDOG` leaves: the timeout is stored while the watchdog does not run, as 1 for 0; enable and kick act after it. -/
def watchdogAfter (v : Word) (s t : State) : Prop :=
  FieldsBecome
      [⟨F.AON_WDOG.enable, 0, 0, if nbit v.toNat 32 then 1 else s.get F.AON_WDOG.enable⟩,
        ⟨F.AON_WDOG.timeout_ms, 0, 0, if s.on F.AON_WDOG.enable then s.get F.AON_WDOG.timeout_ms else max 1 (v.toNat % 2 ^ 32)⟩] s t ∧
    OnlyParts [.regs, .boot] s t ∧
    t.boot = if nbit v.toNat 32 ∨ nbit v.toNat 33 then { s.boot with kicked := s.btime } else s.boot

/-- A write that sets a command bit stores the other fields first, and the command acts on them; a lock is judged as it stood before: the
block ID (R30), the watchdog (R497), the memo and the ledger, whose engines keep what the go write gave them (R488, R494, R497, R561), the PMBus mailbox, likewise (R428, R431, R561) and the twin window (R351). -/
def Claim.CommandBitsActOnTheFieldsWrittenWithThem : Prop :=
  ∀ (v : Word) (s : State),
    (let n := v.toNat
     Answers (.aonBlockIdWrite v) s (OnlyFields
      (if s.on F.AON_BLOCK_ID.lock then []
        else [⟨F.AON_BLOCK_ID.id, 0, 0, n % 4096⟩, ⟨F.AON_BLOCK_ID.valid, 0, 0, n / 4096 % 2⟩, ⟨F.AON_BLOCK_ID.lock, 0, 0, n / 8192 % 2⟩]) s) ∧
    Answers (.watchdogKick v) s (watchdogAfter v s) ∧ Answers (.watchdogEnable v) s (watchdogAfter v s) ∧
    (Answers (.aonMemoGo v) s fun t => FieldsBecome
        [⟨F.AON_MEMO.busy, 0, 0, if nbit n 0 then 1 else s.get F.AON_MEMO.busy⟩, ⟨F.AON_MEMO.src, 0, 0, n / 2 ^ 32⟩] s t ∧
      OnlyParts [.regs, .boot] s t ∧ t.boot = if nbit n 0 ∧ ¬ s.on F.AON_MEMO.busy then { s.boot with memoSrc := n / 2 ^ 32 } else s.boot) ∧
    (Answers (.aonLedgerGo v) s fun t =>
      let go := nbit n 0 ∧ ¬ s.on F.AON_LEDGER.busy
      let denied := s.get F.AON_STATUS.stage < 12 ∨ n / 16 % 256 < 1 ∨ 9 < n / 16 % 256
      FieldsBecome (⟨F.AON_LEDGER.kind, 0, 0, n / 16 % 256⟩ ::
        (if go then (if denied then [⟨F.AON_LEDGER.code, 0, 0, 5⟩] else [⟨F.AON_LEDGER.busy, 0, 0, 1⟩]) else [])) s t ∧
      OnlyParts [.regs, .boot] s t ∧
      t.boot = if go ∧ ¬ denied then { s.boot with append := (n / 16 % 256, s.reg R.AON_LEDGER_LOC) } else s.boot) ∧
    (Answers (.pwrPmbGo v) s fun t =>
      let go := nbit n 12 ∧ ¬ s.on F.PWR_PMB.busy
      let allowed := nbit n 10 ∨ n % 256 = 3
      FieldsBecome
        ([⟨F.PWR_PMB.cmd, 0, 0, n % 256⟩, ⟨F.PWR_PMB.page, 0, 0, n / 256 % 4⟩, ⟨F.PWR_PMB.read, 0, 0, n / 1024 % 2⟩, ⟨F.PWR_PMB.two, 0, 0, n / 2048 % 2⟩,
          ⟨F.PWR_PMB.data, 0, 0, n / 2 ^ 32 % 65536⟩] ++
          (if go ∧ allowed then [⟨F.PWR_PMB.busy, 0, 0, 1⟩] else if go then [⟨F.PWR_PMB.code, 0, 0, 5⟩] else [])) s t ∧
      OnlyParts [.regs, .power, .outbox] s t ∧
      t.power = (if go then { s.power with pmb := (nbit n 10, nbit n 11) } else s.power) ∧
      t.outbox = s.outbox ++ (if go ∧ allowed then [.pmbus (n / 256 % 4) (n % 256) (nbit n 10) 0] else [])) ∧
    Answers (.plTwinWinWrite v) s (OnlyFields
      (if s.on F.PL_TWIN_WIN.lock 6 then []
        else [⟨F.PL_TWIN_WIN.base, 6, 0, n % 2 ^ 17⟩, ⟨F.PL_TWIN_WIN.size, 6, 0, n / 2 ^ 17 % 2 ^ 17⟩, ⟨F.PL_TWIN_WIN.lock, 6, 0, n / 2 ^ 34 % 2⟩]) s))

/-- Writes that acknowledge or move a pointer: W1C bits written as 1 clear (R14, R370, R442, R443, R539, R550), a ring's tail moves only where the
ring then holds no more than its entries and no fewer than before (R382), the log's tail only where its ring of 4,096 does (R528), and a PLL's
failure clears (R473). -/
def Claim.AcknowledgingWritesClearOrMovePointers : Prop :=
  ∀ (v : Word) (s : State),
    (∀ i, Answers (.plLostClear i v) s fun t => OnlyParts [.regs] s t ∧ OnlyKeys [R.PL_LOST.key 0 i.val] s t ∧
      ∀ b, (t.reg R.PL_LOST 0 i.val).testBit b = ((s.reg R.PL_LOST 0 i.val).testBit b && !v.toNat.testBit b)) ∧
    (∀ p, Answers (.frRxptrTail p v) s (OnlyFields
      (if tailOk (s.get F.FR_RXRING.size p.val) (s.get F.FR_RXPTR.head p.val) (s.get F.FR_RXPTR.tail p.val) (v.toNat / 2 ^ 32 % 2 ^ 17)
        then [⟨F.FR_RXPTR.tail, p.val, 0, v.toNat / 2 ^ 32 % 2 ^ 17⟩] else []) s)) ∧
    (∀ p, Answers (.frTxptrTail p v) s (OnlyFields
      (if tailOk (s.get F.FR_TXRING.size p.val) (s.get F.FR_TXPTR.head p.val) (s.get F.FR_TXPTR.tail p.val) (v.toNat / 2 ^ 32 % 2 ^ 17)
        then [⟨F.FR_TXPTR.tail, p.val, 0, v.toNat / 2 ^ 32 % 2 ^ 17⟩] else []) s)) ∧
    Answers (.elogTailWrite v) s (OnlyFields
      ((if (s.get F.ELOG_STATUS.head + 8192 - v.toNat % 8192) % 8192 ≤ 4096 then [⟨F.ELOG_STATUS.tail, 0, 0, v.toNat % 8192⟩] else []) ++
        (if nbit v.toNat 61 then [⟨F.ELOG_STATUS.irq, 0, 0, 0⟩] else []) ++ (if nbit v.toNat 62 then [⟨F.ELOG_STATUS.overflowed, 0, 0, 0⟩] else []) ++
        (if nbit v.toNat 63 then [⟨F.ELOG_STATUS.first_valid, 0, 0, 0⟩] else [])) s) ∧
    (Answers (.pinFaultClear v) s fun t => OnlyParts [.regs, .pins] s t ∧ OnlyKeys [R.PIN_FAULT.key 0 0, R.PIN_IN.key 0 0] s t ∧
      t.reg R.PIN_FAULT = s.reg R.PIN_FAULT &&& (0xFFFFFFFFFFFFFFFF ^^^ (v.toNat &&& 0x7FFF00007FFF)) ∧
      ∀ n : PinId, vget t.pins.edges n = if nbit v.toNat n.val ∨ nbit v.toNat (n.val + 32) then 0 else vget s.pins.edges n) ∧
    (∀ i, Answers (.thmSuspectClear i v) s fun t => OnlyParts [.regs, .thermal] s t ∧
      t.reg R.THM_SUSPECT 0 i.val = s.reg R.THM_SUSPECT 0 i.val &&& (0xFFFFFFFFFFFFFFFF ^^^ v.toNat)) ∧
    (∀ i, Answers (.thmBrokenClear i v) s fun t => OnlyParts [.regs, .thermal] s t ∧
      t.reg R.THM_BROKEN 0 i.val = s.reg R.THM_BROKEN 0 i.val &&& (0xFFFFFFFFFFFFFFFF ^^^ v.toNat)) ∧
    ∀ e, Answers (.clkPllFailClear e v) s fun t => OnlyParts [.regs] s t ∧ (nbit v.toNat 2 = true → t.on F.CLK_PLL.fail (e.val + 1) = false) ∧
      (nbit v.toNat 2 = false ∨ s.on F.CLK_PLL.fail (e.val + 1) = false → t = s)

/-! ## The sequencer of an engine -/

/-- `x` is the instruction that the sequencer executes, and has this opcode. -/
def Executes (s : State) (e : EngineId) (op : Nat) (x : Entry) : Prop := (s.eng e).front .seq = some x ∧ opOf x.word = op

/-- An engine whose sequencer instruction has completed. -/
def seqEnds (g : Engine) (x : Entry) (c : Code) : Engine := g.setEntry (x.finish c (if c = .ok then 0 else noDetail c x.idx))

/-- The registers of an engine show the index at which it goes on (R107, R130). -/
def goesOnAt (e : EngineId) (n : Nat) : List Holds := [⟨F.ENG_STATUS.pc, e.val, 0, min n 16383⟩]

/-- Scalar instructions complete with OK and change only the register that they name: CTL.NOP none, CTL.SETS, CTL.ALU and CFG.GET an S register,
CTL.CMP a P register, CTL.TSET and CTL.TADV a T register, of which TADV changes the base alone; S0 and P0 discard writes (R113, R122-R124, R143). -/
def Obligations.ScalarInstructionsWriteOneRegister : Prop :=
  ∀ (e : EngineId) (s : State) (x : Entry),
    let g := s.eng e
    let h := seqEnds g x .ok
    let w := x.word
    (Executes s e 0x00 x → Answers (.ctlNop e) s (EngineBecomes e h [] s)) ∧
    (Executes s e 0x08 x → Answers (.ctlSets e) s (EngineBecomes e { h with s := sSet g.s (fld w 20 16) (BitVec.ofNat 64 (fld w 84 21)) } [] s)) ∧
    (Executes s e 0x09 x →
      let r := aluFn (fld w 19 16) (sGet x.sr (fld w 29 25)) (immOr x (bitOf w 35) 67 36 (fld w 34 30)) (vget g.l (lIdx (fld w 29 25))).count
      Answers (.ctlAlu e) s (EngineBecomes e { h with s := sSet g.s (fld w 24 20) r } [] s)) ∧
    (Executes s e 0x0A x → ∀ b, cmpCond (fld w 21 19) (sGet x.sr (fld w 26 22)) (immOr x (bitOf w 32) 64 33 (fld w 31 27)) = some b →
      Answers (.ctlCmp e) s (EngineBecomes e { h with p := pSet g.p (fld w 18 16) b } [] s)) ∧
    (Executes s e 0x0B x → Answers (.ctlTset e) s (EngineBecomes e (h.setT (fld w 21 16)
      (BitVec.ofNat 256 (putBits (tGet g.t (fld w 21 16)).toNat (64 * fld w 23 22) 64 (sGet x.sr (fld w 28 24)).toNat))) [] s)) ∧
    (Executes s e 0x0C x → Answers (.ctlTadv e) s (EngineBecomes e (h.setT (fld w 21 16)
      (BitVec.ofNat 256 (putBits (tGet g.t (fld w 21 16)).toNat 0 64
        (nbits (tGet g.t (fld w 21 16)).toNat 63 0 + (immOr x (bitOf w 27) 59 28 (fld w 26 22)).toNat)))) [] s)) ∧
    (Executes s e 0x91 x → Answers (.cfgGet e) s (EngineBecomes e { h with s := sSet g.s (fld w 23 19) (cGet g.cfg (fld w 18 16)) } [] s)) ∧
    ∀ v, sSet g.s 0 v = g.s ∧ sGet g.s 0 = 0#64 ∧ pSet g.p 0 true = g.p ∧ pGet g.p 0 = true

/-- CTL.BR goes on at its target (R127); CTL.LOOP enters its loop, passes it for a count of 0, and for a count beyond 32 bits completes with
ACCESS_DENIED at the index behind it; CTL.ENDL counts down and returns to the loop start until the count is 0, and completes with ACCESS_DENIED
where no loop ends at its index (R128). An index beyond the last shows as the last (R130). -/
def Claim.BranchesAndLoopsSetTheIndex : Prop :=
  ∀ (e : EngineId) (s : State) (x : Entry),
    let g := s.eng e
    let w := x.word
    let at_ (h : Engine) (n : Nat) (c : Instr) : Prop :=
      Answers c s (EngineBecomes e { h with beyond := decide (16383 < n) } (goesOnAt e n) s)
    (Executes s e 0x01 x → at_ (seqEnds g x .ok) (fld w 29 16) (.ctlBr e)) ∧
    (Executes s e 0x02 x →
      let n := if bitOf w 37 then (sGet x.sr (fld w 36 32)).toNat else fld w 69 38
      if 2 ^ 32 ≤ n then at_ (seqEnds g x .accessDenied) (fld w 31 18 + 1) (.ctlLoop e)
      else if n = 0 then at_ (seqEnds g x .ok) (fld w 31 18 + 1) (.ctlLoop e)
      else at_ ((seqEnds g x .ok).setL (fld w 17 16) ⟨n, x.idx + 1, fld w 31 18⟩) (x.idx + 1) (.ctlLoop e)) ∧
    (Executes s e 0x03 x →
      let r := vget g.l (lIdx (fld w 17 16))
      let n := (r.count + 2 ^ 32 - 1) % 2 ^ 32
      if r.stop = x.idx then at_ ((seqEnds g x .ok).setL (fld w 17 16) { r with count := n }) (if n = 0 then x.idx + 1 else r.start) (.ctlEndl e)
      else Answers (.ctlEndl e) s (EngineBecomes e (seqEnds g x .accessDenied) [] s))

/-- CTL.YIELD waits to suspend where it issued in SUSPENDING and completes otherwise (R135, R136); CTL.PHASE completes at once and announces its hint,
which replaces one of its engine that waits to be delivered (R140); CFG.SET stores an item that it may, once earlier instructions of the governed units have completed, and completes with
ACCESS_DENIED for a value out of range (R143); CTL.HALT retires last, delivers an undelivered drain or broadcast failure as its own completion, and
else brings the engine to HALTED with code OK and a signal (R130, R134, R168, R308). -/
def Claim.YieldPhaseConfigAndHalt : Prop :=
  ∀ (e : EngineId) (s : State) (x : Entry),
    let g := s.eng e
    let w := x.word
    (Executes s e 0x04 x → Answers (.ctlYield e) s (EngineBecomes e
      (if g.yieldAt = some x.idx then g.setEntry { x with done := true } else g.setEntry { x.finish .ok with sent := true }) [] s)) ∧
    (Executes s e 0x05 x → Answers (.ctlPhase e) s fun t => t.eng e = seqEnds g x .ok ∧ OnlyEngines (· = e) s t ∧ OnlyParts [.engines, .hints] s t ∧
      vget t.hints e = { vget s.hints e with next := some ⟨fld w 17 16, fld w 25 18, fld w 41 26, s.btime⟩ } ∧
      ∀ q, q ≠ e → vget t.hints q = vget s.hints q) ∧
    (Executes s e 0x90 x → (∀ y ∈ g.inflight, governs (fld w 18 16) y.unit = true → y.completed = true) →
      match cfgStore (fld w 18 16) (sGet x.sr (fld w 23 19)).toNat with
      | some v => Answers (.cfgSet e) s (EngineBecomes e
          { seqEnds g x .ok with cfg := vset g.cfg ⟨fld w 18 16 % 8, Nat.mod_lt _ (by decide)⟩ (BitVec.ofNat 64 v) } [] s)
      | none => Answers (.cfgSet e) s (EngineBecomes e (seqEnds g x .accessDenied) [] s)) ∧
    (Executes s e 0x07 x → g.inflight.head? = some x → g.drains = [] → g.bcs = [] →
      match g.fails, g.bauErrs with
      | [], [] => Answers (.ctlHalt e) s fun t => t.eng e = { g.retire (x.finish .ok) with yieldAt := none } ∧ OnlyEngines (· = e) s t ∧
          OnlyParts [.engines, .hints, .regs, .outbox] s t ∧ OnlyKeys [R.ENG_STATUS.key e.val 0, R.PWR_STATUS.key 0 0] s t ∧
          t.engState e = 6 ∧ t.get F.ENG_STATUS.last_code e.val = 0 ∧ t.outbox = s.outbox ++ [.engineSignal e.val 6]
      | c :: _, _ => c ≠ .ok → Answers (.ctlHalt e) s (EngineBecomes e ({ g with fails := [] }.setEntry (x.finish c (noDetail c x.idx))) [] s)
      | [], (_, _, c, core) :: _ => c ≠ .ok → Answers (.ctlHalt e) s (EngineBecomes e ({ g with bauErrs := [] }.setEntry (x.finish c core)) [] s))

/-! ## Issue, completion, retirement -/

/-- No register but those of the kinds named differs. -/
def OnlyRegisters (rs : List Reg) (s t : State) : Prop := ∀ k, (∀ r ∈ rs, ∀ i j, k ≠ r.key i j) → t.rd k = s.rd k

/-- The registers in which the reads of memory leave their errors and the lines that they displace, with the count of lost reports (R266, R272-R274,
R277, R526). -/
def readMarks : List Reg := [R.LND_CE_COUNT, R.LND_UE_COUNT, R.LND_POISON, R.LND_ERR_ADDR, R.SQ_POISON, R.ELOG_COUNTS]

/-- The hints of an engine after it leaves RUN, and otherwise: a phase without a duration ends with RUN (R422). -/
def hintLeft (s : State) (e : EngineId) : Hints :=
  let q := vget s.hints e
  if s.engState e = 1 then
    ⟨q.last.filter fun h => h.kind == 0 || h.duration != 0, q.next.filter fun a => a.kind == 0 || a.duration != 0⟩
  else q

/-- An engine enters a state (R134): its books become `g`, its hint follows R422, its signal is sent where R134 gives one, and beside that only
the parts and registers named differ. -/
def EnginesEnters (e : EngineId) (g : Engine) (st : Nat) (signal : Bool) (ps : List Part) (rs : List Reg) (s t : State) : Prop :=
  t.eng e = g ∧ OnlyEngines (· = e) s t ∧ t.engState e = st ∧ vget t.hints e = hintLeft s e ∧ (∀ q, q ≠ e → vget t.hints q = vget s.hints q) ∧
    t.outbox = s.outbox ++ (if signal then [.engineSignal e.val st] else []) ∧ OnlyParts ([.engines, .hints, .regs, .outbox] ++ ps) s t ∧
    OnlyRegisters ([R.ENG_STATUS, R.PWR_STATUS] ++ rs) s t ∧ ∀ q, q ≠ e → t.engState q = s.engState q

/-- The engine issues (R27, R108, R130, R132, R136, R418): in RUN or SUSPENDING, with nothing bound for FAULTED, no context transfer, no yield that waits
to suspend, no sequencer instruction short of its effect, its region ON, out of reset and its crossings calibrated. -/
structure MayIssue (s : State) (e : EngineId) : Prop where
  state : s.engState e = 1 ∨ s.engState e = 2
  unbound : (s.eng e).bound = none
  noContext : (s.eng e).ctx = none
  noYield : s.engState e = 2 → (s.eng e).yieldAt = none
  sequencer : ∀ y ∈ (s.eng e).inflight, y.unit = .seq → y.done = true
  on : s.regionOn e = true
  running : (s.eng e).inReset = false
  linked : s.engineLinked e = true

/-- An instruction issues at the index of its engine, fetched from its page: a fetch beyond the last index or from a bad page ends in FAULTED; a
false predicate skips the instruction; one that the decode checks refuse completes with ACCESS_DENIED, and so does a load of pages that R129 forbids;
the index advances by one; a yield that issues in SUSPENDING is the one at which the engine suspends. No instruction is fetched from a page that a load which has issued will replace: that it waits from the issue on is the
model's reading (log entry 50) (R107, R108, R109, R110, R119-R121, R129, R130, R141). -/
def Obligations.IssueTakesTheInstructionAtTheIndex : Prop :=
  ∀ (e : EngineId) (parity : Bool) (s : State), MayIssue s e →
    let g := s.eng e
    let pc := s.get F.ENG_STATUS.pc e.val
    let w := Tbl.get (fun _ => 0#128) g.imem pc
    let x := s.newEntry e w
    let page : Fin 16 := ⟨pc / 1024 % 16, Nat.mod_lt _ (by decide)⟩
    let bad := parity = true ∨ vget g.pageBad page = true
    let loaded := vget g.pageLoading page = false ∧ g.pageComing (pc / 1024) = false
    let denied := opOf w = 6 ∧ g.pagesDenied x = true
    let issues (y : Entry) (stop : Option Nat) : Prop := Answers (.instructionIssue e parity) s
      (EngineBecomes e { g with inflight := g.inflight ++ [y], nextId := g.nextId + 1, beyond := decide (16383 < pc + 1), yieldAt := stop }
        (goesOnAt e (pc + 1)) s)
    let issued (y : Entry) : Prop := issues y g.yieldAt
    (g.beyond = true → Answers (.instructionIssue e parity) s (EngineBecomes e (g.bindFetch .unmapped 16383) [] s)) ∧
    (g.beyond = false → loaded → bad → Answers (.instructionIssue e parity) s (EngineBecomes e (g.bindFetch .dataErr pc) [] s)) ∧
    (g.beyond = false → loaded → ¬ bad →
      (bitOf w 13 = true → g.inflight = []) → (g.inflight.filter fun y => y.unit == unitOf (opOf w) && !y.done).length < 8 →
      s.epochHolds e (opOf w) = false → (fld w 10 8 = 7 → g.catchPending = false) →
      (pGet g.p (fld w 10 8) = bitOf w 11 → issued x.skip) ∧
      (pGet g.p (fld w 10 8) ≠ bitOf w 11 → g.regConflict w = false → s.decodeOk e x = true → g.rangeConflict x = false →
        (¬ denied → issues x (if opOf w = 4 ∧ s.engState e = 2 then some pc else g.yieldAt)) ∧
        (denied → issued { x.failAt .accessDenied (blockOf (sGet x.sr (fld w 20 16)).toNat) with completed := true })) ∧
      (pGet g.p (fld w 10 8) ≠ bitOf w 11 → g.regConflict w = false → s.decodeOk e x = false →
        issued { x.fail .accessDenied (noDetail .accessDenied x.idx) with completed := true }))

/-- An instruction that its unit has done completes after earlier ones of its unit: a completion with OK releases its results to drain, any other
discards them, and nothing is in memory yet; the drain keeps the destination's ranges until it has finished, and an attention instruction's keeps its
epoch (R89, R109, R166, R167, R333). -/
def Claim.CompletionReleasesResults : Prop :=
  ∀ (e : EngineId) (s : State) (x : Entry),
    let g := s.eng e
    let y := { x with completed := true, wrote := decide (x.code = .ok), writes := [], cap := none }
    (g.inflight.find? fun y => y.id == x.id) = some x → x.unit ≠ .seq → x.done = true → x.completed = false → (∀ b ∈ g.bcs, b.id ≠ x.id) →
    (∀ z ∈ g.inflight.takeWhile fun y => y.id != x.id, z.unit = x.unit → z.completed = true) →
    (x.code ≠ .ok ∨ (x.writes = [] ∧ x.cap = none) → Answers (.instructionComplete e x.id) s (EngineBecomes e (g.setEntry y) [] s)) ∧
    (x.code = .ok → (x.writes ≠ [] ∨ x.cap ≠ none) → Answers (.instructionComplete e x.id) s
      (EngineBecomes e (Engine.setEntry { g with drains := g.drains ++
        [⟨x.id, x.idx, x.writes, x.cap, false, x.dstRanges, if opOf x.word / 16 = 5 then some x.epoch else none⟩] } y) [] s))

/-- The registers of an engine's broadcast port. -/
def bauRegs : List Reg := [R.BAU_STATUS, R.LND_STATUS]

/-- The oldest instruction retires once it has completed: with catch = 1 its code goes to P7 and, where it is not OK, its record to S31; without
catch a code other than OK binds the engine for FAULTED and cancels what has not begun to write; in CANCELLING no code does (R109, R131, R132, R139,
R147); a yield that did not suspend records its tag (R136). -/
def Claim.RetirementCatchesOrFaults : Prop :=
  ∀ (e : EngineId) (s : State) (x : Entry), (s.eng e).inflight.head? = some x → x.completed = true →
    let g := s.eng e
    let h := { g with inflight := g.inflight.filter fun y => y.id != x.id }
    let becomes (k : Engine) : Prop := Answers (.instructionRetire e) s fun t =>
      t.eng e = k ∧ OnlyEngines (· = e) s t ∧ OnlyParts [.engines, .regs] s t ∧ OnlyRegisters ([R.ENG_STATUS] ++ bauRegs) s t ∧
        t.engState e = s.engState e ∧
        t.get F.ENG_STATUS.yield_tag e.val = if opOf x.word = 4 ∧ x.code = .ok ∧ x.sent = true then fld x.word 47 16 else s.get F.ENG_STATUS.yield_tag e.val
    (s.engState e = 4 → becomes h) ∧
    (s.engState e ≠ 4 → bitOf x.word 12 = true → x.code = .ok → becomes { h with p := pSet g.p 7 false }) ∧
    (s.engState e ≠ 4 → bitOf x.word 12 = true → x.code ≠ .ok → becomes { h with p := pSet g.p 7 true, s := sSet g.s 31 x.record }) ∧
    (s.engState e ≠ 4 → bitOf x.word 12 = false → x.code = .ok → becomes h) ∧
    (s.engState e ≠ 4 → bitOf x.word 12 = false → x.code ≠ .ok → g.bound = none ∨ g.boundFetch = true →
      becomes { h with bound := some x.record, boundFetch := false }.cancelAll)

/-- A bound engine enters FAULTED once everything has retired and drained (R132, R134, R147, R167): ENG_FAULT holds the record and last_code its
code, firmware gets its signal and the log a report. -/
def Claim.FaultedHoldsItsRecord : Prop :=
  ∀ (e : EngineId) (s : State) (w : Word), (s.eng e).bound = some w → (s.eng e).inflight = [] → (s.eng e).drains = [] → (s.eng e).ctx = none →
    Answers (.enterFaulted e) s fun t =>
      EnginesEnters e { s.eng e with bound := none, boundFetch := false, yieldAt := none } 5 true [.elog] [R.ENG_FAULT, R.ELOG_COUNTS] s t ∧
        t.reg R.ENG_FAULT e.val = w.toNat ∧ t.get F.ENG_STATUS.last_code e.val = w.toNat % 16 ∧ t.get F.ENG_STATUS.pc e.val = s.get F.ENG_STATUS.pc e.val ∧
        t.elog = logAfter s (reportOf s 0x0101 0x10 e.val 2 ((Code.ofCode (w.toNat % 16)).getD .ok) w.toNat 0x09) ∧
        t.get F.ELOG_COUNTS.dropped = (lostAfter s).value

/-! ## The units of an engine -/

/-- `x` is the oldest instruction of its unit that is not done, has this opcode, and may run: its stream engines and its buffer space are granted or can
be now, no earlier fence or wait holds it back, and the engine is ON and out of reset (R108, R109, R151, R165, R176, R177, R418). -/
structure Runs (s : State) (e : EngineId) (u : Unt) (op : Nat) (x : Entry) : Prop where
  front : (s.eng e).front u = some x
  opcode : opOf x.word = op
  streams : (s.eng e).granted x = true
  buffer : (s.eng e).roomFor x = true
  free : touchesMemory op = true → (s.eng e).fenced x = false
  on : s.regionOn e = true
  running : (s.eng e).inReset = false

/-- The instruction as it runs: with its stream engines and its buffer space. -/
def Sys2Proof.Machine.Entry.running (x : Entry) : Entry := { x with granted := true, reserved := true }

/-- Of the engines only `e` changes, to `g`; what its reads of memory meet is counted, located and logged, and the squares' lines and the marks of DRAM are
those of `l`, the state after the reads; memory and everything sent stay as they are (R166, R265, R266, R272-R274, R277). -/
def UnitAnswers (c : Instr) (e : EngineId) (s : State) (g : Engine) (l : State) (elog : Elog) : Prop :=
  Answers c s fun t => t.eng e = g ∧ OnlyEngines (· = e) s t ∧ (t.marks, t.squares) = (l.marks, l.squares) ∧ t.elog = elog ∧
    OnlyParts [.regs, .engines, .marks, .squares, .elog] s t ∧ OnlyRegisters readMarks s t

/-- What ends an instruction of a unit: a data error names no core (R147). -/
def Sys2Proof.Machine.Entry.ended (x : Entry) (z : Stop) : Entry := x.fail z.1 (if z.1 = .dataErr then noDetail z.1 x.idx else z.2)

/-- A parity error in a unit: the instruction ends with DATA_ERR, naming the core where one is known, and the log hears of it (R103, R105, R208, R250, R522). -/
def Sys2Proof.Machine.Entry.parityEnded (x : Entry) (h : ParityHit) : Entry :=
  x.fail .dataErr (match h.core with
    | some c => c.val
    | none => noDetail .dataErr x.idx)

/-- The report of a parity error in a unit: its structure, the index and the core (R105, R522). -/
def unitReport (s : State) (e : EngineId) (x : Entry) (h : ParityHit) : Report :=
  reportOf s 0x0102 0x10 e.val 2 .dataErr (x.idx % 16384 + (match h.core with
    | some c => c.val
    | none => 0x7F) * 2 ^ 16) (subUnit (opOf x.word) h.place)

/-- A command of a unit, whose operands are at hand or readable now, and whose work is `work` leaves results that wait for completion, or the code that
ended it; a read that a unit on another epoch refuses ends it with EPOCH_SKEW and that epoch, where its accesses carry one; under a parity error no value
of it survives. -/
def UnitRuns (c : Parity → Instr) (e : EngineId) (u : Unt) (op : Nat) (s : State) (g : Engine) (work : Entry → Work) : Prop :=
  ∀ x₀, Runs s e u op x₀ → s.awaitsReply x₀.running = false → s.readsWait x₀.running x₀.running.ownReads = false →
    let x := x₀.running
    let l := s.noteReads e x.ownReads
    (s.readRefusal x x.ownReads = none →
      (∀ w cap, work x = .ok (w, cap) → UnitAnswers (c none) e s (g.setEntry (x.result w cap)) l l.elog) ∧
      ∀ z, work x = .error z → UnitAnswers (c none) e s (g.setEntry (x.ended z)) l l.elog) ∧
    (∀ ep, s.readRefusal x x.ownReads = some ep → UnitAnswers (c none) e s (g.setEntry (x.fail .epochSkew ep)) s s.elog) ∧
    ∀ h, UnitAnswers (c (some h)) e s (g.setEntry (x.parityEnded h)) l (logAfter l (unitReport s e x h))

/-- The vector instructions: each applies its function to every element, in FP32 values rounded once into the destination, with b and c repeated along
dimensions of size 1 and b possibly one FP32 value; VEC.RED takes one value of each row; an operand that cannot be read ends the instruction
(R181-R186). -/
def Claim.VectorInstructionsMapTheirElements : Prop :=
  ∀ (e : EngineId) (s : State),
    let out (x : Entry) (rows : List (List Val)) : Work := .ok (x.store (fld x.word 21 16) (bitOf x.word 50) rows, none)
    let a (x : Entry) := s.operand x (fld x.word 27 22)
    let run (c : Parity → Instr) (op : Nat) (work : Entry → Work) := UnitRuns c e .vector op s (s.eng e) work
    run (.vecBin e) 0x20 (fun x => match a x, s.vecB x with
      | .ok t, .ok b => .ok (x.mapA t fun v i i1 i2 i3 => vecBin (fld x.word 43 40) v (b i i1 i2 i3), none)
      | .error z, _ => .error z
      | _, .error z => .error z) ∧
    run (.vecFma e) 0x21 (fun x => match a x, s.vecB x, s.vecC x with
      | .ok t, .ok b, .ok c => .ok (x.mapA t fun v i i1 i2 i3 => (v.mul (b i i1 i2 i3)).add (c i i1 i2 i3), none)
      | .error z, _, _ => .error z
      | _, .error z, _ => .error z
      | _, _, .error z => .error z) ∧
    run (.vecUn e) 0x22 (fun x => match a x with
      | .ok t => out x (t.vals.map fun r => r.map (vecUn (fld x.word 43 40)))
      | .error z => .error z) ∧
    run (.vecRed e) 0x23 (fun x => match a x with
      | .ok t => out x (t.vals.map fun r => [vecRed (fld x.word 43 40) r])
      | .error z => .error z) ∧
    run (.vecSel e) 0x24 (fun x => match a x, s.vecB x, s.vecC x with
      | .ok t, .ok b, .ok c => .ok (x.mapA t fun v i i1 i2 i3 => vecSel v (b i i1 i2 i3) (c i i1 i2 i3), none)
      | .error z, _, _ => .error z
      | _, .error z, _ => .error z
      | _, _, .error z => .error z)

/-- MAT.CVT converts its operand with the bias, SFN.EVAL evaluates its function, the normalisation instructions write statistics or normalised rows, ATT.RUN
and ATT.MERGE write attention rows; a result that captures carries its capture request; SFN.EVAL on a slot that its bank lacks completes with ACCESS_DENIED;
the attention instructions leave nothing for a continuing matrix product (R94, R106, R126, R187-R190, R202-R205, R215, R226-R229, R238, R239). -/
def Claim.OtherUnitsWriteTheirResults : Prop :=
  ∀ (e : EngineId) (s : State),
    let g := s.eng e
    let h := { g with acc := none }
    UnitRuns (.matCvt e) e .array 0x11 s g s.cvtWork ∧
    UnitRuns (.sfnEval e) e .sfn 0x30 s g (s.sfnWork e) ∧
    UnitRuns (.nrmStat e) e .nrm 0x40 s g (fun x => match s.operand x (fld x.word 27 22) with
      | .ok t => .ok (x.store (fld x.word 21 16) false (t.vals.map nrmStat), none)
      | .error z => .error z) ∧
    UnitRuns (.nrmLn e) e .nrm 0x41 s g (fun x => s.nrmWork x nrmLn) ∧
    UnitRuns (.nrmRms e) e .nrm 0x42 s g (fun x => s.nrmWork x nrmRms) ∧
    UnitRuns (.attRun e) e .array 0x50 s h (s.attWork e) ∧
    UnitRuns (.attMerge e) e .array 0x51 s h s.mergeWork ∧
    ∀ x, g.slotMissing (fld x.word 32 28) = true → s.sfnWork e x = .error (.accessDenied, noDetail .accessDenied x.idx)

/-- MAT.MUL forms its product from accumulators that start at zero or continue those of the last product (refused where that had other sizes or was no OS
product, CANCELLED where it had failed), after its outlier list has passed, converts it with the bias into its destination, and leaves the array's
registers to the next one; under a parity error or a failure a continuing product finds nothing (R75-R77, R80, R94, R95, R103, R125, R161, R212). -/
def Claim.MatrixProductsKeepTheirAccumulators : Prop :=
  ∀ (e : EngineId) (s : State) (x₀ : Entry), Runs s e .array 0x10 x₀ → s.awaitsReply x₀.running = false →
    s.readsWait x₀.running x₀.running.ownReads = false →
    let g := s.eng e
    let x := x₀.running
    let l := s.noteReads e x.ownReads
    let to_ (p : Parity) (h : Engine) (log : Elog) : Prop := UnitAnswers (.matMul e p) e s h l log
    let ends (y : Entry) : Engine := { g.setEntry y with acc := some (x.accState false) }
    (∀ c p, g.contStart x = .error c → to_ p (g.setEntry (x.fail c (noDetail c x.idx))) l.elog) ∧
    ∀ init, g.contStart x = .ok init →
      (∀ h, to_ (some h) (ends (x.parityEnded h)) (logAfter l (unitReport s e x h))) ∧
      (∀ z, s.outliers x = .error z → to_ none (ends (x.ended z)) l.elog) ∧
      ∀ ol, s.outliers x = .ok ol →
        (∀ accs joined bias, s.matProduct x init ol = .ok (accs, joined) → s.biasVals x = .ok bias →
          to_ none ((g.setEntry (x.result (x.store (fld x.word 21 16) (bitOf x.word 37) (x.matRows joined bias)) (x.capReq (x.matRows joined bias)))).arrayRan
            x (s.tile x) accs) l.elog) ∧
        (∀ z, s.matProduct x init ol = .error z → to_ none (ends (x.ended z)) l.elog) ∧
        ∀ r z, s.matProduct x init ol = .ok r → s.biasVals x = .error z → to_ none (ends (x.ended z)) l.elog

/-- SFN.LOAD checks the headers of an image before it writes the shadow bank, and completes with ACCESS_DENIED where they are broken; a parity error in the
headers, like a failed read of them, keeps the bank; the bank is valid slot by slot where its headers say so, and not at all after a later parity error or
a failed read of the coefficients; SFN.SWAP exchanges the banks (R191-R196, R208). -/
def Claim.FunctionImagesLoadThenSwap : Prop :=
  ∀ (e : EngineId) (s : State) (x₀ : Entry),
    let g := s.eng e
    let x := x₀.running
    let base := (x.desc (fld x.word 27 22)).base
    let l := s.noteReads e (sfnReads base)
    let rd (a n : Nat) : Code × List Byte := s.readSpan (.engine e) a n
    let loads (p : Parity) (bank : SfnBank) (y : Entry) (log : Elog) : Prop := UnitAnswers (.sfnLoad e p) e s { g.setEntry y with sfnShadow := bank } l log
    let hit (h : ParityHit) (bank : SfnBank) : Prop := loads (some h) bank (x.parityEnded h) (logAfter l (unitReport s e x h))
    (Runs s e .sfn 0x31 x₀ → (∀ y ∈ g.inflight.takeWhile fun y => y.id != x.id, y.unit = .sfn → y.completed = true) →
      s.heldReads e (sfnReads base) = false →
      let failed (c : Code) : Entry := x.fail c (if c = .accessDenied ∨ c = .dataErr then noDetail c x.idx else blockOf base)
      (∀ p c b, rd base 512 = (c, b) → c ≠ .ok → (c = .dataErr → p = none) → loads p g.sfnShadow (failed c) l.elog) ∧
      ∀ h, rd base 512 = (.ok, h) →
        (∀ q, q.place = .headers → hit q g.sfnShadow) ∧
        ∀ p, atHeaders p = false →
          ((List.range 8).all (headerOk h) = false → loads p g.sfnShadow (x.fail .accessDenied (noDetail .accessDenied x.idx)) l.elog) ∧
          ((List.range 8).all (headerOk h) = true →
            (∀ c b, rd (addrAdd base 512) 131072 = (c, b) → c ≠ .ok → (c = .dataErr → p = none) →
              loads p { g.sfnShadow with valid := 0 } (failed c) l.elog) ∧
            ∀ b, rd (addrAdd base 512) 131072 = (.ok, b) →
              (p = none → loads none ⟨imageValid h, h ++ b⟩ (x.finish .ok) l.elog) ∧
              ∀ q, p = some q → hit q { g.sfnShadow with valid := 0 })) ∧
    (Runs s e .sfn 0x32 x₀ → (∀ y ∈ g.inflight.takeWhile fun y => y.id != x.id, opOf y.word = 0x31 → y.completed = true) →
      UnitAnswers (.sfnSwap e) e s { g.setEntry (x.finish .ok) with sfnActive := g.sfnShadow, sfnShadow := g.sfnActive } s s.elog)

/-! ## Accesses of memory -/

/-- The keys of the bytes of a span, sector by sector (R152). -/
def spanKeys (a n : Nat) : List Nat := (sectorsOf a n).flatMap fun p => physKeys p.1 p.2

/-- An access within one sector is served where its target is there and out of reset, and a write then stores its bytes at the keys of its addresses and
nothing else; a refused one leaves the state as it was and answers the code of its target: UNMAPPED where nothing is mapped or the unit is mapped out,
ACCESS_DENIED for control space, TARGET_RESET for a core store of an engine in reset (R31-R35, R258). Reads of a clean core store answer the bytes of their
keys. A longer span writes no byte outside its own keys (R152). -/
def Claim.AccessesFollowTheAddressMap : Prop :=
  ∀ (s : State) (a : Nat) (b : List Byte),
    (s.targetCode false (s.target a b.length) = .ok → a % 64 + b.length ≤ 64 →
      (s.writeLocal a b).2 = .ok ∧ (∀ i (h : i < b.length), (s.writeLocal a b).1.byte (physKey (a + i)) = b[i]) ∧
        (∀ k, (∀ i < b.length, k ≠ physKey (a + i)) → (s.writeLocal a b).1.byte k = s.byte k)) ∧
    (s.targetCode false (s.target a b.length) ≠ .ok → s.writeLocal a b = (s, s.targetCode false (s.target a b.length))) ∧
    (∀ n, s.targetCode false (s.target a n) ≠ .ok → s.readLocal a n = (s.targetCode false (s.target a n), [])) ∧
    (∀ n e, s.target a n = some (.core e) → (s.eng e).mappedOut = false → (s.eng e).inReset = false →
      s.readLocal a n = (.ok, (List.range n).map fun i => s.byte (physKey (a + i)))) ∧
    (∀ n off, s.target a n = some (.control off) → s.targetCode false (s.target a n) = .accessDenied) ∧
    (∀ n e, s.target a n = some (.core e) → (s.eng e).mappedOut = false → (s.eng e).inReset = true → s.targetCode false (s.target a n) = .targetReset) ∧
    (∀ n e, s.target a n = some (.dram e) → (s.eng e).dramOut = true → s.targetCode false (s.target a n) = .unmapped) ∧
    (∀ n, s.target a n = none → s.targetCode false (s.target a n) = .unmapped) ∧
    ∀ who k, k ∉ spanKeys a b.length → (s.writeSpan who a b).1.byte k = s.byte k

/-- Of the engines only `e` changes, to `g`; memory, its marks, the squares, what the block sent and the free values drawn are those of `q`, the state after
the accesses of the command; of the registers only those kinds in which accesses leave marks differ. -/
def MemoryMoves (c : Instr) (e : EngineId) (s : State) (g : Engine) (q : State) (log : Elog) : Prop :=
  Answers c s fun t => t.eng e = g ∧ OnlyEngines (· = e) s t ∧
    (t.mem, t.marks, t.squares, t.outbox, t.drawn) = (q.mem, q.marks, q.squares, q.outbox, q.drawn) ∧ t.elog = log ∧
    OnlyParts [.regs, .mem, .engines, .marks, .squares, .elog, .outbox, .drawn] s t ∧ OnlyRegisters readMarks s t

/-- A write of an engine: within the block it is stored, unless a unit on another epoch than the one it carries refuses it, and otherwise sent with that
epoch; the block of no ID sends none and answers UNMAPPED (R29, R152, R166, R251, R333). -/
def Claim.DrainedWritesAreStoredOrSent : Prop :=
  ∀ (s : State) (e : EngineId) (ep : Option Nat) (a : Nat) (b : List Byte) (c : Code),
    let refused := ∃ n u, ep = some n ∧ s.epochRefusal e n [(a, b.length)] = some u
    (s.isLocal a = true → ¬ refused → s.drainWrite e ep a b c = s.writeSpan (.engine e) a b) ∧
    (s.isLocal a = true → refused → s.drainWrite e ep a b c = (s, .epochSkew)) ∧
    (s.isLocal a = false → s.on F.AON_BLOCK_ID.valid = true → s.drainWrite e ep a b c = ({ s with outbox := s.outbox ++ [.remoteWrite a b ep] }, c)) ∧
    (s.isLocal a = false → s.on F.AON_BLOCK_ID.valid = false → s.drainWrite e ep a b c = (s, .unmapped))

/-- The stop of a stream instruction that fails: it completes with its code and the block that it aimed at, or the epoch of another block's unit that
refused it (R147, R164, R333). -/
def moveStop (r : Reply) (x : Entry) (c : Code) (d : Nat) : Entry := { x.failBy r c d with completed := true }

/-- CTL.LDS loads a scalar register, unless a later instruction has written it since, and CTL.STS stores one, of eight aligned bytes of this block or
another, and neither names control space; CTL.PAGE loads instruction pages, and pages are bad after a failed load (R107, R110, R111, R129, R133, R147). -/
def Claim.ScalarAndPageTransfers : Prop :=
  ∀ (e : EngineId) (r : Reply) (s : State) (x₀ : Entry),
    let g := s.eng e
    let x := x₀.running
    let a := (sGet x.sr (fld x.word 25 21)).toNat
    let denied := a % 8 ≠ 0 ∨ selOf a = 15
    (Runs s e .stream 0x0D x₀ → s.replyFits [(a, 8)] r = true →
      let l := s.noteReads e [(a, 8)]
      let h := g.setEntry (x.finish .ok)
      (denied → MemoryMoves (.ctlLds e r) e s (g.setEntry (moveStop r x .accessDenied (blockOf a))) s s.elog) ∧
      (¬ denied → s.heldReads e [(a, 8)] = false →
        (∀ b, s.readVia e a 8 r = (.ok, b) → MemoryMoves (.ctlLds e r) e s
          (if g.overwritten x (fld x.word 20 16) = true then h else { h with s := sSet g.s (fld x.word 20 16) (BitVec.ofNat 64 (leNat b)) }) l l.elog) ∧
        ∀ c b, s.readVia e a 8 r = (c, b) → c ≠ .ok → MemoryMoves (.ctlLds e r) e s (g.setEntry (moveStop r x c (blockOf a))) l l.elog)) ∧
    (Runs s e .stream 0x0E x₀ →
      let q := s.drainWrite e none a (leBytes 8 (sGet x.sr (fld x.word 20 16)).toNat) r.write
      (denied → MemoryMoves (.ctlSts e r) e s (g.setEntry (moveStop r x .accessDenied (blockOf a))) s s.elog) ∧
      (¬ denied → s.heldReads e [(a, 8)] = false → MemoryMoves (.ctlSts e r) e s
        (g.setEntry (if q.2 = .ok then { x.finish .ok with wrote := true } else moveStop r x q.2 (blockOf a))) q.1 q.1.elog)) ∧
    (Runs s e .stream 0x06 x₀ →
      let src := (sGet x.sr (fld x.word 20 16)).toNat
      let page := fld x.word 24 21
      let count := fld x.word 29 25
      let l := s.noteReads e [(src, 16384 * count)]
      (s.replyFits [(src, 16384 * count)] r = true → s.heldReads e [(src, 16384 * count)] = false →
        (∀ b, s.readVia e src (16384 * count) r = (.ok, b) → MemoryMoves (.ctlPage e r) e s
          (Engine.setEntry { g.markPages page count false false with imem := putInstr g.imem (1024 * page) (chunksOf 16 b.length b) } (x.finish .ok)) l l.elog) ∧
        ∀ c b, s.readVia e src (16384 * count) r = (c, b) → c ≠ .ok →
          MemoryMoves (.ctlPage e r) e s ((g.markPages page count true false).setEntry (moveStop r x c (blockOf src))) l l.elog))

/-- MOV.COPY writes the rows and scales of its source unchanged, its scales tagged for their new place, and MOV.MCAST writes them once for each destination;
both wait for a staged epoch and are refused by an older or newer one, and both keep the code of a write that fails; where the source cannot be read, what
of each destination is written is free (R126, R154, R157, R164, R172-R174, R333). -/
def Claim.CopiesWriteTheirSource : Prop :=
  ∀ (e : EngineId) (r : Reply) (s : State) (x₀ : Entry),
    let g := s.eng e
    let x := x₀.running
    let reads := x.readList (fld x.word 27 22) false
    let places := x.readList (fld x.word 21 16) false
    let l := s.noteReads e reads
    let free (at_ : List (Nat × Nat)) : Prop := s.readsWait x at_ = false ∧ s.replyFits reads r = true
    let failed (z : Stop) : Entry := { moveStop r x z.1 z.2 with wrote := true }
    (Runs s e .stream 0x60 x₀ → free (reads ++ places) →
      let dst := (x.desc (fld x.word 21 16)).base
      (∀ ep, s.epochRefusal e x.epoch (reads ++ places) = some ep →
        MemoryMoves (.movCopy e r) e s (g.setEntry { x.fail .epochSkew ep with completed := true }) s s.elog) ∧
      (s.epochRefusal e x.epoch (reads ++ places) = none →
        (∀ z, x.copySource (s.replyReader e reads r) = .error z →
          let q := (l.writeAll x r.write (s.chosen (s.partWrites x reads r))).1
          MemoryMoves (.movCopy e r) e s (g.setEntry (failed z)) { q with drawn := q.drawn + 1 } q.elog) ∧
        ∀ rows sc, x.copySource (s.replyReader e reads r) = .ok (rows, sc) →
          let q := l.writeAll x r.write (x.copyWrites rows sc)
          MemoryMoves (.movCopy e r) e s (g.setEntry (match q.2 with
            | none => { x.finish .ok with wrote := true }
            | some (c, b) => moveStop r x c (blockOf (b * 2 ^ 52 + dst % 2 ^ 52)))) q.1 q.1.elog)) ∧
    (Runs s e .stream 0x61 x₀ →
      let dests := mcastDests x.word x.sr
      let base := (x.desc (fld x.word 21 16)).base
      (s.mcastDenied x = true → MemoryMoves (.movMcast e r) e s (g.setEntry (moveStop r x .accessDenied (blockOf base))) s s.elog) ∧
      (s.mcastDenied x = false → dests = [] → MemoryMoves (.movMcast e r) e s (g.setEntry (x.finish .ok)) s s.elog) ∧
      (s.mcastDenied x = false → dests ≠ [] →
        free (reads ++ dests.flatMap fun n => places.map fun p => (retarget p.1 n (bitOf x.word 38), p.2)) →
        (∀ ep, s.epochRefusal e x.epoch reads = some ep →
          MemoryMoves (.movMcast e r) e s (g.setEntry { x.fail .epochSkew ep with completed := true }) s s.elog) ∧
        (s.epochRefusal e x.epoch reads = none →
          (∀ z, x.copySource (s.replyReader e reads r) = .error z →
            let q := l.mcastPart x (s.partWrites x reads r) dests
            MemoryMoves (.movMcast e r) e s (g.setEntry (failed z)) { q with drawn := q.drawn + 1 } q.elog) ∧
          ∀ rows sc, x.copySource (s.replyReader e reads r) = .ok (rows, sc) →
            let q := l.mcastWrite x (x.copyWrites rows sc) dests
            MemoryMoves (.movMcast e r) e s (g.setEntry (match q.2 with
              | none => { x.finish .ok with wrote := true }
              | some (c, d) => { x.failAt c d with completed := true, wrote := true })) q.1 q.1.elog)))

/-! ## Stream engines, the result buffer and its drain -/

/-- Stream engines and buffer space are granted in issue order, where enough are free: eight stream engines, 8 MiB of buffer (R150, R151, R165). -/
def Claim.GrantsFollowIssueOrder : Prop :=
  ∀ (e : EngineId) (s : State) (x : Entry),
    let g := s.eng e
    (g.nextGrant = some x → g.streamsUsed + streamsOf x.word ≤ 8 → Answers (.streamGrant e) s (EngineBecomes e (g.setEntry { x with granted := true }) [] s)) ∧
    (g.nextReserve = some x → g.bufferUsed + x.reserve ≤ 8 * 2 ^ 20 →
      Answers (.resultBufferReserve e) s (EngineBecomes e (g.setEntry { x with reserved := true }) [] s))

/-- The outlier list of a product returns before its operands, and a broken list ends the product with ACCESS_DENIED; an operand that returns joins its
instruction, and a stationary one may load into the array's shadow registers, or it ends the instruction with the code of its scales or its data; a
product that ends so leaves nothing to a continuing one (R80, R86, R94, R153, R161-R163, R210, R212, R333). -/
def Claim.ReturnedOperandsJoinTheirInstruction : Prop :=
  ∀ (e : EngineId) (r : Reply) (s : State) (x : Entry),
    let g := s.eng e
    let lost (h : Engine) : Engine := if opOf x.word = 0x10 then { h with acc := some (x.accState false) } else h
    (g.inflight.find? fun y => y.id == x.id) = some x → x.done = false → buffered (opOf x.word) = true → opOf x.word ≠ 0x52 → x.granted = true → g.fenced x = false →
    (x.listUnread = true → s.readsWait x [(x.listAddr, 264)] = false →
      let a := x.listAddr
      let l := s.noteReads e [(a, 264)]
      (∀ b, s.readSpan (.engine e) a 264 = (.ok, b) → (outlierList b (x.desc (fld x.word 27 22)).n0).isSome = true →
        UnitAnswers (.streamReadReturn e x.id r) e s (g.setEntry { x with raw := [(0, b)] }) l l.elog) ∧
      (∀ b, s.readSpan (.engine e) a 264 = (.ok, b) → outlierList b (x.desc (fld x.word 27 22)).n0 = none →
        UnitAnswers (.streamReadReturn e x.id r) e s (lost (g.setEntry (x.fail .accessDenied (noDetail .accessDenied x.idx)))) l l.elog) ∧
      ∀ c b, s.readSpan (.engine e) a 264 = (c, b) → c ≠ .ok →
        UnitAnswers (.streamReadReturn e x.id r) e s (lost (g.setEntry (x.ended (c, blockOf a)))) l l.elog) ∧
    ∀ i rest, x.listUnread = false → x.unread = i :: rest →
      let kv := kvOperand x.word i
      let reads := x.readList i kv
      let l := s.noteReads e reads
      s.replyFits reads r = true → s.readsWait x reads = false →
      (∀ ep, s.readRefusal x reads = some ep → UnitAnswers (.streamReadReturn e x.id r) e s (g.setEntry (x.fail .epochSkew ep)) s s.elog) ∧
      (s.readRefusal x reads = none → UnitAnswers (.streamReadReturn e x.id r) e s
        (match x.readBy (s.replyReader e reads r) i kv (slotOf x.word i) with
        | .ok t => (g.setEntry { x with operands := x.operands ++ [(i, t)] }).shadowLoad x i t
        | .error z => lost (g.setEntry (x.failBy r z.1 z.2))) l l.elog)

/-- The oldest drain makes its next write; a failed write is kept for the next waiting instruction and logged, and keeps the scale record from its update, which
comes last, updates the record where its flags allow it, and leaves it unchanged under a parity error or a failed read (R166, R168, R214-R219, R333). -/
def Claim.DrainsWriteInOrder : Prop :=
  ∀ (e : EngineId) (s : State) (d : Drain) (rest : List Drain), (s.eng e).drains = d :: rest →
    let g := s.eng e
    (∀ (code : Code) (a : Nat) (b : List Byte) (ws : Writes), d.writes = (a, b) :: ws → s.writesWait e d.epoch [(a, b.length)] = false →
      let q := s.drainWrite e d.epoch a b code
      let d' := { d with writes := ws, failed := d.failed || q.2 != .ok }
      let h := { g with drains := if ws = [] ∧ (d.cap = none ∨ d'.failed = true) then rest else d' :: rest }
      MemoryMoves (.drainWriteDone e code) e s (if q.2 = .ok then h else { h with fails := g.fails ++ [q.2] }) q.1
        (if q.2 = .ok then q.1.elog else logAfter q.1 (reportOf s 0x0103 0x10 e.val 2 q.2 (d.idx % 16384 + q.2.toNat * 2 ^ 16) 0x03))) ∧
    (∀ (parity : Bool) (q : CapReq), d.cap = some q → d.writes = [] → d.failed = false → s.heldSpan (.engine e) q.addr 128 = false →
      let l := s.noteSpan (.engine e) q.addr 128
      let h := { g with drains := rest }
      let fails (c : Code) : Prop := MemoryMoves (.scaleRecordUpdate e parity) e s { h with fails := g.fails ++ [c] } l
        (logAfter l (reportOf s 0x0103 0x10 e.val 2 c (d.idx % 16384 + c.toNat * 2 ^ 16) 0x03))
      (∀ b, s.readSpan (.engine e) q.addr 128 = (.ok, b) →
        (parity = true → fails .dataErr) ∧
        (parity = false → (ScaleRec.of b).valid = false → fails .accessDenied) ∧
        (parity = false → (ScaleRec.of b).valid = true →
          let w := l.writeSpan (.engine e) q.addr ((ScaleRec.of b).update q.op q.cap).bytes
          MemoryMoves (.scaleRecordUpdate e parity) e s h w.1 w.1.elog)) ∧
      ∀ c b, s.readSpan (.engine e) q.addr 128 = (c, b) → c ≠ .ok → fails c)

/-- An instruction whose remote access or sync wait exceeds remote_timeout completes with TIMEOUT and the block that it waited for; the pages of a load then
hold no instructions, a copy's destinations hold what a free choice of its writes left, and a product leaves nothing to a continuing one (R94, R129, R142,
R143, R147, R157, R174). -/
def Claim.TimedInstructionsEndWithTimeout : Prop :=
  ∀ (e : EngineId) (s : State) (x : Entry),
    let g := s.eng e
    let y : Entry := { x.fail .timeout (s.timedDetail x) with completed := true }
    let op := opOf x.word
    let part := s.partWrites x (x.readList (fld x.word 27 22) false) ⟨.timeout, [], .ok, 0#32⟩
    (∀ o ∈ s.net.outs, ¬ (o.who = .engine e ∧ o.access = x.id)) → (g.inflight.find? fun y => y.id == x.id) = some x → s.timed x = true →
    (g.fenced x = false ∨ (op = 0x83 ∧ g.front .sync = some x)) →
    (op = 0x06 → Answers (.remoteAccessTimeout e x.id) s
      (EngineBecomes e ((g.markPages (fld x.word 24 21) (fld x.word 29 25) true false).setEntry y) [] s)) ∧
    (op = 0x60 →
      let q := (s.writeAll x .ok (s.chosen part)).1
      MemoryMoves (.remoteAccessTimeout e x.id) e s (g.setEntry y) { q with drawn := q.drawn + 1 } q.elog) ∧
    (op = 0x61 →
      let q := s.mcastPart x part (mcastDests x.word x.sr)
      MemoryMoves (.remoteAccessTimeout e x.id) e s (g.setEntry y) { q with drawn := q.drawn + 1 } q.elog) ∧
    (op ≠ 0x06 → op ≠ 0x60 → op ≠ 0x61 → Answers (.remoteAccessTimeout e x.id) s
      (EngineBecomes e (Engine.setEntry { g with acc := if op = 0x10 then some (x.accState false) else g.acc } y) [] s))

/-! ## The Ring Road -/

/-- `x` is the instruction of the running ring `r`, and its engine runs. -/
structure RingRuns (s : State) (e : EngineId) (r : Ring) (x : Entry) : Prop where
  ring : (s.eng e).ring = some r
  entry : ((s.eng e).inflight.find? fun y => y.id == r.id) = some x
  on : s.regionOn e = true
  running : (s.eng e).inReset = false

/-- The engine after its ring ended with a code: the instruction holds no results. -/
def ringStops (g : Engine) (x : Entry) (z : Stop) : Engine := { g.setEntry (x.ended z) with ring := none }

/-- The engine after its ring ended with the code of a neighbour's block, or the epoch of a unit of that block that refused it (R147, R333). -/
def ringLost (g : Engine) (x : Entry) (c : Code) (ep : BitVec 32) (block : Nat) : Engine := ringStops g x (c, if c = .epochSkew then ep.toNat else block)

/-- ATT.RING reads its record and begins at step 0, or ends: with ACCESS_DENIED for a broken record, else with the code of the read. The attention of a step runs
once its chunk is complete, and joins the running result; its forward to the next block starts once that block has a free slot, and its end writes that block's
sequence word; the end of a step writes the previous block's, goes to the next step or rounds the result into the destination; a failure of any of them, a
unit on another epoch among them, a parity error, or a wait beyond the limit, ends the instruction (R106, R240, R241, R243-R245, R250, R251, R333). -/
def Obligations.RingStepsForwardAndJoin : Prop :=
  ∀ (e : EngineId) (s : State),
    let g := s.eng e
    (∀ x₀, Runs s e .array 0x52 x₀ → g.ring = none →
      let x := x₀.running
      let a := (sGet x.sr (fld x.word 77 73)).toNat
      let l := s.noteReads e [(a, 64)]
      let h := { g with acc := none }
      let ends (z : Stop) (l : State) : Prop := UnitAnswers (.attRing e) e s (ringStops h x z) l l.elog
      s.readsWait x [(a, 64)] = false →
      (∀ ep, s.readRefusal x [(a, 64)] = some ep → ends (.epochSkew, ep) s) ∧
      (s.readRefusal x [(a, 64)] = none →
        (∀ b r, s.readSpan (.engine e) a 64 = (.ok, b) → ringOf x.id a b = some r →
          UnitAnswers (.attRing e) e s { h.setEntry { x with sent := true } with ring := some r } l l.elog) ∧
        (∀ b, s.readSpan (.engine e) a 64 = (.ok, b) → ringOf x.id a b = none → ends (.accessDenied, blockOf a) l) ∧
        ∀ c b, s.readSpan (.engine e) a 64 = (c, b) → c ≠ .ok → ends (c, blockOf a) l)) ∧
    ∀ r x, RingRuns s e r x →
      let l := s.noteReads e (x.ringReads r)
      (r.attended = false → s.ringHeld x r = false → s.ringWord r (0x20 + 8 * (r.step % 2)) = (r.step : Int) →
        (∀ ep, s.readRefusal x (x.ringReads r) = some ep → UnitAnswers (.ringChunkReady e none) e s (ringStops g x (.epochSkew, ep)) s s.elog) ∧
        (s.readRefusal x (x.ringReads r) = none →
          (∀ rows, s.ringAttend e x r = .ok rows →
            UnitAnswers (.ringChunkReady e none) e s { g with ring := some { r with attended := true, running := rows } } l l.elog) ∧
          ∀ z, s.ringAttend e x r = .error z → UnitAnswers (.ringChunkReady e none) e s (ringStops g x z) l l.elog) ∧
        ∀ h, UnitAnswers (.ringChunkReady e (some h)) e s { g.setEntry (x.parityEnded h) with ring := none } s (logAfter s (unitReport s e x h))) ∧
      (r.fwd = .none → r.step + 1 < r.length → s.ringHeld x r = false → s.ringWord r (0x20 + 8 * (r.step % 2)) = (r.step : Int) →
        (r.step : Int) - 1 ≤ s.ringWord r (0x30 + 8 * (1 - r.step % 2)) →
        let f := s.noteReads e (x.forwardReads r)
        let starts (h : Engine) (q : State) : Prop := MemoryMoves (.ringForwardStart e) e s h q q.elog
        (∀ ep, s.readRefusal x (x.forwardReads r) = some ep → starts (ringStops g x (.epochSkew, ep)) s) ∧
        (s.readRefusal x (x.forwardReads r) = none →
          (∀ w, s.forwardWrites x r = .ok w → s.writesWait e (some x.epoch) w.places = false →
            (∀ ep, s.epochRefusal e x.epoch w.places = some ep → starts (ringStops g x (.epochSkew, ep)) f) ∧
            (s.epochRefusal e x.epoch w.places = none →
              let q := f.writeAll x .ok w
              (q.2 = none → starts { g with ring := some { r with fwd := .started } } q.1) ∧ ∀ z, q.2 = some z → starts (ringStops g x z) q.1)) ∧
          ∀ z, s.forwardWrites x r = .error z → starts (ringStops g x z) f)) ∧
      (r.fwd = .started → ∀ y : Reply,
        let a := putBits (addrAdd r.record (0x20 + 8 * (1 - r.step % 2))) 52 12 r.next
        let q := s.drainWrite e (some x.epoch) a (leBytes 8 (r.step + 1)) y.write
        let done (h : Engine) (q : State) : Prop := MemoryMoves (.ringForwardDone e false y) e s h q q.elog
        (∀ y, UnitAnswers (.ringForwardDone e true y) e s { g.setEntry (x.parityEnded ⟨.unit, none⟩) with ring := none } s
          (logAfter s (unitReport s e x ⟨.unit, none⟩))) ∧
        (y.code ≠ .ok → done (ringLost g x y.code y.epoch r.next) s) ∧
        (y.code = .ok → s.writesWait e (some x.epoch) [(a, 8)] = false →
          (∀ ep, s.epochRefusal e x.epoch [(a, 8)] = some ep → done (ringStops g x (.epochSkew, ep)) s) ∧
          (s.epochRefusal e x.epoch [(a, 8)] = none →
            (q.2 = .ok → done { g with ring := some { r with fwd := .done } } q.1) ∧ (q.2 ≠ .ok → done (ringLost g x q.2 y.epoch r.next) q.1)))) ∧
      (r.attended = true → r.fwd = .done ∨ r.step + 1 = r.length → ∀ y : Reply,
        let a := putBits (addrAdd r.record (0x30 + 8 * (r.step % 2))) 52 12 r.prev
        let q := s.drainWrite e (some x.epoch) a (leBytes 8 r.step) y.write
        let ends (h : Engine) (q : State) : Prop := MemoryMoves (.ringStepEnd e y) e s h q q.elog
        s.writesWait e (some x.epoch) [(a, 8)] = false →
        (∀ ep, s.epochRefusal e x.epoch [(a, 8)] = some ep → ends (ringStops g x (.epochSkew, ep)) s) ∧
        (s.epochRefusal e x.epoch [(a, 8)] = none →
          (q.2 ≠ .ok → ends (ringLost g x q.2 y.epoch r.prev) q.1) ∧
          (q.2 = .ok → r.step + 1 = r.length → ends { g.setEntry (x.result (x.attWrites r.running) none) with ring := none } q.1) ∧
          (q.2 = .ok → r.step + 1 ≠ r.length → ends { g with ring := some { r with step := r.step + 1, attended := false, fwd := .none } } q.1))) ∧
      ((r.attended = false ∧ s.ringWord r (0x20 + 8 * (r.step % 2)) ≠ (r.step : Int)) ∨
          (r.fwd = .none ∧ r.step + 1 < r.length ∧ s.ringWord r (0x30 + 8 * (1 - r.step % 2)) < (r.step : Int) - 1) ∨
          (r.attended = true ∧ r.fwd = .started) →
        Answers (.ringWaitTimeout e) s (EngineBecomes e (ringStops g x (.timeout, noDetail .timeout x.idx)) [] s))

/-! ## The sync unit and the Roundabout -/

/-- `x` is the oldest sync instruction of the engine that is not done, has this opcode, and its engine runs. -/
structure Syncs (s : State) (e : EngineId) (op : Nat) (x : Entry) : Prop where
  front : (s.eng e).front .sync = some x
  opcode : opOf x.word = op
  on : s.regionOn e = true
  running : (s.eng e).inReset = false

/-- A sync instruction completes: with OK, or with a code and what it names. -/
def syncEnds (g : Engine) (x : Entry) (c : Code) (d : Nat) : Engine := g.setEntry (if c = .ok then x.finish .ok else { x.fail c d with completed := true })

/-- The engine once its drain failures are taken (R168). -/
def failsTaken (g : Engine) : Engine := { g with fails := [] }

/-- The registers in which a link that sends may note a lane that its partner left, and the log a lost report (R365, R526). -/
def linkMarks : List Reg := [R.PL_STATUS, R.PL_LANES, R.ELOG_COUNTS]

/-- Beside the parts and registers named only those of sending change: the links, the mesh, and what the block sent, which stays sent. -/
def SendsOnly (ps : List Part) (rs : List Reg) (s t : State) : Prop :=
  OnlyParts (ps ++ [.regs, .mesh, .net, .elog, .outbox]) s t ∧ OnlyRegisters (rs ++ linkMarks) s t ∧ s.outbox <+: t.outbox

/-- A message of the instruction leaves for the home of its flag; without a way there the instruction ends with LINK_DOWN (R157, R325, R354). -/
def AsksHome (c : Instr) (e : EngineId) (s : State) (x : Entry) : Prop :=
  let k := s.flagMessage e x
  (s.route none k = .none → Answers c s (EngineBecomes e (syncEnds (s.eng e) x .linkDown (s.flagHome (fld x.word 23 16))) [] s)) ∧
  (s.route none k ≠ .none → Answers c s fun t => t.eng e = (s.eng e).setEntry { x with sent := true, gen := none } ∧ OnlyEngines (· = e) s t ∧
    SendsOnly [.engines] [] s t)

/-- SYNC.FENCE waits for every access of its scope, drains included, and delivers the drain failures as its code; an arrival and a change of a flag fence
all earlier accesses in the same way and then leave for the Roundabout, a change of a remote flag for its home block; a wait on a flag ends at once where
the flag holds the value, and else begins, or watches the flag of another block; a wait without an arrival completes, unless the barrier is broken
(R167, R168, R176, R177, R322-R325, R333). That a fence delivers the failures of drains beyond its scope too is the model's choice (log entry 67). -/
def Obligations.SyncInstructionsFenceAndWait : Prop :=
  ∀ (e : EngineId) (s : State) (x : Entry),
    let g := s.eng e
    let f := fld x.word 23 16
    let kind := fld x.word 25 24
    let value := kind % 2 == 0
    let flg (h : Engine) : Prop := Answers (.syncFlag e) s (EngineBecomes e h [] s)
    let broken := s.get F.AV_BAR_CFG.broken 19 (fld x.word 21 16) = 1
    (Syncs s e 0x80 x → s.fenceClear e x (fld x.word 17 16) = true →
      let c := g.fails.headD .ok
      Answers (.syncFence e) s (EngineBecomes e (syncEnds (failsTaken g) x c (noDetail c x.idx)) [] s)) ∧
    (Syncs s e 0x81 x → x.sent = false → fld x.word 23 22 ≠ 2 → s.fenceClear e x 2 = true →
      (g.fails = [] → Answers (.syncBar e) s (EngineBecomes e (g.setEntry { x with sent := true }) [] s)) ∧
      ∀ c l, g.fails = c :: l → c ≠ .ok → Answers (.syncBar e) s (EngineBecomes e (syncEnds (failsTaken g) x c (noDetail c x.idx)) [] s)) ∧
    (Syncs s e 0x81 x → x.sent = false → fld x.word 23 22 = 2 →
      (g.arrivedAt (fld x.word 21 16) = none →
        Answers (.syncBar e) s (EngineBecomes e (if broken then syncEnds g x .linkDown (noDetail .linkDown x.idx) else syncEnds g x .ok 0) [] s)) ∧
      ∀ n, g.arrivedAt (fld x.word 21 16) = some n → x.epoch = s.get F.AV_EPOCH.applied 19 →
        Answers (.syncBar e) s (EngineBecomes e
          (if broken then syncEnds g x .linkDown (noDetail .linkDown x.idx)
            else if genReleased (s.get F.AV_BAR_CFG.gen 19 (fld x.word 21 16)) n then syncEnds g x .ok 0
            else g.setEntry { x with sent := true, gen := some n }) [] s)) ∧
    (Syncs s e 0x82 x → x.sent = false → kind < 2 → s.fenceClear e x 2 = true →
      (∀ c l, g.fails = c :: l → c ≠ .ok → flg (syncEnds (failsTaken g) x c (noDetail c x.idx))) ∧
      (g.fails = [] → s.flagRemote f = false → flg (g.setEntry { x with sent := true })) ∧
      (g.fails = [] → s.flagRemote f = true → AsksHome (.syncFlag e) e s x)) ∧
    (Syncs s e 0x82 x → x.sent = false → 2 ≤ kind →
      (s.flagRemote f = true → AsksHome (.syncFlag e) e s x) ∧
      (s.flagRemote f = false → x.epoch = s.get F.AV_EPOCH.applied 19 →
        flg (if s.flag f = value then syncEnds g x .ok 0 else g.setEntry { x with sent := true })))

/-- SYNC.EPOCH at the front of its queue completes once its epoch or a newer one is applied and waits for nothing else; when remote_timeout has passed it ends with TIMEOUT (R142). -/
def Obligations.EpochWaitsEndAtTheirEpoch : Prop :=
  ∀ (e : EngineId) (s : State) (x : Entry), Syncs s e 0x83 x →
    let g := s.eng e
    let reached := (s.get F.ENG_EPOCH.applied e.val + 2 ^ 32 - fld x.word 47 16) % 2 ^ 32 < 2 ^ 31
    (reached → Answers (.syncEpoch e) s (EngineBecomes e (syncEnds g x .ok 0) [] s)) ∧
    (¬ reached → ∃ why, exec (.syncEpoch e) s = .refused (.notEnabled why)) ∧
    ((∀ o ∈ s.net.outs, ¬ (o.who = .engine e ∧ o.access = x.id)) → (g.inflight.find? fun y => y.id == x.id) = some x →
      Answers (.remoteAccessTimeout e x.id) s (EngineBecomes e (syncEnds g x .timeout (s.timedDetail x)) [] s))

/-- A sync instruction at the Roundabout, a wait at a barrier and a change of a flag are checked against the epoch of router 19: an older or newer epoch
ends them with EPOCH_SKEW and the epoch applied, and a staged one is waited for (R331, R333). -/
def Claim.TheRoundaboutChecksTheEpoch : Prop :=
  ∀ (e : EngineId) (s : State) (x : Entry),
    let now := s.get F.AV_EPOCH.applied 19
    let next := s.get F.AV_EPOCH.staged 19
    let skewed (c : Instr) : Prop :=
      (x.epoch ≠ now → ¬ (x.epoch = next ∧ epochNewer x.epoch now = true) →
        Answers c s fun t => t.eng e = syncEnds (s.eng e) x .epochSkew now ∧ OnlyEngines (· = e) s t ∧ OnlyParts [.engines] s t) ∧
      (x.epoch ≠ now → x.epoch = next → epochNewer x.epoch now = true → ∃ why, exec c s = .refused (.notEnabled why))
    (Syncs s e 0x81 x → x.sent = true → x.gen = none → fld x.word 23 22 ≠ 2 → (s.eng e).orphans.find? arriving = none → skewed (.barrierArrival e)) ∧
    (Syncs s e 0x81 x → x.sent = false → fld x.word 23 22 = 2 → (s.eng e).arrivedAt (fld x.word 21 16) ≠ none → skewed (.syncBar e)) ∧
    (∀ (f : Fin 256) (set : Bool) (m : FlagMsg), Syncs s e 0x82 x → x.sent = true → fld x.word 23 16 = f.val → fld x.word 25 24 = (if set then 0 else 1) →
      s.flagRemote f.val = false → (s.eng e).orphans.find? (changesFlag f.val set) = none →
      skewed (if set then .flagSet f (.engine e) m else .flagClear f (.engine e) m))

/-- Of the requests of an engine that a reset overtook, those of which a test holds have been answered, and the answers discarded (R329). -/
def waitsGone (p : Entry → Bool) (g : Engine) : Engine := { g with orphans := g.orphans.filter fun y => !(g.orphans.filter p).any fun z => z.id == y.id }

/-- The epoch that a message of another block carries is the Roundabout's, or it carries none (R333). -/
def InEpoch (s : State) (m : FlagMsg) : Prop := ∀ ep, m.epoch = some ep → ep.toNat = s.get F.AV_EPOCH.applied 19

/-- A flag of the Roundabout takes its value, in both of its registers, and no other flag does (R324, R338); the watches for that value are answered and gone,
and the engines that wait here for it go on, while the waits of engines that were reset end unseen; a message of another block on an epoch that is neither the
Roundabout's nor the staged one changes nothing and is answered (R324, R325, R329, R333). That its answer carries the epoch is the model's choice (log entry 78). -/
def Claim.FlagsTakeTheirValues : Prop :=
  ∀ (s : State) (set : Bool) (f : Fin 256),
    let change (w : Requester) (m : FlagMsg) : Instr := if set then .flagSet f w m else .flagClear f w m
    let only := SendsOnly [.engines, .watches] [R.AV_FLAG_SET, R.AV_FLAG_CLR, R.AV_DISCARD] s
    let flags (t : State) : Prop := (∀ n, n < 256 → t.flag n = if n = f.val then set else s.flag n) ∧
      t.reg R.AV_FLAG_CLR 19 (f.val / 64) = t.reg R.AV_FLAG_SET 19 (f.val / 64) ∧
      t.watches = s.watches.filter fun w => !(w.flag == f.val && w.forSet == set)
    (∀ w m, (∀ e, w ≠ .engine e) → InEpoch s m → Answers (change w m) s fun t => flags t ∧ only t) ∧
    (∀ b ep m, m.epoch = some ep → ep.toNat ≠ s.get F.AV_EPOCH.applied 19 →
      ¬ (ep.toNat = s.get F.AV_EPOCH.staged 19 ∧ epochNewer ep.toNat (s.get F.AV_EPOCH.applied 19) = true) →
      Answers (change (.remote b) m) s (SendsOnly [] [] s)) ∧
    (∀ e x m, Syncs s e 0x82 x → x.sent = true → fld x.word 23 16 = f.val → fld x.word 25 24 = (if set then 0 else 1) → x.epoch = s.get F.AV_EPOCH.applied 19 →
      s.flagRemote f.val = false → (s.eng e).orphans.find? (changesFlag f.val set) = none →
      (∀ y, (syncEnds (s.eng e) x .ok 0).front .sync = some y → y.sent = false) →
      Answers (change (.engine e) m) s fun t => flags t ∧ only t ∧ t.eng e = waitsGone (waitsFlag f.val set) (syncEnds (s.eng e) x .ok 0)) ∧
    (∀ w m e x, (∀ q, w ≠ .engine q) → InEpoch s m → s.flagRemote f.val = false → (s.eng e).front .sync = some x → waitsFlag f.val set x = true →
      Answers (change w m) s fun t => t.eng e = waitsGone (waitsFlag f.val set) (syncEnds (s.eng e) x .ok 0))

/-- Writes of AV_FLAG_SETi and AV_FLAG_CLRi change the flags whose bits are 1, and no other (R338). -/
def Claim.FlagWritesChangeTheFlagsWritten : Prop :=
  ∀ (s : State) (i : Fin 4) (v : Word),
    let only := SendsOnly [.engines, .watches] [R.AV_FLAG_SET, R.AV_FLAG_CLR, R.AV_DISCARD] s
    (Answers (.avFlagSetWrite i v) s fun t => (∀ n, n < 256 → t.flag n = (s.flag n || (n / 64 == i.val && nbit v.toNat (n % 64)))) ∧ only t) ∧
    (Answers (.avFlagClrWrite i v) s fun t => (∀ n, n < 256 → t.flag n = (s.flag n && !(n / 64 == i.val && nbit v.toNat (n % 64)))) ∧ only t)

/-- A watch from another block is answered at once where the flag holds the value, is refused when 256 stand, and else waits; an answer to this block's engine ends
its instruction, with EPOCH_SKEW where its home is on another epoch, and a refusal lets it send the watch again (R324, R325, R333). -/
def Claim.WatchesAreAnsweredRefusedOrKept : Prop :=
  ∀ (s : State) (f : Fin 256) (who : BlockId) (v : Bool),
    (∀ m, InEpoch s m →
      (s.flag f.val = v → Answers (.flagWatch f who v m) s (SendsOnly [] [] s)) ∧
      (s.flag f.val ≠ v → 256 ≤ s.watches.length → Answers (.flagWatch f who v m) s fun t => OnlyParts [.outbox] s t ∧
        t.outbox = s.outbox ++ [.watchRefused who.toNat f.val m.tag.toNat]) ∧
      (s.flag f.val ≠ v → s.watches.length < 256 → Answers (.flagWatch f who v m) s fun t => OnlyParts [.watches] s t ∧
        t.watches = s.watches ++ [⟨f.val, who.toNat, v, m.tag.toNat⟩])) ∧
    ∀ e x, (s.eng e).front .sync = some x → s.flagRemote f.val = true → remoteAsk f.val x = true →
      (x.gen = none → ((s.eng e).orphans.find? fun y => remoteAsk f.val y && y.gen.isNone) = none →
        Answers (.flagAnswer f e .done) s (EngineBecomes e (syncEnds (s.eng e) x .ok 0) [] s) ∧
        (∀ n, Answers (.flagAnswer f e (.skew n)) s (EngineBecomes e (syncEnds (s.eng e) x .epochSkew n.toNat) [] s)) ∧
        (2 ≤ fld x.word 25 24 → Answers (.flagAnswer f e .refused) s (EngineBecomes e ((s.eng e).setEntry { x with gen := some 0 }) [] s))) ∧
      ∀ n, x.gen = some n → AsksHome (.watchRetry f e) e s x

/-- The fields of a barrier. -/
def barField (s : State) (f : Field) (b : Fin 64) : Nat := s.get f 19 b.val

/-- The generation of a barrier has all its arrivals (R321). -/
def BarFull (s : State) (b : Fin 64) : Prop :=
  barField s F.AV_BAR_CFG.enable b = 1 ∧ barField s F.AV_BAR_CFG.arrived b = barField s F.AV_BAR_CFG.local b ∧
    barField s F.AV_BAR_CFG.child_arrived b = barField s F.AV_BAR_CFG.children b

/-- An arrival is counted toward the current generation, or the next where the current one has all its local arrivals; one beyond both is refused with
ACCESS_DENIED and a broken barrier with LINK_DOWN; a barrier that is not full keeps its generation (R321-R323). One that a reset of its engine overtook is counted
all the same, and its answer is discarded and counted; that it is counted is the model's reading of R329 (log entry 63). -/
def Claim.ArrivalsCountTowardAGeneration : Prop :=
  ∀ (e : EngineId) (s : State) (x : Entry),
    let b := barId x
    let g := s.eng e
    let arrived := barField s F.AV_BAR_CFG.arrived b
    let loc := barField s F.AV_BAR_CFG.local b
    let counted (t : State) : Prop := FieldsBecome [⟨F.AV_BAR_CFG.arrived, 19, b.val, arrived + 1⟩] s t ∧ t.bars = s.bars ∧ OnlyEngines (· = e) s t ∧ OnlyParts [.engines, .regs] s t
    (g.orphans.find? arriving = some x → x.epoch = s.get F.AV_EPOCH.applied 19 → barField s F.AV_BAR_CFG.broken b = 0 → arrived < loc → arrived + 1 ≠ loc →
      (fld x.word 23 22 ≠ 1 → Answers (.barrierArrival e) s fun t => counted t ∧
        t.eng e = { g with orphans := g.orphans.map fun y => if y.id = x.id then { y with gen := some (barField s F.AV_BAR_CFG.gen b) } else y }) ∧
      (fld x.word 23 22 = 1 → Answers (.barrierArrival e) s fun t => t.eng e = { g with orphans := g.orphans.filter fun y => y.id != x.id } ∧
        barField t F.AV_BAR_CFG.arrived b = arrived + 1 ∧ t.bars = s.bars ∧ OnlyEngines (· = e) s t ∧ OnlyParts [.engines, .regs] s t ∧
          (let f := if e.val < 40 then F.AV_DISCARD.eng_a else F.AV_DISCARD.eng_b
          t.get f (columnOf e).val = min (s.get f (columnOf e).val + 1) (2 ^ 32 - 1)))) ∧
    (g.orphans.find? arriving = none → Syncs s e 0x81 x → x.sent = true → x.gen = none → fld x.word 23 22 ≠ 2 → x.epoch = s.get F.AV_EPOCH.applied 19 →
      let fin (n : Nat) : Engine := (if fld x.word 23 22 = 1 then (g.noteArrival b.val n).setEntry (x.finish .ok) else (g.noteArrival b.val n).setEntry { x with gen := some n })
      (barField s F.AV_BAR_CFG.broken b = 1 → Answers (.barrierArrival e) s (EngineBecomes e (syncEnds g x .linkDown (noDetail .linkDown x.idx)) [] s)) ∧
      (barField s F.AV_BAR_CFG.broken b = 0 → loc ≤ arrived → ¬ (arrived = loc ∧ (s.bar b).next < loc) →
        Answers (.barrierArrival e) s (EngineBecomes e (syncEnds g x .accessDenied (noDetail .accessDenied x.idx)) [] s)) ∧
      (barField s F.AV_BAR_CFG.broken b = 0 → arrived < loc → arrived + 1 ≠ loc →
        Answers (.barrierArrival e) s fun t => counted t ∧ t.eng e = fin (barField s F.AV_BAR_CFG.gen b)) ∧
      (barField s F.AV_BAR_CFG.broken b = 0 → arrived = loc → (s.bar b).next < loc → ¬ BarFull s b → Answers (.barrierArrival e) s fun t =>
        t.eng e = fin ((barField s F.AV_BAR_CFG.gen b + 1) % 4096) ∧ t.bars = vset s.bars b { s.bar b with next := (s.bar b).next + 1 } ∧
          OnlyEngines (· = e) s t ∧ OnlyParts [.engines, .bars] s t))

/-- A barrier that becomes full without a parent is released: its generation advances, its counters start anew with the arrivals counted toward the next, and the
children of the released generation hear of it; one with a parent sends its arrival there once, and is released by its parent's message; a child's arrival counts
(R321, R322). A write of AV_BAR_CFG takes the shape of the barrier only while it is not enabled, clears broken where it says so, enables no barrier without
participants, and one that disables clears the counters (R321, R323, R338). -/
def Claim.BarriersReleaseByGeneration : Prop :=
  ∀ (s : State) (b : Fin 64),
    (∀ child, ¬ BarFull (s.barPut F.AV_BAR_CFG.child_arrived b (barField s F.AV_BAR_CFG.child_arrived b + 1)) b → Answers (.childArrival b child) s fun t =>
      FieldsBecome [⟨F.AV_BAR_CFG.child_arrived, 19, b.val, (barField s F.AV_BAR_CFG.child_arrived b + 1) % 2 ^ F.AV_BAR_CFG.child_arrived.w⟩] s t ∧
        t.bars = vset s.bars b { s.bar b with children := (s.bar b).children ++ [child.toNat] } ∧ OnlyParts [.regs, .bars] s t) ∧
    (∀ child, BarFull (s.barPut F.AV_BAR_CFG.child_arrived b (barField s F.AV_BAR_CFG.child_arrived b + 1)) b → barField s F.AV_BAR_CFG.has_parent b = 1 →
      (s.bar b).parentSent = false → Answers (.childArrival b child) s fun t =>
        barField t F.AV_BAR_CFG.gen b = barField s F.AV_BAR_CFG.gen b ∧ (t.bar b).parentSent = true ∧ (∀ q, q ≠ b → t.bar q = s.bar q) ∧
          SendsOnly [.bars] [R.AV_BAR_CFG] s t) ∧
    (∀ n, (s.bar b).parentSent = true → BarFull s b → barField s F.AV_BAR_CFG.local b ≠ (s.bar b).next % 2 ^ F.AV_BAR_CFG.arrived.w → Answers (.parentRelease b n) s fun t =>
      barField t F.AV_BAR_CFG.gen b = (barField s F.AV_BAR_CFG.gen b + 1) % 4096 ∧ barField t F.AV_BAR_CFG.arrived b = (s.bar b).next % 2 ^ F.AV_BAR_CFG.arrived.w ∧
        barField t F.AV_BAR_CFG.child_arrived b = 0 ∧ t.bar b = ⟨0, [], false⟩ ∧ (∀ q, q ≠ b → t.bar q = s.bar q) ∧
        SendsOnly [.engines, .bars] [R.AV_BAR_CFG, R.AV_DISCARD] s t ∧
        ∀ e x, (s.eng e).front .sync = some x → waitsReleased b.val ((barField s F.AV_BAR_CFG.gen b + 1) % 4096) x = true →
          t.eng e = waitsGone (waitsReleased b.val ((barField s F.AV_BAR_CFG.gen b + 1) % 4096)) (syncEnds (s.eng e) x .ok 0)) ∧
    ∀ v : Word,
      let n := v.toNat
      let was := barField s F.AV_BAR_CFG.enable b = 1
      let loc := if was then barField s F.AV_BAR_CFG.local b else min (n / 2 ^ 19 % 128) 80
      let kids := if was then barField s F.AV_BAR_CFG.children b else n / 2 ^ 26 % 2048
      let on := nbit n 51 = true ∧ ¬ (loc = 0 ∧ kids = 0)
      (¬ on → Answers (.avBarCfgWrite b v) s fun t =>
        barField t F.AV_BAR_CFG.enable b = 0 ∧ barField t F.AV_BAR_CFG.local b = loc ∧ barField t F.AV_BAR_CFG.children b = kids ∧
          barField t F.AV_BAR_CFG.has_parent b = (if was then barField s F.AV_BAR_CFG.has_parent b else n / 2 ^ 49 % 2) ∧
          barField t F.AV_BAR_CFG.parent b = (if was then barField s F.AV_BAR_CFG.parent b else n / 2 ^ 37 % 4096) ∧
          barField t F.AV_BAR_CFG.broken b = (if nbit n 50 then 0 else barField s F.AV_BAR_CFG.broken b) ∧
          barField t F.AV_BAR_CFG.gen b = barField s F.AV_BAR_CFG.gen b ∧
          (was → barField t F.AV_BAR_CFG.arrived b = 0 ∧ barField t F.AV_BAR_CFG.child_arrived b = 0 ∧ t.bar b = ⟨0, [], false⟩) ∧
          OnlyKeys [R.AV_BAR_CFG.key 19 b.val] s t ∧ OnlyParts [.regs, .bars] s t) ∧
      (on → ¬ (barField s F.AV_BAR_CFG.arrived b = loc ∧ barField s F.AV_BAR_CFG.child_arrived b = kids) → Answers (.avBarCfgWrite b v) s fun t =>
        barField t F.AV_BAR_CFG.enable b = 1 ∧ barField t F.AV_BAR_CFG.local b = loc ∧ barField t F.AV_BAR_CFG.children b = kids ∧
          barField t F.AV_BAR_CFG.gen b = barField s F.AV_BAR_CFG.gen b ∧ t.bars = s.bars ∧ OnlyKeys [R.AV_BAR_CFG.key 19 b.val] s t ∧ OnlyParts [.regs] s t)

/-! ## Bank arithmetic -/

/-- The registers of the broadcast port of an engine, and what a command of it may change of the registers. -/
def portRegs : List Reg := [R.BAU_STATUS, R.LND_STATUS, R.BAU_COUNTS, R.BAU_ERR]

/-- `BAU_STATUS` shows the broadcasts that the port holds and the banks that have not finished them, `LND_STATUS` a recall (R271, R311). -/
def showsPort (e : EngineId) (t : State) : Prop :=
  t.get F.BAU_STATUS.inflight e.val = (t.eng e).bcs.length % 2 ^ F.BAU_STATUS.inflight.w ∧
    t.get F.BAU_STATUS.active e.val = (t.eng e).activeBanks % 2 ^ F.BAU_STATUS.active.w ∧
    t.get F.LND_STATUS.recall e.val = b2n ((t.eng e).bcs.any fun x => x.phase == .recall)

/-- The port takes the oldest broadcast of the BAU queue, whatever its operation (R109, R176, R284, R293-R296, R300). -/
def Claim.BroadcastsArePresentedInOrder : Prop :=
  ∀ (e : EngineId) (s : State) (x : Entry), (s.eng e).front .bau = some x → x.sent = false → s.regionOn e = true → (s.eng e).inReset = false →
    (s.eng e).fenced x = false →
    ∀ p ∈ [(0x70, Instr.bauAdd e), (0x71, .bauAxpy e), (0x72, .bauScale e), (0x73, .bauFill e), (0x74, .bauCopy e), (0x75, .bauQnt e), (0x76, .bauDqt e),
        (0x77, .bauOpt e), (0x78, .bauSum e), (0x79, .bauMaxabs e)],
      opOf x.word = p.1 → Answers p.2 s (EngineBecomes e ((s.eng e).setEntry { x with sent := true }) [] s)

/-- The first step error since `BAU_ERR.valid` was cleared is recorded (R307, R311). -/
def errRecorded (s t : State) (e : EngineId) (x : Broadcast) (c : Code) (result : Bool) (bank row : Nat) : Prop :=
  t.reg R.BAU_ERR e.val = if s.on F.BAU_ERR.valid e.val then s.reg R.BAU_ERR e.val else (2 ^ 63 + bauErrWord x c result bank row) % 2 ^ 64

/-- The stop of a broadcast that is not accepted. -/
def bauStop (x : Entry) (c : Code) (d : Nat) : Entry := { x.failAt c d with completed := true }

/-- A presented broadcast is accepted while the port holds fewer than four: broken operands complete it with ACCESS_DENIED, another epoch with EPOCH_SKEW and a
count, a failed read of its mask or record with the code of the read, or with EPOCH_SKEW where their unit is on another epoch, an empty scope with OK, and else it
joins the port and waits for its recall (R283-R285, R289-R292, R299, R306, R333, R521). -/
def Claim.BroadcastsAreAcceptedOrComplete : Prop :=
  ∀ (e : EngineId) (s : State) (x : Entry), (s.eng e).front .bau = some x → x.sent = true → (s.eng e).bcs.length < 4 →
    let g := s.eng e
    let w := x.word
    let check := epochCheck x.epoch (s.get F.BAU_EPOCH.applied e.val) (s.get F.BAU_EPOCH.staged e.val)
    let l := s.noteReads e x.bauReads
    let mask := if fld w 37 36 = 2 then s.readSpan (.engine e) (sGet x.sr (fld w 44 40)).toNat 256 else (.ok, [])
    let record := if opOf w = 0x77 then s.readSpan (.engine e) (sGet x.sr (fld w 30 26)).toNat 256 else (.ok, [])
    let ends (y : Entry) : Prop := UnitAnswers (.broadcastAccept e) e s (g.setEntry y) l l.elog
    (s.bauOperandsOk x = false → UnitAnswers (.broadcastAccept e) e s (g.setEntry (bauStop x .accessDenied (noDetail .accessDenied x.idx))) s s.elog) ∧
    (s.bauOperandsOk x = true → ∀ a, check = .skew a → Answers (.broadcastAccept e) s (EngineBecomes e (g.setEntry (bauStop x .epochSkew a))
      [⟨F.BAU_COUNTS.epoch_skew, e.val, 0, min (s.get F.BAU_COUNTS.epoch_skew e.val + 1) (2 ^ F.BAU_COUNTS.epoch_skew.w - 1)⟩] s)) ∧
    (s.bauOperandsOk x = true → check = .proceed → s.readsWait x x.bauReads = false → ∀ a, s.readRefusal x x.bauReads = some a →
      UnitAnswers (.broadcastAccept e) e s (g.setEntry (bauStop x .epochSkew a)) s s.elog) ∧
    (s.bauOperandsOk x = true → check = .proceed → s.readsWait x x.bauReads = false → s.readRefusal x x.bauReads = none →
      (mask.1 ≠ .ok → ends (bauStop x mask.1 (blockOf (sGet x.sr (fld w 44 40)).toNat))) ∧
      (mask.1 = .ok → record.1 ≠ .ok → ends (bauStop x record.1 (blockOf (sGet x.sr (fld w 30 26)).toNat))) ∧
      (mask.1 = .ok → record.1 = .ok → opOf w = 0x77 → (optRecordOk record.2 && optOperandOk (sGet x.sr (fld w 20 16)).toNat record.2) = false →
        ends (bauStop x .accessDenied (noDetail .accessDenied x.idx))) ∧
      (mask.1 = .ok → record.1 = .ok → (opOf w = 0x77 → (optRecordOk record.2 && optOperandOk (sGet x.sr (fld w 20 16)).toNat record.2) = true) →
        let banks := bauBanks (fld w 37 36) (fld w 39 38) mask.2
        (banks = [] → ends { x.finish .ok with wrote := true }) ∧
        (banks ≠ [] → Answers (.broadcastAccept e) s fun t =>
          t.eng e = { g.setEntry { x with done := true } with bcs := g.bcs ++ [bcOf x banks record.2] } ∧ OnlyEngines (· = e) s t ∧ showsPort e t ∧
            (t.marks, t.squares) = (l.marks, l.squares) ∧ t.elog = l.elog ∧ OnlyParts [.regs, .engines, .marks, .squares, .elog] s t ∧
              OnlyRegisters (portRegs ++ readMarks) s t)))

/-- The recall of a broadcast drops the home square's lines of its rows, dirty ones written back, and no other line; the broadcast goes on to its check pass where it
has one (R178, R271, R285). -/
def Claim.RecallsDropTheLinesOfTheRows : Prop :=
  ∀ (e : EngineId) (s : State) (x : Broadcast), ((s.eng e).bcs.find? fun x => x.phase == .recall) = some x → s.ownWrites e x.id = false →
    Answers (.landingRecallDone e) s fun t =>
      t.eng e = (s.eng e).setBc x.afterRecall ∧ OnlyEngines (· = e) s t ∧ (t.sq (columnOf e)).lines = (s.sq (columnOf e)).lines.filter (fun l => !x.coversLine e l) ∧
        (∀ k, k ≠ columnOf e → t.sq k = s.sq k) ∧ showsPort e t ∧ OnlyParts [.regs, .engines, .marks, .squares] s t

/-- A wave is released in order where the mode allows it; the instruction completes with the fourth wave of its main pass; a check pass that found a bad tag ends its
instruction with SCALE_SKEW, one that met a data error with DATA_ERR, and else the main pass begins (R285-R287). -/
def Claim.WavesAndCheckPasses : Prop :=
  ∀ (e : EngineId) (s : State) (x : Broadcast),
    let g := s.eng e
    let completes (h : Engine) (c : Code) (d : Nat) : Engine :=
      { h with inflight := h.inflight.map fun y => if y.id = x.id then { y.finish c d with wrote := decide (c = .ok) } else y }
    let done := min (s.get F.BAU_COUNTS.done e.val + 1) (2 ^ F.BAU_COUNTS.done.w - 1)
    let port (c : Instr) (h : Engine) (counted : Bool) : Prop := Answers c s fun t => t.eng e = h ∧ OnlyEngines (· = e) s t ∧ showsPort e t ∧
      t.get F.BAU_COUNTS.done e.val = (if counted then done else s.get F.BAU_COUNTS.done e.val) ∧ OnlyParts [.regs, .engines] s t ∧ OnlyRegisters portRegs s t
    ((g.bcs.find? fun x => s.mayRelease e x) = some x →
      let y := { x with released := x.released ++ [x.released.length] }
      let z := { y with complete := true }
      (¬ (x.phase = .main ∧ x.released.length = 3) → port (.waveRelease e) (g.setBc y) false) ∧
      (x.phase = .main → x.released.length = 3 → z.finished = false → port (.waveRelease e) ((completes g .ok 0).setBc z) false) ∧
      (x.phase = .main → x.released.length = 3 → z.finished = true → port (.waveRelease e) ((completes g .ok 0).dropBc x.id) true)) ∧
    ((g.bcs.find? fun x => x.phase == .check && x.released.length == 4 && x.allFin) = some x →
      (x.skews = [] → x.bads = [] → port (.checkPassDone e) (g.setBc { x with phase := .main, released := [], seqs := [] }) false) ∧
      (∀ b bs, x.skews = [] → x.bads = b :: bs → port (.checkPassDone e) ((completes g .dataErr (bankCore (bs.foldl min b))).dropBc x.id) true) ∧
      (∀ f fs, x.skews = f :: fs → port (.checkPassDone e) ((completes g .scaleSkew (bauSkewDetail (fs.foldl worstSkew f))).dropBc x.id) true))

/-- A bank step may run: nothing is owed to the bank, no access and no late scrub read waits at it, and it is not dark; `x` is the oldest broadcast that works in it (R262, R281, R284). -/
structure Steps (s : State) (e : EngineId) (b : BankId) (x : Broadcast) : Prop where
  owed : (s.bank e b.val).owed = 0
  free : s.queued e b.val = false
  scrub : s.scrubFirst e b.val = false
  lit : (s.eng e).dramOut = false
  oldest : ((s.eng e).bcs.find? fun x => x.holds b.val) = some x

/-- Where a broadcast is after a change: it stays in the port, or ends there once it has finished (R288). -/
def settled (g : Engine) (x : Broadcast) : Engine := if x.finished then g.dropBc x.id else g.setBc x

/-- The bank's words that a step reads fail, or the step meets an error: it writes nothing. -/
def stepFails (s : State) (e : EngineId) (b : Nat) (reads : List (Nat × Nat)) (err : Bool) : Prop := err = true ∨ (s.badRow e b reads).isSome = true

/-- A step of a bank's sequence makes its reads and writes and advances the sequence: it changes the bytes that it writes and no others, and leaves its row open; one that
meets an error changes no memory and ends the bank's sequence, its error recorded, counted, logged and kept for the next wait (R281, R282, R293-R296, R300, R302, R303,
R307, R308); the source step of an inter-bank copy puts its unit on the bus, and the banks that wait for that unit take it (R294). -/
def Obligations.BankStepsWriteTheirOwnBytes : Prop :=
  ∀ (e : EngineId) (b : BankId) (s : State) (x : Broadcast), Steps s e b x →
    let g := s.eng e
    let rd := s.bankRd e b.val
    let q := x.seq b.val
    let own := x.banks.contains b.val && x.isReleased b.val && !q.fin
    let frame (t : State) : Prop := OnlyEngines (· = e) s t ∧ showsPort e t ∧ OnlyParts [.regs, .mem, .engines, .banks, .marks, .squares, .elog] s t
    let runs (y : Broadcast) : Prop :=
      let f := y.stepFx rd b.val (y.seq b.val)
      (¬ stepFails s e b.val f.reads false → Answers (.bauStep e b false) s fun t =>
        t.eng e = settled g (y.setSeq b.val (f.seq.endAt y.steps)) ∧ (t.bank e b.val).openRow = some f.row ∧ frame t ∧
          (∀ k, (∀ p ∈ f.writes, k < rowKey e b.val 0 + p.1 ∨ rowKey e b.val 0 + p.1 + p.2.length ≤ k) → t.byte k = s.byte k) ∧
          ∀ p, f.writes = [p] → ∀ i (h : i < p.2.length), t.byte (rowKey e b.val 0 + p.1 + i) = p.2[i]) ∧
      ∀ err, stepFails s e b.val f.reads err → Answers (.bauStep e b err) s fun t =>
        t.mem = s.mem ∧ frame t ∧ (t.eng e).bcs = (settled g (y.setSeq b.val { y.seq b.val with fin := true, err := true })).bcs ∧
          (t.eng e).bauErrs = (if y.orphan then g.bauErrs else insertErr (y.id, b.val, .dataErr, bankCore b.val) g.bauErrs) ∧
          errRecorded s t e y .dataErr false b.val ((s.badRow e b.val f.reads).getD f.row)
    (x.phase = .main → x.src = none → own = true → x.hasParams b.val = true → runs x) ∧
    (x.phase = .main → x.src.isSome = true → own = true → x.bus.isSome = true → x.busGone = true → q.pos = x.srcPos → runs (x.withBus b.val)) ∧
    (x.phase = .main → x.src = some b.val → ¬ (own = true ∧ x.bus.isSome = true ∧ x.busGone = true ∧ q.pos = x.srcPos) → s.mayReadSource e x = true →
      let p := x.unitRange x.opA x.wanted
      ¬ stepFails s e b.val [p] false → Answers (.bauStep e b false) s fun t =>
        t.eng e = g.setBc { x with srcPos := x.wanted, bus := some (copyUnit x.opA.fmt rd x.opA x.n x.wanted p.2), busGone := false } ∧ t.mem = s.mem ∧
          (t.bank e b.val).openRow = some (p.1 / 1024) ∧ frame t) ∧
    (x.phase = .main → x.src = some b.val → ¬ (own = true ∧ x.bus.isSome = true ∧ x.busGone = true ∧ q.pos = x.srcPos) → s.mayReadSource e x = true →
      let p := x.unitRange x.opA x.wanted
      ∀ err, stepFails s e b.val [p] err → Answers (.bauStep e b err) s fun t =>
        let y := x.banks.foldl (fun y c => if (y.seq c).fin then y else y.setSeq c { y.seq c with fin := true, err := true }) x
        t.mem = s.mem ∧ frame t ∧ (t.eng e).bcs = (settled g { y with bus := none }).bcs ∧
          errRecorded s t e x .dataErr false b.val ((s.badRow e b.val [p]).getD (p.1 / 1024))) ∧
    (x.phase = .check → own = true →
      let reads := (x.checkPieces q.pos).map fun p => (p.1, 2 * p.2.2.2)
      (¬ stepFails s e b.val reads false → Answers (.bauStep e b false) s fun t =>
        t.eng e = g.setBc ({ x with skews := x.skews ++ (x.checkFails rd b.val q.pos).map fun (f : Nat × Nat × Nat) => (b.val, f.1, f.2.1, f.2.2) }.setSeq b.val
          ({ q with pos := q.pos + 1, fin := decide (x.checkSteps ≤ q.pos + 1) })) ∧ t.mem = s.mem ∧ frame t) ∧
      ∀ err, stepFails s e b.val reads err → Answers (.bauStep e b err) s fun t =>
        t.eng e = g.setBc ({ x with bads := x.bads ++ [b.val] }.setSeq b.val { q with fin := true, err := true }) ∧ t.mem = s.mem ∧ frame t ∧
          errRecorded s t e x .dataErr false b.val ((s.badRow e b.val reads).getD (((reads.head?).map Prod.fst).getD 0 / 1024)))

/-- The bus of a layer carries what waits: the parameters of BAU.OPT before its steps, the unit of an inter-bank copy, and the results of the finished banks (R297). -/
def Claim.BusesCarryWhatWaits : Prop :=
  ∀ (e : EngineId) (layer : Fin 4) (s : State) (x : Broadcast) (j : BusJob), ((s.eng e).bcs.find? fun x => (x.busJob layer.val).isSome) = some x →
    x.busJob layer.val = some j → Answers (.bauBusTransfer e layer) s fun t => OnlyEngines (· = e) s t ∧ showsPort e t ∧ OnlyParts [.regs, .engines] s t ∧
      t.eng e = (s.eng e).setBc (match j with
        | .params => { x with sent := x.sent ++ [layer.val] }
        | .copy => { x with busGone := true }
        | .gather => { x with gathered := x.gathered ++ [layer.val] })

/-- A finished sum or maximum is written to its address and the broadcast ends; a finished optimiser step commits its record in one read and one write; a failure of
either is recorded, counted, logged and kept for the next wait, and ends the broadcast too (R296, R301, R307, R308). -/
def Claim.ResultsAreWrittenThenTheBroadcastEnds : Prop :=
  ∀ (e : EngineId) (s : State) (x : Broadcast),
    let g := s.eng e
    let ended (c : Instr) (q : State) (r : Code) : Prop := Answers c s fun t =>
      (t.mem, t.marks, t.squares) = (q.mem, q.marks, q.squares) ∧ (t.eng e).bcs = (g.dropBc x.id).bcs ∧ (t.eng e).inflight = g.inflight ∧
        (t.eng e).bauErrs = (if r = .ok then g.bauErrs else insertErr (x.id, 0x7FF, r, 0x7F) g.bauErrs) ∧
        t.get F.BAU_COUNTS.done e.val = min (s.get F.BAU_COUNTS.done e.val + 1) (2 ^ F.BAU_COUNTS.done.w - 1) ∧ (r ≠ .ok → errRecorded s t e x r true 0 0) ∧
        OnlyEngines (· = e) s t ∧ showsPort e t ∧ OnlyParts [.regs, .mem, .engines, .marks, .squares, .elog] s t
    ((g.bcs.find? fun x => x.awaitsWrite false) = some x → s.heldSpan (.engine e) x.d x.resultBytes.length = false →
      ended (.bauResultWrite e) (s.writeSpan (.engine e) x.d x.resultBytes).1 (s.writeSpan (.engine e) x.d x.resultBytes).2) ∧
    ((g.bcs.find? fun x => x.awaitsWrite true) = some x → s.heldSpan (.engine e) x.c 256 = false →
      let l := s.noteSpan (.engine e) x.c 256
      (∀ b, s.readSpan (.engine e) x.c 256 = (.ok, b) →
        let q := l.writeSpan (.engine e) x.c (optCommit b (x.maxOf BankSeq.mMax) (x.maxOf BankSeq.vMax))
        ended (.optRecordUpdate e) q.1 q.2) ∧
      ∀ c b, s.readSpan (.engine e) x.c 256 = (c, b) → c ≠ .ok → ended (.optRecordUpdate e) l c)

/-- BAU.WAIT completes once every earlier broadcast has finished, those that a reset left running among them: with OK, or with the first undelivered error, the others going with it (R288, R308); a staged mode and
epoch are applied where no sequence is in progress, and the unit counts as applied where its epoch is the committed one (R305, R332, R334). -/
def Claim.WaitsDeliverErrorsAndModesApply : Prop :=
  ∀ (e : EngineId) (s : State),
    let g := s.eng e
    (∀ x, g.front .bau = some x → opOf x.word = 0x7F → (∀ y ∈ g.bcs, y.orphan = false ∧ x.id < y.id) →
      (g.bauErrs = [] → Answers (.bauWait e) s (EngineBecomes e (g.setEntry (x.finish .ok)) [] s)) ∧
      ∀ i b c core l, g.bauErrs = (i, b, c, core) :: l → Answers (.bauWait e) s (EngineBecomes e (Engine.setEntry { g with bauErrs := [] } (x.finish c core)) [] s)) ∧
    (s.get F.BAU_EPOCH.staged e.val ≠ s.get F.BAU_EPOCH.applied e.val → g.activeBanks = 0 → Answers (.bauModeApply e) s fun t =>
      t.get F.BAU_MODE.stagger e.val = s.get F.BAU_MODE_NEXT.stagger e.val ∧ t.get F.BAU_MODE.wave_mode e.val = s.get F.BAU_MODE_NEXT.wave_mode e.val ∧
        t.get F.BAU_EPOCH.applied e.val = s.get F.BAU_EPOCH.staged e.val ∧
        (s.get F.BAU_EPOCH.staged e.val = s.get F.AV_EPOCH_STATUS.committed 19 → t.unitApplied (80 + e.val) = true) ∧
        (∀ u, u < 208 → u ≠ 80 + e.val → t.unitApplied u = s.unitApplied u) ∧
        OnlyRegisters [R.BAU_MODE, R.BAU_EPOCH, R.AV_APPLIED, R.AV_EPOCH_STATUS] s t ∧ OnlyParts [.regs] s t)

/-! ## Commands of an engine -/

/-- Where a turn-on of a region begins (R412, R420): behind another region of its column, in its window of 8 sub-gates of 250 ns where the segment draws less
than 85 % of 72 A, else waiting for the segment. -/
def turnOf (s : State) (r : RegionId) : WakePhase :=
  if (columnRegions r).any fun q => (s.region q).phase.holdsTurn then .queued
  else if s.segment r < 612 then .closing false (s.clock.ticks + 2000) else .waiting

/-- A region that wakes (R419, R420): from RETAIN or OFF, with no turn-on under way and no failed PLL, it shows waking and takes its turn in the column, or waits. -/
def Wakes (r : RegionId) (s t : State) : Prop :=
  if (s.regState r = 1 ∨ s.regState r = 2) ∧ (s.region r).phase = .none ∧ s.pllBars r = false then
    t.get F.PWR_RG_STATUS.waking (r.val + 1) = 1 ∧ (∀ q, q ≠ r → t.region q = s.region q) ∧
      t.region r = { s.region r with phase := turnOf s r }
  else t.power = s.power ∧ t.get F.PWR_RG_STATUS.waking (r.val + 1) = s.get F.PWR_RG_STATUS.waking (r.val + 1)

/-- What a write of ENG_CTL leaves in the fields beside its commands (R145). -/
def ctlWritten (e : EngineId) (v : Word) (bad : Bool) (s t : State) : Prop :=
  t.get F.ENG_CTL.entry e.val = v.toNat / 2 ^ 8 % 2 ^ 14 ∧ t.get F.ENG_CTL.save_ctx e.val = v.toNat / 2 ^ 4 % 2 ∧ t.get F.ENG_CTL.restore_ctx e.val = v.toNat / 2 ^ 5 % 2 ∧
    t.get F.ENG_STATUS.bad_cmd e.val = if bad then 1 else s.get F.ENG_STATUS.bad_cmd e.val

/-- The command of a write of ENG_CTL. -/
def engInstr (c : EngCmd) (e : EngineId) (v : Word) : Instr :=
  match c with
  | .cancel => .engCancel e v
  | .clear => .engClear e v
  | .suspend => .engSuspend e v
  | .resume => .engResume e v
  | .start => .engStart e v

/-- An engine after a cancel: registers as a start leaves them, nothing waits (R139). -/
def cancelledEngine (g : Engine) : Engine := { g.clearRegs with yieldAt := none, ctx := none }

/-- The first command of a write of ENG_CTL, in the order cancel, clear, suspend, resume, start, takes effect in the states that list it; in every other state, and for an
engine that is bound for FAULTED, it does nothing but set bad_cmd, which a second command bit sets too; an engine in reset or mapped out is not written (R35, R38, R114,
R134-R136, R138, R139, R145, R147, R419). -/
def Claim.EngineCommandsActInTheirStates : Prop :=
  ∀ (e : EngineId) (v : Word) (s : State) (c : EngCmd) (rest : List EngCmd), cmdsOf v.toNat = c :: rest →
    let g := s.eng e
    let st := s.engState e
    let i := engInstr c e v
    let bad := !rest.isEmpty
    let enters (h : Engine) (st : Nat) (signal : Bool) (P : State → Prop) : Prop := Answers i s fun t =>
      EnginesEnters e h st signal [.power] ([R.ENG_CTL, R.ENG_FAULT, R.PWR_RG_STATUS] ++ bauRegs) s t ∧ ctlWritten e v bad s t ∧ P t
    (g.inReset = true ∨ g.mappedOut = true → exec i s = .next s) ∧
    (g.inReset = false → g.mappedOut = false →
      (c.allowed st = false ∨ g.bound ≠ none → Answers i s (EngineBecomes e g
        [⟨F.ENG_CTL.entry, e.val, 0, v.toNat / 2 ^ 8 % 2 ^ 14⟩, ⟨F.ENG_CTL.save_ctx, e.val, 0, v.toNat / 2 ^ 4 % 2⟩,
          ⟨F.ENG_CTL.restore_ctx, e.val, 0, v.toNat / 2 ^ 5 % 2⟩, ⟨F.ENG_STATUS.bad_cmd, e.val, 0, 1⟩] s)) ∧
      (g.bound = none →
        (c = .start → st = 0 →
          let a (n : Nat) : Word := BitVec.ofNat 64 (s.reg R.ENG_ARG e.val n)
          let h := g.clearRegs
          enters { h with s := sSet (sSet (sSet (sSet h.s 1 (a 0)) 2 (a 1)) 3 (a 2)) 4 (a 3), beyond := false } 1 false fun t =>
            t.get F.ENG_STATUS.pc e.val = v.toNat / 2 ^ 8 % 2 ^ 14 ∧ Wakes (regionOf e) s t) ∧
        (c = .resume → st = 3 → enters (if nbit v.toNat 5 then { g with ctx := some .read } else { g with yieldAt := none }) 1 false fun t =>
          t.get F.ENG_STATUS.pc e.val = s.get F.ENG_STATUS.pc e.val ∧ Wakes (regionOf e) s t) ∧
        (c = .suspend → st = 1 → enters g 2 false fun t => t.power = s.power) ∧
        (c = .clear → st = 5 ∨ st = 6 → enters g 0 false fun t => t.power = s.power ∧ t.reg R.ENG_FAULT e.val = 0) ∧
        (c = .cancel → st = 3 → enters (cancelledEngine g) 0 true fun t => t.power = s.power ∧ t.get F.ENG_STATUS.last_code e.val = 9) ∧
        (c = .cancel → st = 1 ∨ st = 2 → enters { g.cancelWork with ctx := if s.regionOn e then g.ctx else none } 4 false fun t => t.power = s.power)))

/-- A cancelled engine returns to IDLE with its code and signal once the completions in flight have arrived and its drains have finished (R134, R139). -/
def Claim.CancelledEnginesReturnToIdle : Prop :=
  ∀ (e : EngineId) (s : State), s.engState e = 4 → (s.eng e).inflight = [] → (s.eng e).drains = [] → (s.eng e).ctx = none →
    Answers (.cancelDrained e) s fun t => EnginesEnters e (cancelledEngine (s.eng e)) 0 true [] [] s t ∧ t.get F.ENG_STATUS.last_code e.val = 9

/-- A yield in SUSPENDING retires once everything before it has, with its drains and broadcasts finished; it records its tag and suspends the engine, saving the context
first where save_ctx says so; an undelivered failure is its own completion, and without catch = 1 binds the engine for FAULTED instead (R131, R132, R136, R168, R308). -/
def Claim.YieldsSuspend : Prop :=
  ∀ (e : EngineId) (s : State) (x : Entry), s.engState e = 2 → (s.eng e).inflight.head? = some x → (s.eng e).yieldAt = some x.idx → opOf x.word = 4 →
    x.done = true → x.completed = false → (s.eng e).drains = [] → (s.eng e).bcs = [] →
    let g := s.eng e
    let r := g.takeEnd
    let y := x.finish r.2.1 (if g.fails = [] then r.2.2 else noDetail r.2.1 x.idx)
    let h := r.1.retire y
    (g.fails = [] → g.bauErrs = [] → y.code = .ok ∧ r.1 = g) ∧
    (∀ c l, g.fails = c :: l → y.code = c) ∧
    (y.code ≠ .ok → bitOf x.word 12 = false → Answers (.yieldSuspend e) s fun t => t.eng e = h ∧ OnlyEngines (· = e) s t ∧ OnlyParts [.regs, .engines] s t ∧
      t.engState e = 2 ∧ t.get F.ENG_STATUS.yield_tag e.val = s.get F.ENG_STATUS.yield_tag e.val) ∧
    (y.code = .ok ∨ bitOf x.word 12 = true →
      (s.on F.ENG_CTL.save_ctx e.val = true → Answers (.yieldSuspend e) s
        (EngineBecomes e { h with ctx := some .write } [⟨F.ENG_STATUS.yield_tag, e.val, 0, fld x.word 47 16⟩] s)) ∧
      (s.on F.ENG_CTL.save_ctx e.val = false → Answers (.yieldSuspend e) s fun t =>
        EnginesEnters e h 3 true [] [] s t ∧ t.get F.ENG_STATUS.yield_tag e.val = fld x.word 47 16))

/-- The record of a failed context transfer (R136, R138, R147). -/
def ctxRecordOf (s : State) (e : EngineId) (c : Code) : Nat :=
  let i := (s.eng e).yieldAt.getD 0
  (faultWord c i 4 (if c = .dataErr then noDetail c i else blockOf (s.ctxAddr e))).toNat

/-- The context record of 2,448 bytes is written at ENG_CTX_ADDR and the engine suspends, or is read there and its registers, its configuration and its index are restored;
a failure sets ctx_err and brings the engine to FAULTED, and a cancelled engine only ends the transfer (R136-R139, R148). -/
def Claim.ContextsAreSavedAndRestored : Prop :=
  ∀ (e : EngineId) (r : Reply) (s : State),
    let g := s.eng e
    let a := s.ctxAddr e
    let h := { g with ctx := none }
    let faulted (i : Instr) (c : Code) : Prop := Answers i s fun t =>
      EnginesEnters e { h with yieldAt := none } 5 true [.mem, .marks, .squares, .elog] ([R.ENG_FAULT, R.SQ_POISON] ++ readMarks) s { t with outbox := s.outbox ++ [.engineSignal e.val 5] } ∧
        t.reg R.ENG_FAULT e.val = ctxRecordOf s e c ∧ t.get F.ENG_STATUS.last_code e.val = c.toNat ∧ t.get F.ENG_STATUS.ctx_err e.val = 1
    (s.ctxRecord e).length = 2448 ∧
    (g.ctx = some .write → s.heldReads e [(a, 2448)] = false →
      let q := s.drainWrite e none a (s.ctxRecord e) r.write
      (s.engState e = 4 → MemoryMoves (.contextWriteDone e r) e s h q.1 q.1.elog) ∧
      (s.engState e ≠ 4 → q.2 = .ok → Answers (.contextWriteDone e r) s fun t =>
        t.eng e = h ∧ OnlyEngines (· = e) s t ∧ (t.mem, t.marks, t.squares) = (q.1.mem, q.1.marks, q.1.squares) ∧ t.engState e = 3 ∧
          t.outbox = q.1.outbox ++ [.engineSignal e.val 3] ∧ t.elog = q.1.elog ∧
          OnlyParts [.regs, .mem, .engines, .hints, .marks, .squares, .elog, .outbox] s t) ∧
      (s.engState e ≠ 4 → q.2 ≠ .ok → faulted (.contextWriteDone e r) q.2)) ∧
    (g.ctx = some .read → s.regionOn e = true → s.replyFits [(a, 2448)] r = true → s.heldReads e [(a, 2448)] = false →
      let l := s.noteReads e [(a, 2448)]
      (s.engState e = 4 → UnitAnswers (.contextReadDone e r) e s h l l.elog) ∧
      (s.engState e ≠ 4 → ∀ b, s.readVia e a 2448 r = (.ok, b) → Answers (.contextReadDone e r) s fun t =>
        t.eng e = { h.restore b with yieldAt := none, beyond := false } ∧ OnlyEngines (· = e) s t ∧ t.get F.ENG_STATUS.pc e.val = ctxWord b 0x948 % 2 ^ 14 ∧
          t.engState e = s.engState e ∧ (t.marks, t.squares) = (l.marks, l.squares) ∧ t.elog = l.elog ∧
          OnlyParts [.regs, .engines, .marks, .squares, .elog] s t) ∧
      (s.engState e ≠ 4 → ∀ c b, s.readVia e a 2448 r = (c, b) → c ≠ .ok → faulted (.contextReadDone e r) c))

/-- A page load by firmware begins where the engine runs nothing and the pages lie within the store, and sets busy; it is refused with ACCESS_DENIED in RUN, SUSPENDING and
CANCELLING, for no page and beyond the last; it ends with the code of its reads, and its pages hold what was read, or nothing where it failed (R107, R129, R149). -/
def Claim.PageLoadsByFirmware : Prop :=
  ∀ (e : EngineId) (v : Word) (r : Reply) (s : State),
    let g := s.eng e
    let n := v.toNat
    let page := n % 16
    let count := n / 16 % 32
    let asked : List Holds := [⟨F.ENG_PGCMD.page, e.val, 0, page⟩, ⟨F.ENG_PGCMD.count, e.val, 0, count⟩]
    let denied := s.engState e = 1 ∨ s.engState e = 2 ∨ s.engState e = 4 ∨ count = 0 ∨ 16 < page + count
    (g.inReset = false → g.mappedOut = false →
      (nbit n 9 = false ∨ s.on F.ENG_PGCMD.busy e.val = true → Answers (.engPgcmdGo e v) s (OnlyFields asked s)) ∧
      (nbit n 9 = true → s.on F.ENG_PGCMD.busy e.val = false → denied → Answers (.engPgcmdGo e v) s (OnlyFields (asked ++ [⟨F.ENG_PGCMD.code, e.val, 0, 5⟩]) s)) ∧
      (nbit n 9 = true → s.on F.ENG_PGCMD.busy e.val = false → ¬ denied → Answers (.engPgcmdGo e v) s fun t =>
        t.eng e = { g.markPages page count false true with pgLoad := some (s.reg R.ENG_PGSRC e.val, page, count) } ∧ OnlyEngines (· = e) s t ∧
          t.get F.ENG_PGCMD.busy e.val = 1 ∧ t.get F.ENG_PGCMD.page e.val = page ∧ t.get F.ENG_PGCMD.count e.val = count ∧ Wakes (regionOf e) s t ∧
          OnlyRegisters [R.ENG_PGCMD, R.PWR_RG_STATUS] s t ∧ OnlyParts [.regs, .engines, .power] s t)) ∧
    (g.inReset = true ∨ g.mappedOut = true → exec (.engPgcmdGo e v) s = .next s) ∧
    ∀ a p k, g.pgLoad = some (a, p, k) → s.regionOn e = true → s.replyFits [(a, 16384 * k)] r = true → s.heldReads e [(a, 16384 * k)] = false →
      let q := s.readVia e a (16384 * k) r
      Answers (.pageLoadDone e r) s fun t => t.eng e = { g.loadPages p k q.1 q.2 with pgLoad := none } ∧ OnlyEngines (· = e) s t ∧
        t.get F.ENG_PGCMD.busy e.val = 0 ∧ t.get F.ENG_PGCMD.code e.val = q.1.toNat ∧ OnlyRegisters (R.ENG_PGCMD :: readMarks) s t ∧
        OnlyParts [.regs, .engines, .marks, .squares, .elog] s t

/-! ## Landings, banks and scrub -/

/-- What the block has sent, and what crosses its mesh, once a transaction is answered: nothing leaves for an engine in reset (R329), and the answer to another
block goes from the unit that answers to the Floor port of its router, on plane 1 (R313, R355). -/
def answeredBy (q : State) (r : MemReq) (u : Option (SquareId × MeshPort)) (c : Code) (data : List Byte) (d : Nat) : List Output × List MeshPkt :=
  match r.who, u with
  | .remote _, some u => (q.outbox, q.mesh ++ [⟨u.1, u.2, u.1, 1, .completion r.who r.id c d data⟩])
  | .engine g, _ => (q.outbox ++ (if q.resetOf g then [] else [.reply r.who r.id c d data]), q.mesh)
  | _, _ => (q.outbox ++ [.reply r.who r.id c d data], q.mesh)

/-- A transaction is answered from a state. -/
def Replied (q : State) (r : MemReq) (c : Code) (data : List Byte) (t : State) (d : Nat := 0) : Prop :=
  (t.outbox, t.mesh) = answeredBy q r (unitPort r.addr.toNat) c data d

/-- A transaction is served from a state: a read answers the code and the bytes of its access, a write is stored as the address map says and answers its code. -/
def Served (q : State) (r : MemReq) (t : State) : Prop :=
  match r.op with
  | .read n => t.mem = q.mem ∧ t.marks = q.marks ∧ Replied q r (q.readLocal r.addr.toNat n).1 (q.readLocal r.addr.toNat n).2 t
  | .write b =>
    let w := q.writeLocal r.addr.toNat b
    t.mem = w.1.mem ∧ t.marks = w.1.marks ∧ t.squares = w.1.squares ∧ Replied q r w.2 [] t

/-- The parts that serving a transaction may change. -/
def servedParts : List Part := [.regs, .mem, .marks, .squares, .mesh, .elog, .outbox]

/-- An access of an engine to its own DRAM waits for its bank, or is served at the home square where its row is flagged and the square holds its line; a flag that fails parity
counts as set and is logged; a DRAM mapped out answers UNMAPPED; the crossings on the way are calibrated, and a channel has at most 64 sectors outstanding (R27, R155, R254,
R256, R266, R269). A bank serves the ports that have accesses for it in turn, and its row stays open (R254, R255, R262). -/
def Claim.LandingsQueueAndBanksServe : Prop :=
  ∀ (e : EngineId) (ch : Fin 128) (req : MemReq) (s : State),
    (req.who = .engine e → oneSector req = true → s.isLocal req.addr.toNat = true → s.target req.addr.toNat req.op.size = some (.dram e) →
      s.resetOf e = false → s.regionOn e = true → s.engineLinked e = true → s.landingLinked e = true → s.outstanding e ch.val < 64 → s.squareOn (columnOf e) = true →
      let sector := physKey req.addr.toNat / 64
      let hit := (s.lineOf (columnOf e) sector).isSome = true
      let flagged := s.rowFlagged e (reqBank req) (reqRow req)
      let queue := s.landq ++ [⟨e, req, ch.val, false⟩]
      ((s.eng e).dramOut = true → Answers (.verticalChannelRequest e ch req false) s fun t => Replied s req .unmapped [] t ∧ OnlyParts [.regs, .mesh, .outbox] s t) ∧
      ((s.eng e).dramOut = false → flagged = true → hit → Answers (.verticalChannelRequest e ch req false) s fun t =>
        Served (s.touch (columnOf e) sector) req t ∧ OnlyParts servedParts s t) ∧
      ((s.eng e).dramOut = false → ¬ (flagged = true ∧ hit) → Answers (.verticalChannelRequest e ch req false) s fun t =>
        t.landq = queue ∧ OnlyParts [.landq] s t) ∧
      ((s.eng e).dramOut = false → Answers (.verticalChannelRequest e ch req true) s fun t =>
        let log := logAfter s (eventOf s 0x0204 0x13 e.val 1 (reqBank req + reqRow req * 2 ^ 11))
        (hit → Served ((s.logEvent 0x0204 0x13 e.val 1 (reqBank req + reqRow req * 2 ^ 11)).touch (columnOf e) sector) req t ∧ OnlyParts servedParts s t) ∧
        (¬ hit → t.landq = queue ∧ t.elog = log ∧ OnlyParts [.regs, .landq, .elog] s t))) ∧
    ∀ (b : BankId) (q : _) (ups : List Upset), s.nextAccess e b.val = some q →
      let ahead (x : LandReq) : Nat := (x.port + 129 - (s.bank e b.val).turn % 129) % 129
      (q ∈ s.landq ∧ q.eng = e ∧ reqBank q.req = b.val ∧ ∀ x ∈ s.landq, x.eng = e → reqBank x.req = b.val → ahead q ≤ ahead x) ∧
      (q.fill = false → (s.bank e b.val).owed < 5 → s.landingLinked e = true → Answers (.bankAccess e b ups) s fun t =>
        t.landq = dropFirst (· == q) s.landq ∧ t.bank e b.val = { s.bank e b.val with openRow := some (reqRow q.req), turn := (q.port + 1) % 129 } ∧
          Served (s.takeAccess e b.val q ups) q.req t ∧ OnlyParts ([.banks, .landq] ++ servedParts) s t)

/-- No other bank of any engine differs. -/
def OnlyBank (e : EngineId) (b : BankId) (x : Bank) (s t : State) : Prop := t.bank e b.val = x ∧ ∀ k, k ≠ 2048 * e.val + b.val → Tbl.get (fun _ => Bank.idle) t.banks k = Tbl.get (fun _ => Bank.idle) s.banks k

/-- A bank closes its row when no access came; its refresh falls due, up to five owed; one refresh executes where no access waits, five in a row where five are owed, over
the next of its 1,568 rows; the most owed and the catch-ups are kept (R255, R259-R262). -/
def Claim.BanksRefreshInTurn : Prop :=
  ∀ (e : EngineId) (b : BankId) (s : State),
    let x := s.bank e b.val
    (x.openRow.isSome = true → s.queued e b.val = false → Answers (.rowCloseTimeout e b) s fun t => OnlyBank e b { x with openRow := none } s t ∧ OnlyParts [.banks] s t) ∧
    (x.owed < 5 → Answers (.refreshDue e b) s fun t => OnlyBank e b { x with owed := x.owed + 1 } s t ∧ OnlyParts [.banks, .regs] s t ∧
      FieldsBecome [⟨F.LND_REFRESH.max_owed, e.val, 0, max (s.get F.LND_REFRESH.max_owed e.val) (min (x.owed + 1) 4)⟩] s t) ∧
    (1 ≤ x.owed → x.owed < 5 → s.queued e b.val = false → Answers (.refresh e b) s fun t =>
      OnlyBank e b { x with openRow := none, owed := x.owed - 1, next := (x.next + 1) % 1568 } s t ∧ OnlyParts [.banks] s t) ∧
    (x.owed = 5 → Answers (.refreshCatchup e b) s fun t => OnlyBank e b { x with openRow := none, owed := 0, next := (x.next + 5) % 1568 } s t ∧ OnlyParts [.banks, .regs] s t ∧
      FieldsBecome [⟨F.LND_REFRESH.catchups, e.val, 0, min (s.get F.LND_REFRESH.catchups e.val + 1) (2 ^ 32 - 1)⟩] s t)

/-- Scrub goes to the next bank, and after the last bank to the next row, and after the last row to the next pass; its next read is due one of the
1,568 × 2,048 parts of `LND_SCRUB.hours` later, in whose units the schedule counts (R270, R277). -/
def scrubMoves (e : EngineId) (s t : State) : Prop :=
  let x := vget s.scrubAt e
  let last := 2048 ≤ x.bank + 1
  let row := s.get F.LND_SCRUB.row e.val + 1
  t.scrubAt = vset s.scrubAt e ⟨if last then 0 else x.bank + 1, x.due + s.get F.LND_SCRUB.hours e.val * 3600000000000⟩ ∧
    t.get F.LND_SCRUB.row e.val = (if last then (if row < 1568 then row else 0) else row - 1) ∧
    t.get F.LND_SCRUB.passes e.val = (if last ∧ 1568 ≤ row then (s.get F.LND_SCRUB.passes e.val + 1) % 2 ^ 16 else s.get F.LND_SCRUB.passes e.val)

/-- Patrol scrub reads its next row in its next bank: it rewrites the words with a single-bit error, leaves uncorrectable and poisoned words as they are, changes no byte, and goes on;
a row that a spare replaces is passed over; a step of a broadcast in the bank goes first unless the read is more than 1 s late (R262, R270, R273, R275, R277). -/
def Claim.ScrubCorrectsSingleErrors : Prop :=
  ∀ (e : EngineId) (b : BankId) (s : State), s.on F.LND_SCRUB.enable e.val = true → (vget s.scrubAt e).bank = b.val → s.scrubDue e = true →
    s.scrubLate e = true ∨ s.bauReady e b.val = false → (s.bank e b.val).owed = 0 → s.queued e b.val = false →
    (s.scrubRow e b.val (s.get F.LND_SCRUB.row e.val) = none → ∀ ups, Answers (.scrubRead e b ups) s fun t =>
      scrubMoves e s t ∧ OnlyParts [.regs, .scrubAt] s t ∧ OnlyKeys [R.LND_SCRUB.key e.val 0] s t) ∧
    ∀ row, s.scrubRow e b.val (s.get F.LND_SCRUB.row e.val) = some row → ∀ ups, Answers (.scrubRead e b ups) s fun t =>
      let u := s.upsets (rowKey e b.val row) ups
      let w := rowKey e b.val row / 16
      scrubMoves e s t ∧ OnlyBank e b { s.bank e b.val with openRow := none } s t ∧ OnlyParts [.regs, .banks, .marks, .scrubAt, .elog] s t ∧
        (∀ k, t.markOf k = if w ≤ k ∧ k < w + 64 ∧ u.markOf k = 1 then 0 else u.markOf k) ∧
        ((∀ k, w ≤ k → k < w + 64 → u.markOf k = 0 ∨ u.markOf k = 3) → t.elog = s.elog)

/-! ## Squares -/

/-- A square serves an access of one sector: from its window, from a line it holds, by a fill that will allocate one, at once for a write of a whole line, or by
passing it to the landing where it may allocate none; a dirty line that fails parity is poisoned and a read of it fails, a clean one is fetched again, and where that
fails is lost; a window mapped out and a dark DRAM answer UNMAPPED (R169-R171, R264-R268, R271, R272). -/
def Claim.SquaresServeLinesWindowsAndFills : Prop :=
  ∀ (k : SquareId) (req : MemReq) (s : State), oneSector req = true → s.isLocal req.addr.toNat = true → s.squareOn k = true →
    let a := req.addr.toNat
    let sector := physKey a / 64
    (s.target a req.op.size = some (.window k) → s.on F.SQ_CTL.busy k.val = false →
      (s.on F.SQ_STATUS.mapped_out k.val = true → ∀ p, Answers (.squareRequest k req p) s fun t => Replied s req .unmapped [] t ∧ OnlyParts [.regs, .mesh, .outbox] s t) ∧
      (s.on F.SQ_STATUS.mapped_out k.val = false → ∀ p, Answers (.squareRequest k req p) s fun t =>
        let fresh := (p.map fun i => 64 * (a % 2 ^ 26 / 64) + i.val).filter fun x => !(s.sq k).badBytes.contains x
        Served (s.setSq k { s.sq k with badBytes := (s.sq k).badBytes ++ fresh }) req t ∧ OnlyParts servedParts s t)) ∧
    ∀ e, s.target a req.op.size = some (.dram e) → columnOf e = k → req.who ≠ .engine e → s.landingLinked e = true → (∀ f ∈ (s.sq k).fills, f.sector ≠ sector) →
      let class_ := s.allocClass k req.who (reqWrites req) e (reqBank req)
      ((s.eng e).dramOut = true → ∀ p, Answers (.squareRequest k req p) s fun t => Replied s req .unmapped [] t ∧ OnlyParts [.regs, .mesh, .outbox] s t) ∧
      ((s.eng e).dramOut = false →
        (∀ l, s.lineOf k sector = some l → Answers (.squareRequest k req []) s fun t => Served (s.touch k sector) req t ∧ OnlyParts servedParts s t) ∧
        (∀ l p, s.lineOf k sector = some l → p ≠ [] → l.dirty = true → Answers (.squareRequest k req p) s fun t =>
          Served ((s.poisonLine k l).touch k sector) req t ∧ (t.sq k).lines.map Line.sector = (s.sq k).lines.map Line.sector ∧ OnlyParts servedParts s t ∧
            (l.poison = false → ∀ n, req.op = .read n → Replied s req .dataErr [] t ∧ t.mem = s.mem)) ∧
        (∀ l p, s.lineOf k sector = some l → p ≠ [] → l.dirty = false →
          (s.sectorBad sector = false ∨ wholeSector req = true → Answers (.squareRequest k req p) s fun t =>
            Served ((s.refetch k e sector).touch k sector) req t ∧ OnlyParts servedParts s t) ∧
          (s.sectorBad sector = true → wholeSector req = false → Answers (.squareRequest k req p) s fun t =>
            t.mem = s.mem ∧ (t.sq k).lines = (s.sq k).lines.filter (fun x => x.sector != sector) ∧ OnlyParts (.landq :: servedParts) s t ∧
              (reqWrites req = false → Replied s req .dataErr [] t ∧ t.landq = s.landq) ∧
              (reqWrites req = true → t.landq = s.landq ++ [⟨e, req, 128, false⟩] ∧ (t.outbox, t.mesh) = (s.outbox, s.mesh)))) ∧
        (s.lineOf k sector = none → class_ = none → ∀ p, Answers (.squareRequest k req p) s fun t => t.landq = s.landq ++ [⟨e, req, 128, false⟩] ∧ OnlyParts [.landq] s t) ∧
        (∀ c, s.lineOf k sector = none → class_ = some c → wholeSector req = true → ∀ p, Answers (.squareRequest k req p) s fun t =>
          Served (s.allocate k sector c true) req t ∧ OnlyParts servedParts s t) ∧
        (∀ c, s.lineOf k sector = none → class_ = some c → wholeSector req = false → ∀ p, Answers (.squareRequest k req p) s fun t =>
          t.sq k = { s.sq k with fills := (s.sq k).fills ++ [⟨req, sector, c⟩] } ∧ (∀ q, q ≠ k → t.sq q = s.sq q) ∧
            t.landq = s.landq ++ [⟨e, req, 128, true⟩] ∧ OnlyParts [.squares, .landq] s t))

/-- A fill that has its turn at its bank returns, counts the errors that its read of the sector met, allocates its line in the class that its request asked for and
serves its access; one that met an error allocates nothing, answers a read with DATA_ERR and passes a write on to the landing (R254, R262, R265, R272-R274). -/
def Claim.FillsAllocateOrFail : Prop :=
  ∀ (k : SquareId) (s : State) (f : Fill) (rest : List Fill) (e : EngineId) (q : LandReq) (failed : Bool), (s.sq k).fills = f :: rest →
    engineOf? (keyEngine (f.sector * 64)) = some e → s.nextAccess e (reqBank f.req) = some q → q.fill = true → q.req = f.req → (s.bank e (reqBank f.req)).owed < 5 →
    let v := (s.takeAccess e (reqBank f.req) q []).setSq k { s.sq k with fills := rest }
    let u := if failed then v else v.noteWords e ((List.range 4).map fun i => 4 * f.sector + i)
    let bad := failed = true ∨ ∃ i, i < 4 ∧ 2 ≤ s.markOf (4 * f.sector + i)
    let gone := dropFirst (· == q) s.landq
    let parts := .banks :: .landq :: servedParts
    let waits (t : State) : Prop := t.landq = gone ++ [⟨e, f.req, 128, false⟩] ∧ t.mem = s.mem ∧ (t.sq k).lines = (s.sq k).lines ∧ (t.sq k).fills = rest ∧
      (t.outbox, t.mesh) = (s.outbox, s.mesh) ∧ OnlyParts parts s t
    (bad →
      (reqWrites f.req = false → Answers (.plazaFillDone k failed) s fun t => Replied s f.req .dataErr [] t ∧
        t.landq = gone ∧ t.mem = s.mem ∧ (t.sq k).lines = (s.sq k).lines ∧ (t.sq k).fills = rest ∧ OnlyParts parts s t) ∧
      (reqWrites f.req = true → Answers (.plazaFillDone k failed) s waits)) ∧
    (¬ bad →
      (u.mayAllocate k e (reqBank f.req) = true → Answers (.plazaFillDone k failed) s fun t =>
        Served (u.allocate k f.sector f.cls (reqWrites f.req)) f.req t ∧ t.landq = gone ∧ OnlyParts parts s t) ∧
      (u.mayAllocate k e (reqBank f.req) = false → Answers (.plazaFillDone k failed) s waits))

/-- A write of SQ_CTL starts a window change where its ways differ from those held: it is refused with bad_cfg while busy and beyond the ways in service, its other field takes
effect in every case (R267). The change ends with the lines of the ways that join the window gone, the window zero, and no other byte changed. A flush writes back the lines dirty at
its start and, where it says so, drops every line (R266, R267, R279). -/
def Claim.WindowsAndFlushes : Prop :=
  ∀ (k : SquareId) (v : Word) (s : State),
    let n := v.toNat % 32
    let no := [⟨F.SQ_CTL.ext_no_alloc, k.val, 0, v.toNat / 2 ^ 9 % 2⟩]
    let old := s.get F.SQ_CTL.ways k.val
    let busy := s.on F.SQ_CTL.busy k.val
    let refused := busy = true ∨ s.get F.SQ_STATUS.ways_ok k.val < n
    (n = old → Answers (.sqCtlWrite k v) s (OnlyFields no s)) ∧
    (n ≠ old → refused → Answers (.sqCtlWrite k v) s (OnlyFields (⟨F.SQ_STATUS.bad_cfg, k.val, 0, 1⟩ :: no) s)) ∧
    (n ≠ old → ¬ refused → Answers (.sqCtlWrite k v) s fun t => FieldsBecome (⟨F.SQ_CTL.ways, k.val, 0, n⟩ :: ⟨F.SQ_CTL.busy, k.val, 0, 1⟩ :: no) s t ∧
      t.sq k = { s.sq k with oldWays := old } ∧ (∀ q, q ≠ k → t.sq q = s.sq q) ∧ OnlyParts [.regs, .squares] s t) ∧
    (busy = true → Answers (.windowChangeDone k) s fun t =>
      t.on F.SQ_CTL.busy k.val = false ∧ (t.sq k).lines = (s.sq k).lines.filter (fun l => (s.cacheWays k).contains l.way) ∧ (t.sq k).badBytes = [] ∧
        (∀ o, o < 2 ^ 26 → t.byte (spWin + k.val * 2 ^ 26 + o) = 0) ∧
        (∀ a, a < spWin + k.val * 2 ^ 26 ∨ spWin + (k.val + 1) * 2 ^ 26 ≤ a → t.byte a = s.byte a) ∧ (∀ q, q ≠ k → t.sq q = s.sq q) ∧
        OnlyParts [.regs, .mem, .marks, .squares] s t) ∧
    (nbit v.toNat 0 = true → s.on F.SQ_STATUS.flush_busy k.val = false → Answers (.sqFlushGo k v) s fun t =>
      FieldsBecome [⟨F.SQ_FLUSH.inv, k.val, 0, v.toNat / 2 % 2⟩, ⟨F.SQ_STATUS.flush_busy, k.val, 0, 1⟩] s t ∧
        t.sq k = { s.sq k with flushing := ((s.sq k).lines.filter Line.dirty).map Line.sector, flushInv := nbit v.toNat 1 } ∧ OnlyParts [.regs, .squares] s t) ∧
    (nbit v.toNat 0 = false ∨ s.on F.SQ_STATUS.flush_busy k.val = true → Answers (.sqFlushGo k v) s (OnlyFields [⟨F.SQ_FLUSH.inv, k.val, 0, v.toNat / 2 % 2⟩] s)) ∧
    (s.on F.SQ_STATUS.flush_busy k.val = true → Answers (.sqFlushDone k) s fun t =>
      t.on F.SQ_STATUS.flush_busy k.val = false ∧ (t.sq k).flushing = [] ∧
        (t.sq k).lines.map Line.sector = (if (s.sq k).flushInv then [] else (s.sq k).lines.map Line.sector) ∧
        (∀ l ∈ (t.sq k).lines, (s.sq k).flushing.contains l.sector = true → l.dirty = true → l.poison = true) ∧ OnlyParts [.regs, .marks, .squares] s t)

/-! ## The Avenue mesh and the Crosswalk -/

/-- The distance of two routers on the grid of eight columns. -/
def meshDist (a b : SquareId) : Nat := (a.val % 8 - b.val % 8) + (b.val % 8 - a.val % 8) + ((a.val / 8 - b.val / 8) + (b.val / 8 - a.val / 8))

/-- A packet goes along x to its column and then along y, one hop nearer each time, and so reaches its router (R317). -/
def Obligations.HopsGoAlongXThenY : Prop :=
  ∀ k d : SquareId, k ≠ d → meshDist (nextHop k d) d + 1 = meshDist k d ∧
    (k.val % 8 ≠ d.val % 8 → (nextHop k d).val / 8 = k.val / 8) ∧ (k.val % 8 = d.val % 8 → (nextHop k d).val % 8 = k.val % 8)

/-- A request waits at its router while the region of its unit wakes (R35, R419). -/
def Parked (k : SquareId) (r : MemReq) (region : RegionId) (s t : State) : Prop :=
  t.parked = s.parked ++ [⟨k, reqPort r.who, k, planeOf r.who, .request r⟩] ∧ Wakes region s t ∧ OnlyParts [.mesh, .net, .regs, .parked, .power] s t

/-- A request reaches the unit that serves it, from the state `u` in which its packet has left the router (R27, R35, R264-R268, R329, R333, R419, R521). -/
def Delivered (k : SquareId) (r : MemReq) (s u t : State) : Prop :=
  let n := r.op.size
  let a := r.addr.toNat
  let sector := physKey a / 64
  let refused (c : Code) (d : Nat) : Prop := Replied u r c [] t d ∧ OnlyParts [.mesh, .net, .regs, .outbox] s t
  let served (q : State) : Prop := Served q r t ∧ OnlyParts (.net :: servedParts) s t
  (s.target a n = none → refused .unmapped 0) ∧
  (∀ o, s.target a n = some (.control o) → refused .accessDenied 0) ∧
  (∀ e, s.target a n = some (.core e) →
    ((s.eng e).mappedOut = true → refused .unmapped 0) ∧
    ((s.eng e).mappedOut = false → (s.eng e).inReset = true → refused .targetReset 0) ∧
    ((s.eng e).mappedOut = false → (s.eng e).inReset = false → ∀ x, s.deliverCheck k r (.core e) = .skew x → refused .epochSkew x) ∧
    ((s.eng e).mappedOut = false → (s.eng e).inReset = false → s.deliverCheck k r (.core e) = .proceed →
      (s.regionOn e = true → served u) ∧ (s.regionOn e = false → Parked k r (regionOf e) s t))) ∧
  (∀ q, s.target a n = some (.window q) →
    (s.on F.SQ_STATUS.mapped_out q.val = true → refused .unmapped 0) ∧
    (s.on F.SQ_STATUS.mapped_out q.val = false → ∀ x, s.deliverCheck k r (.window q) = .skew x → refused .epochSkew x) ∧
    (s.on F.SQ_STATUS.mapped_out q.val = false → s.deliverCheck k r (.window q) = .proceed →
      (s.squareOn q = true → served u) ∧ (s.squareOn q = false → Parked k r (regionOfSq q) s t))) ∧
  ∀ e, s.target a n = some (.dram e) →
    ((s.eng e).dramOut = true → refused .unmapped 0) ∧
    ((s.eng e).dramOut = false → ∀ x, s.deliverCheck k r (.dram e) = .skew x → refused .epochSkew x) ∧
    ((s.eng e).dramOut = false → s.deliverCheck k r (.dram e) = .proceed →
      (s.squareOn k = false → Parked k r (regionOfSq k) s t) ∧
      (s.squareOn k = true → oneSector r = true →
        let queued (fill : Bool) : Prop := t.landq = s.landq ++ [⟨e, r, 128, fill⟩] ∧ t.outbox = s.outbox ∧ OnlyParts [.mesh, .net, .squares, .landq] s t
        let class_ := s.allocClass k r.who (reqWrites r) e (reqBank r)
        ((s.lineOf k sector).isSome = true → served (u.touch k sector)) ∧
        (s.lineOf k sector = none → class_ = none → queued false ∧ t.squares = s.squares) ∧
        (∀ c, s.lineOf k sector = none → class_ = some c → wholeSector r = true → served (u.allocate k sector c true)) ∧
        (∀ c, s.lineOf k sector = none → class_ = some c → wholeSector r = false → queued true ∧ t.sq k = { s.sq k with fills := (s.sq k).fills ++ [⟨r, sector, c⟩] })))

/-- A packet enters the mesh at its router, and a router moves at each output first what has room: synchronisation before completions before requests, the inputs in
turn (the order of the outputs is the model's). The packet goes one hop on, or is delivered where it was going: a completion for an engine in reset is discarded and counted, one
for another block leaves by the Floor router, which takes the requests for other blocks; any other request is answered by its unit, or waits while the unit's region wakes
(R35, R313, R314, R317, R318, R329, R333, R355, R419). -/
def Obligations.MeshPacketsMoveAndAreDelivered : Prop :=
  ∀ (k : SquareId) (plane : Fin 2) (s : State),
    (∀ p, s.mayEnter k plane p = true → Answers (.meshPacket k plane (some p)) s fun t => t.mesh = s.mesh ++ [p] ∧ OnlyParts [.mesh] s t) ∧
    (∀ out, ((s.contenders k plane out).map fun p => classRank p.body).Pairwise (· ≤ ·)) ∧
    (∀ inp c p, c < 3 → s.headAt k plane inp c = some p → p.dst ≠ k → (s.routerMove k plane).isSome = true) ∧
    ∀ p q, s.routerMove k plane = some (p, q) → Answers (.meshPacket k plane none) s fun t =>
      let left := s.mesh.erase p
      (p.dst ≠ k → t.mesh = left ++ [{ p with at_ := nextHop k p.dst, inp := oppositePort (portTo k p.dst) }] ∧ OnlyParts [.mesh, .net] s t) ∧
      (p.dst = k →
        (∀ tag ep, p.body = .sync tag ep → t.mesh = left ∧ t.outbox = s.outbox ++ [.syncDelivered tag] ∧ OnlyParts [.mesh, .net, .outbox] s t) ∧
        (∀ e id c d data, p.body = .completion (.engine e) id c d data → (s.eng e).inReset = true → t.mesh = left ∧
          let f := if e.val < 40 then F.AV_DISCARD.eng_a else F.AV_DISCARD.eng_b
          FieldsBecome [⟨f, (columnOf e).val, 0, min (s.get f (columnOf e).val + 1) (2 ^ f.w - 1)⟩] s t ∧ OnlyParts [.mesh, .net, .regs] s t) ∧
        (∀ b id c d data, p.body = .completion (.remote b) id c d data → t.mesh = left ∧ SendsOnly [] [] s t) ∧
        (∀ who id c d data, p.body = .completion who id c d data → (∀ e, who = .engine e → (s.eng e).inReset = false) → (∀ b, who ≠ .remote b) →
          t.mesh = left ∧ t.outbox = s.outbox ++ [.reply who id c d data] ∧ OnlyParts [.mesh, .net, .outbox] s t) ∧
        ∀ r, p.body = .request r →
          (s.isLocal r.addr.toNat = false → t.net.nextAccess = s.net.nextAccess + 1 ∧ SendsOnly [] [] s t) ∧
          (s.isLocal r.addr.toNat = true → Delivered k r s { s with mesh := left } t))

/-- A multicast packet sends one branch at a time, east, west, north, south and then its own units, the first of them that has room; a branch carries the destinations that lie its
way, and the packet stays with those that are left (R319, R320). -/
def Claim.MulticastsBranchToTheirDestinations : Prop :=
  ∀ (k : SquareId) (plane : Fin 2) (s : State) (p : MeshPkt),
    (s.mayBranch k plane p = true → Answers (.multicastBranch k plane (some p)) s fun t => t.mesh = s.mesh ++ [p] ∧ OnlyParts [.mesh] s t) ∧
    (((meshPorts.filterMap fun inp => s.headAt k plane inp 3).find? fun p => (s.branchPkt k p).isSome) = some p →
      ∀ who id addr bytes sq ds ep b, p.body = .multicast who id addr bytes sq ds ep → nextBranch k sq ds = some b →
        let mine := ds.filter fun n => branchTo k (destRouter sq n) == b
        let req (n : Nat) : MemReq := ⟨who, id, BitVec.ofNat 64 (retarget addr.toNat n sq), .write bytes, ep⟩
        let kept (rest : List Nat) : List MeshPkt := if rest = [] then s.mesh.erase p else s.mesh.map fun q => if q = p then { p with body := .multicast who id addr bytes sq rest ep } else q
        (b ≠ .here → Answers (.multicastBranch k plane none) s fun t => OnlyParts [.mesh] s t ∧
          t.mesh = kept (ds.filter fun n => !mine.contains n) ++ [{ p with at_ := b.next k, inp := b.inp, body := .multicast who id addr bytes sq mine ep }]) ∧
        (b = .here → ∀ n, (mine.find? fun n => (s.deliverRequest k (req n)).isSome) = some n →
          ∀ e, s.target (req n).addr.toNat bytes.length = some (.core e) → (s.eng e).mappedOut = false → (s.eng e).inReset = false →
            s.deliverCheck k (req n) (.core e) = .proceed → s.regionOn e = true → Answers (.multicastBranch k plane none) s fun t =>
              let w := s.writeLocal (req n).addr.toNat bytes
              let a := answeredBy s (req n) (unitPort (req n).addr.toNat) w.2 [] 0
              (t.mem, t.marks, t.squares) = (w.1.mem, w.1.marks, w.1.squares) ∧ t.outbox = a.1 ∧ t.mesh = kept (ds.erase n) ++ a.2.drop s.mesh.length ∧
                OnlyParts servedParts s t))

/-- A request delivered to an engine in reset is answered with TARGET_RESET when its time is up, and none stays there (R329). -/
def Claim.DeliveredRequestsEndWithTheReset : Prop :=
  ∀ (e : EngineId) (s : State), (s.eng e).inReset = true → s.parkedAt e = true → Answers (.deliveredResetTimeout e) s fun t =>
    t.parked = s.parked.filter (fun p => !MeshPkt.forCore s p e) ∧ OnlyParts [.regs, .parked, .mesh, .outbox] s t ∧ s.outbox <+: t.outbox ∧ s.mesh <+: t.mesh ∧
      ∀ p ∈ s.parked, MeshPkt.forCore s p e = true → ∀ r, p.body = .request r →
        let a := answeredBy { s with outbox := [], mesh := [] } r (unitPort r.addr.toNat) .targetReset [] 0
        (∀ o ∈ a.1, o ∈ t.outbox) ∧ ∀ q ∈ a.2, q ∈ t.mesh

/-- The sweep of a bundle sets its tap at the middle of its passing range, the lower one of two, and fails where the range has fewer than 16 taps (R327). That
the lower of two middle taps is taken is the model's choice (log entry 79). -/
def Claim.SweepsTakeTheMiddleTap : Prop :=
  ∀ lo len, lo + len ≤ 64 → sweepTap ((2 ^ len - 1) * 2 ^ lo) = if len < 16 then none else some (lo + (len - 1) / 2, (len - 1) / 2)

/-- A low margin of a calibrated bundle is kept, shown and logged, and the bundle keeps its tap (R327, R337). -/
def Claim.LowMarginsAreLogged : Prop :=
  ∀ (k : SquareId) (i : Fin 7) (b : Fin 16) (m : BitVec 6) (s : State),
    let step := s.get F.CLK_STEP.eff
    let key := xwKey k.val i.val b.val step
    xwPresent i.val b.val = true → s.tapOf key ≠ 0 → m.toNat < 4 → Answers (.xwMarginLow k i b m) s fun t =>
      t.marginOf key = m.toNat ∧ (∀ q, q ≠ key → t.marginOf q = s.marginOf q) ∧ OnlyParts [.regs, .margins, .elog] s t ∧
        OnlyKeys [R.AV_XW_TAP.key k.val 0, R.AV_XW_MARGIN.key k.val 0, R.ELOG_COUNTS.key 0 0] s t ∧
        t.reg R.AV_XW_MARGIN k.val / 2 ^ (8 * i.val) % 2 ^ 8 ≤ m.toNat ∧
        t.elog = logAfter s (eventOf s 0x0402 0x12 k.val 1 (i.val + b.val * 2 ^ 8 + step * 2 ^ 12 + m.toNat * 2 ^ 16))

/-! ## Epochs -/

/-- A commit is refused with bad_commit while its epoch is not newer or a unit has not applied the last one; else it becomes the committed epoch, and a unit counts as applied where
it holds that epoch already or is in reset or mapped out; the multicast gives each unit its staged epoch (R331, R334, R335). -/
def Claim.CommitsStageAnEpoch : Prop :=
  ∀ (v : Word) (s : State),
    let n := v.toNat % 2 ^ 32
    let written : Holds := ⟨F.AV_EPOCH_COMMIT.epoch, 19, 0, n⟩
    let refused := epochNewer n (s.get F.AV_EPOCH_STATUS.committed 19) = false ∨ s.on F.AV_EPOCH_STATUS.all 19 = false
    (nbit v.toNat 32 = false → Answers (.avEpochCommit v) s (OnlyFields [written] s)) ∧
    (nbit v.toNat 32 = true → refused → Answers (.avEpochCommit v) s (OnlyFields [written, ⟨F.AV_EPOCH_STATUS.bad_commit, 19, 0, 1⟩] s)) ∧
    (nbit v.toNat 32 = true → ¬ refused → Answers (.avEpochCommit v) s fun t =>
      t.get F.AV_EPOCH_STATUS.committed 19 = n ∧ t.lateLogged = [] ∧ (∀ u, u < 208 → t.unitApplied u = (s.unitOut u || s.appliedOf u == n)) ∧
        (t.on F.AV_EPOCH_STATUS.all 19 = true ↔ ∀ u, u < 208 → t.unitApplied u = true) ∧
        OnlyRegisters [R.AV_EPOCH_COMMIT, R.AV_EPOCH_STATUS, R.AV_APPLIED] s t ∧ OnlyParts [.regs, .lateLogged] s t) ∧
    ∀ u : Fin 208, Answers (.epochStaged u) s (OnlyFields [⟨(unitField false u.val).1, (unitField false u.val).2, 0, s.get F.AV_EPOCH_STATUS.committed 19⟩] s)

/-- What a unit's registers show after it applied (R332, R334): its staged epoch in force, and its bit where that is the committed epoch. -/
def unitApplies (u : Nat) (s t : State) : Prop :=
  t.appliedOf u = s.stagedOf u ∧ (t.unitApplied u = true ↔ (s.stagedOf u = s.committed ∨ s.unitApplied u = true)) ∧
    ∀ w, w < 208 → w ≠ u → t.unitApplied w = s.unitApplied w ∧ t.appliedOf w = s.appliedOf w

/-- At its safe boundary a unit puts its staged setting in force and writes its applied epoch: an engine with none of the held classes in flight, a router with no packet of an older
epoch, a port of the links with none (R141, R332, R353); a unit that has not applied when the limit has passed sets late and is logged once (R334). -/
def Claim.UnitsApplyAtTheirBoundaries : Prop :=
  ∀ (u : Fin 208) (s : State),
    (s.stagedOf u.val ≠ s.appliedOf u.val →
      (∀ e, engineOf? u.val = some e → s.engineBoundary e = true → Answers (.epochApply u) s fun t => unitApplies u.val s t ∧
        OnlyRegisters [R.ENG_EPOCH, R.AV_APPLIED, R.AV_EPOCH_STATUS] s t ∧ OnlyParts [.regs] s t) ∧
      (∀ k : SquareId, u.val = 160 + k.val → s.routerBoundary k = true → Answers (.epochApply u) s fun t => unitApplies u.val s t ∧
        t.get F.AV_MODE.floor_weight k.val = s.get F.AV_MODE_NEXT.floor_weight k.val ∧
        OnlyRegisters [R.AV_EPOCH, R.AV_MODE, R.AV_APPLIED, R.AV_EPOCH_STATUS] s t ∧ OnlyParts [.regs] s t) ∧
      (∀ p : PortId, u.val = 200 + p.val → s.portBoundary p = true → Answers (.epochApply u) s fun t => unitApplies u.val s t ∧
        (p.val = 0 ∨ p.val = 2 ∨ p.val = 4 → t.reg R.PL_ROUTE p.val = s.reg R.PL_ROUTE_NEXT p.val) ∧
        OnlyRegisters [R.PL_EPOCH, R.PL_ROUTE, R.AV_APPLIED, R.AV_EPOCH_STATUS] s t ∧ OnlyParts [.regs] s t)) ∧
    (s.get F.AV_EPOCH_STATUS.limit 19 ≠ 0 → s.unitApplied u.val = false → Answers (.epochLate u) s fun t =>
      t.get F.AV_EPOCH_STATUS.late 19 = 1 ∧ OnlyRegisters [R.AV_EPOCH_STATUS, R.ELOG_COUNTS] s t ∧
        (u.val ∈ s.lateLogged → t.elog = s.elog ∧ t.lateLogged = s.lateLogged) ∧
        (u.val ∉ s.lateLogged → t.lateLogged = s.lateLogged ++ [u.val] ∧
          t.elog = logAfter s (eventOf s 0x0403 0x12 19 1 (u.val + s.get F.AV_EPOCH_STATUS.committed 19 * 2 ^ 32))))

/-! ## Resets -/

/-- An engine as its reset leaves it (R141, R166, R197, R309, R329, R335): nothing in flight, its registers of class 0x10 at their reset values but for its epochs, its router told, and
the unit counted as applied; memory, its core store among it, is as it was. -/
def EngineInReset (e : EngineId) (s t : State) : Prop :=
  t.eng e = (s.eng e).toReset ∧ (t.eng e).inReset = true ∧ (t.eng e).inflight = [] ∧ (t.eng e).drains = [] ∧ t.engState e = 0 ∧
    t.get F.ENG_EPOCH.applied e.val = s.get F.ENG_EPOCH.applied e.val ∧
    t.get (if e.val < 40 then F.AV_STATUS.rst_a else F.AV_STATUS.rst_b) (columnOf e).val = 1 ∧ t.unitApplied e.val = true

/-- The tap of a bundle after a sweep at the step in force: the middle of its widest passing range, or none (R327). -/
def sweptTap (k : SquareId) (q : Nat × Nat) (mask : BitVec 64) (s t : State) : Prop :=
  t.tapOf (xwKey k.val q.1 q.2 (s.get F.CLK_STEP.eff)) = match sweepTap mask.toNat with
    | some x => x.1 + 1
    | none => 0

/-- An engine whose bit is set enters reset, once; one whose bit is cleared leaves it when its layer's bit is clear and its crossings are recalibrated: it is IDLE with the committed epoch
in force; a failed recalibration keeps it in reset, sets its failure bit and is logged as fatal (R328, R329, R335, R474, R476). -/
def Claim.EngineResetsAndReleases : Prop :=
  ∀ (e : EngineId) (s : State),
    let b (r0 r1 : Reg) (t : State) := t.engBitOf r0 r1 e
    (Answers (.engineReset e) s fun t => b R.AON_ENG_RST0 R.AON_ENG_RST1 t = true ∧ OnlyEngines (· = e) s t ∧ OnlyParts [.regs, .engines, .hints] s t ∧
      ((s.eng e).inReset = true → t.engines = s.engines) ∧ ((s.eng e).inReset = false → EngineInReset e s t)) ∧
    ∀ sweeps, Answers (.engineResetRelease e sweeps) s fun t => b R.AON_ENG_RST0 R.AON_ENG_RST1 t = false ∧ OnlyEngines (· = e) s t ∧
      OnlyParts [.regs, .engines, .taps, .margins, .elog, .drawn] s t ∧
      (s.layerHeld e = true ∨ (s.eng e).inReset = false → t.engines = s.engines) ∧
      (s.layerHeld e = false → (s.eng e).inReset = true →
        (∀ i q m, i < 8 → (engBundles e)[i]? = some q → sweeps[i]? = some m → sweptTap (columnOf e) q m s t) ∧
        ((∀ i m, i < 8 → sweeps[i]? = some m → sweepTap m.toNat ≠ none) → t.eng e = { s.eng e with inReset := false } ∧ t.get F.ENG_EPOCH.applied e.val = s.committed ∧
          t.get F.ENG_EPOCH.staged e.val = s.committed ∧ t.unitApplied e.val = true ∧
          t.get (if e.val < 40 then F.AV_STATUS.rst_a else F.AV_STATUS.rst_b) (columnOf e).val = 0) ∧
        ((∃ i m, i < 8 ∧ sweeps[i]? = some m ∧ sweepTap m.toNat = none) → t.engines = s.engines ∧ b R.AON_ENG_FAIL0 R.AON_ENG_FAIL1 t = true))

/-- A layer's bit holds every one of its 40 engines in reset and no other (R330, R474); when it is cleared, engines that their own bits hold stay in reset, those whose recalibration fails
stay with their failure bits set, and the others are released (R328, R476). -/
def Claim.LayerResetsAndReleases : Prop :=
  ∀ (b : Bool) (s : State),
    let inLayer (e : EngineId) : Prop := decide (40 ≤ e.val) = b
    let bit := if b then F.AON_RESET.layer_b else F.AON_RESET.layer_a
    (Answers (.layerReset b) s fun t => t.get bit = 1 ∧ OnlyParts [.regs, .engines, .hints] s t ∧
      (∀ e, ¬ inLayer e → t.eng e = s.eng e) ∧ (∀ e, inLayer e → (s.eng e).inReset = true → t.eng e = s.eng e) ∧
      ∀ e, inLayer e → (s.eng e).inReset = false → EngineInReset e s t) ∧
    ∀ sweeps, Answers (.layerResetRelease b sweeps) s fun t => t.get bit = 0 ∧ OnlyParts [.regs, .engines, .taps, .margins, .elog, .drawn] s t ∧
      ∀ e,
        let l := ((sweeps.find? fun q => q.1 == e).map (·.2)).getD []
        let leaves := inLayer e ∧ s.on bit = true ∧ (s.eng e).inReset = true
        (leaves → ∀ i q m, i < 8 → (engBundles e)[i]? = some q → l[i]? = some m → sweptTap (columnOf e) q m s t) ∧
        (leaves → sweepsFail l = true → t.engBitOf R.AON_ENG_FAIL0 R.AON_ENG_FAIL1 e = true) ∧
        t.eng e = if leaves ∧ s.engBitOf R.AON_ENG_RST0 R.AON_ENG_RST1 e = false ∧ sweepsFail l = false then { s.eng e with inReset := false } else s.eng e

/-- The block after a whole-block reset with a cause (R351, R429, R457, R474, R475, R480, R496, R497, R499, R552, R559): only the flash and the fuses hold what they held, VPM_EN is low, start-up
is at stage 1 unless something holds the block in reset, what it sent stays sent, and every register outside the always-on domain and the pin unit is at its reset value but for those named. -/
def BlockReset (cause : Nat) (held : Bool) (s t : State) : Prop :=
  t.get F.AON_STATUS.cause = cause ∧ t.get F.AON_STATUS.stage = (if held then 0 else 1) ∧ t.get F.AON_STATUS.boots = (s.get F.AON_STATUS.boots + 1) % 2 ^ F.AON_STATUS.boots.w ∧
    t.get F.AON_WDOG.enable = 0 ∧ t.sec.otp = s.sec.otp ∧ t.pins.vpmEn = false ∧ t.landq = [] ∧ t.mesh = [] ∧ t.elog = Elog.fresh ∧ t.clock = Clock.fresh ∧
    s.outbox <+: t.outbox ∧ (∀ a, 4 * 2 ^ 48 ≤ a → a < 5 * 2 ^ 48 → t.byte a = s.byte a) ∧ (∀ a, a < 4 * 2 ^ 48 → t.byte a = 0) ∧
    (∀ e, t.eng e = { Engine.fresh with inReset := s.engBitOf R.AON_ENG_RST0 R.AON_ENG_RST1 e || s.layerHeld e }) ∧
    ∀ k, s.survives k = false → (∀ r ∈ [R.AV_STATUS, R.SEC_STATUS], ∀ i j, k ≠ r.key i j) → t.rd k = (regReset k).toNat

/-- AON_RESET.block (R474), RESET_N low (R553), VPM_PG lost after stage 1 (R553), the watchdog (R483, R497), a thermal trip (R454, R455) and a lost reference (R460) each reset the whole
block with their cause, and hold it as long as they last: RESET_N until it is high again, the reference until it is back, a trip until an always-on reset; VPM_PG sets pg_lost,
and a trip is recorded and shown on its pin. -/
def Claim.WholeBlockResetsHaveTheirCauses : Prop :=
  ∀ s : State,
    let held := s.boot.aonReset || s.boot.holdN || s.boot.holdRef || s.boot.holdAon
    (Answers .aonResetBlock s fun t => BlockReset 2 held s t ∧ t.boot.holdN = s.boot.holdN) ∧
    (Answers .resetNAssert s fun t => BlockReset 1 true s t ∧ t.boot.holdN = true ∧ t.get F.PIN_STATUS.reset_n = 0) ∧
    (2 ≤ s.get F.AON_STATUS.stage → Answers .vpmPgLost s fun t => BlockReset 7 held s t ∧ t.get F.PIN_STATUS.pg_lost = 1 ∧ t.get F.PIN_STATUS.vpm_pg = 0) ∧
    (s.on F.AON_WDOG.enable = true → Answers .watchdogExpiry s fun t => BlockReset 3 held s t) ∧
    (∀ c : Fin 48, s.pins.thermtrip = false → Answers (.tripFire c) s fun t => BlockReset 5 true s t ∧ t.boot.holdAon = true ∧ t.pins.thermtrip = true ∧
      t.get F.THM_TRIP.valid = 1 ∧ t.get F.THM_TRIP.comp = c.val ∧ t.reg R.THM_TRIP_T = s.btime % 2 ^ 64) ∧
    (∀ c : Fin 48, s.pins.thermtrip = true → exec (.tripFire c) s = .next s) ∧
    (Answers .referenceLost s fun t => BlockReset 4 true s { t with regs := (t.put F.CLK_STATUS.ref_ok (State.reset.get F.CLK_STATUS.ref_ok)).regs } ∧
      t.boot.holdRef = true ∧ t.get F.CLK_STATUS.ref_ok = 0)

/-- A whole-block reset by watchdog, with the stage below 12, counts one failure of the running slot; the second inverts the slot and clears the count, and so does entry into service
clear it (R483). -/
def Obligations.WatchdogResetsCountFailuresOfTheSlot : Prop :=
  ∀ s : State,
    let fails := s.get F.AON_BOOT.fails
    let slot := s.get F.AON_BOOT.slot
    (s.on F.AON_WDOG.enable = true → Answers .watchdogExpiry s fun t => t.get F.AON_STATUS.cause = 3 ∧
      (12 ≤ s.get F.AON_STATUS.stage → t.get F.AON_BOOT.fails = fails ∧ t.get F.AON_BOOT.slot = slot) ∧
      (s.get F.AON_STATUS.stage < 12 → fails = 0 → t.get F.AON_BOOT.fails = 1 ∧ t.get F.AON_BOOT.slot = slot) ∧
      (s.get F.AON_STATUS.stage < 12 → 1 ≤ fails → t.get F.AON_BOOT.fails = 0 ∧ t.get F.AON_BOOT.slot = 1 - slot)) ∧
    (s.get F.AON_STATUS.stage = 11 → s.boot.firmware = true → Answers .service s fun t => t.get F.AON_STATUS.stage = 12 ∧ t.get F.AON_BOOT.fails = 0 ∧ t.get F.AON_BOOT.slot = slot)

/-- Start-up begins at stage 1 once nothing holds the block: the always-on reset exits, RESET_N goes high, the reference is back (R460, R474, R475, R553, R554); VAON or AUX absent, and the
always-on reset, leave the state of reset, with the flash and the fuses as they were and the pins unpowered where they are (R474, R499, R554). -/
def Claim.HoldsEndAndTheAlwaysOnDomainStarts : Prop :=
  ∀ s : State,
    let b := s.boot
    let started (t : State) (free : Bool) : Prop := t.get F.AON_STATUS.stage = if free then 1 else s.get F.AON_STATUS.stage
    (s.pins.absent = false → b.aonReset = true → Answers .alwaysOnResetExit s fun t => t.boot = { b with aonReset := false } ∧
      started t (!b.holdN && !b.holdRef && !b.holdAon) ∧ OnlyKeys [R.AON_STATUS.key 0 0] s t ∧ OnlyParts [.regs, .boot] s t) ∧
    (b.holdN = true → Answers .resetNDeassert s fun t => t.boot = { b with holdN := false } ∧ t.get F.PIN_STATUS.reset_n = 1 ∧
      started t (!b.aonReset && !b.holdRef && !b.holdAon) ∧ OnlyKeys [R.AON_STATUS.key 0 0, R.PIN_STATUS.key 0 0] s t ∧ OnlyParts [.regs, .pins, .boot] s t) ∧
    (b.holdRef = true → Answers .referenceRestored s fun t => t.boot = { b with holdRef := false } ∧ t.get F.CLK_STATUS.ref_ok = 1 ∧
      started t (!b.aonReset && !b.holdN && !b.holdAon) ∧ OnlyKeys [R.AON_STATUS.key 0 0, R.CLK_STATUS.key 0 0] s t ∧ OnlyParts [.regs, .boot] s t) ∧
    (∀ absent, Answers (if absent then .vaonOrAuxAbsent else .alwaysOnReset) s fun t =>
      t = { State.reset with mem := t.mem, sec := { State.reset.sec with otp := s.sec.otp }, pins := { State.reset.pins with absent := absent }, outbox := s.outbox, drawn := s.drawn, pending := s.pending } ∧
      (∀ a, 4 * 2 ^ 48 ≤ a → a < 5 * 2 ^ 48 → t.byte a = s.byte a) ∧ (∀ a, a < 4 * 2 ^ 48 → t.byte a = 0)) ∧
    (s.pins.absent = true → ∀ c ∈ [Instr.alwaysOnResetExit, .stageRails, .vpmPowerGood, .stageRom], exec c s = .fault .noPower) ∧
    (Answers .crystalLost s fun t => t.get F.CLK_STATUS.xtal_ok = 0 ∧ OnlyKeys [R.CLK_STATUS.key 0 0, R.ELOG_COUNTS.key 0 0] s t ∧ OnlyParts [.regs, .elog] s t ∧
      t.elog = logAfter s (eventOf s 0x0804 0x04 0 1 0))

/-! ## Start-up -/

/-- Stage `n` is in progress: the block has its supplies, and start-up is not held. -/
def InStage (n : Nat) (s : State) : Prop := s.pins.absent = false ∧ s.get F.AON_STATUS.stage = n ∧ s.on F.AON_STATUS.held = false

/-- Start-up is held at its stage, with every link and Frontage port disabled, and where they were disabled nothing else changes (R477). -/
def HeldThere (s t : State) : Prop :=
  t.get F.AON_STATUS.held = 1 ∧ t.get F.AON_STATUS.stage = s.get F.AON_STATUS.stage ∧ (∀ p : PortId, t.portState p = 0) ∧
    (∀ p : FrId, t.get F.FR_CTL.enable p.val = 0) ∧ OnlyParts [.regs, .mesh, .net, .elog, .outbox] s t ∧
    ((∀ p : PortId, s.portState p = 0) → (∀ p : FrId, s.get F.FR_CTL.enable p.val = 0) → OnlyFields [⟨F.AON_STATUS.held, 0, 0, 1⟩] s t)

/-- Stages 1 to 5 (R409, R456, R461, R466, R473, R477, R486, R500, R552, R554): the Floor PLLs and the step PLL lock and VPM_EN rises; stage 1 ends with VPM_PG, or after 20 ms without it start-up is held with VPM_EN low;
stage 2 ends with the ROM; stage 3 needs every trip comparator, and arms the trips; stage 4 asks all four pages of the VPM, needs an accepted frame, commands step 7 and locks the PLLs of the engines that are ON (the
two PMBus codes and the stage of those locks are the model's: log entry 81); stage 5 needs a clean OTP whose digest matches, and takes the entries of the fuse list. -/
def Claim.StartUpBringsUpPowerAndFuses : Prop :=
  ∀ s : State,
    (InStage 1 s → Answers .stageRails s fun t => t.pins = { s.pins with vpmEn := true } ∧ FieldsBecome [⟨F.CLK_STATUS.floor_lock, 0, 0, 1⟩, ⟨F.CLK_STATUS.step_lock, 0, 0, 1⟩] s t ∧
      OnlyParts [.regs, .pins] s t) ∧
    (InStage 1 s → s.pins.vpmEn = true → Answers .vpmPowerGood s fun t => t.pins = { s.pins with levels := vset s.pins.levels 16 true } ∧
      FieldsBecome [⟨F.AON_STATUS.stage, 0, 0, 2⟩, ⟨F.PIN_STATUS.vpm_pg, 0, 0, 1⟩] s t ∧ OnlyParts [.regs, .pins] s t) ∧
    (InStage 1 s → s.pins.vpmEn = true → Answers .vpmPgTimeout s (HeldThere { s with pins := { s.pins with vpmEn := false } })) ∧
    (InStage 2 s → Answers .stageRom s (OnlyFields [⟨F.AON_STATUS.stage, 0, 0, 3⟩] s)) ∧
    (InStage 3 s → ∀ failed, Answers (.stageTripTest failed) s fun t =>
      (failed = [] → OnlyFields [⟨F.THM_STATUS.trip_armed, 0, 0, 1⟩, ⟨F.AON_STATUS.stage, 0, 0, 4⟩] s t) ∧ (failed ≠ [] → HeldThere s t)) ∧
    (InStage 4 s → ∀ answers, Answers (.stageVpm answers) s fun t =>
      let good : Bool := answers && s.power.lastSeq.isSome
      let asked := s.outbox ++ (List.range 4).flatMap fun p => [Output.pmbus p pmbVoutMode true 0, Output.pmbus p pmbStatusWord true 0]
      (good = true → t.outbox = asked ++ [Output.voutCommand (setPoint 7)] ∧ t.clock = { s.clock with vcoreMv := setPoint 7, regionMv := regionVoltage 7 } ∧
        t.get F.AON_STATUS.stage = 5 ∧ OnlyRegisters [R.AON_STATUS, R.CLK_PLL] s t ∧ OnlyParts [.regs, .clock, .outbox] s t ∧
        ∀ e : EngineId, if s.get F.PWR_RG_STATUS.state (e.val + 1) = 0 ∧ s.on F.CLK_PLL.fail (e.val + 1) = false then
          t.get F.CLK_PLL.state (e.val + 1) = 2 ∧ t.get F.CLK_PLL.fail (e.val + 1) = 0 ∧
            t.get F.CLK_PLL.locks (e.val + 1) = min (s.get F.CLK_PLL.locks (e.val + 1) + 1) (2 ^ F.CLK_PLL.locks.w - 1)
          else t.reg R.CLK_PLL (e.val + 1) = s.reg R.CLK_PLL (e.val + 1)) ∧
      (good = false → HeldThere { s with outbox := asked } t)) ∧
    (InStage 5 s → ∀ eccOk, Answers (.stageFuses eccOk) s fun t =>
      ((eccOk && s.otpDigestOk) = false → HeldThere s t) ∧
      ((eccOk && s.otpDigestOk) = true → t.get F.AON_STATUS.stage = 6 ∧ t.get F.SEC_STATUS.otp_ok = 1 ∧ t.boot = { s.boot with defects := s.fuseList.1.eraseDups } ∧
        t.get F.AON_STATUS.ignored = min (s.get F.AON_STATUS.ignored + s.fuseList.2) (2 ^ F.AON_STATUS.ignored.w - 1) ∧ OnlyParts [.regs, .boot] s t))

/-- Stage 6 (R477, R482, R484, R501, R504): the slot that AON_BOOT.slot names is tried first, then the other; the one that verifies is loaded at its address, and start-up is held where
neither verifies. A configuration image that verifies is taken. -/
def Claim.TheImageOfAVerifiedSlotIsLoaded : Prop :=
  ∀ s : State, InStage 6 s →
    let a := s.get F.AON_BOOT.slot
    let chosen : Option (Nat × Nat) := match s.verifyImage a, s.verifyImage (1 - a) with
      | some k, _ => some (a, k)
      | none, some k => some (1 - a, k)
      | none, none => none
    Answers .stageImages s fun t =>
      (chosen = none → HeldThere s t) ∧
      ∀ n k, chosen = some (n, k) →
        t.get F.AON_STATUS.stage = 7 ∧ t.get F.AON_STATUS.slot = n ∧ t.boot.image = some (slotAtFlash n) ∧
        t.get F.SEC_SVN.img_svn = imageSvn (s.imageHeader n) ∧ t.get F.SEC_STATUS.signer = k ∧
        (t.get F.AON_STATUS.cfg_ok = if (s.verifyImage 2).isSome then 1 else s.get F.AON_STATUS.cfg_ok) ∧
        (∀ a', spFlash ≤ a' → t.byte a' = s.byte a') ∧ (∀ a', a' < spSram → t.byte a' = s.byte a') ∧
        t.get F.SEC_LOG.entries = (s.get F.SEC_LOG.entries + 5) % 2 ^ F.SEC_LOG.entries.w ∧ OnlyParts [.regs, .mem, .boot, .thermal, .mrs] s t

/-- Stage 7 (R268, R478, R485, R490, R563): cold or warm as force_cold, the memo and the ledger say; a recorded defect takes its effect: a row goes to the lowest good spare, a lane is
out, a way is out, an engine falls back or is mapped out. -/
def Claim.RecordedDefectsTakeEffect : Prop :=
  ∀ s : State, InStage 7 s →
    (s.boot.defects = [] → s.repairs = [] → ledgerSlots - (s.usedSlots s.activeBank).length ≥ 1024 → Answers .stageRepair s fun t =>
      t.get F.AON_STATUS.stage = 8 ∧ t.get F.AON_STATUS.cold = b2n s.isCold ∧ t.boot = { s.boot with memo := if s.isCold then none else s.newestMemo.map memoAt } ∧
        OnlyRegisters [R.AON_STATUS, R.AON_REPAIR] s t ∧ OnlyParts [.regs, .boot] s t) ∧
    (s.repairs = [] → ∀ d : Defect, s.boot.defects = [d] → ∀ e : EngineId,
      (∀ (bank : BankId) (row : Fin 1568), d = ⟨2, e.val + bank.val * 2 ^ 8 + row.val * 2 ^ 20⟩ → Answers .stageRepair s fun t => t.get F.AON_STATUS.stage = 8 ∧
        (Tbl.get (fun _ => 0) t.spareRow (e.val * 2 ^ 22 + bank.val * 2 ^ 11 + row.val) = if row.val < 1536 then 1536 else 0) ∧ t.engines = s.engines) ∧
      (∀ (p : PortId) (rx : Bool) (lane : Fin 34), d = ⟨3, p.val + b2n rx * 2 ^ 8 + lane.val * 2 ^ 16⟩ → Answers .stageRepair s fun t => t.get F.AON_STATUS.stage = 8 ∧
        t.boot.lanes = s.boot.lanes ++ [(p.val, rx, lane.val)]) ∧
      (∀ (k : SquareId) (way : Fin 16), d = ⟨4, k.val + way.val * 2 ^ 8⟩ → s.on F.SQ_STATUS.mapped_out k.val = false → Answers .stageRepair s fun t => t.get F.AON_STATUS.stage = 8 ∧
        (t.sq k).ways = (if ((s.sq k).ways.filter fun w => w != way.val).length ≤ 8 then [] else (s.sq k).ways.filter fun w => w != way.val)) ∧
      (d = ⟨6, e.val⟩ → Answers .stageRepair s fun t => t.get F.AON_STATUS.stage = 8 ∧ t.eng e = { s.eng e with fallback := true } ∧ OnlyEngines (· = e) s t) ∧
      (d = ⟨7, e.val⟩ ∨ d = ⟨9, e.val⟩ → Answers .stageRepair s fun t => t.get F.AON_STATUS.stage = 8 ∧ t.eng e = { s.eng e with mappedOut := true } ∧ OnlyEngines (· = e) s t ∧
        t.unitApplied e.val = true))

/-- Stages 8 to 12 (R246, R327, R468, R477, R483, R491-R493, R563): each sweep that is made sets the middle tap of its passing range, a warm start makes those of step 7 and of the
taps that the memo lacks and takes the others from it; a bundle that fails maps out the engine that it serves, a through-lane bundle holds start-up; channels that fail training
are recorded; a core 0 that fails holds start-up; self-test selects the fallback mode of engines; firmware is entered, and AON_BOOT.service ends the start with its time and no
failure counted. -/
def Claim.StartUpEndsInService : Prop :=
  ∀ s : State,
    (InStage 8 s → ∀ sweeps, Answers (.stageCrosswalk sweeps) s fun t =>
      let made := sweeps.filter fun x => s.on F.AON_STATUS.cold || x.1 % 8 == 7 || (s.memoTap x.1).isNone
      let failed := failedKeys made
      (if s.laneHolds failed then t.get F.AON_STATUS.held = 1 ∧ t.get F.AON_STATUS.stage = 8 else t.get F.AON_STATUS.stage = 9) ∧
      t.clock.verified = (if s.on F.AON_STATUS.cold then List.range 8 else [7]) ∧
      ∀ (k : SquareId) i b step, xwPresent i b = true → i < 7 → b < 16 → step < 8 →
        let key := xwKey k.val i b step
        (∀ x, made.find? (fun y => y.1 == key) = some x → t.tapOf key = match sweepTap x.2.toNat with
          | some y => y.1 + 1
          | none => 0) ∧
        (∀ y, s.memoTap key = some y → (∀ x ∈ made, x.1 ≠ key) → t.tapOf key = y + 1) ∧
        (8 ≤ b → key ∈ failed → ∀ e : EngineId, e.val = (if b < 12 then k.val else k.val + 40) → (t.eng e).mappedOut = true)) ∧
    (InStage 9 s → ∀ failed, Answers (.stageMemory failed) s fun t => t.get F.AON_STATUS.stage = 10 ∧
      (∀ q ∈ failed, (⟨1, q.1.val + q.2.val * 2 ^ 8⟩ : Defect) ∈ t.boot.defects) ∧
      (failed = [] → OnlyRegisters [R.AON_STATUS, R.AON_REPAIR] s t ∧ OnlyParts [.regs] s t)) ∧
    (InStage 10 s → ∀ bad defects fallback,
      ((0 : CoreId) ∈ bad → Answers (.stageSelfTest bad defects fallback) s (HeldThere s)) ∧
      ((0 : CoreId) ∉ bad → defects = [] → s.candidates = [] → s.on F.AON_STATUS.cfg_ok = false → Answers (.stageSelfTest bad defects fallback) s fun t =>
        t.get F.AON_STATUS.stage = 11 ∧ (∀ c : CoreId, vget t.boot.coresOff c = bad.contains c) ∧
          t.get F.SEC_STATUS.identity_ok = b2n (!s.on F.SEC_STATUS.debug) ∧
          (∀ e, t.eng e = if e ∈ fallback then { s.eng e with fallback := true } else s.eng e) ∧ OnlyParts [.regs, .engines, .boot, .sec] s t)) ∧
    (InStage 11 s → s.boot.firmware = false → exec .stageFirmware s = .next { s with boot := { s.boot with firmware := true } }) ∧
    (s.get F.AON_STATUS.stage = 11 → s.boot.firmware = true → Answers .service s (OnlyFields [⟨F.AON_STATUS.stage, 0, 0, 12⟩,
      ⟨F.AON_STATUS.start_ms, 0, 0, min 0xFFFF (s.clock.ticks / 1000000)⟩, ⟨F.AON_BOOT.fails, 0, 0, 0⟩, ⟨F.AON_BOOT.service, 0, 0, 1⟩] s))

/-! ## Control cores and flash -/

/-- An access of a control core: one that leaves the block goes out on the links; to control space it names one whole aligned register of a unit that is there, reads or
writes it, and gets its code; to a memory it reaches the router of its unit; to the Floor SRAM of the cores' private space it reads or writes bytes, and ends with UNMAPPED where
there is none, ACCESS_DENIED at the logs' rings and DATA_ERR at a parity error (R11-R13, R28, R33, R35, R38, R380, R510, R528). -/
def Claim.CoresAccessControlSpaceAndMemory : Prop :=
  ∀ (c : CoreId) (addr : Word) (op : MemOp) (s : State), vget s.boot.coresOff c = false → 1 ≤ op.size →
    let a := addr.toNat
    let access : Instr := .controlCoreAccess c .global addr op
    let id := s.net.nextAccess
    let u : State := { s with net := { s.net with nextAccess := id + 1 } }
    let reply (code : Code) (data : List Byte) : Output := .reply (.core c) id code 0 data
    let ended (code : Code) (data : List Byte) : Prop := exec access s = .next (u.emit (reply code data))
    (s.isLocal a = false → exec access s = exec (.packetOriginate (.core c) addr op none) s) ∧
    (s.isLocal a = true → s.target a op.size = none → ended .unmapped []) ∧
    (∀ off, s.isLocal a = true → s.target a op.size = some (.control off) →
      (off % 8 ≠ 0 ∨ op.size ≠ 8 → ended .accessDenied []) ∧
      (off % 8 = 0 → op.size = 8 → s.unitCode off ≠ .ok → ended (s.unitCode off) []) ∧
      (off % 8 = 0 → op = .read 8 → s.unitCode off = .ok → assigned off = none → ended .ok (List.replicate 8 0)) ∧
      (∀ r i j, off % 8 = 0 → op = .read 8 → s.unitCode off = .ok → assigned off = some (r, i, j) → r ≠ R.CLK_BTIME → r ≠ R.PWR_RG_VMIN →
        Answers access s fun t => t.outbox = s.outbox ++ [reply .ok (leBytes 8 (s.reg r i j))] ∧
          t.reg r i j = s.reg r i j &&& (0xFFFFFFFFFFFFFFFF ^^^ r.rc) ∧ OnlyKeys [r.key i j] s t ∧ t.net = u.net ∧ OnlyParts [.regs, .net, .outbox] s t) ∧
      (off = R.CLK_BTIME.key 0 0 → op = .read 8 → s.unitCode off = .ok → ended .ok (leBytes 8 s.btime)) ∧
      (∀ b, off % 8 = 0 → op = .write b → b.length = 8 → s.unitCode off = .ok → Answers access s fun t =>
        ∃ w, exec (.registerWrite (BitVec.ofNat 32 off) (BitVec.ofNat 64 (leNat b))) u = .next w ∧ t = w.emit (reply .ok []))) ∧
    (∀ m k, s.isLocal a = true → s.target a op.size = some m → m.router = some k →
      (s.get F.AON_STATUS.stage = 0 → ended .targetReset []) ∧
      (s.get F.AON_STATUS.stage ≠ 0 → (∀ e, m = .core e → s.engineLinked e = true) → (∀ q, m = .window q → s.on F.SQ_CTL.busy q.val = false) →
        (∀ e, m = .dram e → s.landingLinked e = true ∧ (∀ f ∈ (s.sq k).fills, f.sector ≠ physKey a / 64) ∧ oneSector ⟨.core c, id, addr, op, none⟩ = true) →
        Answers access s fun t => Delivered k ⟨.core c, id, addr, op, none⟩ s u t)) ∧
    ∀ parity,
      let own : Instr := .controlCoreAccess c (.own parity) addr op
      let done (code : Code) (data : List Byte) : Prop := exec own s = .next (u.emit (reply code data))
      (inSram a op.size = false → done .unmapped []) ∧
      (inSram a op.size = true →
        (∀ n, op = .read n → done (if parity then .dataErr else .ok) (if parity then [] else s.bytes (spSram + a) n)) ∧
        (∀ b, op = .write b → sramReadOnly a b.length = true → done .accessDenied []) ∧
        ∀ b, op = .write b → sramReadOnly a b.length = false → Answers own s fun t =>
          t.bytes (spSram + a) b.length = b ∧ (∀ k, k < spSram + a ∨ spSram + a + b.length ≤ k → t.byte k = s.byte k) ∧
            t.outbox = s.outbox ++ [reply .ok []] ∧ t.net = u.net ∧ OnlyParts [.net, .mem, .outbox] s t)

/-- A seal writes the body that its go named, and MAC, into the copy that is not in use, one generation on, and leaves everything outside that copy; an append writes the entry that its go named, with its MAC, at the lowest
erased slot of the active bank, with the next seq; a failed read-back, a full bank and a bad body end with their codes (R487, R488, R492-R494; codes by log entries 43 and 44). -/
def Claim.SealsAndAppendsWriteTheFlash : Prop :=
  ∀ s : State,
    (s.on F.AON_MEMO.busy = true →
      let src := s.boot.memoSrc
      let b := s.readSram src memoBody
      let ended (c : Code) : List Holds := [⟨F.AON_MEMO.code, 0, 0, c.toNat⟩, ⟨F.AON_MEMO.busy, 0, 0, 0⟩]
      let copy := match s.newestMemo with | some c => 1 - c | none => 0
      let gen := match s.newestMemo with | some c => s.memoGen c + 1 | none => 1
      let inCopy (k : Nat) : Prop := spFlash + memoAt copy ≤ k ∧ k < spFlash + memoAt copy + 0x100000
      (inSram src memoBody = false → ∀ ok, Answers (.memoSealDone ok) s (OnlyFields (ended .unmapped) s)) ∧
      (inSram src memoBody = true → memoForm b = false → ∀ ok, Answers (.memoSealDone ok) s (OnlyFields (ended .dataErr) s)) ∧
      (inSram src memoBody = true → memoForm b = true → ∀ ok, Answers (.memoSealDone ok) s fun t =>
        FieldsBecome (ended (if ok then .ok else .dataErr)) s t ∧ OnlyParts [.regs, .mem, .drawn] s t ∧ (∀ k, ¬ inCopy k → t.byte k = s.byte k) ∧
          (ok = true →
            let body := b.take 8 ++ leBytes 8 gen ++ b.drop 16
            t.bytes (spFlash + memoAt copy) memoBody = body ∧ t.bytes (spFlash + memoAt copy + memoBody) 48 = hmac384 s.memoKey body ∧ t.drawn = s.drawn))) ∧
    (s.on F.AON_LEDGER.busy = true →
      let b := s.activeBank
      (s.erasedSlot b = none → ∀ ok, Answers (.ledgerAppendDone ok) s (OnlyFields [⟨F.AON_LEDGER.code, 0, 0, 1⟩, ⟨F.AON_LEDGER.busy, 0, 0, 0⟩] s)) ∧
      ∀ i ok, s.erasedSlot b = some i → Answers (.ledgerAppendDone ok) s fun t =>
        let at_ := spFlash + ledgerBank b + 32 * i
        (∀ k, k < at_ ∨ at_ + 32 ≤ k → t.byte k = s.byte k) ∧ t.get F.AON_LEDGER.busy = 0 ∧ OnlyKeys [R.AON_LEDGER.key 0 0] s t ∧ OnlyParts [.regs, .mem, .drawn] s t ∧
          (ok = false → t.get F.AON_LEDGER.code = 1) ∧
          (ok = true →
            let seq := highestSeq s.ledgerEntries + 1
            let head := ledgerHead seq s.boot.append.1 2 1 s.boot.append.2 (s.get F.AON_STATUS.boots)
            t.bytes at_ 32 = head ++ s.ledgerMac head ∧ t.get F.AON_LEDGER.seq = seq % 2 ^ F.AON_LEDGER.seq.w ∧ t.get F.AON_LEDGER.code = 0 ∧ t.drawn = s.drawn))

/-! ## Training and keys of the ports -/

/-- What a message of link control fills its flit with. -/
def ctlArea (m : LinkCtl) : List Byte := areaOf ((List.range 288).map fun i => Config.ctlByte m i)

/-- A message of link control left a port, in a flit under its keys (R343, R344, R356, R365, R367). -/
def CtlSent (p : PortId) (m : LinkCtl) (s t : State) : Prop :=
  let x := s.port p
  ∃ (h : FlitHdr) (k : LinkKey) (bits : LaneBits), h.ftype = 2 ∧ (k = x.keys.tx ∨ ∃ n, x.keys.nextTx = some (k, n)) ∧ s.outbox <+: t.outbox ∧
    Output.flit p (flitBytes k h (ctlArea m)) bits ∈ t.outbox.drop s.outbox.length

/-- A port that lost its partner (R345, R366-R369): HOLDOFF with its cause, nothing queued or to be replayed, every request that left through it completed, the loss signalled and logged,
the time client unlocked where it was the parent, the partner suspected, or, where it said that it leaves, lost; a port that takes the link down says DOWN first. -/
def PortLost (p : PortId) (cause : Nat) (down : Option Bool) (s t : State) : Prop :=
  let partner := s.get F.PL_STATUS.partner p.val
  let known := s.on F.PL_STATUS.partner_valid p.val = true
  t.portState p = 5 ∧ t.get F.PL_STATUS.cause p.val = cause ∧ t.get F.PL_STATUS.partner_valid p.val = 0 ∧ t.get F.PL_STATUS.half p.val = 0 ∧
    (t.port p).replay = [] ∧ (t.port p).txq = [] ∧ (t.port p).keys = KeyStore.empty ∧
    (∀ o ∈ t.net.outs, o.port = some p → o.reply.isSome = true) ∧ Output.portLost p partner cause ∈ t.outbox ∧
    (∀ leaving, down = some leaving → s.portState p = 3 ∨ s.portState p = 4 → CtlSent p (.down leaving) s t) ∧
    (s.get F.PL_TIME.parent = p.val → t.get F.PL_TIME.locked = 0) ∧
    (p.val < 6 → known → cause ≠ 3 → s.isLost partner = false → partner ∈ t.net.suspects) ∧ (p.val < 6 → known → cause = 3 → t.isLost partner = true) ∧
    (s.elog.queue <+: t.elog.queue ∧ (reportOf s 0x0501 0x20 p.val 2 .linkDown (partner + cause * 2 ^ 16) ∈ t.elog.queue ∨ 256 ≤ t.elog.queue.length)) ∧
    (cause ≠ 3 → OnlyParts [.regs, .mesh, .net, .elog, .outbox, .drawn] s t ∧ OnlyRegisters ([R.PL_TIME, R.PL_RETRY, R.AV_DISCARD] ++ linkMarks) s t)

/-- This block's HELLO of a new handshake left: ID, role, certificates, the ephemeral public key of the private key that the port keeps, and the sequence number
at which its keys are to change (R356, R358, R512). -/
def HelloSent (p : PortId) (toggle : Word) (s t : State) : Prop :=
  ∃ h : Hello, h.id = BitVec.ofNat 12 s.myId ∧ h.role.toNat = p.val ∧ h.nonce.length = 32 ∧ h.pubKey = publicKey (t.port p).keys.scalar ∧ h.alias_ = s.sec.cert ∧
    h.ident = s.identityCert ∧ h.toggle = toggle ∧ (t.port p).keys.mine = some h ∧ t.outbox = s.outbox ++ [.sendHello p h]

/-- A port trains when it is enabled, unless its dimension has size 1 or the block is held; the lane tests map out up to two lanes each way, or leave sixteen; a warm start takes its lanes
and equaliser settings from its record; alignment leads to the handshake once the block ID is locked; the partner must be the one expected, its chain and signature must verify, and both
ends then have keys from their shared secret: the port is ACTIVE with new sequence numbers. Whatever fails sends it to HOLDOFF with its cause, from which it trains again
(R344, R351, R356, R357, R363, R364, R375, R477). -/
def Obligations.PortsTrainThroughTheirStates : Prop :=
  ∀ (p : PortId) (s : State),
    let x := s.port p
    let lanes (rx tx : List Nat) : List Holds := [⟨F.PL_LANES.rx_out0, p.val, 0, laneAt rx 0⟩, ⟨F.PL_LANES.rx_out1, p.val, 0, laneAt rx 1⟩,
      ⟨F.PL_LANES.tx_out0, p.val, 0, laneAt tx 0⟩, ⟨F.PL_LANES.tx_out1, p.val, 0, laneAt tx 1⟩]
    let warm := s.boot.memo.isSome && !s.on F.PL_CTL.cold p.val
    let idle := s.portIdle p = true ∨ s.on F.AON_STATUS.held = true
    let trains (t : State) : Prop := t.portState p = 1 ∧ t.get F.PL_STATUS.trains p.val = (s.get F.PL_STATUS.trains p.val + 1) % 2 ^ F.PL_STATUS.trains.w ∧ (t.port p).warm = warm
    (s.on F.PL_CTL.enable p.val = true → Answers (.plEnable p) s (OnlyFields [⟨F.PL_CTL.enable, p.val, 0, 1⟩] s)) ∧
    (s.on F.PL_CTL.enable p.val = false → Answers (.plEnable p) s fun t => t.get F.PL_CTL.enable p.val = 1 ∧ (idle → t.portState p = 0) ∧ (¬ idle → trains t) ∧
      OnlyKeys [R.PL_CTL.key p.val 0, R.PL_STATUS.key p.val 0] s t ∧ OnlyParts [.regs, .net] s t) ∧
    (s.on F.PL_CTL.enable p.val = false → Answers (.plDisable p) s (OnlyFields [⟨F.PL_CTL.enable, p.val, 0, 0⟩] s)) ∧
    (s.on F.PL_CTL.enable p.val = true → Answers (.plDisable p) s fun t => t.get F.PL_CTL.enable p.val = 0 ∧ t.portState p = 0 ∧ t.get F.PL_STATUS.partner_valid p.val = 0 ∧
      (t.port p).replay = [] ∧ (t.port p).txq = [] ∧ ∀ o ∈ t.net.outs, o.port = some p → o.reply.isSome = true) ∧
    (s.portState p = 5 → s.on F.PL_CTL.enable p.val = true → x.failed = false → Answers (.holdoffExpiry p) s fun t => (idle → t.portState p = 0) ∧ (¬ idle → trains t)) ∧
    (s.portState p = 1 → ∀ rxBad txBad memoOk,
      let done : Instr := .electricalDone p rxBad txBad memoOk
      (x.warm = false →
        let rx := s.badLanes p false rxBad
        let tx := s.badLanes p true txBad
        let n := max rx.length tx.length
        let eq := (List.range 136).map fun i => Config.equaliser s.drawn i
        let aligned (half : Bool) : Prop := Answers done s fun t => t.port p = { x with narrow := half, rxOut := rx, txOut := tx, eq := eq } ∧
          FieldsBecome (⟨F.PL_STATUS.state, p.val, 0, 2⟩ :: lanes rx tx) s t ∧ OnlyParts [.regs, .net, .drawn] s t
        (n ≤ 2 → aligned false) ∧ (2 < n → n ≤ 18 → s.on F.PL_CTL.allow_half p.val = true → aligned true) ∧
        (18 < n ∨ (2 < n ∧ s.on F.PL_CTL.allow_half p.val = false) → Answers done s fun t => PortLost p 7 none s t ∧ (t.port p).failed = true)) ∧
      (x.warm = true → memoOk = true → nbit (s.portRecord p 0x33 1) 0 = true → Answers done s fun t =>
        let rx := s.recordLanes p 0x34
        let tx := s.recordLanes p 0x36
        t.port p = { x with narrow := nbit (s.portRecord p 0x33 1) 1, rxOut := rx, txOut := tx, eq := s.recordBytes p 0x40 136 } ∧
          FieldsBecome (⟨F.PL_STATUS.state, p.val, 0, 2⟩ :: lanes rx tx) s t ∧ OnlyParts [.regs, .net] s t) ∧
      (x.warm = true → memoOk = false ∨ nbit (s.portRecord p 0x33 1) 0 = false → Answers done s fun t =>
        t.port p = { x with warm := false } ∧ OnlyParts [.net] s t)) ∧
    (s.portState p = 2 → ∀ asym,
      Answers (.alignDone p false asym) s (PortLost p 5 none s) ∧ (s.on F.AON_BLOCK_ID.lock = false → Answers (.alignDone p true asym) s (PortLost p 9 none s)) ∧
      (s.on F.AON_BLOCK_ID.lock = true → Answers (.alignDone p true asym) s fun t => t.portState p = 3 ∧ HelloSent p 0 s t ∧
        t.port p = { x with asym := asym, txWord := 0, rxPair := 0, hello := none, keys := (t.port p).keys } ∧ OnlyParts [.regs, .net, .outbox, .drawn] s t)) ∧
    (s.portState p = 3 → x.hello = none → ∀ h : Hello,
      (s.expectedId p = some h.id.toNat ∧ h.role.toNat = expectedRole p → ∀ m, x.keys.mine = some m → Answers (.hello p h) s fun t => t.port p = { x with hello := some h } ∧
        t.outbox = s.outbox ++ [.sendFinish p (s.signature (sha384 (Config.helloBytes m h)))] ∧ t.sec = { s.sec with signed := s.sec.signed + 1 } ∧ OnlyParts [.net, .outbox, .sec] s t) ∧
      (¬ (s.expectedId p = some h.id.toNat ∧ h.role.toNat = expectedRole p) → Answers (.hello p h) s (PortLost p 6 (some false) s))) ∧
    ∀ h m sig, s.portState p = 3 → x.hello = some h → x.keys.mine = some m →
      (sharedSecret x.keys.scalar h.pubKey = none ∨ s.finishOk m h sig = false → Answers (.finish p sig) s (PortLost p 5 (some false) s)) ∧
      ∀ z, sharedSecret x.keys.scalar h.pubKey = some z → s.finishOk m h sig = true → Answers (.finish p sig) s fun t =>
        let k := linkKeys m h z
        t.portState p = 4 ∧ (t.port p).txSeq = 0 ∧ (t.port p).rxNext = 0 ∧ (t.port p).hello = none ∧ (t.port p).keys = { KeyStore.empty with tx := k.1, rx := k.2 } ∧
          t.get F.PL_STATUS.partner p.val = h.id.toNat ∧ t.get F.PL_STATUS.partner_valid p.val = 1 ∧ t.get F.PL_STATUS.half p.val = b2n x.narrow ∧
          t.get F.PL_STATUS.memo_stale p.val = b2n (s.memoStale p h) ∧ OnlyKeys [R.PL_STATUS.key p.val 0] s t ∧ OnlyParts [.regs, .net] s t

/-- An ACTIVE port goes down where PL_CTL.down says so or no flit comes for 2 µs (R367); a new handshake runs beside its traffic, from either end, and each direction changes to its keys at
the sequence number that the HELLO of its sender names; the key phase also advances after 2^36 flits, to the next key (R358); a lane with too many errors in a millisecond is replaced by a
spare at a codeword pair that the partner is told, or the port goes to half width (R365). -/
def Obligations.ActivePortsRekeyRepairAndGoDown : Prop :=
  ∀ (p : PortId) (s : State),
    let x := s.port p
    (1 ≤ s.portState p ∧ s.portState p ≤ 4 → Answers (.plDown p) s (PortLost p 8 (some false) s)) ∧
    (s.portState p = 0 ∨ 5 ≤ s.portState p → exec (.plDown p) s = .next s) ∧
    (s.portActive p = true → Answers (.noFlitTimeout p) s (PortLost p 1 (some false) s)) ∧
    (let toggle := BitVec.ofNat 64 (x.txSeq + Config.rekeyLead s.drawn)
     let begins (c : Instr) : Prop := (s.portActive p = true → x.rekeying = false → Answers c s fun t => HelloSent p toggle s t ∧
        t.port p = { x with rekeying := true, hello := none, keys := (t.port p).keys } ∧ OnlyParts [.net, .outbox, .drawn] s t) ∧
        (s.portActive p = true → x.rekeying = true → exec c s = .next s)
     begins (.plRekey p) ∧ begins (.rekeyTimer p)) ∧
    (s.portActive p = false → exec (.plRekey p) s = .next s) ∧
    (∀ h : Hello, s.portActive p = true → x.hello = none → s.expectedId p = some h.id.toNat ∧ h.role.toNat = expectedRole p →
      let finish (m : Hello) : Output := .sendFinish p (s.signature (sha384 (Config.helloBytes m h)))
      (∀ m, x.rekeying = true → x.keys.mine = some m → Answers (.hello p h) s fun t => t.port p = { x with hello := some h } ∧ t.outbox = s.outbox ++ [finish m] ∧
        OnlyParts [.net, .outbox, .sec] s t) ∧
      (x.rekeying = false → Answers (.hello p h) s fun t => ∃ m, (t.port p).keys.mine = some m ∧ (t.port p).rekeying = true ∧ (t.port p).hello = some h ∧
        t.outbox = s.outbox ++ [.sendHello p m, finish m] ∧ OnlyParts [.net, .outbox, .sec, .drawn] s t)) ∧
    (∀ h m sig, s.portActive p = true → x.hello = some h → x.keys.mine = some m →
      (sharedSecret x.keys.scalar h.pubKey = none ∨ s.finishOk m h sig = false → Answers (.finish p sig) s (PortLost p 5 (some false) s)) ∧
      ∀ z, sharedSecret x.keys.scalar h.pubKey = some z → s.finishOk m h sig = true → Answers (.finish p sig) s fun t =>
        let k := linkKeys m h z
        t.port p = { x with rekeying := false, hello := none, keys := { x.keys with
          nextTx := some (k.1, max m.toggle.toNat x.txSeq), nextRx := some (k.2, h.toggle.toNat), mine := none, scalar := 0 } } ∧ OnlyParts [.net] s t) ∧
    (s.portActive p = true → x.phaseStart + 2 ^ 36 ≤ x.txSeq → Answers (.keyPhaseAdvance p) s fun t =>
      t.port p = { x with kphaseTx := !x.kphaseTx, phaseStart := x.txSeq, keys := { x.keys with tx := nextKey x.keys.tx } } ∧ OnlyParts [.net] s t) ∧
    (s.portActive p = true →
      let above (i : Nat) : Prop := s.get F.PL_LANES.limit p.val < Tbl.get (fun _ => 0) x.laneErrs i
      let counted : Port := { x with laneErrs := [] }
      let quiet : Prop := Answers (.laneErrorWindow p) s fun t => t.port p = counted ∧ OnlyParts [.net] s t
      ((∀ i, i < 32 → ¬ above i) ∨ x.repair.isSome = true ∨ s.on F.PL_STATUS.half p.val = true → quiet) ∧
      ∀ i, i < 32 → above i → (∀ j, j < i → ¬ above j) → x.repair = none → s.on F.PL_STATUS.half p.val = false →
        let old := laneAt (lanesIn x.rxOut false) i
        let pair := (x.rxPair + 256) % 512
        (∀ n, x.spare = some n → Answers (.laneErrorWindow p) s fun t => (t.port p).repair = some ⟨old, some n, pair⟩ ∧ (t.port p).laneErrs = [] ∧
          t.get F.PL_LANES.swap p.val = n % 64 ∧ CtlSent p (.lane (BitVec.ofNat 6 old) (BitVec.ofNat 9 pair)) s t ∧ SendsOnly [] [] s t) ∧
        (x.spare = none → s.on F.PL_CTL.allow_half p.val = true → Answers (.laneErrorWindow p) s fun t => (t.port p).repair = some ⟨old, none, pair⟩ ∧
          (t.port p).laneErrs = [] ∧ CtlSent p (.lane 0x3F (BitVec.ofNat 9 pair)) s t ∧ SendsOnly [] [] s t) ∧
        (x.spare = none → s.on F.PL_CTL.allow_half p.val = false → quiet)) ∧
    ∀ r, s.portActive p = true → x.repair = some r → x.rxPair = r.pair → Answers (.laneSwitch p) s fun t =>
      let half := r.spare = none
      t.port p = (if half then { x with repair := none, narrow := true } else { x with repair := none, rxOut := x.rxOut ++ [r.old] }) ∧
        (let f := if s.get F.PL_LANES.rx_out0 p.val = 0x3F then F.PL_LANES.rx_out0 else F.PL_LANES.rx_out1
         FieldsBecome (if half then [⟨F.PL_STATUS.half, p.val, 0, 1⟩, lostAfter s] else [⟨f, p.val, 0, r.old % 64⟩, ⟨F.PL_LANES.swap, p.val, 0, 0x3F⟩, lostAfter s]) s t) ∧
        t.elog = logAfter s (eventOf s 0x0503 0x20 p.val 1 (r.old + b2n (r.spare = none) * 2 ^ 9)) ∧ OnlyParts [.regs, .net, .elog] s t

/-! ## Flits, packets and lost blocks -/

/-- A port can send a packet at once: it is ACTIVE, nothing waits before it, the replay buffer has room, credits are there and no idle flit is due (R345-R347). -/
def sendsNow (s : State) (p : PortId) (k : Pkt) : Prop :=
  s.portActive p = true ∧ (s.port p).txq = [] ∧ (s.port p).roomy = true ∧ cellsOf k ≤ vget (s.port p).txCred (laneOf k) ∧ (s.port p).sinceIdle < 2047

/-- One flit left the block after state `q`: its header holds the next sequence number and the last number accepted, its area is encrypted under the sending key, and its codeword goes on the
lanes in use (R341-R344, R357, R358). -/
def FlitSent (p : PortId) (q t : State) (ftype : Nat) (area : List Byte) (nak : Bool := false) (credit : Nat × Nat := (0, 0)) : Prop :=
  let x := (q.port p).turnTx
  let h : FlitHdr := ⟨BitVec.ofNat 64 x.txSeq, BitVec.ofNat 32 (x.rxNext + 2 ^ 32 - 1), nak, BitVec.ofNat 2 ftype, x.kphaseTx, BitVec.ofNat 3 (credit.1 / 2), credit.1 % 2 == 1, BitVec.ofNat 11 credit.2⟩
  let bytes := flitBytes x.keys.tx h (areaOf area)
  ∃ bits, t.outbox = q.outbox ++ [.flit p bytes bits] ∧
    (x.follow = none → bits = onLanes x.narrow (lanesIn x.txOut x.narrow) (x.txWord % 2) (rsEncode (dataSymbols bytes (x.txWord % 2) (x.txWord / 2))))

/-- What leaves for a requester of this block: nothing where its engine is in reset (R329). -/
def toRequester (q : State) (who : Requester) (id : Nat) (c : Code) (d : Nat) (data : List Byte) : List Output :=
  match who with
  | .engine g => if q.resetOf g then [] else [.reply who id c d data]
  | _ => [.reply who id c d data]

/-- The completion of a remote request: to its source, with its tag; one with EPOCH_SKEW brings the unit's applied epoch (R333, R348, R350). -/
def completionOf (s : State) (k : Pkt) (c : Code) (d : Nat) (data : List Byte) : Pkt :=
  let a : Pkt := { s.newPkt 3 k.src.toNat k.tag.toNat 0 0 data with code := BitVec.ofNat 4 c.toNat, spur := k.spur }
  if c = .epochSkew then { a with epoch := BitVec.ofNat 32 d, epochValid := true } else a

/-- Every well-formed packet stands in its cells as R348 and R349 lay it out, and is read back from them; a flit's header is read back from its flit; the 2,560 bits of a flit and its
marker are read back from the symbols of its codeword, and a codeword from its sixteen lanes at full width (R341-R344, R348, R349). -/
def Claim.FlitsAndPacketsHaveTheirLayouts : Prop :=
  (∀ (k : Pkt) (rest : List Byte), framed k = true → (k.ptype ≠ 3 → k.code = 0) → (k.ptype = 3 → k.addr = 0) → k.aux.toNat &&& auxMask k.ptype.toNat = k.aux.toNat →
    (pktBytes k).length = 16 * cellsOf k ∧ pktOf (pktBytes k ++ rest) = (k, cellsOf k) ∧ nextPkt (pktBytes k ++ rest) = .pkt k (cellsOf k)) ∧
  (∀ (h : FlitHdr) (rest : List Byte), h.bytes.length = 16 ∧ FlitHdr.of (h.bytes ++ rest) = h) ∧
  (∀ (flit : List Byte) (c pair : Nat), flit.length = 320 → (dataSymbols flit c pair).length = 257 ∧ (∀ x ∈ dataSymbols flit c pair, x < 1024) ∧
    flitOf (dataSymbols flit c pair) = (flit, c % 2 + 2 * (pair % 512))) ∧
  ∀ (lanes word : List Nat) (c : Nat), c < 2 → lanes.length = 32 → lanes.Nodup → word.length = 272 → (∀ x ∈ word, x < 1024) →
    fromLanes false lanes (onLanes false lanes c word) c = word

/-- A flit opens with this area, and leaves the port so, where it is next in its numbers: under the key in force; under the keys of a new handshake at the number that the sender named, from
which its numbers run from 0; or under the next key, with the other phase (R344, R345, R357, R358). -/
def Opens (x : Port) (flit area : List Byte) (y : Port) : Prop :=
  let f := FlitHdr.of flit
  let turned (r : LinkKey) (next : Nat) (n : Option (LinkKey × Nat)) : Port :=
    { x with kphaseRx := f.kphase, rxNext := next, keys := { x.keys with prev := some x.keys.rx, rx := r, first := next, nextRx := n } }
  let agreed : Prop := f.seq = 0 ∧ ∃ n, x.keys.nextRx = some n ∧ n.2 = x.rxNext
  (f.kphase = x.kphaseRx ∧ openFlit x.keys.rx flit = some area ∧ f.seq.toNat = x.rxNext ∧ y = x) ∨
  (f.kphase ≠ x.kphaseRx ∧ agreed ∧ ∃ n, x.keys.nextRx = some n ∧ openFlit n.1 flit = some area ∧ y = turned n.1 0 none) ∨
  (f.kphase ≠ x.kphaseRx ∧ ¬ agreed ∧ openFlit (nextKey x.keys.rx) flit = some area ∧ f.seq.toNat = x.rxNext ∧ y = turned (nextKey x.keys.rx) x.rxNext x.keys.nextRx)

/-- Flits from an acknowledged number on: the one that has it and those before it leave the replay buffer (R345). -/
def unacked (l : List SentFlit) (ack : BitVec 32) : List SentFlit :=
  match l.findIdx? fun q => q.hdr.seq.toNat % 2 ^ 32 == ack.toNat with
  | some i => l.drop (i + 1)
  | none => l

/-- A codeword pair brings two codewords; one that cannot be corrected, a flit that is not the next and one whose tag fails are discarded, and the first asks for a replay; eight tag failures in
a millisecond take the port down. The next flit is accepted: it acknowledges, returns credits, asks for a replay, says DOWN, names the lane that its sender replaces, or brings a packet, which
passes the Tollgate or does not (R341, R345, R347, R356, R359, R360, R365, R367, R376; one packet in a flit). -/
def Claim.FlitsAreAcceptedOrDiscarded : Prop :=
  ∀ (p : PortId) (s : State),
    let x := s.port p
    let counts (f : Field) (n : Nat) (t : State) : Prop := t.get f p.val = min (s.get f p.val + n) (2 ^ f.w - 1)
    let asksAgain (t : State) : Prop := (t.port p).nakSent = true ∧ (t.port p).rxNext = x.rxNext ∧ counts F.PL_RETRY.replays 1 t ∧ FlitSent p s t 1 [] true
    (s.portActive p = true ∨ s.portState p = 3 → ∀ bits, Answers (.flitReceive p bits) s fun t =>
      let u := (s.takeWord p bits 0).takeWord p bits 1
      t = u.setPort p { u.port p with rxPair := ((u.port p).rxPair + 1) % 512 }) ∧
    (∀ bits c,
      let t := s.takeWord p bits c
      (rsDecode (fromLanes x.narrow (lanesIn x.rxOut x.narrow) bits c) = none → counts F.PL_FEC_COUNT.uncorrectable 1 t ∧
        (s.portActive p = false ∨ x.nakSent = true → t.net = s.net ∧ t.outbox = s.outbox) ∧ (s.portActive p = true → x.nakSent = false → asksAgain t)) ∧
      ∀ w places, rsDecode (fromLanes x.narrow (lanesIn x.rxOut x.narrow) bits c) = some (w, places) →
        let q := flitOf (w.take 257)
        ∃ u, t = u.takeFlit p q.1 ∧ u.port p = { x.countLanes c places with rxPair := q.2 / 2 } ∧ counts F.PL_FEC_COUNT.corrected places.length u ∧
          OnlyKeys [R.PL_FEC_COUNT.key p.val 0] s u ∧ OnlyParts [.regs, .net] s u) ∧
    (∀ flit, s.portActive p = false → s.portState p = 3 →
      let f := FlitHdr.of flit
      let said := Config.readCtl ((flit.drop 16).take 288)
      (∀ leaving, f.ftype = 2 → said = .down leaving → PortLost p (if leaving then 3 else 2) none s (s.takeFlit p flit)) ∧
      (f.ftype ≠ 2 ∨ (∀ leaving, said ≠ .down leaving) → s.takeFlit p flit = s)) ∧
    ∀ flit, s.portActive p = true →
      let f := FlitHdr.of flit
      let t := s.takeFlit p flit
      (∀ area y, x.openWith f flit = .accept area y ↔ Opens x flit area y) ∧
      (x.openWith f flit = .late → (x.nakSent = true → t = s) ∧ (x.nakSent = false → asksAgain t)) ∧
      (x.openWith f flit = .bad →
        let l := (x.tagFails.filter fun u => decide (s.btime < u + 1000000)) ++ [s.btime]
        (l.length < 8 → (t.port p).tagFails = l ∧ (t.port p).nakSent = true ∧ (t.port p).rxNext = x.rxNext ∧ counts F.PL_RETRY.tag_fail 1 t) ∧
        (8 ≤ l.length → PortLost p 4 (some false) s t)) ∧
      ∀ area y, Opens x flit area y → y.txq = [] →
        let left := unacked y.replay f.ack
        let credits : Vector Nat 10 := Vector.ofFn fun i : Fin 10 => vget y.txCred i + (if i.val = 2 * f.cclass.toNat + b2n f.cvc then f.ccount.toNat else 0)
        let z : Port := { y with rxNext := y.rxNext + 1, nakSent := false, replay := left, txCred := credits }
        (f.ftype = 1 → f.nak = false → t.port p = z ∧ t.outbox = s.outbox ∧ OnlyParts [.net] s t) ∧
        (f.ftype = 1 → f.nak = true → (∀ q ∈ left, q.replays < 16) → z.sinceIdle + left.length ≤ 2047 →
          (t.port p).replay = left.map (fun q => { q with replays := q.replays + 1 }) ∧
            ∃ bits : List LaneBits, bits.length = left.length ∧ t.outbox = s.outbox ++ (left.zip bits).map fun q => .flit p q.1.bytes q.2) ∧
        (f.nak = true → (∃ q ∈ left, 16 ≤ q.replays) → PortLost p 10 (some false) s t) ∧
        (f.ftype = 2 → f.nak = false →
          (∀ leaving, Config.readCtl area = .down leaving → PortLost p (if leaving then 3 else 2) none s t) ∧
          (∀ lane pair, Config.readCtl area = .lane lane pair → t.port p = { z with follow := some (lane.toNat, pair.toNat) } ∧ t.outbox = s.outbox ∧ OnlyParts [.net] s t)) ∧
        ∀ k cells, f.ftype = 0 → f.nak = false → nextPkt area = .pkt k cells →
          let kept : Prop := (t.port p).inq = y.inq ∧ (t.port p).compq = y.compq
          (framed k = false ∨ area.length < 16 * cells → kept ∧ counts F.TOLL_COUNT.framing 1 t) ∧
          (framed k = true → 16 * cells ≤ area.length → nextPkt (area.drop (16 * cells)) = .done true →
            (∀ kind, s.toll p k = .drop kind ∨ s.toll p k = .deny kind → kept ∧ counts (tollField kind) 1 t) ∧
            (s.toll p k = .pass → s.isHere p k = true →
              (isRequest k = true → (t.port p).inq = y.inq ++ [k] ∧ (t.port p).compq = y.compq ∧ t.outbox = s.outbox ∧
                vget (t.port p).rxCred (laneOf k) = vget y.rxCred (laneOf k) - cellsOf k) ∧
              (k.ptype = 3 → (t.port p).inq = y.inq ∧ (t.port p).compq = y.compq ++ [k] ∧ t.outbox = s.outbox) ∧
              (isRequest k = false → k.ptype ≠ 3 → kept ∧ t.outbox = s.outbox ++ [.handed (some p) k])) ∧
            ∀ q k', s.toll p k = .pass → s.isHere p k = false → s.route (some p) { k with hops := k.hops + 1 } = .out q k' → q ≠ p → sendsNow s q k' →
              kept ∧ FlitSent q s t 0 (pktBytes k'))

/-- An idle flit and credits leave an ACTIVE port; the keys of a new handshake come into use at the number that it named, with the other phase and numbers from 0; credits never exceed the room
of the buffer or the rate of their class (R344, R346, R347, R358, R362). -/
def Claim.IdleFlitsCarryCredits : Prop :=
  ∀ (p : PortId) (s : State), s.portActive p = true → (s.port p).roomy = true →
    let x := s.port p
    (Answers (.idleFlit p) s fun t => FlitSent p s t 1 [] ∧ (t.port p).replay.length = x.replay.length + 1 ∧ (t.port p).sinceIdle = 0 ∧ SendsOnly [] [] s t ∧
      ((∀ k, x.keys.nextTx ≠ some (k, x.txSeq)) → (t.port p).txSeq = x.txSeq + 1 ∧ (t.port p).kphaseTx = x.kphaseTx ∧ (t.port p).keys = x.keys) ∧
      ∀ k, x.keys.nextTx = some (k, x.txSeq) → (t.port p).txSeq = 1 ∧ (t.port p).kphaseTx = !x.kphaseTx ∧ (t.port p).keys = { x.keys with tx := k, nextTx := none }) ∧
    ∀ (cls : Fin 5) (vc : Bool) (cells : BitVec 11) (i : Fin 10), i.val = 2 * cls.val + b2n vc → cells.toNat ≤ vget x.rxFree i →
      64 * cells.toNat ≤ s.tollRate p cls.val * (s.btime - vget x.credT i) → Answers (.creditReturn p cls vc cells) s fun t =>
        FlitSent p s t 1 [] false (i.val, cells.toNat) ∧ vget (t.port p).rxFree i = vget x.rxFree i - cells.toNat ∧ vget (t.port p).rxCred i = vget x.rxCred i + cells.toNat ∧
          vget (t.port p).credT i = s.btime ∧ SendsOnly [] [] s t

/-- The pieces of an access follow one another, cover it, and none crosses a boundary of 256 bytes (R350). -/
def PiecesCover (a n : Nat) : Prop :=
  ((pieces a n).map Prod.snd).sum = n ∧ (∀ q ∈ pieces a n, 1 ≤ q.2 ∧ q.1 / 256 = (q.1 + q.2 - 1) / 256) ∧
    ∀ i q r, (pieces a n)[i]? = some q → (pieces a n)[i + 1]? = some r → r.1 = q.1 + q.2

/-- An access to another block goes out in pieces, each with a tag of its own, by the route to that block; a block without an ID reaches none (R29, R348, R350, R352, R354). -/
def Claim.AccessesLeaveInPieces : Prop :=
  (∀ a n, PiecesCover a n) ∧
  ∀ (who : Requester) (addr : Word) (op : MemOp) (ep : Option Epoch) (s : State), s.isLocal addr.toNat = false → 1 ≤ op.size →
    (s.net.outs.filter fun o => o.reply.isNone).length + (pieces addr.toNat op.size).length ≤ 65536 →
      let access := s.net.nextAccess
      (s.on F.AON_BLOCK_ID.valid = false → Answers (.packetOriginate who addr op ep) s fun t => t.net = { s.net with nextAccess := access + 1 } ∧
        t.outbox = s.outbox ++ toRequester s who access .unmapped 0 [] ∧ OnlyParts [.regs, .net, .outbox] s t) ∧
      (s.on F.AON_BLOCK_ID.valid = true → (pieces addr.toNat op.size).length = 1 → ∀ tag, s.freeTag = some tag →
        let dst := blockOf addr.toNat
        let base : Pkt := match op with
          | .read n => { s.newPkt 1 dst tag (addr.toNat % 2 ^ 52) 0 [] with len := BitVec.ofNat 8 (n - 1) }
          | .write b => s.newPkt 2 dst tag (addr.toNat % 2 ^ 52) 0 b
        let k : Pkt := { base with epoch := ep.getD 0, epochValid := ep.isSome }
        (∀ p k', s.route none k = .out p k' → Answers (.packetOriginate who addr op ep) s fun t =>
          t.net.outs = s.net.outs ++ [⟨tag, who, access, none, access, some p, dst, none⟩] ∧ SendsOnly [] [] s t ∧ (sendsNow s p k' → FlitSent p s t 0 (pktBytes k'))) ∧
        (s.route none k = .none → (∀ o ∈ s.net.outs, o.access ≠ access) → Answers (.packetOriginate who addr op ep) s fun t => t.net.outs = s.net.outs ∧
          t.outbox = s.outbox ++ toRequester s who access .linkDown dst [] ∧ OnlyParts [.regs, .net, .outbox] s t))

/-- The oldest request at a port leaves its buffer and enters the mesh at the Floor port of its target's router, on plane 1, where the router serves it when its turn is; its answer goes back to
its source with its tag. An address that no unit serves is answered with UNMAPPED (R31, R33, R35, R313, R333, R350, R355; served at once where the mesh is empty, by the model's choice). -/
def Claim.RemoteRequestsAreServedAndAnswered : Prop :=
  ∀ (p : PortId) (k : Pkt) (rest : List Pkt) (s : State), (s.port p).inq = k :: rest →
    let r := s.requestOf k
    let freed (t : State) : Prop := (t.port p).inq = rest ∧ vget (t.port p).rxFree (laneOf k) = vget (s.port p).rxFree (laneOf k) + cellsOf k
    let answered (c : Code) (d : Nat) (data : List Byte) (t : State) : Prop :=
      ∀ q a, s.route none (completionOf s k c d data) = .out q a → sendsNow s q a → FlitSent q s t 0 (pktBytes a)
    r.who = .remote k.src ∧ r.addr.toNat = s.myId * 2 ^ 52 + k.addr.toNat ∧ r.op = (if k.ptype = 1 then .read (k.len.toNat + 1) else .write k.data) ∧
    r.epoch = (if k.epochValid = true then some k.epoch else none) ∧
    (unitPort r.addr.toNat = none → Answers (.remoteRequest p) s fun t => freed t ∧ answered .unmapped 0 [] t ∧ SendsOnly [] [] s t) ∧
    ∀ u, unitPort r.addr.toNat = some u → s.carries u.1 (throughLanes 0 ++ throughLanes 1) = true →
      let q := s.dequeue p k rest
      let pkt : MeshPkt := ⟨u.1, .floor, u.1, 1, .request r⟩
      let w : State := { q with mesh := q.mesh ++ [pkt] }
      Answers (.remoteRequest p) s fun t => freed t ∧
        (s.mesh = [] → w.routerMove u.1 1 = none → t = w) ∧
        ∀ v, s.mesh = [] → s.isLocal r.addr.toNat = true → w.routerMove u.1 1 = some (pkt, v) → Delivered u.1 r w { w with mesh := [] } v ∧ t.mem = v.mem ∧ t.marks = v.marks ∧
          (v.mesh = [] → t = v) ∧
          ∀ c d data, v.mesh = [⟨u.1, u.2, u.1, 1, .completion r.who r.id c d data⟩] → t.mesh = [] ∧ answered c d data t

/-- The oldest completion at a port ends the request with its tag, whichever block sent it; the last piece of an access answers it, at its requester or at the Floor port by which it went out; a
refusal by the epoch of a unit brings that epoch (R147, R333, R350, R354, R355). -/
def Claim.RemoteCompletionsEndTheirRequests : Prop :=
  ∀ (p : PortId) (k : Pkt) (rest : List Pkt) (s : State), (s.port p).compq = k :: rest →
    (∀ o c, s.outOf k.tag.toNat = some o → Code.ofCode k.code.toNat = some c → (∀ q ∈ s.net.outs, q.access = o.access → q = o) → s.net.outs.Nodup →
      let d := if c = .ok then 0 else if c = .epochSkew ∧ k.epochValid = true then k.epoch.toNat else o.dst
      let data := if c = .ok then k.data else []
      Answers (.remoteCompletion p) s fun t => (t.port p).compq = rest ∧ t.net.outs = s.net.outs.filter (fun q => q.access != o.access) ∧
        (o.via = none → t.outbox = s.outbox ++ toRequester s o.who o.id c d data ∧ t.mesh = s.mesh) ∧
        (∀ v, o.via = some v → t.mesh = s.mesh ++ [⟨v.1, .floor, v.1, v.2, .completion o.who o.id c d data⟩] ∧ t.outbox = s.outbox) ∧
        OnlyParts [.regs, .mesh, .net, .outbox] s t) ∧
    (s.outOf k.tag.toNat = none ∨ Code.ofCode k.code.toNat = none → Answers (.remoteCompletion p) s fun t => (t.port p).compq = rest ∧ t.net.outs = s.net.outs ∧ t.outbox = s.outbox)

/-- A block is lost (R323, R325, R370): its bit, its requests ended, its barriers broken, its watches gone and the waits on its flags ended, an event and a log entry, once. -/
def BlockGone (b : Nat) (inst : Nat) (s t : State) : Prop :=
  let awaited (q : Fin 64) : Prop := (s.barGet F.AV_BAR_CFG.has_parent q = 1 ∧ s.barGet F.AV_BAR_CFG.parent q = b) ∨ b ∈ (s.bar q).children
  t.isLost b = true ∧ b ∉ t.net.suspects ∧
    (s.isLost b = true → t = { s with net := { s.net with suspects := s.net.suspects.filter fun q => q != b } }) ∧
    (s.isLost b = false → .blockLost b ∈ t.outbox ∧ (∀ o ∈ t.net.outs, o.dst = b → o.reply.isSome = true) ∧ t.watches = s.watches.filter (fun w => w.block != b) ∧
      (∀ q, awaited q → t.barGet F.AV_BAR_CFG.broken q = 1) ∧
      (∀ e x, (s.eng e).syncFront = some x → s.waitsHome b x = true → (s.eng e).orphans = [] → ∃ d, t.eng e = syncEnds (s.eng e) x .linkDown d) ∧
      s.elog.queue <+: t.elog.queue ∧ (reportOf s 0x0502 0x20 inst 2 .linkDown b ∈ t.elog.queue ∨ 256 ≤ t.elog.queue.length))

/-- A lost partner is probed by the route that remains, and is lost where there is none, where no answer comes in 20 µs, or where another block says so; a probe is answered, an answer
clears the suspicion (R369, R370). -/
def Claim.LostPartnersAreProbedAndLost : Prop :=
  ∀ (b : BlockId) (p : PortId) (s : State),
    (s.portActive p = true → Answers (.mgtProbe p true b) s fun t => SendsOnly [] [] s t ∧
      ∀ q k', s.route none (s.newPkt 8 b.toNat 0 0 (2 + s.myId % 4096 * 16) []) = .out q k' → sendsNow s q k' → FlitSent q s t 0 (pktBytes k')) ∧
    (b.toNat ∈ s.net.suspects → p.val < 6 → s.get F.PL_STATUS.partner p.val = b.toNat →
      (∀ q k', s.route none (s.newPkt 8 b.toNat 0 0 (1 + b.toNat % 4096 * 16) []) = .out q k' → Answers (.mgtProbe p false b) s fun t => b.toNat ∈ t.net.suspects ∧
        SendsOnly [] [] s t ∧ (sendsNow s q k' → FlitSent q s t 0 (pktBytes k'))) ∧
      ((∀ q k', s.route none (s.newPkt 8 b.toNat 0 0 (1 + b.toNat % 4096 * 16) []) ≠ .out q k') → Answers (.mgtProbe p false b) s (BlockGone b.toNat 0 s))) ∧
    (exec (.probeAnswer b) s = .next { s with net := { s.net with suspects := s.net.suspects.filter fun q => q != b.toNat } }) ∧
    (b.toNat ∈ s.net.suspects → Answers (.probeTimeout b) s (BlockGone b.toNat 0 s)) ∧
    ∀ port : Option PortId, Answers (.blockLost b port) s (BlockGone b.toNat (match port with | some q => q.val | none => 0) s)

/-- The time of the block is kept against its parent (R373, R470, R471, R537): a request and a reply carry their stamps; the first reply and an offset above 1 µs step block time by the
offset, a smaller one moves the rate term; a request or a reply in a replayed flit is ignored. -/
def Claim.BlockTimeFollowsItsParent : Prop :=
  ∀ (p : PortId) (t1 t2 t3 t4 : Word) (s : State),
    (s.timeParent = some p → s.portActive p = true → Answers (.timeExchange t1) s fun t => t.net.t1 = some t1.toNat ∧ SendsOnly [] [] s t ∧
      let k := s.newPkt 6 ((s.expectedId p).getD 0) 0 0 0 (timeData t1.toNat 0 0)
      (sendsNow s p k → FlitSent p s t 0 (pktBytes k))) ∧
    (s.portActive p = true → exec (.timeRequest p t1 t2 true) s = .next s ∧ Answers (.timeRequest p t1 t2 false) s fun t => SendsOnly [] [] s t ∧
      let k := s.newPkt 6 ((s.expectedId p).getD 0) 0 0 1 (timeData t1.toNat t2.toNat s.btime)
      (sendsNow s p k → FlitSent p s t 0 (pktBytes k))) ∧
    ∀ out, s.timeParent = some p → s.net.t1 = some out →
      let e := timeOffset out t2.toNat t3.toNat t4.toNat (s.port p).asym
      exec (.timeReply t2 t3 t4 true) s = .next s ∧
      (s.net.timed = false ∨ 32000 < e.natAbs → Answers (.timeReply t2 t3 t4 false) s fun t =>
        t.clock = { s.clock with acc := ofSigned 104 ((s.clock.acc : Int) + e * 2 ^ 35), integral := 0 } ∧ t.reg R.CLK_BTIME_STEP = ofSigned 64 (e.tdiv 32) ∧
          t.get F.CLK_STATUS.steps = min (s.get F.CLK_STATUS.steps + 1) (2 ^ F.CLK_STATUS.steps.w - 1) ∧ t.get F.CLK_BTIME_ADJ.adj = 0 ∧ t.net.timed = true ∧ t.net.t1 = none) ∧
      (s.net.timed = true → e.natAbs ≤ 32000 → Answers (.timeReply t2 t3 t4 false) s fun t =>
        let f := s.clock.integral + (e * 2 ^ 35).tdiv 640000
        let adj := max (-219902326) (min 219902326 (f + (e * 2 ^ 35).tdiv 40000))
        t.clock = { s.clock with integral := f } ∧ t.get F.CLK_BTIME_ADJ.adj = ofSigned 32 adj ∧ t.net.t1 = none ∧
          (e.natAbs ≤ 65535 → t.get F.PL_TIME.err = ofSigned 16 (e.tdiv 2)) ∧
          t.net.goodRuns = (if e.natAbs < 32 then min 16 (s.net.goodRuns + 1) else 0) ∧ (t.get F.PL_TIME.locked = 1 ↔ e.natAbs < 32 ∧ 15 ≤ s.net.goodRuns) ∧
          OnlyKeys [R.PL_TIME.key 0 0, R.CLK_BTIME_ADJ.key 0 0] s t ∧ OnlyParts [.regs, .clock, .net] s t)

/-! ## The Frontage ports -/

/-- A packet went to the entry at head (R382): its data stands in the entry's area, its length, slot, port and class in the entry's first word, nothing else of memory differs, and head has moved. -/
def InRing (p : FrId) (cls slot : Nat) (data : List Byte) (u t : State) : Prop :=
  let head := u.get F.FR_RXPTR.head p.val
  let a := spSram + ringAt (u.get F.FR_RXRING.base p.val) (u.get F.FR_RXRING.size p.val) head
  let area := spSram + pktBuf + leNat (u.bytes (a + 8) 3)
  t.bytes a 8 = leBytes 8 (data.length % 2 ^ 14 + slot * 2 ^ 14 + p.val * 2 ^ 20 + cls * 2 ^ 21) ∧
    (∀ i b, data[i]? = some b → (area + i < a ∨ a + 8 ≤ area + i) → t.byte (area + i) = b) ∧
    (∀ k, k < a ∨ a + 8 ≤ k → k < area ∨ area + data.length ≤ k → t.byte k = u.byte k) ∧
    t.get F.FR_RXPTR.head p.val = (head + 1) % 2 ^ 17 ∧ t.get F.FR_COUNT.rx_dgrams p.val = min (u.get F.FR_COUNT.rx_dgrams p.val + 1) (2 ^ 32 - 1)

/-- A record that was sealed under keys opens under them, with its number where that lies within 2^15 of the expected one; and a flit's area opens under its key (R343, R357, R379, R381, R382). -/
def Claim.SealedRecordsAndFlitsOpen : Prop :=
  (∀ (k : RecordKeys) (epoch num expected : Nat) (cid plain : List Byte), k.key.length = 32 → k.iv.length = 12 → k.sn.length = 32 → cid.length = 8 → plain.length < 65000 →
    num < expected + 2 ^ 15 → expected < num + 2 ^ 15 →
      let b := sealRecord k epoch cid num plain
      recordCid b = some cid ∧ b.length = plain.length + 30 ∧ openRecord k epoch expected b = some (num, plain)) ∧
  ∀ (k : LinkKey) (h : FlitHdr) (area : List Byte), k.key.length = 32 → k.salt.length = 4 → area.length = 288 →
    (flitBytes k h area).length = 320 ∧ FlitHdr.of (flitBytes k h area) = h ∧ openFlit k (flitBytes k h area) = some area

/-- A frame that comes in is dropped and counted as bad, filtered or not authentic, or goes to the receive ring where hardware owns an entry; a record's slot takes its number and the ring its
plaintext (R378-R382). An entry leaves by the port that it names when the buckets of that port allow it, raw or as a record of its slot, in a frame with the port's MAC, address, VLAN tag, hop limit 64
and checksum; cap_hit shows that they do not (R378, R380, R382, R383, R402). A port that is disabled, as those of a held block are, has no link and empty rings (R404, R477). -/
def Claim.FramesGoThroughTheRings : Prop :=
  ∀ (p : FrId) (s : State),
    (s.on F.FR_CTL.enable p.val = true → ∀ f : Frame,
      let fec : List Holds := [⟨F.FR_FEC.corrected, p.val, 0, min (s.get F.FR_FEC.corrected p.val + f.corrected) (2 ^ 32 - 1)⟩,
        ⟨F.FR_FEC.uncorrectable, p.val, 0, min (s.get F.FR_FEC.uncorrectable p.val + f.uncorrected) (2 ^ 32 - 1)⟩]
      let dropped (g : Field) : Prop := Answers (.frameReceive p f) s (OnlyFields (⟨g, p.val, 0, min (s.get g p.val + 1) 65535⟩ :: fec) s)
      let full : Prop := Answers (.frameReceive p f) s (OnlyFields (⟨F.FR_DROP.ring_full, p.val, 0, min (s.get F.FR_DROP.ring_full p.val + 1) 65535⟩ :: ⟨F.FR_STATUS.rx_full, p.val, 0, 1⟩ :: fec) s)
      let keys := [R.FR_FEC.key p.val 0, R.FR_RXPTR.key p.val 0, R.FR_COUNT.key p.val 0]
      (f.size < 64 ∨ 9222 < f.size ∨ f.fcsOk = false ∨ f.pause = true → s.classify p f = .frame) ∧
      (s.classify p f = .frame → dropped F.FR_DROP.frame) ∧ (s.classify p f = .filter → dropped F.FR_DROP.filter) ∧ (s.classify p f = .auth → dropped F.FR_DROP.auth) ∧
      (∀ c, s.classify p f = .raw c → (s.rxRoom p = false → full) ∧ (s.rxRoom p = true → Answers (.frameReceive p f) s fun t =>
        InRing p c 0 (rawPrefix f c ++ f.payload) s t ∧ OnlyKeys keys s t ∧ OnlyParts [.regs, .mem] s t)) ∧
      ∀ i n plain, s.classify p f = .record i n plain →
        (∃ c, recordCid f.payload = some c ∧ s.slotOf (leNat c) = some i ∧ openRecord (s.rxKeys i) (s.slotNat i 2 2) (s.slotNat i 0x30 8 + 1) f.payload = some (n, plain) ∧ s.recordNew i n = true) ∧
        (s.rxRoom p = false → full) ∧ (s.rxRoom p = true → Answers (.frameReceive p f) s fun t =>
          ∃ u : State, u.slotNat i 1 1 = p.val ∧ u.slotNat i 0x30 8 = max n (s.slotNat i 0x30 8) % 2 ^ 64 ∧ nbit (u.slotNat i 0x38 8) (u.slotNat i 0x30 8 - n) = true ∧ u.regs = s.regs ∧
            (∀ k, k < spSram + slotAt i 0 ∨ spSram + slotAt i 0x40 ≤ k → u.byte k = s.byte k) ∧ InRing p 0 i plain u t ∧ OnlyKeys keys s t ∧ OnlyParts [.regs, .mem] s t)) ∧
    (s.on F.FR_CTL.enable p.val = true → owned (s.get F.FR_TXPTR.head p.val) (s.get F.FR_TXPTR.tail p.val) ≠ 0 →
      let head := s.get F.FR_TXPTR.head p.val
      let a := ringAt (s.get F.FR_TXRING.base p.val) (s.get F.FR_TXRING.size p.val) head
      let w := leNat (s.readSram a 8)
      let len := w % 2 ^ 14
      let slot := w / 2 ^ 14 % 64
      let raw := nbit w 21
      ∀ q : FrId, q.val = w / 2 ^ 20 % 2 → s.on F.FR_CTL.enable q.val = true →
        let b := s.refilled q
        let n := 4 * wireBytes raw len
        let fits := if raw then n ≤ b.rawBytes ∧ 100000 ≤ b.rawDgrams else n ≤ b.bytes ∧ 100000 ≤ b.dgrams
        let data := s.readSram (pktBuf + leNat (s.readSram (a + 8) 3)) len
        let src := leBytes 16 (s.frIp q)
        let sent (ip mac : List Byte) (port : Nat) (payload : List Byte) : Output :=
          .frame q (frameBytes mac (leBytes 6 (s.get F.FR_MAC.mac q.val)) (if s.on F.FR_CTL.vlan_en q.val then some (s.get F.FR_CTL.vid q.val) else none)
            (if port = 0 then ipBytes src ip 58 (icmpBytes src ip payload) else ipBytes src ip 17 (udpBytes src ip (s.get F.FR_UDP.port q.val) port payload)))
        let num := s.slotNat slot 0x28 8
        (¬ fits → Answers (.txEntrySend p) s (OnlyFields [⟨F.FR_STATUS.cap_hit, q.val, 0, 1⟩] s)) ∧
        (fits → Answers (.txEntrySend p) s fun t =>
          (raw = true → t.mem = s.mem ∧ t.outbox = s.outbox ++ [sent (data.take 16) ((data.drop 16).take 6) (leNat ((data.drop 22).take 2)) (data.drop 24)]) ∧
            (raw = false → t.slotNat slot 0x28 8 = (num + 1) % 2 ^ 64 ∧ (∀ k, k < spSram + slotAt slot 0x28 ∨ spSram + slotAt slot 0x30 ≤ k → t.byte k = s.byte k) ∧
              t.outbox = s.outbox ++ [sent (s.readSram (slotAt slot 0x10) 16) (s.readSram (slotAt slot 0x20) 6) (s.slotNat slot 0x26 2)
                (sealRecord (s.txKeys slot) (s.slotNat slot 0xBC 2) (s.readSram (slotAt slot 8) 8) num data)]) ∧
            t.front = { s.front with buckets := vset s.front.buckets q (if raw then { b with rawBytes := b.rawBytes - n, rawDgrams := b.rawDgrams - 100000 } else { b with bytes := b.bytes - n, dgrams := b.dgrams - 100000 }) } ∧
            FieldsBecome [⟨F.FR_TXPTR.head, p.val, 0, (head + 1) % 2 ^ 17⟩, ⟨F.FR_COUNT.tx_dgrams, q.val, 0, min (s.get F.FR_COUNT.tx_dgrams q.val + 1) (2 ^ 32 - 1)⟩] s t ∧
            OnlyParts [.regs, .mem, .front, .outbox] s t)) ∧
    (s.on F.AON_STATUS.held = false → Answers (.frEnable p true) s (OnlyFields [⟨F.FR_CTL.enable, p.val, 0, 1⟩] s)) ∧
    (∀ on, on = false ∨ s.on F.AON_STATUS.held = true → Answers (.frEnable p on) s fun t => t.get F.FR_CTL.enable p.val = 0 ∧ t.get F.FR_STATUS.link p.val = 0 ∧ t.get F.FR_STATUS.pcs_lock p.val = 0 ∧
      t.reg R.FR_RXPTR p.val = 0 ∧ t.reg R.FR_TXPTR p.val = 0 ∧
      OnlyKeys [R.FR_CTL.key p.val 0, R.FR_STATUS.key p.val 0, R.FR_RXPTR.key p.val 0, R.FR_TXPTR.key p.val 0] s t ∧ OnlyParts [.regs] s t) ∧
    ∀ up, s.on F.FR_CTL.enable p.val = true → Answers (.frontageLinkChange p up) s (OnlyFields [⟨F.FR_STATUS.pcs_lock, p.val, 0, b2n up⟩, ⟨F.FR_STATUS.link, p.val, 0, b2n up⟩] s)

/-! ## Sessions and the service protocol -/

/-- A session ended (R392, R394): its slot is free and invalid, and no open operation is bound to it. -/
def SessionEnded (i : SlotId) (t : State) : Prop :=
  t.sess i = Session.none ∧ t.slotNat i.val 0 1 = 0 ∧ ∀ o ∈ t.front.ops, o.slot = some i → o.phase = .done

/-- What left the block since a state: a message of a session among it, with the seq last received as its ack. -/
def Said (i : SlotId) (s t : State) (P : FspMsg → Prop) : Prop :=
  ∃ l r, t.outbox = s.outbox ++ l ∧ Output.fsp i r ∈ l ∧ r.version = 1 ∧ r.length.toNat = r.body.length % 2 ^ 32 ∧ P r

/-- A request was answered with STATUS: its code, its reason, the state of an operation and the seq of the request (R390). -/
def Answered (i : SlotId) (m : FspMsg) (code reason state op : Nat) (s t : State) : Prop :=
  Said i s t fun r => r.mtype = 3 ∧ r.ack = m.seq ∧ r.op = BitVec.ofNat 64 op ∧ r.body.take 3 = leBytes 1 code ++ leBytes 1 reason ++ leBytes 1 state ∧
    sliceOf r.body 16 8 = leBytes 8 m.seq.toNat

/-- A STATUS brought the capability record of the block (R391). -/
def Recorded (i : SlotId) (s t : State) : Prop := Said i s t fun r => r.mtype = 3 ∧ r.body.drop 64 = s.capability

/-- The slot of a session was changed, and is valid (R381): outside its fields from `lo` to `hi` and its valid byte nothing differs, but for those from `lo'` to `hi'`. -/
def SlotChanged (i : SlotId) (lo hi lo' hi' : Nat) (s t : State) : Prop :=
  let a := spSram + slotAt i.val 0
  t.slotNat i.val 0 1 = 1 ∧ ∀ k, k ≠ a → k < a + lo ∨ a + hi ≤ k → k < a + lo' ∨ a + hi' ≤ k → t.byte k = s.byte k

/-- A session begins with a ClientHello that offers the profile and returns its cookie, in the lowest free slot, and the block authenticates; a client whose chain and signature verify makes it
ESTABLISHED, with its address and its keys in the slot, and any other ends it; alerts, lost keepalives and an eighth resend end it; keys change after 2^24 records
(R380, R381, R384-R386, R389, R392). -/
def Claim.SessionsBeginAndEnd : Prop :=
  ∀ (i : SlotId) (s : State),
    let x := s.sess i
    (s.boot.firmware = true → ∀ (o : Offer) (cid : Word) (digest : List Byte),
      let good := 0x1302 ∈ o.suites ∧ 0x0018 ∈ o.groups ∧ 0x0503 ∈ o.schemes ∧ o.connId = true ∧ o.early = false ∧ o.psk = false ∧ o.postAuth = false
      let cookie := Config.cookie o.ip o.port
      let hello : Instr := .clientHello o cid digest
      (¬ good → exec hello s = .next (s.emit (.alert false))) ∧
      (good → o.cookie ≠ some cookie → exec hello s = .next (s.emit (.helloRetry cookie))) ∧
      (good → o.cookie = some cookie → (∀ j, (s.sess j).phase ≠ .free) → exec hello s = .next (s.emit (.alert true))) ∧
      (good → o.cookie = some cookie → x.phase = .free → (∀ j, j < i → (s.sess j).phase ≠ .free) → (∀ j, (s.sess j).phase = .free ∨ (s.sess j).cid ≠ cid.toNat) → Answers hello s fun t =>
        t.sess i = { Session.none with phase := .handshake, cid := cid.toNat, ip := o.ip.toNat, mac := o.mac.toNat, port := o.port.toNat } ∧ (∀ j, j ≠ i → t.sess j = s.sess j) ∧
          t.outbox = s.outbox ++ [.serverAuth i (s.sec.cert ++ s.identityCert) (s.signature digest)] ∧ t.sec = { s.sec with signed := s.sec.signed + 1 } ∧ OnlyParts [.front, .outbox, .sec] s t)) ∧
    (s.boot.firmware = true → x.phase = .handshake → ∀ (chain : List (List Byte)) (digest sig rx tx : List Byte),
      let key := Config.certKey (chain.headD [])
      let ok := s.clientChainOk chain = true ∧ ecdsaOk key digest sig = true
      (¬ ok → Answers (.dtlsHandshakeDone i chain digest sig rx tx) s fun t => SessionEnded i t ∧ .alert false ∈ t.outbox) ∧
      (ok → Answers (.dtlsHandshakeDone i chain digest sig rx tx) s fun t => t.sess i = { x with phase := .established, key := key, rxSecret := rx, txSecret := tx } ∧
        t.slotNat i.val 8 8 = x.cid % 2 ^ 64 ∧ t.slotNat i.val 0x10 16 = x.ip % 2 ^ 128 ∧ t.slotNat i.val 0x20 6 = x.mac % 2 ^ 48 ∧ t.slotNat i.val 0x26 2 = x.port % 2 ^ 16 ∧
        t.slotNat i.val 2 2 = 3 ∧ t.slotNat i.val 0xBC 2 = 3 ∧ t.slotNat i.val 0x28 8 = 0 ∧ t.slotNat i.val 0x30 8 = 0 ∧ t.slotNat i.val 0x38 8 = 0 ∧
        t.rxKeys i.val = recordKeys rx ∧ t.txKeys i.val = recordKeys tx ∧ SlotChanged i 2 0xE0 0 0 s t ∧ OnlyParts [.mem, .front] s t)) ∧
    (x.phase ≠ .free → Answers (.dtlsAlert i) s (SessionEnded i) ∧ Answers (.keepaliveExpiry i) s (SessionEnded i)) ∧
    (x.keyed = true → 2 ^ 24 ≤ max x.sent x.received → Answers (.keyUpdateSend i) s fun t =>
      t.slotNat i.val 0xBC 2 = (s.slotNat i.val 0xBC 2 + 1) % 2 ^ 16 ∧ t.slotNat i.val 0x28 8 = 0 ∧ t.txKeys i.val = recordKeys (nextSecret x.txSecret) ∧ t.outbox = s.outbox ++ [.keyUpdate i] ∧
        t.sess i = { x with sent := 0, received := if 2 ^ 24 ≤ x.received then 0 else x.received, txSecret := nextSecret x.txSecret } ∧ SlotChanged i 0x90 0xE0 0x28 0x30 s t ∧
        OnlyParts [.mem, .front, .outbox] s t) ∧
    (x.keyed = true → Answers (.keyUpdateReceive i) s fun t => t.slotNat i.val 2 2 = (s.slotNat i.val 2 2 + 1) % 2 ^ 16 ∧ t.slotNat i.val 0x30 8 = 0 ∧ t.slotNat i.val 0x38 8 = 0 ∧
      t.rxKeys i.val = recordKeys (nextSecret x.rxSecret) ∧ t.sess i = { x with received := 0, rxSecret := nextSecret x.rxSecret } ∧ SlotChanged i 0x30 0x90 2 4 s t ∧ OnlyParts [.mem, .front] s t) ∧
    (x.keyed = true → Answers (.keepaliveAck i) s fun t => t.outbox = s.outbox ++ [.fsp i (x.msg 9 0 0 [])] ∧ t.sess i = { x with sent := x.sent + 1 } ∧ OnlyParts [.front, .outbox] s t) ∧
    (x.unacked ≠ [] →
      ((∀ q ∈ x.unacked, q.2 < 7) → Answers (.fspRetransmit i) s fun t => t.outbox = s.outbox ++ x.unacked.map (fun q => .fsp i q.1) ∧
        t.sess i = { x with unacked := x.unacked.map fun q => (q.1, q.2 + 1), rto := min 64000 (2 * x.rto), sent := x.sent + x.unacked.length } ∧ OnlyParts [.front, .outbox] s t) ∧
      ((∃ q ∈ x.unacked, 7 ≤ q.2) → Answers (.fspRetransmit i) s fun t => SessionEnded i t ∧ (s.outbox ++ x.unacked.map (fun q => .fsp i q.1)) <+: t.outbox))

/-- The row of a message by its type (R388). -/
def FspRow (i : SlotId) (m : FspMsg) (c : Instr) : Prop :=
  (reservedMsg m = true ∧ c = .fspReservedType i m) ∨
    (reservedMsg m = false ∧ (m.mtype.toNat, c) ∈ [(1, Instr.fspOpen i m), (2, .fspSubmit i m), (3, .fspStatus i m), (4, .fspSuspend i m), (5, .fspResume i m), (6, .fspCancel i m), (8, .fspClose i m), (9, .fspAck i m)])

/-- The form of a message is good (R387). -/
def fspForm (m : FspMsg) : Prop := m.version = 1 ∧ m.length.toNat = m.body.length ∧ m.body.length ≤ 9056

/-- A message of a bad form is counted and does nothing; its ack takes messages off the window; one acted on before is acknowledged again, one beyond a gap is dropped (R387, R389). -/
def Claim.MessagesAreTakenInOrder : Prop :=
  ∀ (i : SlotId) (m : FspMsg) (c : Instr) (s : State), (s.sess i).keyed = true → FspRow i m c →
    let x := s.sess i
    let y := { x with received := x.received + 1 }
    (¬ fspForm m → Answers c s fun t => t.front = { s.front with sessions := vset s.front.sessions i y, discarded := s.front.discarded + 1 } ∧ OnlyParts [.front] s t) ∧
    (fspForm m → x.waiting = [] → m.mtype = 9 ∨ m.seq = 0 →
      let left := x.unacked.filter fun q => decide (m.ack.toNat < q.1.seq.toNat)
      Answers c s fun t => t.front = { s.front with sessions := vset s.front.sessions i (if left.length < x.unacked.length then { y with unacked := left, rto := x.rtoOpen } else y) } ∧ OnlyParts [.front] s t) ∧
    (fspForm m → x.unacked = [] → m.mtype ≠ 9 → m.seq ≠ 0 → m.seq.toNat ≤ x.rxSeq → Answers c s fun t => t.outbox = s.outbox ++ [.fsp i (x.msg 9 0 0 [])] ∧ OnlyParts [.front, .outbox] s t ∧
      t.sess i = { y with sent := x.sent + 1 }) ∧
    (fspForm m → x.unacked = [] → m.mtype ≠ 9 → x.rxSeq + 1 < m.seq.toNat → Answers c s fun t => t.front = { s.front with sessions := vset s.front.sessions i y } ∧ OnlyParts [.front] s t)

/-- The next message of a session with an empty window, of a type and in form. -/
def NextMsg (i : SlotId) (m : FspMsg) (type : Nat) (s : State) : Prop :=
  (s.sess i).keyed = true ∧ fspForm m ∧ (s.sess i).unacked = [] ∧ m.mtype.toNat = type ∧ m.reserved = 0 ∧ m.seq.toNat = (s.sess i).rxSeq + 1

/-- Requests are answered (R388, R390-R393, R395, R396, R399): a reserved type and a bad field are refused; OPEN makes an owner, who takes over from one with the same key, or an observer; STATUS answers, and brings the capability record where it answers an OPEN
or op 0; CLOSE ends the session, which denies it before an OPEN; SUBMIT by the owner queues an operation where the engines are in service; SUSPEND, RESUME and CANCEL act on an operation held, and a cancel stops page loads that are under way. -/
def Obligations.RequestsAreAnswered : Prop :=
  ∀ (i : SlotId) (m : FspMsg) (s : State),
    let x := s.sess i
    let b := m.body
    let id := m.op.toNat
    let refused (c : Instr) (reason op state : Nat) : Prop := Answers c s fun t => Answered i m 5 reason state op s t ∧ t.front.ops = s.front.ops ∧ (t.sess i).phase = x.phase
    let denied (reason : Nat) : Prop := refused (.fspOpen i m) reason 0 0 ∧ Answers (.fspOpen i m) s (Recorded i s)
    (reservedMsg m = true → x.keyed = true → fspForm m → x.unacked = [] → m.mtype ≠ 9 → m.seq.toNat = x.rxSeq + 1 → refused (.fspReservedType i m) 1 0 0) ∧
    (NextMsg i m 1 s →
      (x.phase = .observer → denied 2) ∧ (x.phase ≠ .observer → openFields b = none → denied 7) ∧
      ∀ role ka rto, x.phase ≠ .observer → openFields b = some (role, ka, rto) →
        let opens (phase : SessPhase) : Prop := Answers (.fspOpen i m) s fun t => Answered i m 0 0 0 0 s t ∧ (t.sess i).phase = phase ∧ (t.sess i).keepalive = ka ∧ (t.sess i).rto = rto ∧ (t.sess i).rtoOpen = rto
        (role = 2 → opens .observer ∧ Answers (.fspOpen i m) s (Recorded i s)) ∧ (role = 1 → s.owner = none ∨ s.owner = some i → opens .owner ∧ Answers (.fspOpen i m) s (Recorded i s)) ∧
        ∀ j, role = 1 → s.owner = some j → j ≠ i → ((s.sess j).key ≠ x.key → denied 2) ∧
          ((s.sess j).key = x.key → opens .owner ∧ Answers (.fspOpen i m) s fun t => t.sess j = Session.none ∧ t.front.ops.map Operation.id = s.front.ops.map Operation.id)) ∧
    (NextMsg i m 3 s →
      (x.phase = .established → refused (.fspStatus i m) 4 0 0) ∧ (m.op = 0 → Answers (.fspStatus i m) s (Recorded i s)) ∧ (x.phase ≠ .established → m.op = 0 → Answers (.fspStatus i m) s fun t => Answered i m 0 0 0 0 s t ∧ t.front.ops = s.front.ops) ∧
      (x.phase ≠ .established → m.op ≠ 0 → ∀ o, s.opOf id = some o → Answers (.fspStatus i m) s fun t => Answered i m 0 0 o.phase.code id s t ∧ t.front.ops = s.front.ops) ∧
      (x.phase ≠ .established → m.op ≠ 0 → s.opOf id = none → Answers (.fspStatus i m) s fun t => Answered i m 6 5 0 id s t ∧ t.front.ops = s.front.ops)) ∧
    (NextMsg i m 8 s → Answers (.fspClose i m) s fun t => SessionEnded i t ∧ (if x.phase = .established then Answered i m 5 4 0 0 s t else Answered i m 0 0 0 0 s t)) ∧
    (NextMsg i m 2 s →
      (x.phase = .observer → refused (.fspSubmit i m) 2 0 0) ∧ (x.phase = .established → refused (.fspSubmit i m) 4 0 0) ∧
      (x.phase = .owner →
        (m.op ≠ 0 → refused (.fspSubmit i m) 1 0 0) ∧ (m.op = 0 → s.credits = 0 → refused (.fspSubmit i m) 3 0 0) ∧
        (m.op = 0 → s.credits ≠ 0 → submitOk b = false ∨ maskEngines (subNat b 0 16) = [] → refused (.fspSubmit i m) 7 0 0) ∧
        (m.op = 0 → s.credits ≠ 0 → submitOk b = true → maskEngines (subNat b 0 16) ≠ [] →
          ((∃ e ∈ maskEngines (subNat b 0 16), s.outOfService e = true) → refused (.fspSubmit i m) 6 0 0) ∧
          ((∀ e ∈ maskEngines (subNat b 0 16), s.outOfService e = false) → s.opOf s.front.nextOp = none → s.front.nextOp ≠ 0 → Answers (.fspSubmit i m) s fun t =>
            Answered i m 0 0 1 s.front.nextOp s t ∧ t.front.ops = s.front.ops ++ [submitted s.front.nextOp i b] ∧ t.front.nextOp = s.front.nextOp + 1)))) ∧
    ∀ o, x.phase = .owner → id ≠ 0 → s.opOf id = some o →
      let becomes (c : Instr) (o' : Operation) : Prop := Answers c s fun t => Answered i m 0 0 o'.phase.code id s t ∧ t.opOf id = some o' ∧ ∀ n, n ≠ id → t.opOf n = s.opOf n
      (NextMsg i m 4 s →
        (o.phase = .queued → becomes (.fspSuspend i m) { o with phase := .suspended }) ∧ (o.phase = .loading → becomes (.fspSuspend i m) { o with suspendAsked := true }) ∧
        (o.phase = .suspending ∨ o.phase = .suspended → becomes (.fspSuspend i m) o) ∧ (o.phase = .cancelling ∨ o.phase = .done → refused (.fspSuspend i m) 4 id o.phase.code) ∧
        (∀ e, o.phase = .running → o.engines = [e] → s.engState e = 1 → (s.eng e).bound = none → s.outOfService e = false → Answers (.fspSuspend i m) s fun t =>
          Answered i m 0 0 4 id s t ∧ t.opOf id = some { o with phase := .suspending } ∧ t.engState e = 2)) ∧
      (NextMsg i m 5 s →
        (o.phase ≠ .suspended → refused (.fspResume i m) 4 id o.phase.code) ∧ (o.phase = .suspended → o.started = false → becomes (.fspResume i m) { o with phase := .queued }) ∧
        (∀ e, o.phase = .suspended → o.started = true → o.engines = [e] → s.engState e = 3 → (s.eng e).bound = none → s.outOfService e = false → Answers (.fspResume i m) s fun t =>
          Answered i m 0 0 3 id s t ∧ t.opOf id = some { o with phase := .running } ∧ t.engState e = 1)) ∧
      (NextMsg i m 6 s →
        (o.phase = .done → refused (.fspCancel i m) 4 id 7) ∧ (o.phase = .cancelling → becomes (.fspCancel i m) o) ∧
        (o.phase = .queued ∨ o.phase = .loading → Answers (.fspCancel i m) s fun t => Answered i m 0 0 7 id s t ∧ (∀ u, t.opOf id = some u → u.phase = .done) ∧
          (o.phase = .loading → ∀ e ∈ o.engines, s.outOfService e = false → (s.eng e).pgLoad.isSome = true → t.get F.ENG_PGCMD.busy e.val = 0 ∧ (t.eng e).pgLoad = none)) ∧
        (∀ e, o.phase = .running → o.started = true → o.engines = [e] → s.engState e = 1 → (s.eng e).bound = none → s.outOfService e = false → Answers (.fspCancel i m) s fun t =>
          Answered i m 0 0 6 id s t ∧ t.opOf id = some { o with phase := .cancelling, code := some .cancelled } ∧ t.engState e = 4))

/-- The result of an operation goes to the owner, or is held for the next one (R398): its code, its times, its tag, and the data. -/
def ResultOf (o : Operation) (code : Nat) (s t : State) : Prop :=
  match s.owner with
  | some i => (s.sess i).unacked = [] → Said i s t fun r => r.mtype = 7 ∧ r.op = BitVec.ofNat 64 o.id ∧ r.body.take 1 = leBytes 1 code ∧ sliceOf r.body 8 8 = leBytes 8 o.tStart ∧ sliceOf r.body 24 8 = leBytes 8 o.tag
  | none => ∃ body, body.take 1 = leBytes 1 code ∧ sliceOf body 8 8 = leBytes 8 o.tStart ∧ sliceOf body 24 8 = leBytes 8 o.tag ∧
      (s.front.held.length < 64 → t.front.held = s.front.held ++ [(o.id, body)]) ∧ (64 ≤ s.front.held.length → t.front.held = s.front.held.tail ++ [(o.id, body)] ∧ t.front.dropped = s.front.dropped + 1)

/-- The first operation whose engines no earlier one holds starts to load its pages; when they are there its engines start with their arguments; a load that failed, a fault and the halt of all its engines end
it with its result (R396-R398, R416; the statements on engines for operations of one engine). -/
def Obligations.OperationsRunOnTheirEngines : Prop :=
  ∀ (op : Word) (o : Operation) (s : State), s.boot.firmware = true → s.opOf op.toNat = some o →
    let id := op.toNat
    (s.opReady o = true → (∀ q ∈ s.openOps, q.id < o.id → s.opReady q = false) →
      (Answers (.operationStart op) s fun t => ∃ c, t.opOf id = some { o with phase := .loading, code := c } ∧ (o.inline = [] → c = none)) ∧
      ∀ e, o.engines = [e] → s.outOfService e = false → s.on F.ENG_PGCMD.busy e.val = false → s.engState e ≠ 1 → s.engState e ≠ 2 → s.engState e ≠ 4 → 1 ≤ o.count → o.page + o.count ≤ 16 → o.page < 16 →
        Answers (.operationStart op) s fun t => t.get F.ENG_PGCMD.busy e.val = 1 ∧ (t.eng e).pgLoad = some (o.pgSrc % 2 ^ 64, o.page, o.count)) ∧
    (o.phase = .loading → (∀ e ∈ o.engines, s.outOfService e = true ∨ s.on F.ENG_PGCMD.busy e.val = false) → ∀ code,
      (s.loadCode o code ≠ .ok → o.faulted = [] → Answers (.operationLoaded op code) s fun t => (∀ u, t.opOf id = some u → u.phase = .done) ∧ ResultOf o (s.loadCode o code).toNat s t) ∧
      (s.loadCode o code = .ok → o.suspendAsked = false →
        (Answers (.operationLoaded op code) s fun t => t.opOf id = some { o with started := true, tStart := s.btime, phase := .running }) ∧
        ∀ e, o.engines = [e] → o.args.length = 4 → s.engState e = 0 → (s.eng e).bound = none → s.outOfService e = false → Answers (.operationLoaded op code) s fun t =>
          t.engState e = 1 ∧ t.get F.ENG_STATUS.pc e.val = o.entry % 2 ^ 14 ∧
            ∀ k a, o.args[k]? = some a → (sGet (t.eng e).s (k + 1)).toNat = (if k = 3 ∧ nbit o.flags 3 = true then e.val else a) % 2 ^ 64)) ∧
    ∀ (e : EngineId), o.phase = .running → o.started = true → o.engines = [e] → (∀ q ∈ s.openOps, e ∈ q.engines → q.started = true ∨ s.outOfService e = true → q = o) → o ∈ s.openOps →
      (s.engState e = 6 → s.outOfService e = false → o.faulted = [] → Answers (.operationEngineEvent e .halted) s fun t => (∀ u, t.opOf id = some u → u.phase = .done) ∧ ResultOf o ((o.code.map Code.toNat).getD 0) s t) ∧
      (s.engState e = 5 → s.outOfService e = false → o.faulted = [] → Answers (.operationEngineEvent e .faulted) s fun t => (∀ u, t.opOf id = some u → u.phase = .done) ∧
        ResultOf o (s.reg R.ENG_FAULT e.val % 16) s t) ∧
      (s.engState e = 3 → Answers (.operationEngineEvent e .suspended) s fun t => t.opOf id = some o)

/-! ## Power -/

/-- No other region differs, and the rest of the power controller is as it was. -/
def OnlyRegion (r : RegionId) (x : Region) (s t : State) : Prop := t.power = { s.power with regions := vset s.power.regions r x }

/-- A telemetry frame in form and in sequence is the last sample, and any other leaves it; the sixteenth good frame in a row after a retry ends a loss (R410, R411). An alert of the VPM is read out,
logged and cleared (R408), and the mailbox ends with its data, as its go asked for it, or TIMEOUT (R431). -/
def Claim.TelemetryAndTheMailbox : Prop :=
  ∀ s : State,
    (∀ f : BitVec 80, s.acceptsFrame f.toNat = false → Answers (.telemetryFrame f) s fun t => t.power = { s.power with retry := s.power.retry.map fun _ => 0 } ∧ OnlyParts [.power] s t) ∧
    (∀ f : BitVec 80, s.acceptsFrame f.toNat = true → Answers (.telemetryFrame f) s fun t =>
      let ends := ∃ n, s.power.retry = some n ∧ 15 ≤ n
      let faults := nbits f.toNat 64 62
      t.get F.PWR_TEL.frame = f.toNat / 2 ^ 8 % 2 ^ 62 ∧ t.power.lastSeq = some (f.toNat / 2 ^ 8 % 16) ∧
        (ends → t.get F.PWR_STATUS.tel_lost = 0 ∧ t.power.retry = none) ∧ (¬ ends → t.get F.PWR_STATUS.tel_lost = s.get F.PWR_STATUS.tel_lost ∧ t.power.retry = s.power.retry.map (· + 1)) ∧
        (faults = 0 ∨ s.power.faultLog = some s.ms → t.elog = s.elog) ∧
        (faults ≠ 0 → s.power.faultLog ≠ some s.ms → t.elog = logAfter s (eventOf s 0x0605 0x02 0 1 (faults * 2 ^ 18)) ∧ t.power.faultLog = some s.ms) ∧
        OnlyKeys [R.PWR_TEL.key 0 0, R.PWR_STATUS.key 0 0, R.ELOG_COUNTS.key 0 0] s t ∧ OnlyParts [.regs, .power, .elog] s t) ∧
    (s.on F.PWR_STATUS.tel_lost = false → Answers .telemetryLost s fun t => FieldsBecome [⟨F.PWR_STATUS.tel_lost, 0, 0, 1⟩, lostAfter s] s t ∧
      t.power = { s.power with retry := none } ∧ t.elog = logAfter s (eventOf s 0x0604 0x02 0 2 0) ∧ OnlyParts [.regs, .power, .elog] s t) ∧
    exec .telRetry s = .next (if s.on F.PWR_STATUS.tel_lost then { s with power := { s.power with retry := some 0 } } else s) ∧
    (∀ words : List (BitVec 16), words.length = 4 → Answers (.pmbAlert words) s fun t =>
      t.outbox = s.outbox ++ (List.range 4).map (fun p => .pmbus p pmbStatusWord true 0) ++ [.pmbus 3 pmbClearFaults false 0] ∧ t.get F.PWR_STATUS.pmb_alert = 1 ∧
        (s.elog.queue.length ≤ 252 → t.elog.queue = s.elog.queue ++ words.zipIdx.filterMap fun q => if q.1 = 0 then none else some (eventOf s 0x0605 0x02 0 1 (q.1.toNat + q.2 * 2 ^ 16))) ∧
        OnlyKeys [R.PWR_STATUS.key 0 0, R.ELOG_COUNTS.key 0 0] s t ∧ OnlyParts [.regs, .elog, .outbox] s t) ∧
    (s.on F.PWR_PMB.busy = true → ∀ data : BitVec 16,
      Answers (.pmbTransactionDone false data) s (OnlyFields [⟨F.PWR_PMB.busy, 0, 0, 0⟩, ⟨F.PWR_PMB.code, 0, 0, 8⟩] s) ∧
      Answers (.pmbTransactionDone true data) s (OnlyFields ([⟨F.PWR_PMB.busy, 0, 0, 0⟩, ⟨F.PWR_PMB.code, 0, 0, 0⟩] ++
        (if s.power.pmb.1 then [⟨F.PWR_PMB.data, 0, 0, if s.power.pmb.2 then data.toNat else data.toNat % 256⟩] else [])) s))

/-- A slice that fails is out of service and logged; a region's first failure degrades it, and steps an engine down; the second takes an engine out, lets a square write back and go dark, takes a column's
memory with both its engines' DRAM, and holds the block for the Floor, and the ceiling falls to what the slices left can carry (R268, R412, R413, R415-R418); a group sheds half its slices only while shedding is enabled (R414). -/
def Obligations.SlicesFailAndShed : Prop :=
  ∀ (s : State) (slice : Nat), slice < 16 →
    let note (inst group : Nat) (first : Bool) := eventOf s 0x0601 0x02 0 (if first then 1 else 3) (inst + group * 2 ^ 8 + slice * 2 ^ 16)
    (∀ r : RegionId, (r.val < 80 ∨ slice < 8) →
      let i := r.val + 1
      let failed := s.get F.PWR_RG_STATUS.failed i
      let now := putBits failed slice 1 1
      let out : List Holds := [⟨F.PWR_RG_STATUS.failed, i, 0, now⟩, ⟨F.PWR_RG_STATUS.in_service, i, 0, (if r.val < 80 then 16 else 8) - bitCount now⟩, lostAfter s]
      (failed = 0 → Answers (.sliceFail i 0 slice) s fun t =>
        FieldsBecome (out ++ [⟨F.PWR_RG_STATUS.degraded, i, 0, 1⟩] ++ if r.val < 80 then [⟨F.PWR_RG_STATUS.stepdown, i, 0, 1⟩] else []) s t ∧
          t.elog = logAfter s (note i 0 true) ∧ OnlyParts [.regs, .elog] s t ∧ t.groupCeiling r = if r.val < 80 then 450 else 210) ∧
      (nbit failed slice = false → bitCount failed = 1 → ∀ k : SquareId, r = regionOfSq k → Answers (.sliceFail i 0 slice) s fun t =>
        FieldsBecome out s t ∧ OnlyRegion r { s.region r with dying := true } s t ∧ t.elog = logAfter s (note i 0 false) ∧ OnlyParts [.regs, .power, .elog] s t) ∧
      (nbit failed slice = false → bitCount failed = 1 → ∀ e : EngineId, r = regionOf e → Answers (.sliceFail i 0 slice) s fun t =>
        (t.eng e).mappedOut = true ∧ (t.eng e).inReset = true ∧ (t.eng e).dramOut = (s.eng e).dramOut ∧ t.regState r = 3 ∧ t.get F.PWR_RG_STATUS.failed i = now ∧ OnlyEngines (· = e) s t ∧
          t.elog = logAfter s (note i 0 false)) ∧
      (nbit failed slice = false → 2 ≤ bitCount failed → Answers (.sliceFail i 0 slice) s fun t => FieldsBecome out s t ∧ t.elog = logAfter s (note i 0 false) ∧ OnlyParts [.regs, .elog] s t)) ∧
    (∀ k : SquareId,
      let f := F.PWR_VM_FAIL.col (k.val % 4)
      let failed := s.get f 121 (k.val / 4)
      (failed = 0 → Answers (.sliceFail 121 k.val slice) s fun t => FieldsBecome [⟨f, 121, k.val / 4, putBits failed slice 1 1⟩, lostAfter s] s t ∧ t.elog = logAfter s (note 121 k.val true) ∧ OnlyParts [.regs, .elog] s t ∧ t.ceilingOf 121 k.val = 300) ∧
      (nbit failed slice = false → bitCount failed = 1 → Answers (.sliceFail 121 k.val slice) s fun t => nbit (t.get F.PWR_VM_STATE.dark 121) k.val = true ∧ (t.sq k).lines = [] ∧ (t.sq k).fills = [] ∧
        (∀ e, columnOf e = k → (t.eng e).mappedOut = true ∧ (t.eng e).dramOut = true ∧ (t.eng e).inReset = true ∧ (∀ q ∈ t.landq, q.eng ≠ e) ∧ ∀ a, e.val * 2 ^ 32 ≤ a → a < (e.val + 1) * 2 ^ 32 → t.byte a = 0) ∧
        OnlyEngines (fun e => columnOf e = k) s t)) ∧
    (∀ g : Fin 4,
      let f := F.PWR_FL_FAIL.grp g.val
      let failed := s.get f 122
      (failed = 0 → Answers (.sliceFail 122 g.val slice) s fun t => FieldsBecome [⟨f, 122, 0, putBits failed slice 1 1⟩, lostAfter s] s t ∧ t.elog = logAfter s (note 122 g.val true) ∧ OnlyParts [.regs, .elog] s t ∧ t.ceilingOf 122 g.val = 450) ∧
      (nbit failed slice = false → bitCount failed = 1 → Answers (.sliceFail 122 g.val slice) s fun t => BlockReset 6 true s t ∧ t.boot.holdAon = true)) ∧
    (∀ k : SquareId, (s.region (regionOfSq k)).dying = true → (∀ p ∈ s.parked, p.at_ ≠ k) → Answers (.squareGoesDark k) s fun t => t.regState (regionOfSq k) = 3 ∧ (t.region (regionOfSq k)).dying = false ∧ (t.sq k).lines = [] ∧ (t.sq k).ways = [] ∧
      t.get F.SQ_STATUS.mapped_out k.val = 1 ∧ (∀ o, o < 2 ^ 26 → t.byte (spWin + k.val * 2 ^ 26 + o) = 0) ∧ (∀ a, a < spWin + k.val * 2 ^ 26 ∨ spWin + (k.val + 1) * 2 ^ 26 ≤ a → t.byte a = s.byte a) ∧
      (∀ q, q ≠ k → t.sq q = s.sq q)) ∧
    (∀ r : RegionId, let i := r.val + 1
      (s.on F.PWR_CTL.shed_en = true → (s.region r).shed = false → Answers (.sliceShed i 0) s fun t => OnlyRegion r { s.region r with shed := true } s t ∧ OnlyParts [.power] s t) ∧
      ((s.region r).shed = true → Answers (.sliceUnshed i 0) s fun t => OnlyRegion r { s.region r with shed := false } s t ∧ OnlyParts [.power] s t)) ∧
    ∀ k : SquareId, (s.on F.PWR_CTL.shed_en = true → vget s.power.vmShed k = false → Answers (.sliceShed 121 k.val) s fun t => t.power = { s.power with vmShed := vset s.power.vmShed k true } ∧ OnlyParts [.power] s t) ∧
      (vget s.power.vmShed k = true → Answers (.sliceUnshed 121 k.val) s fun t => t.power = { s.power with vmShed := vset s.power.vmShed k false } ∧ OnlyParts [.power] s t)

/-- The segment of a column draws less: the region that waits for it starts its inrush window of 2 µs where the segment is below 61.2 A, and waits on where it is not (R420). -/
def WaitGoesOn (r : RegionId) (s t : State) : Prop :=
  ∀ q, (columnRegions r).find? (fun p => (s.region p).phase == .waiting) = some q →
    (t.region q).phase = if t.segment q < 612 then .closing false (s.clock.ticks + 2000) else .waiting

/-- A region sleeps by request or after idleness, keeping what RETAIN keeps and nothing in OFF; it wakes in its turn, waits for its column's segment or 200 µs, has its inrush window of 2 µs while, after the
whole wait, the column's other engines skip, and is ON with its PLL locked and, out of OFF, its stores cleared; what was held for it is then served (R35, R418-R420, R466). Its control register takes
target, idle time and rearm, and its lowest voltage is held for reading (R419, R421). -/
def Obligations.RegionsSleepAndWake : Prop :=
  ∀ (r : RegionId) (s : State),
    let x := s.region r
    let i := r.val + 1
    (∀ auto, s.regState r = 0 → x.clearing = false → x.dying = false → s.maySleep r = true →
      let target := if auto then 1 else s.get F.PWR_RG_CTL.target i
      ((auto = true → r.val < 80 ∧ s.on F.PWR_RG_CTL.auto_sleep i = true) ∧ (auto = false → target = 1 ∨ target = 2) → Answers (.regionSleep r auto) s fun t =>
        t.regState r = target ∧ (target = 1 → t.mem = s.mem ∧ t.engines = s.engines ∧ t.squares = s.squares) ∧
          (target = 2 → (∀ e, regionOf e = r → (∀ a, spCore + e.val * 2 ^ 25 ≤ a → a < spCore + (e.val + 1) * 2 ^ 25 → t.byte a = 0) ∧ (t.eng e).imem = [] ∧ OnlyEngines (· = e) s t) ∧
            ∀ k, regionOfSq k = r → (t.sq k).lines = [] ∧ ∀ o, o < 2 ^ 26 → t.byte (spWin + k.val * 2 ^ 26 + o) = 0) ∧
          (r.val < 80 → s.on F.CLK_PLL.fail i = false → t.get F.CLK_PLL.state i = 0) ∧ WaitGoesOn r s t ∧
          (∀ q, q ≠ r → t.regState q = s.regState q) ∧ OnlyParts [.regs, .mem, .engines, .squares, .power] s t)) ∧
    (s.regState r = 1 ∨ s.regState r = 2 → x.phase = .none → s.pllBars r = false → Answers (.regionWake r) s fun t => Wakes r s t ∧ OnlyKeys [R.PWR_RG_STATUS.key i 0] s t ∧ OnlyParts [.regs, .power] s t) ∧
    (x.phase = .waiting → Answers (.inrushWaitTimeout r) s fun t => (t.region r).phase = .closing true (s.clock.ticks + 2000) ∧
      (∀ q, q ≠ r → t.region q = if q.val % 40 = r.val % 40 ∧ q.val < 80 ∧ s.regState q = 0 then { s.region q with inrush := true } else s.region q) ∧ OnlyParts [.power] s t) ∧
    (x.phase.goesOn = true →
      (s.parked = [] → Answers (.regionOn r) s fun t => t.regState r = 0 ∧ t.get F.PWR_RG_STATUS.waking i = 0 ∧ (t.region r).phase = .none ∧
        (∀ e, regionOf e = r → t.get F.CLK_PLL.state i = 2 ∧ t.get F.CLK_PLL.locks i = min (s.get F.CLK_PLL.locks i + 1) 255 ∧ (t.region r).clearing = (s.regState r == 2)) ∧
        (x.phase = .starting → ∀ q, q ≠ r → t.region q = s.region q) ∧
        (x.phase ≠ .starting → ∀ q, q.val % 40 = r.val % 40 → q ≠ r → (t.region q).phase =
          (if (columnRegions r).find? (fun p => p != r && (s.region p).phase == .queued) = some q then (if s.segment r < 612 then .closing false (s.clock.ticks + 2000) else .waiting) else (s.region q).phase)) ∧
        (∀ stop, x.phase = .closing true stop → ∀ q, q.val % 40 = r.val % 40 → (t.region q).inrush = false) ∧ OnlyParts [.regs, .power] s t) ∧
      (∀ e p req, regionOf e = r → s.regState r = 1 → s.parked = [p] → p.body = .request req → s.target req.addr.toNat req.op.size = some (.core e) → (s.eng e).mappedOut = false → (s.eng e).inReset = false →
        s.engineLinked e = true → s.deliverCheck p.at_ req (.core e) = .proceed → Answers (.regionOn r) s fun t => Served s req t ∧ t.parked = [])) ∧
    (∀ late stop, x.phase = .closing late stop → stop ≤ s.clock.ticks + 1 → (∀ q, q ≠ r → ∀ l n, (s.region q).phase ≠ .closing l n) → s.pending = [] → s.get F.AON_STATUS.stage ≠ 0 →
      ∃ t, step s = .next t ∧ (t.region r).phase = .starting ∧ (r.val < 80 → t.get F.CLK_PLL.state i = 1) ∧ (∀ q, q.val % 40 = r.val % 40 → (t.region q).inrush = if late then false else (s.region q).inrush)) ∧
    (x.clearing = true → s.parked = [] → Answers (.regionClearDone r) s fun t => (t.region r).clearing = false ∧ (∀ e, regionOf e = r → t.eng e = { s.eng e with imem := [] } ∧ OnlyEngines (· = e) s t ∧
      (∀ a, spCore + e.val * 2 ^ 25 ≤ a → a < spCore + (e.val + 1) * 2 ^ 25 → t.byte a = 0) ∧ ∀ a, a < spCore + e.val * 2 ^ 25 ∨ spCore + (e.val + 1) * 2 ^ 25 ≤ a → t.byte a = s.byte a) ∧
      OnlyParts [.mem, .engines, .power] s t) ∧
    (∀ v : Word, let n := v.toNat
      Answers (.pwrRgCtlWrite r v) s fun t => t.get F.PWR_RG_CTL.idle_us i = n / 2 ^ 8 % 2 ^ 16 ∧ t.get F.PWR_RG_CTL.auto_sleep i = n / 4 % 2 ∧
        t.get F.PWR_RG_CTL.target i = (if n % 4 = 3 then s.get F.PWR_RG_CTL.target i else n % 4) ∧ (t.get F.PWR_RG_VMIN.vmin i = if nbit n 24 then 0x3FF else s.get F.PWR_RG_VMIN.vmin i) ∧
        (n % 4 = 0 → nbit n 24 = false → Wakes r s t) ∧ (n % 4 ≠ 0 → nbit n 24 = false → t.power = s.power) ∧
        OnlyKeys [R.PWR_RG_CTL.key i 0, R.PWR_RG_VMIN.key i 0, R.PWR_RG_STATUS.key i 0] s t ∧ OnlyParts [.regs, .power] s t) ∧
    (Answers (.pwrRgRearm r) s fun t => FieldsBecome [⟨F.PWR_RG_VMIN.vmin, i, 0, 0x3FF⟩] s t ∧ OnlyRegion r { x with vminT := 0 } s t ∧ OnlyParts [.regs, .power] s t) ∧
    (Answers (.pwrRgVminRead r) s fun t => t.reg R.PWR_RG_VMIN_T i = x.vminT % 2 ^ 64 ∧ OnlyKeys [R.PWR_RG_VMIN_T.key i 0] s t ∧ OnlyParts [.regs] s t)

/-- A voltage sample below the lowest is kept with its time, and one below the threshold counts, skips and is logged once a millisecond (R421); a report may end a wait for the segment (R420), and two above the ceiling raise the guard, which decays (R424). -/
def Claim.DroopAndCurrentAreGuarded : Prop :=
  ∀ (r : RegionId) (s : State),
    let x := s.region r
    let i := r.val + 1
    (∀ mv : BitVec 10, Answers (.droopSample r mv) s fun t =>
      let n := mv.toNat
      let low := n < s.get F.PWR_RG_VMIN.vmin i
      let droop := s.get F.PWR_RG_DROOP.thresh i ≠ 0 ∧ n < s.get F.PWR_RG_DROOP.thresh i
      t.get F.PWR_RG_VMIN.vmin i = min n (s.get F.PWR_RG_VMIN.vmin i) ∧ ((t.region r).vminT = if low then s.btime else x.vminT) ∧
        (¬ droop → (t.region r).droopSkip = x.droopSkip ∧ t.get F.PWR_RG_DROOP.count i = s.get F.PWR_RG_DROOP.count i ∧ t.elog = s.elog) ∧
        (droop → (t.region r).droopSkip = decide (r.val < 80) ∧ t.get F.PWR_RG_DROOP.count i = min (s.get F.PWR_RG_DROOP.count i + 1) (2 ^ 32 - 1) ∧
          (x.droopLog = some s.ms → t.elog = s.elog) ∧
          (x.droopLog ≠ some s.ms → (t.region r).droopLog = some s.ms ∧ t.elog = logAfter s (eventOf s 0x0602 0x02 i 1 (min n (s.get F.PWR_RG_VMIN.vmin i))))) ∧
        (∀ q, q ≠ r → t.region q = s.region q) ∧ OnlyKeys [R.PWR_RG_VMIN.key i 0, R.PWR_RG_DROOP.key i 0, R.ELOG_COUNTS.key 0 0] s t ∧ OnlyParts [.regs, .power, .elog] s t) ∧
    (x.droopSkip = true → Answers (.droopSkipEnd r) s fun t => OnlyRegion r { x with droopSkip := false } s t ∧ OnlyParts [.power] s t) ∧
    (∀ amps : BitVec 12, s.regState r = 0 → Answers (.currentReport r amps) s fun t => t.get F.PWR_RG_STATUS.current i = amps.toNat ∧ WaitGoesOn r s t) ∧
    (∀ amps : BitVec 12, s.regState r = 0 → (∀ q ∈ columnRegions r, (s.region q).phase ≠ .waiting) →
      let now : Holds := ⟨F.PWR_RG_STATUS.current, i, 0, amps.toNat⟩
      let above := s.ceiling16 r < 16 * amps.toNat
      (80 ≤ r.val → Answers (.currentReport r amps) s fun t => FieldsBecome [now] s t ∧
        OnlyRegion r { x with halfRate := decide above || (x.halfRate && !decide (160 * amps.toNat < 9 * s.ceiling16 r)) } s t ∧ OnlyParts [.regs, .power] s t) ∧
      (r.val < 80 → ¬ above → Answers (.currentReport r amps) s fun t => FieldsBecome [now] s t ∧ OnlyRegion r { x with overs := 0 } s t ∧ OnlyParts [.regs, .power] s t) ∧
      (r.val < 80 → above → x.overs = 0 → Answers (.currentReport r amps) s fun t => FieldsBecome [now] s t ∧ OnlyRegion r { x with overs := 1 } s t ∧ OnlyParts [.regs, .power] s t) ∧
      (r.val < 80 → above → x.overs ≠ 0 → Answers (.currentReport r amps) s fun t =>
        FieldsBecome [now, ⟨F.PWR_RG_STATUS.guard, i, 0, min 7 (s.get F.PWR_RG_STATUS.guard i + 1)⟩] s t ∧ OnlyRegion r { x with overs := 0 } s t ∧ OnlyParts [.regs, .power] s t)) ∧
    (s.get F.PWR_RG_STATUS.guard i ≠ 0 → 160 * s.get F.PWR_RG_STATUS.current i < 9 * s.ceiling16 r → Answers (.guardDecay r) s
      (OnlyFields [⟨F.PWR_RG_STATUS.guard, i, 0, s.get F.PWR_RG_STATUS.guard i - 1⟩] s))

/-- Every microsecond the block's power adds to its energy and to its averages; a 1 ms average at its limit sets the cap level to 7, a 10 ms average above its limit raises it every 10 µs, and averages below 97 % lower it
every 100 µs; the first rise of a millisecond is logged (R405, R411, R425, R426, R429). A phase near its start wakes its region and its slices, and ends when its time has passed (R414, R422, R423). -/
def Claim.PowerIsCappedAndHinted : Prop :=
  ∀ s : State,
    (∀ mv : List Nat, Answers (.capEvaluate mv) s fun t =>
      let p := powerOf s.currents mv
      let l10 := (⟨p, s.currents.1, s.currents.2.1⟩ :: s.power.samples).take 10000
      let l1 := l10.take 1000
      let level := s.get F.PWR_STATUS.cap_level
      let hit := s.limits1.any fun q => decide (q.2 * l1.length ≤ sumOf l1 q.1)
      let above := s.limits10.any fun q => decide (q.2 * l10.length < sumOf l10 q.1)
      let under := (s.limits1.all fun q => decide (100 * sumOf l1 q.1 < 97 * q.2 * l1.length)) && s.limits10.all fun q => decide (100 * sumOf l10 q.1 < 97 * q.2 * l10.length)
      let now := t.get F.PWR_STATUS.cap_level
      t.power.samples = l10 ∧ t.power.frac = (s.power.frac + p) % 20000 ∧ t.get F.PWR_ENERGY.uj = (s.get F.PWR_ENERGY.uj + (s.power.frac + p) / 20000) % 2 ^ 64 ∧
        t.get F.PWR_STATUS.p1ms = sumOf l1 PwrSample.p / (20000 * l1.length) % 2 ^ 16 ∧ t.get F.PWR_STATUS.p10ms = sumOf l10 PwrSample.p / (20000 * l10.length) % 2 ^ 16 ∧
        (s.on F.PWR_STATUS.tel_lost = true → t.get F.PWR_STATUS.est = 1) ∧ (hit = true → now = 7) ∧
        (hit = false → above = true → s.power.ups = 9 → now = min 7 (level + 1)) ∧ (hit = false → (above = false ∨ s.power.ups ≠ 9) → under = true → s.power.under = 99 → now = level - 1) ∧
        (hit = false → (above = false ∨ s.power.ups ≠ 9) → (under = false ∨ s.power.under ≠ 99) → now = level) ∧
        (level < now → t.get F.PWR_STATUS.cap_hit = 1 ∧ t.power.capLog = some s.ms) ∧ (now ≤ level ∨ s.power.capLog = some s.ms → t.elog = s.elog) ∧
        OnlyKeys [R.PWR_STATUS.key 0 0, R.PWR_ENERGY.key 0 0, R.ELOG_COUNTS.key 0 0] s t ∧ OnlyParts [.regs, .power, .elog] s t) ∧
    ∀ (e : EngineId) (h : Hint), s.hint e = some h →
      let lands (t : State) : Prop := t.get F.PWR_STATUS.hint_core = b2n (decide (s.get F.PWR_HINT.core_n ≤ t.phaseCount 0)) ∧ t.get F.PWR_STATUS.hint_mem = b2n (decide (s.get F.PWR_HINT.mem_n ≤ t.phaseCount 1))
      (h.staged = false → Answers (.preStage e) s fun t => t.hints = vset s.hints e { vget s.hints e with last := some { h with near := true, staged := true } } ∧ lands t ∧
        (nbit h.kind 0 = false → ∀ r, t.region r = s.region r) ∧ (nbit h.kind 0 = true → (t.region (regionOf e)).shed = false) ∧
        (nbit h.kind 0 = true → s.regState (regionOf e) = 1 ∨ s.regState (regionOf e) = 2 → (s.region (regionOf e)).phase = .none → s.pllBars (regionOf e) = false → t.get F.PWR_RG_STATUS.waking (e.val + 1) = 1) ∧
        t.power.vmShed = (if nbit h.kind 1 then vset s.power.vmShed (columnOf e) false else s.power.vmShed) ∧ OnlyParts [.regs, .hints, .power] s t) ∧
      (h.duration ≠ 0 → Answers (.phaseEnd e) s fun t => t.hints = vset s.hints e { vget s.hints e with last := none } ∧ lands t ∧ OnlyKeys [R.PWR_STATUS.key 0 0] s t ∧ OnlyParts [.regs, .hints] s t)

/-! ## Temperature -/

/-- The registers in which a round shows its results (R260, R440-R452, R458). -/
def thermalRegs : List Reg := [R.THM_STATUS, R.THM_BROKEN, R.THM_SUSPECT, R.THM_DIODE, R.THM_EXT0, R.THM_EXT1, R.THM_NODE, R.THM_COOLANT, R.THM_LEVEL, R.THM_STEP, R.LND_STATUS, R.PWR_RG_CEIL, R.ELOG_COUNTS]

/-- What every round of the sensors leaves, from the readings of the 758 sensors (R260, R435, R440-R452, R458): the readings shown, the refresh rates, levels that fall by at most one and a
step limit and region ceilings that move by at most one. -/
def RoundLeaves (reads : Nat → Option Int) (s t : State) : Prop :=
  (∀ n, n < 758 → readingOf t n = match validReading (reads n) with
    | some x => if t.isBroken n then 0x8000 else ofSigned 16 x
    | none => 0x8000) ∧
  (∀ k m, k < 40 → m < 4 → ∀ e, e = k ∨ e = k + 40 →
    let d := 400 + 80 * m + 2 * k
    let bad := t.isBroken d = true ∨ t.isSuspect d = true ∨ t.isBroken (d + 1) = true ∨ t.isSuspect (d + 1) = true
    let above (v : Option Int) : Prop := ∃ x, v = some x ∧ 1360 < x
    let low (v : Option Int) : Prop := ∃ x, v = some x ∧ x ≤ 1312
    let fast (u : State) : Bool := nbit (u.get F.LND_STATUS.fast_ref e) m
    (bad ∨ above (reads d) ∨ above (reads (d + 1)) → fast t = true) ∧
      (¬ bad → low (reads d) → low (reads (d + 1)) → fast t = false) ∧
      (¬ bad → ¬ above (reads d) → ¬ above (reads (d + 1)) → ¬ (low (reads d) ∧ low (reads (d + 1))) → fast t = fast s)) ∧
  (∀ e, e < 80 → s.thermalLevel e - 1 ≤ t.thermalLevel e ∧ t.thermalLevel e ≤ t.get F.THM_STATUS.max_level ∧
    t.get (F.THM_LEVEL.fb (e % 16)) 0 (e / 16) = b2n (t.get F.PWR_RG_CEIL.thermal (e + 1) != 0)) ∧
  (∀ i, 1 ≤ i → i ≤ 120 → t.get F.PWR_RG_CEIL.limit i = s.get F.PWR_RG_CEIL.limit i ∧ t.get F.PWR_RG_CEIL.thermal i ≤ s.get F.PWR_RG_CEIL.thermal i + 1 ∧
    (s.get F.PWR_RG_CEIL.thermal i ≤ 12 → t.get F.PWR_RG_CEIL.thermal i ≤ 12 ∧ s.get F.PWR_RG_CEIL.thermal i ≤ t.get F.PWR_RG_CEIL.thermal i + 1)) ∧
  (let limit := s.get F.THM_STEP.limit
    let now := t.get F.THM_STEP.limit
    now = limit ∨ now = limit - 1 ∨ (now = limit + 1 ∧ 3 ≤ s.thermal.sinceLow ∧ t.thermal.sinceLow = 0 ∧ t.get F.THM_STEP.lowerings = min (s.get F.THM_STEP.lowerings + 1) 255)) ∧
  (∀ q ∈ [(F.THM_STATUS.inlet_alarm, t.thermal.inletRounds), (F.THM_STATUS.outlet_alarm, t.thermal.outletRounds), (F.THM_STATUS.flow_low, t.thermal.flowRounds)],
    t.on q.1 = (s.on q.1 || decide (3 ≤ q.2))) ∧
  (t.isBroken 752 = true → t.get F.THM_COOLANT.inlet = 16 * 40) ∧
  (∀ x, reads 752 = some x → t.isBroken 752 = false → t.get F.THM_COOLANT.inlet = degField (degVal x)) ∧
  t.get F.THM_STATUS.broken_n = ((List.range 758).filter fun n => t.isBroken n).length ∧
  t.get F.THM_STATUS.suspect_n = ((List.range 752).filter fun n => t.isSuspect n).length ∧
  t.drawn = s.drawn + 1 ∧ OnlyRegisters thermalRegs s t ∧ OnlyParts [.regs, .thermal, .elog, .drawn] s t

/-- A round counts and breaks the sensors whose second reading in a row is invalid; where no round completes every sensor is broken and the model goes on (R435, R442). FLOW is timed by
its edges while it has no fault, and stands still after a second without one (R437). -/
def Obligations.RoundsOfTheSensors : Prop :=
  ∀ s : State,
    (∀ r : AdcRound, Answers (.adcRoundEnd r) s fun t => RoundLeaves (s.roundReading r) s t ∧ t.get F.THM_STATUS.adc_fail = 0 ∧
      t.get F.THM_STATUS.rounds = (s.get F.THM_STATUS.rounds + 1) % 2 ^ 24 ∧
      ∀ n, n < 758 → t.isBroken n = (s.isBroken n || ((validReading (s.roundReading r n)).isNone && Tbl.get (fun _ => 0) s.thermal.invalid n == 1))) ∧
    (∀ counts, Answers (.adcFail counts) s fun t => RoundLeaves (fun _ => none) s t ∧ t.get F.THM_STATUS.adc_fail = 1 ∧ t.get F.THM_STATUS.rounds = s.get F.THM_STATUS.rounds ∧
      ∀ n, n < 758 → t.isBroken n = true) ∧
    (s.pinFaulted 0 = true → exec .flowEdge s = .next s) ∧
    (s.pinFaulted 0 = false → Answers .flowEdge s fun t => t.thermal = { s.thermal with edges := (s.btime / 1000 :: s.thermal.edges).take 2, flowStopped := false } ∧ OnlyParts [.thermal] s t) ∧
    Answers .flowTimeout s fun t => t.thermal = { s.thermal with flowStopped := true } ∧ OnlyParts [.thermal] s t

/-! ## Clocks -/

/-- To a faster step VCORE rises, settles and the slices follow before the clocks change; to a slower one the clocks change first (R409, R464). At the pause every running PLL relocks and
the bundles that failed verification take the middle of the widest passing range of their sweep, or fail, at the first change to a step alone (R465, R467, R468). -/
def Obligations.StepsChangeInTheirOrder : Prop :=
  ∀ s : State,
    let eff := s.get F.CLK_STEP.eff
    (s.clock.change = none → s.effStep ≠ eff → Answers .stepChange s fun t => FieldsBecome [⟨F.CLK_STEP.busy, 0, 0, 1⟩] s t ∧ OnlyParts [.regs, .clock, .outbox] s t ∧
      (s.effStep < eff → t.clock = { s.clock with vcoreMv := setPoint s.effStep, change := some ⟨s.effStep, .settle⟩ } ∧ t.outbox = s.outbox ++ [.voutCommand (setPoint s.effStep)]) ∧
      (eff < s.effStep → t.clock = { s.clock with change := some ⟨s.effStep, .pause⟩ } ∧ t.outbox = s.outbox)) ∧
    ∀ target,
      (s.clock.change = some ⟨target, .settle⟩ → Answers .vcoreSettleEnd s fun t => t.clock = { s.clock with regionMv := regionVoltage target, change := some ⟨target, .pause⟩ } ∧ OnlyParts [.clock] s t) ∧
      (s.clock.change = some ⟨target, .pause⟩ → ∀ found, found = [] ∨ target ∉ s.clock.verified → Answers (.stepPause found) s fun t =>
        t.get F.CLK_STEP.eff = target % 8 ∧ t.get F.CLK_STEP.busy = 0 ∧ t.get F.CLK_STEP.changes = min (s.get F.CLK_STEP.changes + 1) 255 ∧ t.get F.CLK_STATUS.step_lock = 1 ∧
          (∀ e : EngineId, t.get F.CLK_PLL.state (e.val + 1) = s.get F.CLK_PLL.state (e.val + 1) ∧
            t.get F.CLK_PLL.locks (e.val + 1) = if s.get F.CLK_PLL.state (e.val + 1) = 2 then min (s.get F.CLK_PLL.locks (e.val + 1) + 1) 255 else s.get F.CLK_PLL.locks (e.val + 1)) ∧
          t.clock.change = none ∧ t.clock.verified = (if target ∈ s.clock.verified then s.clock.verified else s.clock.verified ++ [target]) ∧ t.clock.acc = s.clock.acc ∧
          (eff < target → t.clock.regionMv = regionVoltage target ∧ t.clock.vcoreMv = setPoint target ∧ t.outbox = s.outbox ++ [.voutCommand (setPoint target)]) ∧
          (target ≤ eff → t.clock.regionMv = s.clock.regionMv ∧ t.clock.vcoreMv = s.clock.vcoreMv ∧ t.outbox = s.outbox) ∧
          (found = [] → t.taps = s.taps ∧ t.margins = s.margins ∧ t.elog = s.elog) ∧
          (∀ q ∈ found, q.1 < 4480 → xwPresent (q.1 / 16 % 7) (q.1 % 16) = true → (∀ p ∈ found, p.1 % 4480 = q.1 → p = q) →
            t.tapOf (8 * q.1 + target) = match sweepTap q.2.toNat with | some x => x.1 + 1 | none => 0) ∧
          OnlyRegisters [R.CLK_STEP, R.CLK_STATUS, R.CLK_PLL, R.AV_XW_TAP, R.AV_XW_MARGIN, R.ELOG_COUNTS] s t ∧ OnlyParts [.regs, .clock, .taps, .margins, .elog, .outbox] s t)

/-- An engine whose PLL does not lock or loses lock is treated as reset, its region's turn-on ends, and the failure is shown and logged (R466); a canary whose count reaches its limit
warns and is logged, and a limit of 0 warns never (R469); an idle cycle advances block time by 1 ns and the rate term, but not while the block is in reset (R470; log entry 2). -/
def Obligations.PllsCanariesAndBlockTime : Prop :=
  ∀ s : State,
    (∀ (e : EngineId) (c : Instr), (c = .pllLockTimeout e ∧ ((s.region (regionOf e)).phase.goesOn = true ∨ (s.get F.CLK_PLL.state (e.val + 1) = 2 ∧ ∃ target, s.clock.change = some ⟨target, .pause⟩))) ∨
        (c = .pllLockLost e ∧ s.get F.CLK_PLL.state (e.val + 1) = 2) → Answers c s fun t =>
      t.get F.CLK_PLL.fail (e.val + 1) = 1 ∧ t.get F.CLK_PLL.state (e.val + 1) = 3 ∧ t.get F.CLK_STATUS.pll_fail = 1 ∧ (t.region (regionOf e)).phase = .none ∧
        t.get F.PWR_RG_STATUS.waking (e.val + 1) = 0 ∧ t.elog = logAfter s (eventOf s 0x0801 0x04 0 3 e.val) ∧ OnlyEngines (· = e) s t ∧ SameMem s t ∧
        ((s.eng e).inReset = true → t.engines = s.engines) ∧ ((s.eng e).inReset = false → EngineInReset e s t) ∧ OnlyParts [.regs, .engines, .hints, .power, .elog] s t) ∧
    (∀ (e : EngineId) (below5 below10 : BitVec 16),
      let i := e.val + 1
      let limit := s.get F.CLK_CANARY.limit i
      let counts : List Holds := [⟨F.CLK_CANARY.below5, i, 0, below5.toNat⟩, ⟨F.CLK_CANARY.below10, i, 0, below10.toNat⟩]
      (limit = 0 ∨ below5.toNat < limit → Answers (.canaryWindow e below5 below10) s (OnlyFields counts s)) ∧
      (limit ≠ 0 → limit ≤ below5.toNat → Answers (.canaryWindow e below5 below10) s fun t =>
        FieldsBecome (counts ++ [⟨F.CLK_CANARY.warn, i, 0, 1⟩, ⟨F.CLK_STATUS.canary_warn, 0, 0, 1⟩, lostAfter s]) s t ∧
          t.elog = logAfter s (eventOf s 0x0802 0x04 0 1 (e.val + below5.toNat * 2 ^ 16)) ∧ OnlyParts [.regs, .elog] s t)) ∧
    (s.pending = [] →
      (s.get F.AON_STATUS.stage = 0 → step s = .next s) ∧
      (s.get F.AON_STATUS.stage ≠ 0 → ∃ t, step s = .next t ∧ OnlyParts [.clock, .hints, .regs, .power] s t ∧ t.pending = [] ∧
        t.clock = { s.clock with acc := t.clock.acc, ticks := s.clock.ticks + 1 } ∧ (t.clock.acc : Int) = ((s.clock.acc : Int) + 2 ^ 40 + toSigned 32 (s.get F.CLK_BTIME_ADJ.adj)) % 2 ^ 104))

/-! ## The security unit and the TAP -/

/-- A row of the security mailbox with its operation (R517). -/
def SecRow (op : Nat) (c : Instr) : Prop :=
  (op = 1 ∧ ∃ p f, c = .secEnroll p f) ∨ (op = 2 ∧ ∃ p, c = .secSign p) ∨ (op = 3 ∧ ∃ p, c = .secExtend p) ∨ (op = 4 ∧ ∃ p, c = .secQuote p) ∨
    (op = 5 ∧ ∃ f, c = .secSvnAdv f) ∨ (op = 6 ∧ ∃ v, c = .secNonce v) ∨ (op = 7 ∧ c = .secCert) ∨ (op = 8 ∧ ∃ p, c = .secDebug p)

/-- The state and the request with which an operation acts: it was started and waits, with the fields that stood at its go, or the mailbox is idle and the row starts it with the fields that stand
(R517, R561). -/
def Started (op : Nat) (q : SecReq) (s u : State) : Prop :=
  (s.on F.SEC_CMD.busy = true ∧ s.sec.req = some q ∧ q.op = op ∧ s.sec.job = none ∧ u = s) ∨
    (s.on F.SEC_CMD.busy = false ∧ q = ⟨op, s.get F.SEC_CMD.param, s.get F.SEC_ARG.src, s.get F.SEC_ARG.dst⟩ ∧
      u = { (s.put F.SEC_CMD.op op).put F.SEC_CMD.busy 1 with sec := { s.sec with req := some q, job := none } })

/-- A row whose operation is not the one that waits changes nothing, and one whose addresses fail ends with the code of R517 alone; the end shows code and length and frees the mailbox. -/
def Claim.TheMailboxChecksAndEnds : Prop :=
  ∀ s : State,
    (∀ op c, SecRow op c → s.on F.SEC_CMD.busy = true → (∀ r, s.sec.req = some r → r.op ≠ op ∨ s.sec.job ≠ none) → exec c s = .next s) ∧
    (∀ (p : Bool) (u : State) (r : SecReq) (q : Nat × Nat × Nat × Instr),
      q ∈ [((1, 4096, 0, .secEnroll p none) : Nat × Nat × Nat × Instr), (2, 48, 96, .secSign p), (3, 48, 0, .secExtend p), (4, 32, 608, .secQuote p), (8, 4096, 0, .secDebug p)] → Started q.1 r s u →
        let src := r.src
        let dst := r.dst
        let there := inSram src q.2.1 = true ∧ (q.2.2.1 ≠ 0 → inSram dst q.2.2.1 = true)
        let aligned := src % 64 = 0 ∧ (q.2.2.1 ≠ 0 → dst % 64 = 0 ∧ sramReadOnly dst q.2.2.1 = false)
        (¬ there → exec q.2.2.2 s = .next (u.secJob .unmapped 0)) ∧
        (there → ¬ aligned → exec q.2.2.2 s = .next (u.secJob .accessDenied 0)) ∧
        (there → aligned → p = true → exec q.2.2.2 s = .next (u.secJob .dataErr 0))) ∧
    (∀ j, s.sec.job = some j → s.on F.SEC_CMD.busy = true → Answers .securityOperationDone s fun t =>
      FieldsBecome [⟨F.SEC_CMD.code, 0, 0, j.code.toNat⟩, ⟨F.SEC_CMD.len, 0, 0, j.len % 2 ^ 16⟩, ⟨F.SEC_CMD.busy, 0, 0, 0⟩] s t ∧ t.sec = { s.sec with req := none, job := none } ∧ OnlyParts [.regs, .sec] s t)

/-- Bytes stored at a place of the SRAM, and nothing else of memory. -/
def SramGets (addr : Nat) (b : List Byte) (s t : State) : Prop := t.readSram addr b.length = b ∧ SameMemBut s t (spSram + addr) b.length

/-- SIGN, QUOTE and CERT write their results to dst (R512, R513, R517), EXTEND extends a register that it may and appends to the log (R509, R510, R517), and NONCE draws a nonce that is
valid once (R506, R517). -/
def Obligations.SigningQuotingAndMeasuring : Prop :=
  ∀ (p : Bool) (q : SecReq) (s u : State),
    let src := q.src
    let dst := q.dst
    (Started 2 q s u → q.addr 48 96 p = .ok → Answers (.secSign p) s fun t => SramGets dst (u.signature (u.readSram src 48)) u t ∧
      t.sec = { u.sec with signed := u.sec.signed + 1, job := some ⟨.ok, 96⟩ } ∧ t.regs = u.regs ∧ OnlyParts [.regs, .mem, .sec] s t) ∧
    (Started 4 q s u → q.addr 32 608 p = .ok → Answers (.secQuote p) s fun t =>
      let body := u.quoteBody (u.readSram src 32)
      SramGets dst (body ++ u.signature (sha384 body)) u t ∧ t.sec = { u.sec with signed := u.sec.signed + 1, job := some ⟨.ok, 608⟩ } ∧ t.regs = u.regs ∧ OnlyParts [.regs, .mem, .sec] s t) ∧
    (Started 3 q s u → q.addr 48 0 p = .ok →
      let param := q.param
      let n := u.get F.SEC_LOG.entries
      let d := u.readSram src 48
      let refused := param % 8 = 0 ∨ param / 256 < 0x10 ∨ 1024 ≤ n
      (refused → exec (.secExtend p) s = .next (u.secJob .accessDenied 0)) ∧
      (¬ refused → Answers (.secExtend p) s fun t =>
        (∀ i : Fin 8, vget t.sec.mrs i = if i.val = param % 8 then sha384 (vget s.sec.mrs i ++ d) else vget s.sec.mrs i) ∧
          SramGets (0x0F000000 + 64 * n) ([BitVec.ofNat 8 (param % 8), BitVec.ofNat 8 (param / 256), 0#8, 0#8] ++ leBytes 4 n ++ leBytes 8 s.btime ++ d) u t ∧
          FieldsBecome [⟨F.SEC_LOG.entries, 0, 0, n + 1⟩] u t ∧ t.sec.job = some ⟨.ok, 0⟩ ∧ t.sec.otp = s.sec.otp ∧ OnlyParts [.regs, .mem, .mrs, .sec] s t)) ∧
    (Started 6 q s u → ∀ fresh : BitVec 256, Answers (.secNonce fresh) s fun t => (∀ i, i < 4 → t.reg R.SEC_NONCE 0 i = fresh.toNat / 2 ^ (64 * i) % 2 ^ 64) ∧ t.get F.SEC_STATUS.nonce_valid = 1 ∧
      t.sec = { u.sec with job := some ⟨.ok, 0⟩ } ∧ OnlyRegisters [R.SEC_NONCE, R.SEC_STATUS] u t ∧ OnlyParts [.regs, .sec] s t) ∧
    (Started 7 q s u →
      let chain := u.sec.cert ++ u.identityCert
      let c := q.addr 0 chain.length false
      (c ≠ .ok → exec .secCert s = .next (u.secJob c 0)) ∧
      (c = .ok → Answers .secCert s fun t => SramGets dst chain u t ∧ t.sec = { u.sec with job := some ⟨.ok, chain.length⟩ } ∧ t.regs = u.regs ∧ OnlyParts [.regs, .mem, .sec] s t))

/-- A record that fails a check has no effect; one that passes uses up the nonce and blows its fuses in order up to the first that does not verify, or asks for debug at the next start
(R505-R507, R515, R517). A counter is advanced, fuse by fuse, no further than the image's version and its own last fuse (R504, R517). -/
def Obligations.RecordsAndCountersBlowTheirFuses : Prop :=
  ∀ (p : Bool) (bad : Option Nat) (q : SecReq) (s u : State),
    let b := u.readSram q.src 4096
    let otpRegs := [R.SEC_STATUS, R.SEC_SVN, R.SEC_OWNER, R.SEC_JTAG]
    (Started 1 q s u → q.addr 4096 0 p = .ok →
      let accepted := recAction b ≠ 5 ∧ u.recordOk b = true ∧ u.actionOk b = true
      let f := actionFuses b
      let n := min (bad.getD f.2.length) f.2.length
      (¬ accepted → exec (.secEnroll p bad) s = .next (u.secJob .accessDenied 0)) ∧
      (accepted → Answers (.secEnroll p bad) s fun t => t.get F.SEC_STATUS.nonce_valid = 0 ∧
        (∀ w, t.otp w = if f.1 ≤ w ∧ w < f.1 + n then s.otp w ||| f.2.getD (w - f.1) 0 else s.otp w) ∧
          t.get F.SEC_STATUS.owner_valid = b2n t.activeOwner.isSome ∧ t.get F.SEC_STATUS.owner_only = b2n (t.life 2) ∧ t.get F.SEC_JTAG.state = t.tapState ∧
          t.sec.job = some ⟨if n = f.2.length then .ok else .dataErr, 0⟩ ∧ OnlyRegisters otpRegs u t ∧ OnlyParts [.regs, .otp, .sec] s t)) ∧
    (Started 8 q s u → q.addr 4096 0 p = .ok →
      let accepted := recAction b = 5 ∧ u.recordOk b = true ∧ u.actionOk b = true
      (¬ accepted → exec (.secDebug p) s = .next (u.secJob .accessDenied 0)) ∧
      (accepted → Answers (.secDebug p) s fun t => t.get F.SEC_STATUS.nonce_valid = 0 ∧ t.get F.SEC_STATUS.debug_pending = 1 ∧ t.get F.SEC_STATUS.debug = s.get F.SEC_STATUS.debug ∧
        t.sec = { u.sec with job := some ⟨.ok, 0⟩ } ∧ OnlyRegisters otpRegs u t ∧ OnlyParts [.regs, .sec] s t)) ∧
    (Started 5 q s u →
      let param := q.param
      let cfg := nbit param 15
      let target := param % 512
      let w := if cfg then 0x23C else 0x234
      let now := if cfg then u.cfgCounter else u.bootCounter
      let most := if cfg then min 64 u.boot.cfgSvn else min 256 (u.get F.SEC_SVN.img_svn)
      let refused := (cfg = true ∧ u.on F.AON_STATUS.cfg_ok = false) ∨ most < target
      let n := min (bad.getD (target - now)) (target - now)
      (refused → exec (.secSvnAdv bad) s = .next (u.secJob .accessDenied 0)) ∧
      (¬ refused → Answers (.secSvnAdv bad) s fun t =>
        (∀ i, i < (if cfg then 64 else 256) → nbit (t.otp (w + i / 32)) (i % 32) = (nbit (s.otp (w + i / 32)) (i % 32) || (decide (now ≤ i) && decide (i < now + n)))) ∧
          (∀ x, x < w ∨ w + (if cfg then 2 else 8) ≤ x → t.otp x = s.otp x) ∧ t.get F.SEC_SVN.boot = t.bootCounter % 512 ∧ t.get F.SEC_SVN.cfg = t.cfgCounter % 128 ∧
          t.sec.job = some ⟨if n = target - now then .ok else .dataErr, 0⟩ ∧ OnlyRegisters otpRegs u t ∧ OnlyParts [.regs, .otp, .sec] s t))

/-- The TAP shifts out the identification and the nonce; it takes a debug record as the mailbox does; while it is LOCKED every instruction but its three is BYPASS and is noted; and
what another instruction does in an open TAP is not stated (R514, R515). -/
def Claim.TheTapServesItsInstructions : Prop :=
  ∀ s : State,
    (∀ q ∈ [((.tapIdcode, 0x1B240A5F) : Instr × Nat), (.tapNonceRead, s.reg R.SEC_NONCE 0 0 + s.reg R.SEC_NONCE 0 1 * 2 ^ 64 + s.reg R.SEC_NONCE 0 2 * 2 ^ 128 + s.reg R.SEC_NONCE 0 3 * 2 ^ 192)],
      Answers q.1 s fun t => t.sec = { s.sec with tapOut := q.2 } ∧ t.outbox = s.outbox ++ [.tap q.2] ∧ OnlyParts [.outbox, .sec] s t) ∧
    (∀ b : List Byte, b.length = 4096 →
      let accepted := recAction b = 5 ∧ s.recordOk b = true ∧ s.actionOk b = true
      (¬ accepted → exec (.tapTokenLoad b) s = .next s) ∧
      (accepted → Answers (.tapTokenLoad b) s fun t => t.get F.SEC_STATUS.nonce_valid = 0 ∧ t.get F.SEC_STATUS.debug_pending = 1 ∧ t.get F.SEC_STATUS.debug = s.get F.SEC_STATUS.debug ∧
        t.sec = s.sec ∧ OnlyRegisters [R.SEC_STATUS, R.SEC_SVN, R.SEC_OWNER, R.SEC_JTAG] s t ∧ OnlyParts [.regs] s t)) ∧
    exec (.tapBypass 0xFF) s = .next s ∧
    ∀ ir : BitVec 8, ir ≠ 0xFF → ir ≠ 0x01 → ir ≠ 0x20 → ir ≠ 0x21 →
      (s.tapState = 1 → Answers (.tapBypass ir) s (OnlyFields [⟨F.SEC_JTAG.tap_denied, 0, 0, 1⟩] s)) ∧
      (s.tapState ≠ 1 → exec (.tapBypass ir) s = .refused (.tapInstruction ir.toNat))

/-! ## The error log -/

/-- An entry stands in four registers, 64 bits in each. -/
def EntryIn (r : Reg) (e : LogEntry) (t : State) : Prop := ∀ i, i < 4 → t.reg r 0 i = e.word / 2 ^ (64 * i) % 2 ^ 64

/-- An entry has closed (R528): it stands in `ELOG_LATEST`, and in the ring at head, which advances, unless the ring is full: then the overflow is counted and shown. -/
def EntryClosed (e : LogEntry) (s t : State) : Prop :=
  let head := s.get F.ELOG_STATUS.head
  EntryIn R.ELOG_LATEST e t ∧ t.get F.ELOG_STATUS.tail = s.get F.ELOG_STATUS.tail ∧
    (s.elogHeld = 4096 → t.get F.ELOG_STATUS.head = head ∧ t.mem = s.mem ∧ t.get F.ELOG_STATUS.overflowed = 1 ∧ t.get F.ELOG_COUNTS.overflow = min (s.get F.ELOG_COUNTS.overflow + 1) (2 ^ 32 - 1)) ∧
    (s.elogHeld ≠ 4096 → t.get F.ELOG_STATUS.head = (head + 1) % 8192 ∧ t.get F.ELOG_STATUS.overflowed = s.get F.ELOG_STATUS.overflowed ∧ t.get F.ELOG_COUNTS.overflow = s.get F.ELOG_COUNTS.overflow ∧
      SramGets (elogRing + 32 * (head % 4096)) (leBytes 32 e.word) s t)

/-- No entry closes: ring, registers and memory are as they were. -/
def NoneClosed (s t : State) : Prop :=
  t.mem = s.mem ∧ (∀ i, i < 4 → t.reg R.ELOG_LATEST 0 i = s.reg R.ELOG_LATEST 0 i) ∧ t.get F.ELOG_STATUS.head = s.get F.ELOG_STATUS.head ∧
    t.get F.ELOG_STATUS.overflowed = s.get F.ELOG_STATUS.overflowed ∧ t.get F.ELOG_COUNTS.overflow = s.get F.ELOG_COUNTS.overflow

/-- What a closing entry sends: an interrupt where its severity is at least `irq_sev` (R532). -/
def closeSends (s : State) (e : LogEntry) : List Output := if s.get F.ELOG_CTL.irq_sev ≤ e.sev then [.logInterrupt (s.get F.ELOG_CTL.irq_cores)] else []

/-- The number of a report among those of its source in its millisecond; 0 for one that is not counted (R529). -/
def reportNumber (s : State) (q : Report) : Nat :=
  let counts := if s.elog.ms = q.btime / 1000000 then s.elog.counts else []
  match counts.lookup (srcOf q) with
  | some n => n + 1
  | none => if counts.length < 256 then 1 else 0

/-- A report that waits in front is accepted: its class is summarised (R531), one of a masked source is only counted, the eleventh of a source in a millisecond masks it and closes a storm
entry (R529), and any other is copied where it is the first severe one (R530, R532) and joins an open entry or opens one (R527). A report that joins the queue waits behind the others or is
lost (R526). -/
def Claim.ReportsAreAccepted : Prop :=
  ∀ s : State,
    (∀ r : Report, ∃ u, FieldsBecome [lostAfter s] s u ∧ u.elog = logAfter s r ∧ OnlyParts [.regs, .elog] s u ∧ exec (.errorReport (some r)) s = exec (.errorReport none) u) ∧
    (s.elog.queue = [] → ∃ why, exec (.errorReport none) s = .refused (.notEnabled why)) ∧
    ∀ q rest, s.elog.queue = q :: rest → Answers (.errorReport none) s fun t =>
      let i := sumIndex q.cls
      let n := reportNumber s q
      let l := s.elog.opened
      let mine (e : LogEntry) : Prop := e.source = srcOf q ∧ e.typ = q.typ.toNat
      let fresh := LogEntry.ofReport q
      let irqSent : List Output := if 2 ≤ q.sev ∧ s.get F.ELOG_STATUS.first_valid = 0 then [.logInterrupt (s.get F.ELOG_CTL.irq_cores)] else []
      let plain := s.isMasked q = false ∧ n ≤ 10
      t.get F.ELOG_SUM.reports 0 i = min (s.get F.ELOG_SUM.reports 0 i + 1) (2 ^ 32 - 1) ∧ t.get F.ELOG_SUM.last_inst 0 i = q.inst % 2 ^ 12 ∧
        (q.sev < 4 → t.get F.ELOG_SUM.sev 0 i = s.get F.ELOG_SUM.sev 0 i ||| 2 ^ q.sev) ∧ (∀ j, j < 16 → j ≠ i → t.reg R.ELOG_SUM 0 j = s.reg R.ELOG_SUM 0 j) ∧
        t.elog.queue = rest ∧ OnlyRegisters [R.ELOG_SUM, R.ELOG_STATUS, R.ELOG_COUNTS, R.ELOG_FIRST, R.ELOG_LATEST] s t ∧ OnlyParts [.regs, .mem, .elog, .outbox] s t ∧
        (¬ plain → t.elog.opened = l ∧ t.get F.ELOG_COUNTS.masked = min (s.get F.ELOG_COUNTS.masked + 1) (2 ^ 24 - 1) ∧
          (∀ j, j < 4 → t.reg R.ELOG_FIRST 0 j = s.reg R.ELOG_FIRST 0 j) ∧ t.get F.ELOG_STATUS.first_valid = s.get F.ELOG_STATUS.first_valid) ∧
        (s.isMasked q = true → t.elog.masks = s.elog.masks ∧ NoneClosed s t ∧ t.outbox = s.outbox) ∧
        (s.isMasked q = false → 10 < n → t.elog.masks = (s.elog.masks.filter fun m => m.source != srcOf q) ++ [s.newMask q] ∧ t.get F.ELOG_SUM.storm 0 i = 1 ∧
          t.get F.ELOG_STATUS.masked_src = min t.elog.masks.length 255 ∧ EntryClosed (stormEntry q n) s t ∧ t.outbox = s.outbox ++ closeSends s (stormEntry q n)) ∧
        (plain → t.elog.masks = s.elog.masks ∧ t.get F.ELOG_COUNTS.masked = s.get F.ELOG_COUNTS.masked ∧
          (2 ≤ q.sev → s.get F.ELOG_STATUS.first_valid = 0 → EntryIn R.ELOG_FIRST fresh t ∧ t.get F.ELOG_STATUS.first_valid = 1 ∧ t.get F.ELOG_STATUS.irq = 1) ∧
          (q.sev < 2 ∨ s.get F.ELOG_STATUS.first_valid = 1 → (∀ j, j < 4 → t.reg R.ELOG_FIRST 0 j = s.reg R.ELOG_FIRST 0 j) ∧ t.get F.ELOG_STATUS.first_valid = s.get F.ELOG_STATUS.first_valid) ∧
          (∀ e, l.find? (·.matches q) = some e → q.btime < e.firstT + 1000000 → NoneClosed s t ∧ t.outbox = s.outbox ++ irqSent ∧ t.elog.opened.length = l.length ∧
            ∀ (j : Nat) (x : LogEntry), l[j]? = some x → t.elog.opened[j]? = some (if x.matches q then
              { x with lastDt := q.btime - x.firstT, count := min (x.count + 1) 0xFFFFFFFF, differ := x.differ || x.detail != q.detail } else x)) ∧
          (∀ e, l.find? (·.matches q) = some e → e.firstT + 1000000 ≤ q.btime → EntryClosed e s t ∧ t.elog.opened = (l.filter fun x => !x.matches q) ++ [fresh] ∧
            t.outbox = s.outbox ++ irqSent ++ closeSends s e) ∧
          ((∀ e ∈ l, ¬ mine e) → l.length ≠ 64 → NoneClosed s t ∧ t.elog.opened = l ++ [fresh] ∧ t.outbox = s.outbox ++ irqSent) ∧
          ((∀ e ∈ l, ¬ mine e) → l.length = 64 → ∀ e l', l = e :: l' → EntryClosed e s t ∧ t.elog.opened = l' ++ [fresh] ∧ t.outbox = s.outbox ++ irqSent ++ closeSends s e))

/-- The oldest entry closes after its millisecond, and a flush closes every entry, oldest first: the ring takes as many as it has room for, the rest overflow, and the last stands in
`ELOG_LATEST` (R527, R528, R539); the end of a storm's time ends its mask (R529). -/
def Claim.EntriesCloseInOrder : Prop :=
  ∀ s : State,
    (∀ e rest, s.elog.opened = e :: rest → Answers .entryClose s fun t => EntryClosed e s t ∧ t.elog = { s.elog with opened := rest } ∧ t.get F.ELOG_STATUS.open = rest.length % 128 ∧
      t.outbox = s.outbox ++ closeSends s e ∧ OnlyRegisters [R.ELOG_STATUS, R.ELOG_COUNTS, R.ELOG_LATEST] s t ∧ OnlyParts [.regs, .mem, .elog, .outbox] s t) ∧
    (Answers .elogFlush s fun t =>
      let l := s.elog.opened
      let head := s.get F.ELOG_STATUS.head
      let n := min l.length (4096 - s.elogHeld)
      t.elog = { s.elog with opened := [] } ∧ t.get F.ELOG_STATUS.open = 0 ∧ t.outbox = s.outbox ++ l.flatMap (closeSends s) ∧
        (∀ e, l.getLast? = some e → EntryIn R.ELOG_LATEST e t) ∧
        (s.elogHeld ≤ 4096 → t.get F.ELOG_STATUS.head = (head + n) % 8192 ∧ t.get F.ELOG_COUNTS.overflow = min (s.get F.ELOG_COUNTS.overflow + (l.length - n)) (2 ^ 32 - 1) ∧
          ∀ i e, i < n → l[i]? = some e → t.readSram (elogRing + 32 * ((head + i) % 4096)) 32 = leBytes 32 e.word) ∧
        (∀ k, k < spSram + elogRing ∨ spSram + elogRing + 131072 ≤ k → t.byte k = s.byte k) ∧
        OnlyRegisters [R.ELOG_STATUS, R.ELOG_COUNTS, R.ELOG_LATEST] s t ∧ OnlyParts [.regs, .mem, .elog, .outbox] s t) ∧
    ∀ cls inst sub, let src := cls % 256 + inst % 4096 * 256 + sub % 256 * 2 ^ 20
      (∃ m ∈ s.elog.masks, m.source = src) → Answers (.stormMaskEnd cls inst sub) s fun t =>
        t.elog = { s.elog with masks := s.elog.masks.filter fun m => m.source != src } ∧ FieldsBecome [⟨F.ELOG_STATUS.masked_src, 0, 0, min t.elog.masks.length 255⟩] s t ∧ OnlyParts [.regs, .elog] s t

/-! ## Gauges -/

/-- Whether a value falls in a bin (R534). -/
def InBin (v b : Nat) : Prop := if v = 0 then b = 0 else if b = 31 then 2 ^ 30 ≤ v else 1 ≤ b ∧ b ≤ 30 ∧ 2 ^ (b - 1) ≤ v ∧ v < 2 ^ b

/-- The statistics of a period after an event of the source: one that decimation skips is counted as an event alone, another is a sample (R533, R534). -/
def Sampled (x y : GaugeStats) (skipped : Prop) (value : Nat) : Prop :=
  let v := min value 0xFFFFFFFF
  let bin (z : GaugeStats) (b : Nat) : Nat := Tbl.get (fun _ => 0) z.bins b
  y.events = x.events + 1 ∧ y.start = x.start ∧ y.late = x.late ∧
    (skipped → y = { x with events := x.events + 1 }) ∧
    (¬ skipped → y.mn = min x.mn v ∧ y.mx = max x.mx v ∧ y.sum = min (x.sum + v) (2 ^ 64 - 1) ∧ y.count = min (x.count + 1) 0xFFFFFFFF ∧
      ∀ b, (InBin v b → bin y b = min (bin x b + 1) 0xFFFFFFFF) ∧ (¬ InBin v b → bin y b = bin x b))

/-- A sample goes to the period that holds its stamp: the live one, or the ended one that waits for its latch; an older one is counted as late (R533-R536). A gauge that is not live
or has no source takes none (R537), and so does one of a broken sensor (R533); a suspect diode is counted as above every value (R444; log entry 80). -/
def Obligations.SamplesGoToTheirPeriods : Prop :=
  ∀ (g : GaugeId) (value : Nat) (stamp : Word) (s : State),
    let x := vget s.gauges g
    let n := s.get F.GAUGE_STATUS.src_now g.val
    let code := n / 2 ^ 12
    let inst := n % 2 ^ 12
    let unread := (code = 0x10 ∧ s.isBroken inst = true) ∨ (code = 0x11 ∧ s.isBroken (752 + inst) = true)
    let takes := s.get F.GAUGE_STATUS.live g.val = 1 ∧ sourceOk code inst = true ∧ ¬ unread
    let v := if code = 0x10 ∧ s.isSuspect inst = true then 0xFFFFFFFF else value
    let skipped (p : GaugeStats) : Prop := sourceIsEvent code = true ∧ (p.events + 1) % 2 ^ x.decimNow ≠ 0
    let inEnded := ∃ p e, x.ended = some (p, e) ∧ p.start ≤ stamp.toNat
    (¬ takes → exec (.gaugeSample g value stamp) s = .next s) ∧
    (takes → Answers (.gaugeSample g value stamp) s fun t =>
      let y := vget t.gauges g
      (∀ h, h ≠ g → vget t.gauges h = vget s.gauges h) ∧ y.lenNow = x.lenNow ∧ y.decimNow = x.decimNow ∧ OnlyParts [.gauges] s t ∧
        (x.live.start ≤ stamp.toNat → y.ended = x.ended ∧ Sampled x.live y.live (skipped x.live) v) ∧
        (stamp.toNat < x.live.start → inEnded → y.live = x.live ∧ ∃ p q e, x.ended = some (p, e) ∧ y.ended = some (q, e) ∧ Sampled p q (skipped p) v) ∧
        (stamp.toNat < x.live.start → ¬ inEnded → y.ended = x.ended ∧ y.live = { x.live with late := min (x.live.late + 1) 0xFFFFFFFF }))

/-- A period stands in a gauge's registers, and its seq has advanced (R536, R541). -/
def Latched (g : GaugeId) (x : GaugeStats) (endT stepped part : Nat) (s t : State) : Prop :=
  let i := g.val
  t.get F.GAUGE_MINMAX.min i = x.mn % 2 ^ 32 ∧ t.get F.GAUGE_MINMAX.max i = x.mx % 2 ^ 32 ∧ t.get F.GAUGE_COUNT.count i = x.count % 2 ^ 32 ∧ t.get F.GAUGE_COUNT.late i = x.late % 2 ^ 32 ∧
    t.reg R.GAUGE_SUM i = x.sum % 2 ^ 64 ∧ t.reg R.GAUGE_START i = x.start % 2 ^ 64 ∧ t.reg R.GAUGE_END i = endT % 2 ^ 64 ∧
    (∀ j, j < 16 → t.reg R.GAUGE_HIST i j = (Tbl.get (fun _ => 0) x.bins (2 * j) + Tbl.get (fun _ => 0) x.bins (2 * j + 1) * 2 ^ 32) % 2 ^ 64) ∧
    t.get F.GAUGE_STATUS.stepped i = stepped ∧ t.get F.GAUGE_STATUS.partial i = part ∧ t.get F.GAUGE_STATUS.seq i = (s.get F.GAUGE_STATUS.seq i + 1) % 2 ^ 16

/-- The registers of a gauge that a latch or a boundary writes, with the count of masks. -/
def gaugeKeys (g : GaugeId) : List Nat :=
  [R.GAUGE_MINMAX.key g.val 0, R.GAUGE_COUNT.key g.val 0, R.GAUGE_SUM.key g.val 0, R.GAUGE_START.key g.val 0, R.GAUGE_END.key g.val 0, R.GAUGE_STATUS.key g.val 0, R.ELOG_STATUS.key 0 0] ++
    (List.range 16).map (R.GAUGE_HIST.key g.val)

/-- The masks that a gauge bounds end, and nothing else of the log changes (R529). -/
def MasksEnd (g : GaugeId) (s t : State) : Prop :=
  t.elog = { s.elog with masks := s.elog.masks.filter fun m => m.gauge != some g } ∧ t.get F.ELOG_STATUS.masked_src = min t.elog.masks.length 255

/-- At a boundary the live period ends and waits for its latch, a period that still waits is latched, and the next begins with the settings written (R535-R537). Disabling a live gauge
latches it at once as partial (R537); the latch copies the ended period (R536, R541). -/
def Obligations.PeriodsEndAndAreLatched : Prop :=
  ∀ (g : GaugeId) (s : State),
    let i := g.val
    let x := vget s.gauges g
    let live := s.get F.GAUGE_STATUS.live i = 1
    let others (t : State) : Prop := ∀ h, h ≠ g → vget t.gauges h = vget s.gauges h
    let wasLatched (t : State) : Prop := (∀ p e, x.ended = some (p, e) → Latched g p e 0 0 s t) ∧ (x.ended = none → t.get F.GAUGE_STATUS.seq i = s.get F.GAUGE_STATUS.seq i)
    (s.get F.GAUGE_CFG.enable i = 1 → x.lenNow ≠ 0 → Answers (.periodBoundary g) s fun t =>
      let y := vget t.gauges g
      y.live = GaugeStats.fresh y.live.start ∧ y.live.start % x.lenNow = 0 ∧ y.lenNow = s.get F.GAUGE_PERIOD.length i ∧ y.decimNow = s.get F.GAUGE_CFG.decim i ∧
        (live → x.live.start < y.live.start ∧ y.live.start ≤ x.live.start + x.lenNow ∧ y.ended = some (x.live, y.live.start)) ∧
        (¬ live → s.btime ≤ y.live.start ∧ y.live.start < s.btime + x.lenNow ∧ y.ended = none) ∧
        wasLatched t ∧ MasksEnd g s t ∧ t.get F.GAUGE_STATUS.live i = 1 ∧ t.get F.GAUGE_STATUS.src_now i = s.get F.GAUGE_CFG.source i * 2 ^ 12 + s.get F.GAUGE_CFG.inst i ∧
        (sourceOk (s.get F.GAUGE_CFG.source i) (s.get F.GAUGE_CFG.inst i) = false → t.get F.GAUGE_STATUS.bad_cfg i = 1) ∧
        (sourceOk (s.get F.GAUGE_CFG.source i) (s.get F.GAUGE_CFG.inst i) = true → t.get F.GAUGE_STATUS.bad_cfg i = s.get F.GAUGE_STATUS.bad_cfg i) ∧
        others t ∧ OnlyKeys (gaugeKeys g) s t ∧ OnlyParts [.regs, .elog, .gauges] s t) ∧
    (∀ p e, x.ended = some (p, e) → Answers (.gaugeLatch g) s fun t => Latched g p e 0 0 s t ∧ vget t.gauges g = { x with ended := none } ∧ others t ∧
      OnlyKeys (gaugeKeys g) s t ∧ OnlyParts [.regs, .gauges] s t) ∧
    ∀ v : Word, Answers (.gaugeCfgWrite g v) s fun t =>
      let written := t.get F.GAUGE_CFG.enable i = v.toNat % 2 ∧ t.get F.GAUGE_CFG.source i = v.toNat / 2 % 2 ^ 8 ∧ t.get F.GAUGE_CFG.inst i = v.toNat / 2 ^ 9 % 2 ^ 12 ∧ t.get F.GAUGE_CFG.decim i = v.toNat / 2 ^ 21 % 16
      let src := t.get F.GAUGE_CFG.source i
      written ∧ others t ∧ OnlyKeys (R.GAUGE_CFG.key i 0 :: gaugeKeys g) s t ∧ OnlyParts [.regs, .elog, .gauges] s t ∧
        (live → v.toNat % 2 = 1 → t.gauges = s.gauges ∧ t.elog = s.elog ∧ t.reg R.GAUGE_STATUS i = s.reg R.GAUGE_STATUS i) ∧
        (live → v.toNat % 2 = 0 → t.get F.GAUGE_STATUS.live i = 0 ∧ t.get F.GAUGE_STATUS.partial i = 1 ∧ t.get F.GAUGE_STATUS.stepped i = 0 ∧ t.reg R.GAUGE_END i = s.btime % 2 ^ 64 ∧
          t.get F.GAUGE_COUNT.count i = x.live.count % 2 ^ 32 ∧ t.reg R.GAUGE_START i = x.live.start % 2 ^ 64 ∧
          t.get F.GAUGE_STATUS.seq i = (s.get F.GAUGE_STATUS.seq i + if x.ended = none then 1 else 2) % 2 ^ 16 ∧ vget t.gauges g = { x with live := GaugeStats.fresh s.btime, ended := none } ∧ MasksEnd g s t) ∧
        (¬ live → t.elog = s.elog ∧ t.get F.GAUGE_STATUS.src_now i = src * 2 ^ 12 + t.get F.GAUGE_CFG.inst i ∧ vget t.gauges g = { x with decimNow := t.get F.GAUGE_CFG.decim i } ∧
          t.get F.GAUGE_STATUS.bad_cfg i = if sourceOk src (t.get F.GAUGE_CFG.inst i) then s.get F.GAUGE_STATUS.bad_cfg i else 1)

/-! ## Pins -/

/-- Only the bit of an input differs in a field of 15 bits. -/
def OneInput (f : Field) (n : Nat) (b : Bool) (s t : State) : Prop := ∀ j, j < 15 → nbit (t.get f) j = if j = n then b else nbit (s.get f) j

/-- An accepted level shows in `PIN_IN`; its edge is counted and, at an active edge or either edge of inputs 5 and 6, noted with its interrupt where enabled, but not while the
input holds a fault or drives its land (R549-R551, R559, R560). RESET_N and VPM_PG show in `PIN_STATUS`. -/
def Claim.FilteredEdgesHaveTheirEffect : Prop :=
  ∀ (level : Bool) (s : State),
    (∀ n : PinId, vget s.pins.levels ⟨n.val, by omega⟩ ≠ level → Answers (.inputEdge ⟨n.val, by omega⟩ level) s fun t =>
      let land := if s.gpioDriven n.val then nbit (s.get F.PIN_GPIO.out) (n.val - 7) else level
      let active := decide (land = s.activeHigh n.val)
      let deaf := s.pinFaulted n.val = true ∨ s.gpioDriven n.val = true
      let noted := ¬ deaf ∧ (active = true ∨ n.val = 5 ∨ n.val = 6)
      t.pins = { s.pins with levels := vset s.pins.levels ⟨n.val, by omega⟩ level, edges := t.pins.edges } ∧
        (∀ m, vget t.pins.edges m = if m = n ∧ ¬ deaf then vget s.pins.edges m + 1 else vget s.pins.edges m) ∧
        OneInput F.PIN_IN.active n.val active s t ∧ (noted → OneInput F.PIN_EDGE.edge n.val true s t) ∧ (¬ noted → t.get F.PIN_EDGE.edge = s.get F.PIN_EDGE.edge) ∧
        (noted → nbit (s.get F.PIN_IRQ_EN.enable) n.val = true → t.outbox = s.outbox ++ [.pinInterrupt n.val]) ∧
        (¬ (noted ∧ nbit (s.get F.PIN_IRQ_EN.enable) n.val = true) → t.outbox = s.outbox) ∧
        OnlyKeys [R.PIN_IN.key 0 0, R.PIN_EDGE.key 0 0] s t ∧ OnlyParts [.regs, .pins, .outbox] s t) ∧
    ∀ n : Fin 17, (n.val = 15 ∨ n.val = 16) → vget s.pins.levels n ≠ level → Answers (.inputEdge n level) s fun t =>
      FieldsBecome [⟨if n.val = 15 then F.PIN_STATUS.reset_n else F.PIN_STATUS.vpm_pg, 0, 0, b2n level⟩] s t ∧ t.pins = { s.pins with levels := vset s.pins.levels n level } ∧ OnlyParts [.regs, .pins] s t

/-- At the end of a window every input with more than 1,000 edges has a chatter fault, and a new window starts; an input held active past its hold time is stuck; each fault is logged (R550). -/
def Claim.InputsAreJudged : Prop :=
  ∀ s : State,
    (Answers .chatterWindowEnd s fun t =>
      (∀ n : PinId, nbit (t.get F.PIN_FAULT.chatter) n.val = (nbit (s.get F.PIN_FAULT.chatter) n.val || decide (1000 < vget s.pins.edges n)) ∧ vget t.pins.edges n = 0) ∧
        t.get F.PIN_FAULT.stuck = s.get F.PIN_FAULT.stuck ∧ t.pins = { s.pins with edges := t.pins.edges } ∧
        (s.elog.queue.length ≤ 241 → t.elog = { s.elog with queue := t.elog.queue } ∧
          t.elog.queue = s.elog.queue ++ ((List.finRange 15).filter fun n => decide (1000 < vget s.pins.edges n)).map fun n => eventOf s 0x0A01 0x30 0 1 n.val) ∧
        OnlyKeys [R.PIN_FAULT.key 0 0, R.ELOG_COUNTS.key 0 0] s t ∧ OnlyParts [.regs, .pins, .elog] s t) ∧
    ∀ n : PinId, s.inputActive n = true → s.holdTime n ≠ 0 → s.pinFaulted n.val = false → s.gpioDriven n.val = false → Answers (.inputStuck n) s fun t =>
      OneInput F.PIN_FAULT.stuck n.val true s t ∧ t.get F.PIN_FAULT.chatter = s.get F.PIN_FAULT.chatter ∧ t.elog = logAfter s (eventOf s 0x0A02 0x30 0 1 n.val) ∧
        OnlyKeys [R.PIN_FAULT.key 0 0, R.ELOG_COUNTS.key 0 0] s t ∧ OnlyParts [.regs, .elog] s t

/-! ## Statements in several parts -/

/-- Every step keeps the sparse tables canonical, blown fuses blown and the error log within its bounds. -/
def Obligations.EveryStepKeepsTablesFusesAndLogBounds : Prop :=
  Claim.EveryStepKeepsTheTablesCanonical ∧ Claim.NoStepUnblowsAFuse ∧ Claim.EveryStepKeepsTheLogsBounds

/-- Only records and the counters blow fuses, and what the block has sent is never taken back. -/
def Obligations.OnlyRecordsBlowFusesAndOutputsOnlyGrow : Prop :=
  Claim.OnlyRecordsBlowFuses ∧ Claim.EveryStepOnlyAddsToTheOutputs

/-- Reads clear RC fields alone, stores take writable bits alone, and a write by offset is the command of its register. -/
def Obligations.RegisterAccessesFollowTheirFields : Prop :=
  Claim.ClearingReadsClearRcFieldsAlone ∧ Claim.WritesBesideTheRegistersHaveNoEffect ∧ Claim.StoringWritesTakeWritableBitsAlone ∧ Claim.WritesByOffsetAreTheCommandsOfTheirRegisters

/-- Limited writes, command bits, acknowledging writes and the tails of the rings. -/
def Obligations.RegisterWritesLimitCommandAndAcknowledge : Prop :=
  Claim.LimitedWritesStoreNoMoreThanTheirLimits ∧ Claim.CommandBitsActOnTheFieldsWrittenWithThem ∧ Claim.AcknowledgingWritesClearOrMovePointers

/-- Branches, loops, yields, phases, settings and the halt of an engine. -/
def Obligations.ControlInstructionsSteerTheEngine : Prop :=
  Claim.BranchesAndLoopsSetTheIndex ∧ Claim.YieldPhaseConfigAndHalt

/-- Completion, retirement, the catch and the entry into FAULTED. -/
def Obligations.InstructionsCompleteRetireAndFault : Prop :=
  Claim.CompletionReleasesResults ∧ Claim.RetirementCatchesOrFaults ∧ Claim.FaultedHoldsItsRecord

/-- Vector, SFN, NRM, attention and conversion instructions write their results element by element. -/
def Obligations.VectorAndUnitInstructionsWriteTheirResults : Prop :=
  Claim.VectorInstructionsMapTheirElements ∧ Claim.OtherUnitsWriteTheirResults

/-- Matrix products keep and drain their accumulators; a function image loads, then swaps. -/
def Obligations.MatrixProductsAndFunctionImages : Prop :=
  Claim.MatrixProductsKeepTheirAccumulators ∧ Claim.FunctionImagesLoadThenSwap

/-- Accesses follow the address map, drained writes are stored or sent, and grants follow issue order. -/
def Obligations.AccessesFollowTheMapAndGrantsTheOrder : Prop :=
  Claim.AccessesFollowTheAddressMap ∧ Claim.DrainedWritesAreStoredOrSent ∧ Claim.GrantsFollowIssueOrder

/-- Scalar loads and stores, page loads and copies move the bytes that they name. -/
def Obligations.TransfersAndCopiesMoveBytes : Prop :=
  Claim.ScalarAndPageTransfers ∧ Claim.CopiesWriteTheirSource

/-- Operands return, results drain in order, scale records follow, and a timed wait ends with TIMEOUT. -/
def Obligations.StreamsReturnDrainAndTimeOut : Prop :=
  Claim.ReturnedOperandsJoinTheirInstruction ∧ Claim.DrainsWriteInOrder ∧ Claim.TimedInstructionsEndWithTimeout

/-- The Roundabout checks epochs, keeps flags and answers watches. -/
def Obligations.FlagsAndWatchesAtTheRoundabout : Prop :=
  Claim.TheRoundaboutChecksTheEpoch ∧ Claim.FlagsTakeTheirValues ∧ Claim.FlagWritesChangeTheFlagsWritten ∧ Claim.WatchesAreAnsweredRefusedOrKept

/-- Arrivals count toward a generation of a barrier and release it. -/
def Obligations.BarriersCountAndRelease : Prop :=
  Claim.ArrivalsCountTowardAGeneration ∧ Claim.BarriersReleaseByGeneration

/-- Broadcasts are presented in order, accepted, recall their lines and release their waves. -/
def Obligations.BroadcastsAreAcceptedRecalledAndReleased : Prop :=
  Claim.BroadcastsArePresentedInOrder ∧ Claim.BroadcastsAreAcceptedOrComplete ∧ Claim.RecallsDropTheLinesOfTheRows ∧ Claim.WavesAndCheckPasses

/-- Bank results cross their buses, are written, and errors reach BAU.WAIT. -/
def Obligations.BroadcastResultsAreCarriedAndDelivered : Prop :=
  Claim.BusesCarryWhatWaits ∧ Claim.ResultsAreWrittenThenTheBroadcastEnds ∧ Claim.WaitsDeliverErrorsAndModesApply

/-- Start, suspend, resume, cancel and clear act in the states that allow them. -/
def Obligations.EngineCommandsActInTheirStates : Prop :=
  Claim.EngineCommandsActInTheirStates ∧ Claim.CancelledEnginesReturnToIdle ∧ Claim.YieldsSuspend

/-- Contexts are saved and restored, and firmware loads pages. -/
def Obligations.ContextsAndPagesByFirmware : Prop :=
  Claim.ContextsAreSavedAndRestored ∧ Claim.PageLoadsByFirmware

/-- Landings queue, banks serve and refresh in turn, and scrub corrects single errors. -/
def Obligations.LandingsBanksRefreshAndScrub : Prop :=
  Claim.LandingsQueueAndBanksServe ∧ Claim.BanksRefreshInTurn ∧ Claim.ScrubCorrectsSingleErrors

/-- Squares serve lines, windows and fills, change windows and flush. -/
def Obligations.SquaresServeFillAndFlush : Prop :=
  Claim.SquaresServeLinesWindowsAndFills ∧ Claim.FillsAllocateOrFail ∧ Claim.WindowsAndFlushes

/-- Multicast copies branch, held requests end with a reset, sweeps set taps, and low margins are logged. -/
def Obligations.MulticastsResetsAndMargins : Prop :=
  Claim.MulticastsBranchToTheirDestinations ∧ Claim.DeliveredRequestsEndWithTheReset ∧ Claim.SweepsTakeTheMiddleTap ∧ Claim.LowMarginsAreLogged

/-- A commit stages an epoch, and units apply it at their boundaries. -/
def Obligations.EpochsAreCommittedAndApplied : Prop :=
  Claim.CommitsStageAnEpoch ∧ Claim.UnitsApplyAtTheirBoundaries

/-- Engine and layer resets and their releases. -/
def Obligations.EngineAndLayerResetsAndReleases : Prop :=
  Claim.EngineResetsAndReleases ∧ Claim.LayerResetsAndReleases

/-- Whole-block resets have their causes, and start-up begins when nothing holds the block. -/
def Obligations.WholeBlockResetsAndTheirHolds : Prop :=
  Claim.WholeBlockResetsHaveTheirCauses ∧ Claim.HoldsEndAndTheAlwaysOnDomainStarts

/-- Start-up brings up power and fuses and loads a verified image. -/
def Obligations.StartUpBringsUpPowerFusesAndImages : Prop :=
  Claim.StartUpBringsUpPowerAndFuses ∧ Claim.TheImageOfAVerifiedSlotIsLoaded

/-- Recorded defects take effect, and start-up ends in service. -/
def Obligations.StartUpRepairsAndEndsInService : Prop :=
  Claim.RecordedDefectsTakeEffect ∧ Claim.StartUpEndsInService

/-- Accesses of the control cores, and seals and appends of the flash. -/
def Obligations.CoresAccessTheBlockAndTheFlash : Prop :=
  Claim.CoresAccessControlSpaceAndMemory ∧ Claim.SealsAndAppendsWriteTheFlash

/-- Flits and packets have their layouts, flits are accepted in order or discarded, and idle flits carry credits. -/
def Obligations.FlitsAreAcceptedOrDiscarded : Prop :=
  Claim.FlitsAndPacketsHaveTheirLayouts ∧ Claim.FlitsAreAcceptedOrDiscarded ∧ Claim.IdleFlitsCarryCredits

/-- Remote accesses leave in pieces, are served at their target and end. -/
def Obligations.RemoteAccessesLeaveAreServedAndEnd : Prop :=
  Claim.AccessesLeaveInPieces ∧ Claim.RemoteRequestsAreServedAndAnswered ∧ Claim.RemoteCompletionsEndTheirRequests

/-- Lost partners are probed and lost, and block time follows its parent. -/
def Obligations.PartnersAreProbedAndTimeFollowsTheParent : Prop :=
  Claim.LostPartnersAreProbedAndLost ∧ Claim.BlockTimeFollowsItsParent

/-- Sealed records and flits open under their keys, and frames go through the rings of the Frontage. -/
def Obligations.FramesGoThroughTheRings : Prop :=
  Claim.SealedRecordsAndFlitsOpen ∧ Claim.FramesGoThroughTheRings

/-- Sessions begin and end, and their messages are taken in order. -/
def Obligations.SessionsBeginMessageAndEnd : Prop :=
  Claim.SessionsBeginAndEnd ∧ Claim.MessagesAreTakenInOrder

/-- Telemetry, the mailbox, droop, current, the block cap and phase hints. -/
def Obligations.TelemetryCapsAndHints : Prop :=
  Claim.TelemetryAndTheMailbox ∧ Claim.DroopAndCurrentAreGuarded ∧ Claim.PowerIsCappedAndHinted

/-- The security mailbox checks its arguments and ends, and the TAP serves its instructions. -/
def Obligations.TheMailboxAndTheTapServe : Prop :=
  Claim.TheMailboxChecksAndEnds ∧ Claim.TheTapServesItsInstructions

/-- The error log accepts reports, masks storms and closes entries in order. -/
def Obligations.TheLogAcceptsAndCloses : Prop :=
  Claim.ReportsAreAccepted ∧ Claim.EntriesCloseInOrder

/-- Filtered edges have their effect, and inputs are judged for faults. -/
def Obligations.InputsShowEdgesAndFaults : Prop :=
  Claim.FilteredEdgesHaveTheirEffect ∧ Claim.InputsAreJudged
end

