-- ==== Sys2Proof/Laws/State.lean ====
section
/-! SUPPORT. What each update of the state does to each field: one lemma per field and update. -/
namespace Sys2Proof.Machine

variable (s : State)

@[simp] theorem State.wr_regs (key v : Nat) : (s.wr key v).regs = Tbl.set regReset s.regs key (BitVec.ofNat 64 v) := rfl
@[simp] theorem State.wr_mem (key v : Nat) : (s.wr key v).mem = s.mem := by simp only [State.wr]
@[simp] theorem State.wr_clock (key v : Nat) : (s.wr key v).clock = s.clock := by simp only [State.wr]
@[simp] theorem State.wr_pins (key v : Nat) : (s.wr key v).pins = s.pins := by simp only [State.wr]
@[simp] theorem State.wr_engines (key v : Nat) : (s.wr key v).engines = s.engines := by simp only [State.wr]
@[simp] theorem State.wr_hints (key v : Nat) : (s.wr key v).hints = s.hints := by simp only [State.wr]
@[simp] theorem State.wr_banks (key v : Nat) : (s.wr key v).banks = s.banks := by simp only [State.wr]
@[simp] theorem State.wr_marks (key v : Nat) : (s.wr key v).marks = s.marks := by simp only [State.wr]
@[simp] theorem State.wr_landq (key v : Nat) : (s.wr key v).landq = s.landq := by simp only [State.wr]
@[simp] theorem State.wr_scrubAt (key v : Nat) : (s.wr key v).scrubAt = s.scrubAt := by simp only [State.wr]
@[simp] theorem State.wr_spareRow (key v : Nat) : (s.wr key v).spareRow = s.spareRow := by simp only [State.wr]
@[simp] theorem State.wr_squares (key v : Nat) : (s.wr key v).squares = s.squares := by simp only [State.wr]
@[simp] theorem State.wr_mesh (key v : Nat) : (s.wr key v).mesh = s.mesh := by simp only [State.wr]
@[simp] theorem State.wr_parked (key v : Nat) : (s.wr key v).parked = s.parked := by simp only [State.wr]
@[simp] theorem State.wr_bars (key v : Nat) : (s.wr key v).bars = s.bars := by simp only [State.wr]
@[simp] theorem State.wr_watches (key v : Nat) : (s.wr key v).watches = s.watches := by simp only [State.wr]
@[simp] theorem State.wr_lateLogged (key v : Nat) : (s.wr key v).lateLogged = s.lateLogged := by simp only [State.wr]
@[simp] theorem State.wr_taps (key v : Nat) : (s.wr key v).taps = s.taps := by simp only [State.wr]
@[simp] theorem State.wr_margins (key v : Nat) : (s.wr key v).margins = s.margins := by simp only [State.wr]
@[simp] theorem State.wr_power (key v : Nat) : (s.wr key v).power = s.power := by simp only [State.wr]
@[simp] theorem State.wr_net (key v : Nat) : (s.wr key v).net = s.net := by simp only [State.wr]
@[simp] theorem State.wr_boot (key v : Nat) : (s.wr key v).boot = s.boot := by simp only [State.wr]
@[simp] theorem State.wr_sec (key v : Nat) : (s.wr key v).sec = s.sec := by simp only [State.wr]
@[simp] theorem State.wr_front (key v : Nat) : (s.wr key v).front = s.front := by simp only [State.wr]
@[simp] theorem State.wr_thermal (key v : Nat) : (s.wr key v).thermal = s.thermal := by simp only [State.wr]
@[simp] theorem State.wr_elog (key v : Nat) : (s.wr key v).elog = s.elog := by simp only [State.wr]
@[simp] theorem State.wr_gauges (key v : Nat) : (s.wr key v).gauges = s.gauges := by simp only [State.wr]
@[simp] theorem State.wr_outbox (key v : Nat) : (s.wr key v).outbox = s.outbox := by simp only [State.wr]
@[simp] theorem State.wr_drawn (key v : Nat) : (s.wr key v).drawn = s.drawn := by simp only [State.wr]
@[simp] theorem State.wr_pending (key v : Nat) : (s.wr key v).pending = s.pending := by simp only [State.wr]

@[simp] theorem State.put_regs (f : Field) (v i j : Nat) : (s.put f v i j).regs = Tbl.set regReset s.regs (f.reg.key i j) (BitVec.ofNat 64 (putBits (s.rd (f.reg.key i j)) f.lo f.w v)) := rfl
@[simp] theorem State.put_mem (f : Field) (v i j : Nat) : (s.put f v i j).mem = s.mem := State.wr_mem ..
@[simp] theorem State.put_clock (f : Field) (v i j : Nat) : (s.put f v i j).clock = s.clock := State.wr_clock ..
@[simp] theorem State.put_pins (f : Field) (v i j : Nat) : (s.put f v i j).pins = s.pins := State.wr_pins ..
@[simp] theorem State.put_engines (f : Field) (v i j : Nat) : (s.put f v i j).engines = s.engines := State.wr_engines ..
@[simp] theorem State.put_hints (f : Field) (v i j : Nat) : (s.put f v i j).hints = s.hints := State.wr_hints ..
@[simp] theorem State.put_banks (f : Field) (v i j : Nat) : (s.put f v i j).banks = s.banks := State.wr_banks ..
@[simp] theorem State.put_marks (f : Field) (v i j : Nat) : (s.put f v i j).marks = s.marks := State.wr_marks ..
@[simp] theorem State.put_landq (f : Field) (v i j : Nat) : (s.put f v i j).landq = s.landq := State.wr_landq ..
@[simp] theorem State.put_scrubAt (f : Field) (v i j : Nat) : (s.put f v i j).scrubAt = s.scrubAt := State.wr_scrubAt ..
@[simp] theorem State.put_spareRow (f : Field) (v i j : Nat) : (s.put f v i j).spareRow = s.spareRow := State.wr_spareRow ..
@[simp] theorem State.put_squares (f : Field) (v i j : Nat) : (s.put f v i j).squares = s.squares := State.wr_squares ..
@[simp] theorem State.put_mesh (f : Field) (v i j : Nat) : (s.put f v i j).mesh = s.mesh := State.wr_mesh ..
@[simp] theorem State.put_parked (f : Field) (v i j : Nat) : (s.put f v i j).parked = s.parked := State.wr_parked ..
@[simp] theorem State.put_bars (f : Field) (v i j : Nat) : (s.put f v i j).bars = s.bars := State.wr_bars ..
@[simp] theorem State.put_watches (f : Field) (v i j : Nat) : (s.put f v i j).watches = s.watches := State.wr_watches ..
@[simp] theorem State.put_lateLogged (f : Field) (v i j : Nat) : (s.put f v i j).lateLogged = s.lateLogged := State.wr_lateLogged ..
@[simp] theorem State.put_taps (f : Field) (v i j : Nat) : (s.put f v i j).taps = s.taps := State.wr_taps ..
@[simp] theorem State.put_margins (f : Field) (v i j : Nat) : (s.put f v i j).margins = s.margins := State.wr_margins ..
@[simp] theorem State.put_power (f : Field) (v i j : Nat) : (s.put f v i j).power = s.power := State.wr_power ..
@[simp] theorem State.put_net (f : Field) (v i j : Nat) : (s.put f v i j).net = s.net := State.wr_net ..
@[simp] theorem State.put_boot (f : Field) (v i j : Nat) : (s.put f v i j).boot = s.boot := State.wr_boot ..
@[simp] theorem State.put_sec (f : Field) (v i j : Nat) : (s.put f v i j).sec = s.sec := State.wr_sec ..
@[simp] theorem State.put_front (f : Field) (v i j : Nat) : (s.put f v i j).front = s.front := State.wr_front ..
@[simp] theorem State.put_thermal (f : Field) (v i j : Nat) : (s.put f v i j).thermal = s.thermal := State.wr_thermal ..
@[simp] theorem State.put_elog (f : Field) (v i j : Nat) : (s.put f v i j).elog = s.elog := State.wr_elog ..
@[simp] theorem State.put_gauges (f : Field) (v i j : Nat) : (s.put f v i j).gauges = s.gauges := State.wr_gauges ..
@[simp] theorem State.put_outbox (f : Field) (v i j : Nat) : (s.put f v i j).outbox = s.outbox := State.wr_outbox ..
@[simp] theorem State.put_drawn (f : Field) (v i j : Nat) : (s.put f v i j).drawn = s.drawn := State.wr_drawn ..
@[simp] theorem State.put_pending (f : Field) (v i j : Nat) : (s.put f v i j).pending = s.pending := State.wr_pending ..

@[simp] theorem State.setReg_regs (r : Reg) (v i j : Nat) : (s.setReg r v i j).regs = Tbl.set regReset s.regs (r.key i j) (BitVec.ofNat 64 v) := rfl
@[simp] theorem State.setReg_mem (r : Reg) (v i j : Nat) : (s.setReg r v i j).mem = s.mem := State.wr_mem ..
@[simp] theorem State.setReg_clock (r : Reg) (v i j : Nat) : (s.setReg r v i j).clock = s.clock := State.wr_clock ..
@[simp] theorem State.setReg_pins (r : Reg) (v i j : Nat) : (s.setReg r v i j).pins = s.pins := State.wr_pins ..
@[simp] theorem State.setReg_engines (r : Reg) (v i j : Nat) : (s.setReg r v i j).engines = s.engines := State.wr_engines ..
@[simp] theorem State.setReg_hints (r : Reg) (v i j : Nat) : (s.setReg r v i j).hints = s.hints := State.wr_hints ..
@[simp] theorem State.setReg_banks (r : Reg) (v i j : Nat) : (s.setReg r v i j).banks = s.banks := State.wr_banks ..
@[simp] theorem State.setReg_marks (r : Reg) (v i j : Nat) : (s.setReg r v i j).marks = s.marks := State.wr_marks ..
@[simp] theorem State.setReg_landq (r : Reg) (v i j : Nat) : (s.setReg r v i j).landq = s.landq := State.wr_landq ..
@[simp] theorem State.setReg_scrubAt (r : Reg) (v i j : Nat) : (s.setReg r v i j).scrubAt = s.scrubAt := State.wr_scrubAt ..
@[simp] theorem State.setReg_spareRow (r : Reg) (v i j : Nat) : (s.setReg r v i j).spareRow = s.spareRow := State.wr_spareRow ..
@[simp] theorem State.setReg_squares (r : Reg) (v i j : Nat) : (s.setReg r v i j).squares = s.squares := State.wr_squares ..
@[simp] theorem State.setReg_mesh (r : Reg) (v i j : Nat) : (s.setReg r v i j).mesh = s.mesh := State.wr_mesh ..
@[simp] theorem State.setReg_parked (r : Reg) (v i j : Nat) : (s.setReg r v i j).parked = s.parked := State.wr_parked ..
@[simp] theorem State.setReg_bars (r : Reg) (v i j : Nat) : (s.setReg r v i j).bars = s.bars := State.wr_bars ..
@[simp] theorem State.setReg_watches (r : Reg) (v i j : Nat) : (s.setReg r v i j).watches = s.watches := State.wr_watches ..
@[simp] theorem State.setReg_lateLogged (r : Reg) (v i j : Nat) : (s.setReg r v i j).lateLogged = s.lateLogged := State.wr_lateLogged ..
@[simp] theorem State.setReg_taps (r : Reg) (v i j : Nat) : (s.setReg r v i j).taps = s.taps := State.wr_taps ..
@[simp] theorem State.setReg_margins (r : Reg) (v i j : Nat) : (s.setReg r v i j).margins = s.margins := State.wr_margins ..
@[simp] theorem State.setReg_power (r : Reg) (v i j : Nat) : (s.setReg r v i j).power = s.power := State.wr_power ..
@[simp] theorem State.setReg_net (r : Reg) (v i j : Nat) : (s.setReg r v i j).net = s.net := State.wr_net ..
@[simp] theorem State.setReg_boot (r : Reg) (v i j : Nat) : (s.setReg r v i j).boot = s.boot := State.wr_boot ..
@[simp] theorem State.setReg_sec (r : Reg) (v i j : Nat) : (s.setReg r v i j).sec = s.sec := State.wr_sec ..
@[simp] theorem State.setReg_front (r : Reg) (v i j : Nat) : (s.setReg r v i j).front = s.front := State.wr_front ..
@[simp] theorem State.setReg_thermal (r : Reg) (v i j : Nat) : (s.setReg r v i j).thermal = s.thermal := State.wr_thermal ..
@[simp] theorem State.setReg_elog (r : Reg) (v i j : Nat) : (s.setReg r v i j).elog = s.elog := State.wr_elog ..
@[simp] theorem State.setReg_gauges (r : Reg) (v i j : Nat) : (s.setReg r v i j).gauges = s.gauges := State.wr_gauges ..
@[simp] theorem State.setReg_outbox (r : Reg) (v i j : Nat) : (s.setReg r v i j).outbox = s.outbox := State.wr_outbox ..
@[simp] theorem State.setReg_drawn (r : Reg) (v i j : Nat) : (s.setReg r v i j).drawn = s.drawn := State.wr_drawn ..
@[simp] theorem State.setReg_pending (r : Reg) (v i j : Nat) : (s.setReg r v i j).pending = s.pending := State.wr_pending ..

@[simp] theorem State.setByte_regs (key : Nat) (b : Byte) : (s.setByte key b).regs = s.regs := by simp only [State.setByte]
@[simp] theorem State.setByte_mem (key : Nat) (b : Byte) : (s.setByte key b).mem = Tbl.set memDefault s.mem key b := rfl
@[simp] theorem State.setByte_clock (key : Nat) (b : Byte) : (s.setByte key b).clock = s.clock := by simp only [State.setByte]
@[simp] theorem State.setByte_pins (key : Nat) (b : Byte) : (s.setByte key b).pins = s.pins := by simp only [State.setByte]
@[simp] theorem State.setByte_engines (key : Nat) (b : Byte) : (s.setByte key b).engines = s.engines := by simp only [State.setByte]
@[simp] theorem State.setByte_hints (key : Nat) (b : Byte) : (s.setByte key b).hints = s.hints := by simp only [State.setByte]
@[simp] theorem State.setByte_banks (key : Nat) (b : Byte) : (s.setByte key b).banks = s.banks := by simp only [State.setByte]
@[simp] theorem State.setByte_marks (key : Nat) (b : Byte) : (s.setByte key b).marks = s.marks := by simp only [State.setByte]
@[simp] theorem State.setByte_landq (key : Nat) (b : Byte) : (s.setByte key b).landq = s.landq := by simp only [State.setByte]
@[simp] theorem State.setByte_scrubAt (key : Nat) (b : Byte) : (s.setByte key b).scrubAt = s.scrubAt := by simp only [State.setByte]
@[simp] theorem State.setByte_spareRow (key : Nat) (b : Byte) : (s.setByte key b).spareRow = s.spareRow := by simp only [State.setByte]
@[simp] theorem State.setByte_squares (key : Nat) (b : Byte) : (s.setByte key b).squares = s.squares := by simp only [State.setByte]
@[simp] theorem State.setByte_mesh (key : Nat) (b : Byte) : (s.setByte key b).mesh = s.mesh := by simp only [State.setByte]
@[simp] theorem State.setByte_parked (key : Nat) (b : Byte) : (s.setByte key b).parked = s.parked := by simp only [State.setByte]
@[simp] theorem State.setByte_bars (key : Nat) (b : Byte) : (s.setByte key b).bars = s.bars := by simp only [State.setByte]
@[simp] theorem State.setByte_watches (key : Nat) (b : Byte) : (s.setByte key b).watches = s.watches := by simp only [State.setByte]
@[simp] theorem State.setByte_lateLogged (key : Nat) (b : Byte) : (s.setByte key b).lateLogged = s.lateLogged := by simp only [State.setByte]
@[simp] theorem State.setByte_taps (key : Nat) (b : Byte) : (s.setByte key b).taps = s.taps := by simp only [State.setByte]
@[simp] theorem State.setByte_margins (key : Nat) (b : Byte) : (s.setByte key b).margins = s.margins := by simp only [State.setByte]
@[simp] theorem State.setByte_power (key : Nat) (b : Byte) : (s.setByte key b).power = s.power := by simp only [State.setByte]
@[simp] theorem State.setByte_net (key : Nat) (b : Byte) : (s.setByte key b).net = s.net := by simp only [State.setByte]
@[simp] theorem State.setByte_boot (key : Nat) (b : Byte) : (s.setByte key b).boot = s.boot := by simp only [State.setByte]
@[simp] theorem State.setByte_sec (key : Nat) (b : Byte) : (s.setByte key b).sec = s.sec := by simp only [State.setByte]
@[simp] theorem State.setByte_front (key : Nat) (b : Byte) : (s.setByte key b).front = s.front := by simp only [State.setByte]
@[simp] theorem State.setByte_thermal (key : Nat) (b : Byte) : (s.setByte key b).thermal = s.thermal := by simp only [State.setByte]
@[simp] theorem State.setByte_elog (key : Nat) (b : Byte) : (s.setByte key b).elog = s.elog := by simp only [State.setByte]
@[simp] theorem State.setByte_gauges (key : Nat) (b : Byte) : (s.setByte key b).gauges = s.gauges := by simp only [State.setByte]
@[simp] theorem State.setByte_outbox (key : Nat) (b : Byte) : (s.setByte key b).outbox = s.outbox := by simp only [State.setByte]
@[simp] theorem State.setByte_drawn (key : Nat) (b : Byte) : (s.setByte key b).drawn = s.drawn := by simp only [State.setByte]
@[simp] theorem State.setByte_pending (key : Nat) (b : Byte) : (s.setByte key b).pending = s.pending := by simp only [State.setByte]

@[simp] theorem State.emit_regs (o : Output) : (s.emit o).regs = s.regs := by simp only [State.emit]
@[simp] theorem State.emit_mem (o : Output) : (s.emit o).mem = s.mem := by simp only [State.emit]
@[simp] theorem State.emit_clock (o : Output) : (s.emit o).clock = s.clock := by simp only [State.emit]
@[simp] theorem State.emit_pins (o : Output) : (s.emit o).pins = s.pins := by simp only [State.emit]
@[simp] theorem State.emit_engines (o : Output) : (s.emit o).engines = s.engines := by simp only [State.emit]
@[simp] theorem State.emit_hints (o : Output) : (s.emit o).hints = s.hints := by simp only [State.emit]
@[simp] theorem State.emit_banks (o : Output) : (s.emit o).banks = s.banks := by simp only [State.emit]
@[simp] theorem State.emit_marks (o : Output) : (s.emit o).marks = s.marks := by simp only [State.emit]
@[simp] theorem State.emit_landq (o : Output) : (s.emit o).landq = s.landq := by simp only [State.emit]
@[simp] theorem State.emit_scrubAt (o : Output) : (s.emit o).scrubAt = s.scrubAt := by simp only [State.emit]
@[simp] theorem State.emit_spareRow (o : Output) : (s.emit o).spareRow = s.spareRow := by simp only [State.emit]
@[simp] theorem State.emit_squares (o : Output) : (s.emit o).squares = s.squares := by simp only [State.emit]
@[simp] theorem State.emit_mesh (o : Output) : (s.emit o).mesh = s.mesh := by simp only [State.emit]
@[simp] theorem State.emit_parked (o : Output) : (s.emit o).parked = s.parked := by simp only [State.emit]
@[simp] theorem State.emit_bars (o : Output) : (s.emit o).bars = s.bars := by simp only [State.emit]
@[simp] theorem State.emit_watches (o : Output) : (s.emit o).watches = s.watches := by simp only [State.emit]
@[simp] theorem State.emit_lateLogged (o : Output) : (s.emit o).lateLogged = s.lateLogged := by simp only [State.emit]
@[simp] theorem State.emit_taps (o : Output) : (s.emit o).taps = s.taps := by simp only [State.emit]
@[simp] theorem State.emit_margins (o : Output) : (s.emit o).margins = s.margins := by simp only [State.emit]
@[simp] theorem State.emit_power (o : Output) : (s.emit o).power = s.power := by simp only [State.emit]
@[simp] theorem State.emit_net (o : Output) : (s.emit o).net = s.net := by simp only [State.emit]
@[simp] theorem State.emit_boot (o : Output) : (s.emit o).boot = s.boot := by simp only [State.emit]
@[simp] theorem State.emit_sec (o : Output) : (s.emit o).sec = s.sec := by simp only [State.emit]
@[simp] theorem State.emit_front (o : Output) : (s.emit o).front = s.front := by simp only [State.emit]
@[simp] theorem State.emit_thermal (o : Output) : (s.emit o).thermal = s.thermal := by simp only [State.emit]
@[simp] theorem State.emit_elog (o : Output) : (s.emit o).elog = s.elog := by simp only [State.emit]
@[simp] theorem State.emit_gauges (o : Output) : (s.emit o).gauges = s.gauges := by simp only [State.emit]
@[simp] theorem State.emit_outbox (o : Output) : (s.emit o).outbox = s.outbox ++ [o] := rfl
@[simp] theorem State.emit_drawn (o : Output) : (s.emit o).drawn = s.drawn := by simp only [State.emit]
@[simp] theorem State.emit_pending (o : Output) : (s.emit o).pending = s.pending := by simp only [State.emit]

@[simp] theorem State.setEng_regs (e : EngineId) (x : Engine) : (s.setEng e x).regs = s.regs := by simp only [State.setEng]
@[simp] theorem State.setEng_mem (e : EngineId) (x : Engine) : (s.setEng e x).mem = s.mem := by simp only [State.setEng]
@[simp] theorem State.setEng_clock (e : EngineId) (x : Engine) : (s.setEng e x).clock = s.clock := by simp only [State.setEng]
@[simp] theorem State.setEng_pins (e : EngineId) (x : Engine) : (s.setEng e x).pins = s.pins := by simp only [State.setEng]
@[simp] theorem State.setEng_engines (e : EngineId) (x : Engine) : (s.setEng e x).engines = vset s.engines e x := rfl
@[simp] theorem State.setEng_hints (e : EngineId) (x : Engine) : (s.setEng e x).hints = s.hints := by simp only [State.setEng]
@[simp] theorem State.setEng_banks (e : EngineId) (x : Engine) : (s.setEng e x).banks = s.banks := by simp only [State.setEng]
@[simp] theorem State.setEng_marks (e : EngineId) (x : Engine) : (s.setEng e x).marks = s.marks := by simp only [State.setEng]
@[simp] theorem State.setEng_landq (e : EngineId) (x : Engine) : (s.setEng e x).landq = s.landq := by simp only [State.setEng]
@[simp] theorem State.setEng_scrubAt (e : EngineId) (x : Engine) : (s.setEng e x).scrubAt = s.scrubAt := by simp only [State.setEng]
@[simp] theorem State.setEng_spareRow (e : EngineId) (x : Engine) : (s.setEng e x).spareRow = s.spareRow := by simp only [State.setEng]
@[simp] theorem State.setEng_squares (e : EngineId) (x : Engine) : (s.setEng e x).squares = s.squares := by simp only [State.setEng]
@[simp] theorem State.setEng_mesh (e : EngineId) (x : Engine) : (s.setEng e x).mesh = s.mesh := by simp only [State.setEng]
@[simp] theorem State.setEng_parked (e : EngineId) (x : Engine) : (s.setEng e x).parked = s.parked := by simp only [State.setEng]
@[simp] theorem State.setEng_bars (e : EngineId) (x : Engine) : (s.setEng e x).bars = s.bars := by simp only [State.setEng]
@[simp] theorem State.setEng_watches (e : EngineId) (x : Engine) : (s.setEng e x).watches = s.watches := by simp only [State.setEng]
@[simp] theorem State.setEng_lateLogged (e : EngineId) (x : Engine) : (s.setEng e x).lateLogged = s.lateLogged := by simp only [State.setEng]
@[simp] theorem State.setEng_taps (e : EngineId) (x : Engine) : (s.setEng e x).taps = s.taps := by simp only [State.setEng]
@[simp] theorem State.setEng_margins (e : EngineId) (x : Engine) : (s.setEng e x).margins = s.margins := by simp only [State.setEng]
@[simp] theorem State.setEng_power (e : EngineId) (x : Engine) : (s.setEng e x).power = s.power := by simp only [State.setEng]
@[simp] theorem State.setEng_net (e : EngineId) (x : Engine) : (s.setEng e x).net = s.net := by simp only [State.setEng]
@[simp] theorem State.setEng_boot (e : EngineId) (x : Engine) : (s.setEng e x).boot = s.boot := by simp only [State.setEng]
@[simp] theorem State.setEng_sec (e : EngineId) (x : Engine) : (s.setEng e x).sec = s.sec := by simp only [State.setEng]
@[simp] theorem State.setEng_front (e : EngineId) (x : Engine) : (s.setEng e x).front = s.front := by simp only [State.setEng]
@[simp] theorem State.setEng_thermal (e : EngineId) (x : Engine) : (s.setEng e x).thermal = s.thermal := by simp only [State.setEng]
@[simp] theorem State.setEng_elog (e : EngineId) (x : Engine) : (s.setEng e x).elog = s.elog := by simp only [State.setEng]
@[simp] theorem State.setEng_gauges (e : EngineId) (x : Engine) : (s.setEng e x).gauges = s.gauges := by simp only [State.setEng]
@[simp] theorem State.setEng_outbox (e : EngineId) (x : Engine) : (s.setEng e x).outbox = s.outbox := by simp only [State.setEng]
@[simp] theorem State.setEng_drawn (e : EngineId) (x : Engine) : (s.setEng e x).drawn = s.drawn := by simp only [State.setEng]
@[simp] theorem State.setEng_pending (e : EngineId) (x : Engine) : (s.setEng e x).pending = s.pending := by simp only [State.setEng]

@[simp] theorem State.modEng_regs (e : EngineId) (f : Engine → Engine) : (s.modEng e f).regs = s.regs := by simp only [State.modEng, State.setEng]
@[simp] theorem State.modEng_mem (e : EngineId) (f : Engine → Engine) : (s.modEng e f).mem = s.mem := by simp only [State.modEng, State.setEng]
@[simp] theorem State.modEng_clock (e : EngineId) (f : Engine → Engine) : (s.modEng e f).clock = s.clock := by simp only [State.modEng, State.setEng]
@[simp] theorem State.modEng_pins (e : EngineId) (f : Engine → Engine) : (s.modEng e f).pins = s.pins := by simp only [State.modEng, State.setEng]
@[simp] theorem State.modEng_engines (e : EngineId) (f : Engine → Engine) : (s.modEng e f).engines = vset s.engines e (f (s.eng e)) := rfl
@[simp] theorem State.modEng_hints (e : EngineId) (f : Engine → Engine) : (s.modEng e f).hints = s.hints := by simp only [State.modEng, State.setEng]
@[simp] theorem State.modEng_banks (e : EngineId) (f : Engine → Engine) : (s.modEng e f).banks = s.banks := by simp only [State.modEng, State.setEng]
@[simp] theorem State.modEng_marks (e : EngineId) (f : Engine → Engine) : (s.modEng e f).marks = s.marks := by simp only [State.modEng, State.setEng]
@[simp] theorem State.modEng_landq (e : EngineId) (f : Engine → Engine) : (s.modEng e f).landq = s.landq := by simp only [State.modEng, State.setEng]
@[simp] theorem State.modEng_scrubAt (e : EngineId) (f : Engine → Engine) : (s.modEng e f).scrubAt = s.scrubAt := by simp only [State.modEng, State.setEng]
@[simp] theorem State.modEng_spareRow (e : EngineId) (f : Engine → Engine) : (s.modEng e f).spareRow = s.spareRow := by simp only [State.modEng, State.setEng]
@[simp] theorem State.modEng_squares (e : EngineId) (f : Engine → Engine) : (s.modEng e f).squares = s.squares := by simp only [State.modEng, State.setEng]
@[simp] theorem State.modEng_mesh (e : EngineId) (f : Engine → Engine) : (s.modEng e f).mesh = s.mesh := by simp only [State.modEng, State.setEng]
@[simp] theorem State.modEng_parked (e : EngineId) (f : Engine → Engine) : (s.modEng e f).parked = s.parked := by simp only [State.modEng, State.setEng]
@[simp] theorem State.modEng_bars (e : EngineId) (f : Engine → Engine) : (s.modEng e f).bars = s.bars := by simp only [State.modEng, State.setEng]
@[simp] theorem State.modEng_watches (e : EngineId) (f : Engine → Engine) : (s.modEng e f).watches = s.watches := by simp only [State.modEng, State.setEng]
@[simp] theorem State.modEng_lateLogged (e : EngineId) (f : Engine → Engine) : (s.modEng e f).lateLogged = s.lateLogged := by simp only [State.modEng, State.setEng]
@[simp] theorem State.modEng_taps (e : EngineId) (f : Engine → Engine) : (s.modEng e f).taps = s.taps := by simp only [State.modEng, State.setEng]
@[simp] theorem State.modEng_margins (e : EngineId) (f : Engine → Engine) : (s.modEng e f).margins = s.margins := by simp only [State.modEng, State.setEng]
@[simp] theorem State.modEng_power (e : EngineId) (f : Engine → Engine) : (s.modEng e f).power = s.power := by simp only [State.modEng, State.setEng]
@[simp] theorem State.modEng_net (e : EngineId) (f : Engine → Engine) : (s.modEng e f).net = s.net := by simp only [State.modEng, State.setEng]
@[simp] theorem State.modEng_boot (e : EngineId) (f : Engine → Engine) : (s.modEng e f).boot = s.boot := by simp only [State.modEng, State.setEng]
@[simp] theorem State.modEng_sec (e : EngineId) (f : Engine → Engine) : (s.modEng e f).sec = s.sec := by simp only [State.modEng, State.setEng]
@[simp] theorem State.modEng_front (e : EngineId) (f : Engine → Engine) : (s.modEng e f).front = s.front := by simp only [State.modEng, State.setEng]
@[simp] theorem State.modEng_thermal (e : EngineId) (f : Engine → Engine) : (s.modEng e f).thermal = s.thermal := by simp only [State.modEng, State.setEng]
@[simp] theorem State.modEng_elog (e : EngineId) (f : Engine → Engine) : (s.modEng e f).elog = s.elog := by simp only [State.modEng, State.setEng]
@[simp] theorem State.modEng_gauges (e : EngineId) (f : Engine → Engine) : (s.modEng e f).gauges = s.gauges := by simp only [State.modEng, State.setEng]
@[simp] theorem State.modEng_outbox (e : EngineId) (f : Engine → Engine) : (s.modEng e f).outbox = s.outbox := by simp only [State.modEng, State.setEng]
@[simp] theorem State.modEng_drawn (e : EngineId) (f : Engine → Engine) : (s.modEng e f).drawn = s.drawn := by simp only [State.modEng, State.setEng]
@[simp] theorem State.modEng_pending (e : EngineId) (f : Engine → Engine) : (s.modEng e f).pending = s.pending := by simp only [State.modEng, State.setEng]

@[simp] theorem State.setSq_regs (k : SquareId) (x : Square) : (s.setSq k x).regs = s.regs := by simp only [State.setSq]
@[simp] theorem State.setSq_mem (k : SquareId) (x : Square) : (s.setSq k x).mem = s.mem := by simp only [State.setSq]
@[simp] theorem State.setSq_clock (k : SquareId) (x : Square) : (s.setSq k x).clock = s.clock := by simp only [State.setSq]
@[simp] theorem State.setSq_pins (k : SquareId) (x : Square) : (s.setSq k x).pins = s.pins := by simp only [State.setSq]
@[simp] theorem State.setSq_engines (k : SquareId) (x : Square) : (s.setSq k x).engines = s.engines := by simp only [State.setSq]
@[simp] theorem State.setSq_hints (k : SquareId) (x : Square) : (s.setSq k x).hints = s.hints := by simp only [State.setSq]
@[simp] theorem State.setSq_banks (k : SquareId) (x : Square) : (s.setSq k x).banks = s.banks := by simp only [State.setSq]
@[simp] theorem State.setSq_marks (k : SquareId) (x : Square) : (s.setSq k x).marks = s.marks := by simp only [State.setSq]
@[simp] theorem State.setSq_landq (k : SquareId) (x : Square) : (s.setSq k x).landq = s.landq := by simp only [State.setSq]
@[simp] theorem State.setSq_scrubAt (k : SquareId) (x : Square) : (s.setSq k x).scrubAt = s.scrubAt := by simp only [State.setSq]
@[simp] theorem State.setSq_spareRow (k : SquareId) (x : Square) : (s.setSq k x).spareRow = s.spareRow := by simp only [State.setSq]
@[simp] theorem State.setSq_squares (k : SquareId) (x : Square) : (s.setSq k x).squares = vset s.squares k x := rfl
@[simp] theorem State.setSq_mesh (k : SquareId) (x : Square) : (s.setSq k x).mesh = s.mesh := by simp only [State.setSq]
@[simp] theorem State.setSq_parked (k : SquareId) (x : Square) : (s.setSq k x).parked = s.parked := by simp only [State.setSq]
@[simp] theorem State.setSq_bars (k : SquareId) (x : Square) : (s.setSq k x).bars = s.bars := by simp only [State.setSq]
@[simp] theorem State.setSq_watches (k : SquareId) (x : Square) : (s.setSq k x).watches = s.watches := by simp only [State.setSq]
@[simp] theorem State.setSq_lateLogged (k : SquareId) (x : Square) : (s.setSq k x).lateLogged = s.lateLogged := by simp only [State.setSq]
@[simp] theorem State.setSq_taps (k : SquareId) (x : Square) : (s.setSq k x).taps = s.taps := by simp only [State.setSq]
@[simp] theorem State.setSq_margins (k : SquareId) (x : Square) : (s.setSq k x).margins = s.margins := by simp only [State.setSq]
@[simp] theorem State.setSq_power (k : SquareId) (x : Square) : (s.setSq k x).power = s.power := by simp only [State.setSq]
@[simp] theorem State.setSq_net (k : SquareId) (x : Square) : (s.setSq k x).net = s.net := by simp only [State.setSq]
@[simp] theorem State.setSq_boot (k : SquareId) (x : Square) : (s.setSq k x).boot = s.boot := by simp only [State.setSq]
@[simp] theorem State.setSq_sec (k : SquareId) (x : Square) : (s.setSq k x).sec = s.sec := by simp only [State.setSq]
@[simp] theorem State.setSq_front (k : SquareId) (x : Square) : (s.setSq k x).front = s.front := by simp only [State.setSq]
@[simp] theorem State.setSq_thermal (k : SquareId) (x : Square) : (s.setSq k x).thermal = s.thermal := by simp only [State.setSq]
@[simp] theorem State.setSq_elog (k : SquareId) (x : Square) : (s.setSq k x).elog = s.elog := by simp only [State.setSq]
@[simp] theorem State.setSq_gauges (k : SquareId) (x : Square) : (s.setSq k x).gauges = s.gauges := by simp only [State.setSq]
@[simp] theorem State.setSq_outbox (k : SquareId) (x : Square) : (s.setSq k x).outbox = s.outbox := by simp only [State.setSq]
@[simp] theorem State.setSq_drawn (k : SquareId) (x : Square) : (s.setSq k x).drawn = s.drawn := by simp only [State.setSq]
@[simp] theorem State.setSq_pending (k : SquareId) (x : Square) : (s.setSq k x).pending = s.pending := by simp only [State.setSq]

@[simp] theorem State.setMark_regs (w m : Nat) : (s.setMark w m).regs = s.regs := by simp only [State.setMark]
@[simp] theorem State.setMark_mem (w m : Nat) : (s.setMark w m).mem = s.mem := by simp only [State.setMark]
@[simp] theorem State.setMark_clock (w m : Nat) : (s.setMark w m).clock = s.clock := by simp only [State.setMark]
@[simp] theorem State.setMark_pins (w m : Nat) : (s.setMark w m).pins = s.pins := by simp only [State.setMark]
@[simp] theorem State.setMark_engines (w m : Nat) : (s.setMark w m).engines = s.engines := by simp only [State.setMark]
@[simp] theorem State.setMark_hints (w m : Nat) : (s.setMark w m).hints = s.hints := by simp only [State.setMark]
@[simp] theorem State.setMark_banks (w m : Nat) : (s.setMark w m).banks = s.banks := by simp only [State.setMark]
@[simp] theorem State.setMark_marks (w m : Nat) : (s.setMark w m).marks = Tbl.set (fun _ => 0) s.marks w m := rfl
@[simp] theorem State.setMark_landq (w m : Nat) : (s.setMark w m).landq = s.landq := by simp only [State.setMark]
@[simp] theorem State.setMark_scrubAt (w m : Nat) : (s.setMark w m).scrubAt = s.scrubAt := by simp only [State.setMark]
@[simp] theorem State.setMark_spareRow (w m : Nat) : (s.setMark w m).spareRow = s.spareRow := by simp only [State.setMark]
@[simp] theorem State.setMark_squares (w m : Nat) : (s.setMark w m).squares = s.squares := by simp only [State.setMark]
@[simp] theorem State.setMark_mesh (w m : Nat) : (s.setMark w m).mesh = s.mesh := by simp only [State.setMark]
@[simp] theorem State.setMark_parked (w m : Nat) : (s.setMark w m).parked = s.parked := by simp only [State.setMark]
@[simp] theorem State.setMark_bars (w m : Nat) : (s.setMark w m).bars = s.bars := by simp only [State.setMark]
@[simp] theorem State.setMark_watches (w m : Nat) : (s.setMark w m).watches = s.watches := by simp only [State.setMark]
@[simp] theorem State.setMark_lateLogged (w m : Nat) : (s.setMark w m).lateLogged = s.lateLogged := by simp only [State.setMark]
@[simp] theorem State.setMark_taps (w m : Nat) : (s.setMark w m).taps = s.taps := by simp only [State.setMark]
@[simp] theorem State.setMark_margins (w m : Nat) : (s.setMark w m).margins = s.margins := by simp only [State.setMark]
@[simp] theorem State.setMark_power (w m : Nat) : (s.setMark w m).power = s.power := by simp only [State.setMark]
@[simp] theorem State.setMark_net (w m : Nat) : (s.setMark w m).net = s.net := by simp only [State.setMark]
@[simp] theorem State.setMark_boot (w m : Nat) : (s.setMark w m).boot = s.boot := by simp only [State.setMark]
@[simp] theorem State.setMark_sec (w m : Nat) : (s.setMark w m).sec = s.sec := by simp only [State.setMark]
@[simp] theorem State.setMark_front (w m : Nat) : (s.setMark w m).front = s.front := by simp only [State.setMark]
@[simp] theorem State.setMark_thermal (w m : Nat) : (s.setMark w m).thermal = s.thermal := by simp only [State.setMark]
@[simp] theorem State.setMark_elog (w m : Nat) : (s.setMark w m).elog = s.elog := by simp only [State.setMark]
@[simp] theorem State.setMark_gauges (w m : Nat) : (s.setMark w m).gauges = s.gauges := by simp only [State.setMark]
@[simp] theorem State.setMark_outbox (w m : Nat) : (s.setMark w m).outbox = s.outbox := by simp only [State.setMark]
@[simp] theorem State.setMark_drawn (w m : Nat) : (s.setMark w m).drawn = s.drawn := by simp only [State.setMark]
@[simp] theorem State.setMark_pending (w m : Nat) : (s.setMark w m).pending = s.pending := by simp only [State.setMark]

@[simp] theorem State.setBank_regs (e : EngineId) (b : Nat) (x : Bank) : (s.setBank e b x).regs = s.regs := by simp only [State.setBank]
@[simp] theorem State.setBank_mem (e : EngineId) (b : Nat) (x : Bank) : (s.setBank e b x).mem = s.mem := by simp only [State.setBank]
@[simp] theorem State.setBank_clock (e : EngineId) (b : Nat) (x : Bank) : (s.setBank e b x).clock = s.clock := by simp only [State.setBank]
@[simp] theorem State.setBank_pins (e : EngineId) (b : Nat) (x : Bank) : (s.setBank e b x).pins = s.pins := by simp only [State.setBank]
@[simp] theorem State.setBank_engines (e : EngineId) (b : Nat) (x : Bank) : (s.setBank e b x).engines = s.engines := by simp only [State.setBank]
@[simp] theorem State.setBank_hints (e : EngineId) (b : Nat) (x : Bank) : (s.setBank e b x).hints = s.hints := by simp only [State.setBank]
@[simp] theorem State.setBank_banks (e : EngineId) (b : Nat) (x : Bank) : (s.setBank e b x).banks = Tbl.set (fun _ => Bank.idle) s.banks (2048 * e.val + b) x := rfl
@[simp] theorem State.setBank_marks (e : EngineId) (b : Nat) (x : Bank) : (s.setBank e b x).marks = s.marks := by simp only [State.setBank]
@[simp] theorem State.setBank_landq (e : EngineId) (b : Nat) (x : Bank) : (s.setBank e b x).landq = s.landq := by simp only [State.setBank]
@[simp] theorem State.setBank_scrubAt (e : EngineId) (b : Nat) (x : Bank) : (s.setBank e b x).scrubAt = s.scrubAt := by simp only [State.setBank]
@[simp] theorem State.setBank_spareRow (e : EngineId) (b : Nat) (x : Bank) : (s.setBank e b x).spareRow = s.spareRow := by simp only [State.setBank]
@[simp] theorem State.setBank_squares (e : EngineId) (b : Nat) (x : Bank) : (s.setBank e b x).squares = s.squares := by simp only [State.setBank]
@[simp] theorem State.setBank_mesh (e : EngineId) (b : Nat) (x : Bank) : (s.setBank e b x).mesh = s.mesh := by simp only [State.setBank]
@[simp] theorem State.setBank_parked (e : EngineId) (b : Nat) (x : Bank) : (s.setBank e b x).parked = s.parked := by simp only [State.setBank]
@[simp] theorem State.setBank_bars (e : EngineId) (b : Nat) (x : Bank) : (s.setBank e b x).bars = s.bars := by simp only [State.setBank]
@[simp] theorem State.setBank_watches (e : EngineId) (b : Nat) (x : Bank) : (s.setBank e b x).watches = s.watches := by simp only [State.setBank]
@[simp] theorem State.setBank_lateLogged (e : EngineId) (b : Nat) (x : Bank) : (s.setBank e b x).lateLogged = s.lateLogged := by simp only [State.setBank]
@[simp] theorem State.setBank_taps (e : EngineId) (b : Nat) (x : Bank) : (s.setBank e b x).taps = s.taps := by simp only [State.setBank]
@[simp] theorem State.setBank_margins (e : EngineId) (b : Nat) (x : Bank) : (s.setBank e b x).margins = s.margins := by simp only [State.setBank]
@[simp] theorem State.setBank_power (e : EngineId) (b : Nat) (x : Bank) : (s.setBank e b x).power = s.power := by simp only [State.setBank]
@[simp] theorem State.setBank_net (e : EngineId) (b : Nat) (x : Bank) : (s.setBank e b x).net = s.net := by simp only [State.setBank]
@[simp] theorem State.setBank_boot (e : EngineId) (b : Nat) (x : Bank) : (s.setBank e b x).boot = s.boot := by simp only [State.setBank]
@[simp] theorem State.setBank_sec (e : EngineId) (b : Nat) (x : Bank) : (s.setBank e b x).sec = s.sec := by simp only [State.setBank]
@[simp] theorem State.setBank_front (e : EngineId) (b : Nat) (x : Bank) : (s.setBank e b x).front = s.front := by simp only [State.setBank]
@[simp] theorem State.setBank_thermal (e : EngineId) (b : Nat) (x : Bank) : (s.setBank e b x).thermal = s.thermal := by simp only [State.setBank]
@[simp] theorem State.setBank_elog (e : EngineId) (b : Nat) (x : Bank) : (s.setBank e b x).elog = s.elog := by simp only [State.setBank]
@[simp] theorem State.setBank_gauges (e : EngineId) (b : Nat) (x : Bank) : (s.setBank e b x).gauges = s.gauges := by simp only [State.setBank]
@[simp] theorem State.setBank_outbox (e : EngineId) (b : Nat) (x : Bank) : (s.setBank e b x).outbox = s.outbox := by simp only [State.setBank]
@[simp] theorem State.setBank_drawn (e : EngineId) (b : Nat) (x : Bank) : (s.setBank e b x).drawn = s.drawn := by simp only [State.setBank]
@[simp] theorem State.setBank_pending (e : EngineId) (b : Nat) (x : Bank) : (s.setBank e b x).pending = s.pending := by simp only [State.setBank]

@[simp] theorem State.setBar_regs (b : Fin 64) (x : Bar) : (s.setBar b x).regs = s.regs := by simp only [State.setBar]
@[simp] theorem State.setBar_mem (b : Fin 64) (x : Bar) : (s.setBar b x).mem = s.mem := by simp only [State.setBar]
@[simp] theorem State.setBar_clock (b : Fin 64) (x : Bar) : (s.setBar b x).clock = s.clock := by simp only [State.setBar]
@[simp] theorem State.setBar_pins (b : Fin 64) (x : Bar) : (s.setBar b x).pins = s.pins := by simp only [State.setBar]
@[simp] theorem State.setBar_engines (b : Fin 64) (x : Bar) : (s.setBar b x).engines = s.engines := by simp only [State.setBar]
@[simp] theorem State.setBar_hints (b : Fin 64) (x : Bar) : (s.setBar b x).hints = s.hints := by simp only [State.setBar]
@[simp] theorem State.setBar_banks (b : Fin 64) (x : Bar) : (s.setBar b x).banks = s.banks := by simp only [State.setBar]
@[simp] theorem State.setBar_marks (b : Fin 64) (x : Bar) : (s.setBar b x).marks = s.marks := by simp only [State.setBar]
@[simp] theorem State.setBar_landq (b : Fin 64) (x : Bar) : (s.setBar b x).landq = s.landq := by simp only [State.setBar]
@[simp] theorem State.setBar_scrubAt (b : Fin 64) (x : Bar) : (s.setBar b x).scrubAt = s.scrubAt := by simp only [State.setBar]
@[simp] theorem State.setBar_spareRow (b : Fin 64) (x : Bar) : (s.setBar b x).spareRow = s.spareRow := by simp only [State.setBar]
@[simp] theorem State.setBar_squares (b : Fin 64) (x : Bar) : (s.setBar b x).squares = s.squares := by simp only [State.setBar]
@[simp] theorem State.setBar_mesh (b : Fin 64) (x : Bar) : (s.setBar b x).mesh = s.mesh := by simp only [State.setBar]
@[simp] theorem State.setBar_parked (b : Fin 64) (x : Bar) : (s.setBar b x).parked = s.parked := by simp only [State.setBar]
@[simp] theorem State.setBar_bars (b : Fin 64) (x : Bar) : (s.setBar b x).bars = vset s.bars b x := rfl
@[simp] theorem State.setBar_watches (b : Fin 64) (x : Bar) : (s.setBar b x).watches = s.watches := by simp only [State.setBar]
@[simp] theorem State.setBar_lateLogged (b : Fin 64) (x : Bar) : (s.setBar b x).lateLogged = s.lateLogged := by simp only [State.setBar]
@[simp] theorem State.setBar_taps (b : Fin 64) (x : Bar) : (s.setBar b x).taps = s.taps := by simp only [State.setBar]
@[simp] theorem State.setBar_margins (b : Fin 64) (x : Bar) : (s.setBar b x).margins = s.margins := by simp only [State.setBar]
@[simp] theorem State.setBar_power (b : Fin 64) (x : Bar) : (s.setBar b x).power = s.power := by simp only [State.setBar]
@[simp] theorem State.setBar_net (b : Fin 64) (x : Bar) : (s.setBar b x).net = s.net := by simp only [State.setBar]
@[simp] theorem State.setBar_boot (b : Fin 64) (x : Bar) : (s.setBar b x).boot = s.boot := by simp only [State.setBar]
@[simp] theorem State.setBar_sec (b : Fin 64) (x : Bar) : (s.setBar b x).sec = s.sec := by simp only [State.setBar]
@[simp] theorem State.setBar_front (b : Fin 64) (x : Bar) : (s.setBar b x).front = s.front := by simp only [State.setBar]
@[simp] theorem State.setBar_thermal (b : Fin 64) (x : Bar) : (s.setBar b x).thermal = s.thermal := by simp only [State.setBar]
@[simp] theorem State.setBar_elog (b : Fin 64) (x : Bar) : (s.setBar b x).elog = s.elog := by simp only [State.setBar]
@[simp] theorem State.setBar_gauges (b : Fin 64) (x : Bar) : (s.setBar b x).gauges = s.gauges := by simp only [State.setBar]
@[simp] theorem State.setBar_outbox (b : Fin 64) (x : Bar) : (s.setBar b x).outbox = s.outbox := by simp only [State.setBar]
@[simp] theorem State.setBar_drawn (b : Fin 64) (x : Bar) : (s.setBar b x).drawn = s.drawn := by simp only [State.setBar]
@[simp] theorem State.setBar_pending (b : Fin 64) (x : Bar) : (s.setBar b x).pending = s.pending := by simp only [State.setBar]

@[simp] theorem State.setPort_regs (p : PortId) (x : Port) : (s.setPort p x).regs = s.regs := by simp only [State.setPort]
@[simp] theorem State.setPort_mem (p : PortId) (x : Port) : (s.setPort p x).mem = s.mem := by simp only [State.setPort]
@[simp] theorem State.setPort_clock (p : PortId) (x : Port) : (s.setPort p x).clock = s.clock := by simp only [State.setPort]
@[simp] theorem State.setPort_pins (p : PortId) (x : Port) : (s.setPort p x).pins = s.pins := by simp only [State.setPort]
@[simp] theorem State.setPort_engines (p : PortId) (x : Port) : (s.setPort p x).engines = s.engines := by simp only [State.setPort]
@[simp] theorem State.setPort_hints (p : PortId) (x : Port) : (s.setPort p x).hints = s.hints := by simp only [State.setPort]
@[simp] theorem State.setPort_banks (p : PortId) (x : Port) : (s.setPort p x).banks = s.banks := by simp only [State.setPort]
@[simp] theorem State.setPort_marks (p : PortId) (x : Port) : (s.setPort p x).marks = s.marks := by simp only [State.setPort]
@[simp] theorem State.setPort_landq (p : PortId) (x : Port) : (s.setPort p x).landq = s.landq := by simp only [State.setPort]
@[simp] theorem State.setPort_scrubAt (p : PortId) (x : Port) : (s.setPort p x).scrubAt = s.scrubAt := by simp only [State.setPort]
@[simp] theorem State.setPort_spareRow (p : PortId) (x : Port) : (s.setPort p x).spareRow = s.spareRow := by simp only [State.setPort]
@[simp] theorem State.setPort_squares (p : PortId) (x : Port) : (s.setPort p x).squares = s.squares := by simp only [State.setPort]
@[simp] theorem State.setPort_mesh (p : PortId) (x : Port) : (s.setPort p x).mesh = s.mesh := by simp only [State.setPort]
@[simp] theorem State.setPort_parked (p : PortId) (x : Port) : (s.setPort p x).parked = s.parked := by simp only [State.setPort]
@[simp] theorem State.setPort_bars (p : PortId) (x : Port) : (s.setPort p x).bars = s.bars := by simp only [State.setPort]
@[simp] theorem State.setPort_watches (p : PortId) (x : Port) : (s.setPort p x).watches = s.watches := by simp only [State.setPort]
@[simp] theorem State.setPort_lateLogged (p : PortId) (x : Port) : (s.setPort p x).lateLogged = s.lateLogged := by simp only [State.setPort]
@[simp] theorem State.setPort_taps (p : PortId) (x : Port) : (s.setPort p x).taps = s.taps := by simp only [State.setPort]
@[simp] theorem State.setPort_margins (p : PortId) (x : Port) : (s.setPort p x).margins = s.margins := by simp only [State.setPort]
@[simp] theorem State.setPort_power (p : PortId) (x : Port) : (s.setPort p x).power = s.power := by simp only [State.setPort]
@[simp] theorem State.setPort_net (p : PortId) (x : Port) : (s.setPort p x).net = { s.net with ports := vset s.net.ports p x } := rfl
@[simp] theorem State.setPort_boot (p : PortId) (x : Port) : (s.setPort p x).boot = s.boot := by simp only [State.setPort]
@[simp] theorem State.setPort_sec (p : PortId) (x : Port) : (s.setPort p x).sec = s.sec := by simp only [State.setPort]
@[simp] theorem State.setPort_front (p : PortId) (x : Port) : (s.setPort p x).front = s.front := by simp only [State.setPort]
@[simp] theorem State.setPort_thermal (p : PortId) (x : Port) : (s.setPort p x).thermal = s.thermal := by simp only [State.setPort]
@[simp] theorem State.setPort_elog (p : PortId) (x : Port) : (s.setPort p x).elog = s.elog := by simp only [State.setPort]
@[simp] theorem State.setPort_gauges (p : PortId) (x : Port) : (s.setPort p x).gauges = s.gauges := by simp only [State.setPort]
@[simp] theorem State.setPort_outbox (p : PortId) (x : Port) : (s.setPort p x).outbox = s.outbox := by simp only [State.setPort]
@[simp] theorem State.setPort_drawn (p : PortId) (x : Port) : (s.setPort p x).drawn = s.drawn := by simp only [State.setPort]
@[simp] theorem State.setPort_pending (p : PortId) (x : Port) : (s.setPort p x).pending = s.pending := by simp only [State.setPort]

@[simp] theorem State.setRegion_regs (r : RegionId) (x : Region) : (s.setRegion r x).regs = s.regs := by simp only [State.setRegion]
@[simp] theorem State.setRegion_mem (r : RegionId) (x : Region) : (s.setRegion r x).mem = s.mem := by simp only [State.setRegion]
@[simp] theorem State.setRegion_clock (r : RegionId) (x : Region) : (s.setRegion r x).clock = s.clock := by simp only [State.setRegion]
@[simp] theorem State.setRegion_pins (r : RegionId) (x : Region) : (s.setRegion r x).pins = s.pins := by simp only [State.setRegion]
@[simp] theorem State.setRegion_engines (r : RegionId) (x : Region) : (s.setRegion r x).engines = s.engines := by simp only [State.setRegion]
@[simp] theorem State.setRegion_hints (r : RegionId) (x : Region) : (s.setRegion r x).hints = s.hints := by simp only [State.setRegion]
@[simp] theorem State.setRegion_banks (r : RegionId) (x : Region) : (s.setRegion r x).banks = s.banks := by simp only [State.setRegion]
@[simp] theorem State.setRegion_marks (r : RegionId) (x : Region) : (s.setRegion r x).marks = s.marks := by simp only [State.setRegion]
@[simp] theorem State.setRegion_landq (r : RegionId) (x : Region) : (s.setRegion r x).landq = s.landq := by simp only [State.setRegion]
@[simp] theorem State.setRegion_scrubAt (r : RegionId) (x : Region) : (s.setRegion r x).scrubAt = s.scrubAt := by simp only [State.setRegion]
@[simp] theorem State.setRegion_spareRow (r : RegionId) (x : Region) : (s.setRegion r x).spareRow = s.spareRow := by simp only [State.setRegion]
@[simp] theorem State.setRegion_squares (r : RegionId) (x : Region) : (s.setRegion r x).squares = s.squares := by simp only [State.setRegion]
@[simp] theorem State.setRegion_mesh (r : RegionId) (x : Region) : (s.setRegion r x).mesh = s.mesh := by simp only [State.setRegion]
@[simp] theorem State.setRegion_parked (r : RegionId) (x : Region) : (s.setRegion r x).parked = s.parked := by simp only [State.setRegion]
@[simp] theorem State.setRegion_bars (r : RegionId) (x : Region) : (s.setRegion r x).bars = s.bars := by simp only [State.setRegion]
@[simp] theorem State.setRegion_watches (r : RegionId) (x : Region) : (s.setRegion r x).watches = s.watches := by simp only [State.setRegion]
@[simp] theorem State.setRegion_lateLogged (r : RegionId) (x : Region) : (s.setRegion r x).lateLogged = s.lateLogged := by simp only [State.setRegion]
@[simp] theorem State.setRegion_taps (r : RegionId) (x : Region) : (s.setRegion r x).taps = s.taps := by simp only [State.setRegion]
@[simp] theorem State.setRegion_margins (r : RegionId) (x : Region) : (s.setRegion r x).margins = s.margins := by simp only [State.setRegion]
@[simp] theorem State.setRegion_power (r : RegionId) (x : Region) : (s.setRegion r x).power = { s.power with regions := vset s.power.regions r x } := rfl
@[simp] theorem State.setRegion_net (r : RegionId) (x : Region) : (s.setRegion r x).net = s.net := by simp only [State.setRegion]
@[simp] theorem State.setRegion_boot (r : RegionId) (x : Region) : (s.setRegion r x).boot = s.boot := by simp only [State.setRegion]
@[simp] theorem State.setRegion_sec (r : RegionId) (x : Region) : (s.setRegion r x).sec = s.sec := by simp only [State.setRegion]
@[simp] theorem State.setRegion_front (r : RegionId) (x : Region) : (s.setRegion r x).front = s.front := by simp only [State.setRegion]
@[simp] theorem State.setRegion_thermal (r : RegionId) (x : Region) : (s.setRegion r x).thermal = s.thermal := by simp only [State.setRegion]
@[simp] theorem State.setRegion_elog (r : RegionId) (x : Region) : (s.setRegion r x).elog = s.elog := by simp only [State.setRegion]
@[simp] theorem State.setRegion_gauges (r : RegionId) (x : Region) : (s.setRegion r x).gauges = s.gauges := by simp only [State.setRegion]
@[simp] theorem State.setRegion_outbox (r : RegionId) (x : Region) : (s.setRegion r x).outbox = s.outbox := by simp only [State.setRegion]
@[simp] theorem State.setRegion_drawn (r : RegionId) (x : Region) : (s.setRegion r x).drawn = s.drawn := by simp only [State.setRegion]
@[simp] theorem State.setRegion_pending (r : RegionId) (x : Region) : (s.setRegion r x).pending = s.pending := by simp only [State.setRegion]

@[simp] theorem State.setPower_regs (f : Power → Power) : (s.setPower f).regs = s.regs := by simp only [State.setPower]
@[simp] theorem State.setPower_mem (f : Power → Power) : (s.setPower f).mem = s.mem := by simp only [State.setPower]
@[simp] theorem State.setPower_clock (f : Power → Power) : (s.setPower f).clock = s.clock := by simp only [State.setPower]
@[simp] theorem State.setPower_pins (f : Power → Power) : (s.setPower f).pins = s.pins := by simp only [State.setPower]
@[simp] theorem State.setPower_engines (f : Power → Power) : (s.setPower f).engines = s.engines := by simp only [State.setPower]
@[simp] theorem State.setPower_hints (f : Power → Power) : (s.setPower f).hints = s.hints := by simp only [State.setPower]
@[simp] theorem State.setPower_banks (f : Power → Power) : (s.setPower f).banks = s.banks := by simp only [State.setPower]
@[simp] theorem State.setPower_marks (f : Power → Power) : (s.setPower f).marks = s.marks := by simp only [State.setPower]
@[simp] theorem State.setPower_landq (f : Power → Power) : (s.setPower f).landq = s.landq := by simp only [State.setPower]
@[simp] theorem State.setPower_scrubAt (f : Power → Power) : (s.setPower f).scrubAt = s.scrubAt := by simp only [State.setPower]
@[simp] theorem State.setPower_spareRow (f : Power → Power) : (s.setPower f).spareRow = s.spareRow := by simp only [State.setPower]
@[simp] theorem State.setPower_squares (f : Power → Power) : (s.setPower f).squares = s.squares := by simp only [State.setPower]
@[simp] theorem State.setPower_mesh (f : Power → Power) : (s.setPower f).mesh = s.mesh := by simp only [State.setPower]
@[simp] theorem State.setPower_parked (f : Power → Power) : (s.setPower f).parked = s.parked := by simp only [State.setPower]
@[simp] theorem State.setPower_bars (f : Power → Power) : (s.setPower f).bars = s.bars := by simp only [State.setPower]
@[simp] theorem State.setPower_watches (f : Power → Power) : (s.setPower f).watches = s.watches := by simp only [State.setPower]
@[simp] theorem State.setPower_lateLogged (f : Power → Power) : (s.setPower f).lateLogged = s.lateLogged := by simp only [State.setPower]
@[simp] theorem State.setPower_taps (f : Power → Power) : (s.setPower f).taps = s.taps := by simp only [State.setPower]
@[simp] theorem State.setPower_margins (f : Power → Power) : (s.setPower f).margins = s.margins := by simp only [State.setPower]
@[simp] theorem State.setPower_power (f : Power → Power) : (s.setPower f).power = f s.power := rfl
@[simp] theorem State.setPower_net (f : Power → Power) : (s.setPower f).net = s.net := by simp only [State.setPower]
@[simp] theorem State.setPower_boot (f : Power → Power) : (s.setPower f).boot = s.boot := by simp only [State.setPower]
@[simp] theorem State.setPower_sec (f : Power → Power) : (s.setPower f).sec = s.sec := by simp only [State.setPower]
@[simp] theorem State.setPower_front (f : Power → Power) : (s.setPower f).front = s.front := by simp only [State.setPower]
@[simp] theorem State.setPower_thermal (f : Power → Power) : (s.setPower f).thermal = s.thermal := by simp only [State.setPower]
@[simp] theorem State.setPower_elog (f : Power → Power) : (s.setPower f).elog = s.elog := by simp only [State.setPower]
@[simp] theorem State.setPower_gauges (f : Power → Power) : (s.setPower f).gauges = s.gauges := by simp only [State.setPower]
@[simp] theorem State.setPower_outbox (f : Power → Power) : (s.setPower f).outbox = s.outbox := by simp only [State.setPower]
@[simp] theorem State.setPower_drawn (f : Power → Power) : (s.setPower f).drawn = s.drawn := by simp only [State.setPower]
@[simp] theorem State.setPower_pending (f : Power → Power) : (s.setPower f).pending = s.pending := by simp only [State.setPower]

@[simp] theorem State.setClock_regs (f : Clock → Clock) : (s.setClock f).regs = s.regs := by simp only [State.setClock]
@[simp] theorem State.setClock_mem (f : Clock → Clock) : (s.setClock f).mem = s.mem := by simp only [State.setClock]
@[simp] theorem State.setClock_clock (f : Clock → Clock) : (s.setClock f).clock = f s.clock := rfl
@[simp] theorem State.setClock_pins (f : Clock → Clock) : (s.setClock f).pins = s.pins := by simp only [State.setClock]
@[simp] theorem State.setClock_engines (f : Clock → Clock) : (s.setClock f).engines = s.engines := by simp only [State.setClock]
@[simp] theorem State.setClock_hints (f : Clock → Clock) : (s.setClock f).hints = s.hints := by simp only [State.setClock]
@[simp] theorem State.setClock_banks (f : Clock → Clock) : (s.setClock f).banks = s.banks := by simp only [State.setClock]
@[simp] theorem State.setClock_marks (f : Clock → Clock) : (s.setClock f).marks = s.marks := by simp only [State.setClock]
@[simp] theorem State.setClock_landq (f : Clock → Clock) : (s.setClock f).landq = s.landq := by simp only [State.setClock]
@[simp] theorem State.setClock_scrubAt (f : Clock → Clock) : (s.setClock f).scrubAt = s.scrubAt := by simp only [State.setClock]
@[simp] theorem State.setClock_spareRow (f : Clock → Clock) : (s.setClock f).spareRow = s.spareRow := by simp only [State.setClock]
@[simp] theorem State.setClock_squares (f : Clock → Clock) : (s.setClock f).squares = s.squares := by simp only [State.setClock]
@[simp] theorem State.setClock_mesh (f : Clock → Clock) : (s.setClock f).mesh = s.mesh := by simp only [State.setClock]
@[simp] theorem State.setClock_parked (f : Clock → Clock) : (s.setClock f).parked = s.parked := by simp only [State.setClock]
@[simp] theorem State.setClock_bars (f : Clock → Clock) : (s.setClock f).bars = s.bars := by simp only [State.setClock]
@[simp] theorem State.setClock_watches (f : Clock → Clock) : (s.setClock f).watches = s.watches := by simp only [State.setClock]
@[simp] theorem State.setClock_lateLogged (f : Clock → Clock) : (s.setClock f).lateLogged = s.lateLogged := by simp only [State.setClock]
@[simp] theorem State.setClock_taps (f : Clock → Clock) : (s.setClock f).taps = s.taps := by simp only [State.setClock]
@[simp] theorem State.setClock_margins (f : Clock → Clock) : (s.setClock f).margins = s.margins := by simp only [State.setClock]
@[simp] theorem State.setClock_power (f : Clock → Clock) : (s.setClock f).power = s.power := by simp only [State.setClock]
@[simp] theorem State.setClock_net (f : Clock → Clock) : (s.setClock f).net = s.net := by simp only [State.setClock]
@[simp] theorem State.setClock_boot (f : Clock → Clock) : (s.setClock f).boot = s.boot := by simp only [State.setClock]
@[simp] theorem State.setClock_sec (f : Clock → Clock) : (s.setClock f).sec = s.sec := by simp only [State.setClock]
@[simp] theorem State.setClock_front (f : Clock → Clock) : (s.setClock f).front = s.front := by simp only [State.setClock]
@[simp] theorem State.setClock_thermal (f : Clock → Clock) : (s.setClock f).thermal = s.thermal := by simp only [State.setClock]
@[simp] theorem State.setClock_elog (f : Clock → Clock) : (s.setClock f).elog = s.elog := by simp only [State.setClock]
@[simp] theorem State.setClock_gauges (f : Clock → Clock) : (s.setClock f).gauges = s.gauges := by simp only [State.setClock]
@[simp] theorem State.setClock_outbox (f : Clock → Clock) : (s.setClock f).outbox = s.outbox := by simp only [State.setClock]
@[simp] theorem State.setClock_drawn (f : Clock → Clock) : (s.setClock f).drawn = s.drawn := by simp only [State.setClock]
@[simp] theorem State.setClock_pending (f : Clock → Clock) : (s.setClock f).pending = s.pending := by simp only [State.setClock]

@[simp] theorem State.setBoot_regs (f : Boot → Boot) : (s.setBoot f).regs = s.regs := by simp only [State.setBoot]
@[simp] theorem State.setBoot_mem (f : Boot → Boot) : (s.setBoot f).mem = s.mem := by simp only [State.setBoot]
@[simp] theorem State.setBoot_clock (f : Boot → Boot) : (s.setBoot f).clock = s.clock := by simp only [State.setBoot]
@[simp] theorem State.setBoot_pins (f : Boot → Boot) : (s.setBoot f).pins = s.pins := by simp only [State.setBoot]
@[simp] theorem State.setBoot_engines (f : Boot → Boot) : (s.setBoot f).engines = s.engines := by simp only [State.setBoot]
@[simp] theorem State.setBoot_hints (f : Boot → Boot) : (s.setBoot f).hints = s.hints := by simp only [State.setBoot]
@[simp] theorem State.setBoot_banks (f : Boot → Boot) : (s.setBoot f).banks = s.banks := by simp only [State.setBoot]
@[simp] theorem State.setBoot_marks (f : Boot → Boot) : (s.setBoot f).marks = s.marks := by simp only [State.setBoot]
@[simp] theorem State.setBoot_landq (f : Boot → Boot) : (s.setBoot f).landq = s.landq := by simp only [State.setBoot]
@[simp] theorem State.setBoot_scrubAt (f : Boot → Boot) : (s.setBoot f).scrubAt = s.scrubAt := by simp only [State.setBoot]
@[simp] theorem State.setBoot_spareRow (f : Boot → Boot) : (s.setBoot f).spareRow = s.spareRow := by simp only [State.setBoot]
@[simp] theorem State.setBoot_squares (f : Boot → Boot) : (s.setBoot f).squares = s.squares := by simp only [State.setBoot]
@[simp] theorem State.setBoot_mesh (f : Boot → Boot) : (s.setBoot f).mesh = s.mesh := by simp only [State.setBoot]
@[simp] theorem State.setBoot_parked (f : Boot → Boot) : (s.setBoot f).parked = s.parked := by simp only [State.setBoot]
@[simp] theorem State.setBoot_bars (f : Boot → Boot) : (s.setBoot f).bars = s.bars := by simp only [State.setBoot]
@[simp] theorem State.setBoot_watches (f : Boot → Boot) : (s.setBoot f).watches = s.watches := by simp only [State.setBoot]
@[simp] theorem State.setBoot_lateLogged (f : Boot → Boot) : (s.setBoot f).lateLogged = s.lateLogged := by simp only [State.setBoot]
@[simp] theorem State.setBoot_taps (f : Boot → Boot) : (s.setBoot f).taps = s.taps := by simp only [State.setBoot]
@[simp] theorem State.setBoot_margins (f : Boot → Boot) : (s.setBoot f).margins = s.margins := by simp only [State.setBoot]
@[simp] theorem State.setBoot_power (f : Boot → Boot) : (s.setBoot f).power = s.power := by simp only [State.setBoot]
@[simp] theorem State.setBoot_net (f : Boot → Boot) : (s.setBoot f).net = s.net := by simp only [State.setBoot]
@[simp] theorem State.setBoot_boot (f : Boot → Boot) : (s.setBoot f).boot = f s.boot := rfl
@[simp] theorem State.setBoot_sec (f : Boot → Boot) : (s.setBoot f).sec = s.sec := by simp only [State.setBoot]
@[simp] theorem State.setBoot_front (f : Boot → Boot) : (s.setBoot f).front = s.front := by simp only [State.setBoot]
@[simp] theorem State.setBoot_thermal (f : Boot → Boot) : (s.setBoot f).thermal = s.thermal := by simp only [State.setBoot]
@[simp] theorem State.setBoot_elog (f : Boot → Boot) : (s.setBoot f).elog = s.elog := by simp only [State.setBoot]
@[simp] theorem State.setBoot_gauges (f : Boot → Boot) : (s.setBoot f).gauges = s.gauges := by simp only [State.setBoot]
@[simp] theorem State.setBoot_outbox (f : Boot → Boot) : (s.setBoot f).outbox = s.outbox := by simp only [State.setBoot]
@[simp] theorem State.setBoot_drawn (f : Boot → Boot) : (s.setBoot f).drawn = s.drawn := by simp only [State.setBoot]
@[simp] theorem State.setBoot_pending (f : Boot → Boot) : (s.setBoot f).pending = s.pending := by simp only [State.setBoot]

@[simp] theorem State.setSec_regs (f : Sec → Sec) : (s.setSec f).regs = s.regs := by simp only [State.setSec]
@[simp] theorem State.setSec_mem (f : Sec → Sec) : (s.setSec f).mem = s.mem := by simp only [State.setSec]
@[simp] theorem State.setSec_clock (f : Sec → Sec) : (s.setSec f).clock = s.clock := by simp only [State.setSec]
@[simp] theorem State.setSec_pins (f : Sec → Sec) : (s.setSec f).pins = s.pins := by simp only [State.setSec]
@[simp] theorem State.setSec_engines (f : Sec → Sec) : (s.setSec f).engines = s.engines := by simp only [State.setSec]
@[simp] theorem State.setSec_hints (f : Sec → Sec) : (s.setSec f).hints = s.hints := by simp only [State.setSec]
@[simp] theorem State.setSec_banks (f : Sec → Sec) : (s.setSec f).banks = s.banks := by simp only [State.setSec]
@[simp] theorem State.setSec_marks (f : Sec → Sec) : (s.setSec f).marks = s.marks := by simp only [State.setSec]
@[simp] theorem State.setSec_landq (f : Sec → Sec) : (s.setSec f).landq = s.landq := by simp only [State.setSec]
@[simp] theorem State.setSec_scrubAt (f : Sec → Sec) : (s.setSec f).scrubAt = s.scrubAt := by simp only [State.setSec]
@[simp] theorem State.setSec_spareRow (f : Sec → Sec) : (s.setSec f).spareRow = s.spareRow := by simp only [State.setSec]
@[simp] theorem State.setSec_squares (f : Sec → Sec) : (s.setSec f).squares = s.squares := by simp only [State.setSec]
@[simp] theorem State.setSec_mesh (f : Sec → Sec) : (s.setSec f).mesh = s.mesh := by simp only [State.setSec]
@[simp] theorem State.setSec_parked (f : Sec → Sec) : (s.setSec f).parked = s.parked := by simp only [State.setSec]
@[simp] theorem State.setSec_bars (f : Sec → Sec) : (s.setSec f).bars = s.bars := by simp only [State.setSec]
@[simp] theorem State.setSec_watches (f : Sec → Sec) : (s.setSec f).watches = s.watches := by simp only [State.setSec]
@[simp] theorem State.setSec_lateLogged (f : Sec → Sec) : (s.setSec f).lateLogged = s.lateLogged := by simp only [State.setSec]
@[simp] theorem State.setSec_taps (f : Sec → Sec) : (s.setSec f).taps = s.taps := by simp only [State.setSec]
@[simp] theorem State.setSec_margins (f : Sec → Sec) : (s.setSec f).margins = s.margins := by simp only [State.setSec]
@[simp] theorem State.setSec_power (f : Sec → Sec) : (s.setSec f).power = s.power := by simp only [State.setSec]
@[simp] theorem State.setSec_net (f : Sec → Sec) : (s.setSec f).net = s.net := by simp only [State.setSec]
@[simp] theorem State.setSec_boot (f : Sec → Sec) : (s.setSec f).boot = s.boot := by simp only [State.setSec]
@[simp] theorem State.setSec_sec (f : Sec → Sec) : (s.setSec f).sec = f s.sec := rfl
@[simp] theorem State.setSec_front (f : Sec → Sec) : (s.setSec f).front = s.front := by simp only [State.setSec]
@[simp] theorem State.setSec_thermal (f : Sec → Sec) : (s.setSec f).thermal = s.thermal := by simp only [State.setSec]
@[simp] theorem State.setSec_elog (f : Sec → Sec) : (s.setSec f).elog = s.elog := by simp only [State.setSec]
@[simp] theorem State.setSec_gauges (f : Sec → Sec) : (s.setSec f).gauges = s.gauges := by simp only [State.setSec]
@[simp] theorem State.setSec_outbox (f : Sec → Sec) : (s.setSec f).outbox = s.outbox := by simp only [State.setSec]
@[simp] theorem State.setSec_drawn (f : Sec → Sec) : (s.setSec f).drawn = s.drawn := by simp only [State.setSec]
@[simp] theorem State.setSec_pending (f : Sec → Sec) : (s.setSec f).pending = s.pending := by simp only [State.setSec]

@[simp] theorem State.setThermal_regs (f : Thermal → Thermal) : (s.setThermal f).regs = s.regs := by simp only [State.setThermal]
@[simp] theorem State.setThermal_mem (f : Thermal → Thermal) : (s.setThermal f).mem = s.mem := by simp only [State.setThermal]
@[simp] theorem State.setThermal_clock (f : Thermal → Thermal) : (s.setThermal f).clock = s.clock := by simp only [State.setThermal]
@[simp] theorem State.setThermal_pins (f : Thermal → Thermal) : (s.setThermal f).pins = s.pins := by simp only [State.setThermal]
@[simp] theorem State.setThermal_engines (f : Thermal → Thermal) : (s.setThermal f).engines = s.engines := by simp only [State.setThermal]
@[simp] theorem State.setThermal_hints (f : Thermal → Thermal) : (s.setThermal f).hints = s.hints := by simp only [State.setThermal]
@[simp] theorem State.setThermal_banks (f : Thermal → Thermal) : (s.setThermal f).banks = s.banks := by simp only [State.setThermal]
@[simp] theorem State.setThermal_marks (f : Thermal → Thermal) : (s.setThermal f).marks = s.marks := by simp only [State.setThermal]
@[simp] theorem State.setThermal_landq (f : Thermal → Thermal) : (s.setThermal f).landq = s.landq := by simp only [State.setThermal]
@[simp] theorem State.setThermal_scrubAt (f : Thermal → Thermal) : (s.setThermal f).scrubAt = s.scrubAt := by simp only [State.setThermal]
@[simp] theorem State.setThermal_spareRow (f : Thermal → Thermal) : (s.setThermal f).spareRow = s.spareRow := by simp only [State.setThermal]
@[simp] theorem State.setThermal_squares (f : Thermal → Thermal) : (s.setThermal f).squares = s.squares := by simp only [State.setThermal]
@[simp] theorem State.setThermal_mesh (f : Thermal → Thermal) : (s.setThermal f).mesh = s.mesh := by simp only [State.setThermal]
@[simp] theorem State.setThermal_parked (f : Thermal → Thermal) : (s.setThermal f).parked = s.parked := by simp only [State.setThermal]
@[simp] theorem State.setThermal_bars (f : Thermal → Thermal) : (s.setThermal f).bars = s.bars := by simp only [State.setThermal]
@[simp] theorem State.setThermal_watches (f : Thermal → Thermal) : (s.setThermal f).watches = s.watches := by simp only [State.setThermal]
@[simp] theorem State.setThermal_lateLogged (f : Thermal → Thermal) : (s.setThermal f).lateLogged = s.lateLogged := by simp only [State.setThermal]
@[simp] theorem State.setThermal_taps (f : Thermal → Thermal) : (s.setThermal f).taps = s.taps := by simp only [State.setThermal]
@[simp] theorem State.setThermal_margins (f : Thermal → Thermal) : (s.setThermal f).margins = s.margins := by simp only [State.setThermal]
@[simp] theorem State.setThermal_power (f : Thermal → Thermal) : (s.setThermal f).power = s.power := by simp only [State.setThermal]
@[simp] theorem State.setThermal_net (f : Thermal → Thermal) : (s.setThermal f).net = s.net := by simp only [State.setThermal]
@[simp] theorem State.setThermal_boot (f : Thermal → Thermal) : (s.setThermal f).boot = s.boot := by simp only [State.setThermal]
@[simp] theorem State.setThermal_sec (f : Thermal → Thermal) : (s.setThermal f).sec = s.sec := by simp only [State.setThermal]
@[simp] theorem State.setThermal_front (f : Thermal → Thermal) : (s.setThermal f).front = s.front := by simp only [State.setThermal]
@[simp] theorem State.setThermal_thermal (f : Thermal → Thermal) : (s.setThermal f).thermal = f s.thermal := rfl
@[simp] theorem State.setThermal_elog (f : Thermal → Thermal) : (s.setThermal f).elog = s.elog := by simp only [State.setThermal]
@[simp] theorem State.setThermal_gauges (f : Thermal → Thermal) : (s.setThermal f).gauges = s.gauges := by simp only [State.setThermal]
@[simp] theorem State.setThermal_outbox (f : Thermal → Thermal) : (s.setThermal f).outbox = s.outbox := by simp only [State.setThermal]
@[simp] theorem State.setThermal_drawn (f : Thermal → Thermal) : (s.setThermal f).drawn = s.drawn := by simp only [State.setThermal]
@[simp] theorem State.setThermal_pending (f : Thermal → Thermal) : (s.setThermal f).pending = s.pending := by simp only [State.setThermal]

@[simp] theorem State.setFront_regs (f : Front → Front) : (s.setFront f).regs = s.regs := by simp only [State.setFront]
@[simp] theorem State.setFront_mem (f : Front → Front) : (s.setFront f).mem = s.mem := by simp only [State.setFront]
@[simp] theorem State.setFront_clock (f : Front → Front) : (s.setFront f).clock = s.clock := by simp only [State.setFront]
@[simp] theorem State.setFront_pins (f : Front → Front) : (s.setFront f).pins = s.pins := by simp only [State.setFront]
@[simp] theorem State.setFront_engines (f : Front → Front) : (s.setFront f).engines = s.engines := by simp only [State.setFront]
@[simp] theorem State.setFront_hints (f : Front → Front) : (s.setFront f).hints = s.hints := by simp only [State.setFront]
@[simp] theorem State.setFront_banks (f : Front → Front) : (s.setFront f).banks = s.banks := by simp only [State.setFront]
@[simp] theorem State.setFront_marks (f : Front → Front) : (s.setFront f).marks = s.marks := by simp only [State.setFront]
@[simp] theorem State.setFront_landq (f : Front → Front) : (s.setFront f).landq = s.landq := by simp only [State.setFront]
@[simp] theorem State.setFront_scrubAt (f : Front → Front) : (s.setFront f).scrubAt = s.scrubAt := by simp only [State.setFront]
@[simp] theorem State.setFront_spareRow (f : Front → Front) : (s.setFront f).spareRow = s.spareRow := by simp only [State.setFront]
@[simp] theorem State.setFront_squares (f : Front → Front) : (s.setFront f).squares = s.squares := by simp only [State.setFront]
@[simp] theorem State.setFront_mesh (f : Front → Front) : (s.setFront f).mesh = s.mesh := by simp only [State.setFront]
@[simp] theorem State.setFront_parked (f : Front → Front) : (s.setFront f).parked = s.parked := by simp only [State.setFront]
@[simp] theorem State.setFront_bars (f : Front → Front) : (s.setFront f).bars = s.bars := by simp only [State.setFront]
@[simp] theorem State.setFront_watches (f : Front → Front) : (s.setFront f).watches = s.watches := by simp only [State.setFront]
@[simp] theorem State.setFront_lateLogged (f : Front → Front) : (s.setFront f).lateLogged = s.lateLogged := by simp only [State.setFront]
@[simp] theorem State.setFront_taps (f : Front → Front) : (s.setFront f).taps = s.taps := by simp only [State.setFront]
@[simp] theorem State.setFront_margins (f : Front → Front) : (s.setFront f).margins = s.margins := by simp only [State.setFront]
@[simp] theorem State.setFront_power (f : Front → Front) : (s.setFront f).power = s.power := by simp only [State.setFront]
@[simp] theorem State.setFront_net (f : Front → Front) : (s.setFront f).net = s.net := by simp only [State.setFront]
@[simp] theorem State.setFront_boot (f : Front → Front) : (s.setFront f).boot = s.boot := by simp only [State.setFront]
@[simp] theorem State.setFront_sec (f : Front → Front) : (s.setFront f).sec = s.sec := by simp only [State.setFront]
@[simp] theorem State.setFront_front (f : Front → Front) : (s.setFront f).front = f s.front := rfl
@[simp] theorem State.setFront_thermal (f : Front → Front) : (s.setFront f).thermal = s.thermal := by simp only [State.setFront]
@[simp] theorem State.setFront_elog (f : Front → Front) : (s.setFront f).elog = s.elog := by simp only [State.setFront]
@[simp] theorem State.setFront_gauges (f : Front → Front) : (s.setFront f).gauges = s.gauges := by simp only [State.setFront]
@[simp] theorem State.setFront_outbox (f : Front → Front) : (s.setFront f).outbox = s.outbox := by simp only [State.setFront]
@[simp] theorem State.setFront_drawn (f : Front → Front) : (s.setFront f).drawn = s.drawn := by simp only [State.setFront]
@[simp] theorem State.setFront_pending (f : Front → Front) : (s.setFront f).pending = s.pending := by simp only [State.setFront]

@[simp] theorem State.setSess_regs (i : SlotId) (x : Session) : (s.setSess i x).regs = s.regs := by simp only [State.setSess]
@[simp] theorem State.setSess_mem (i : SlotId) (x : Session) : (s.setSess i x).mem = s.mem := by simp only [State.setSess]
@[simp] theorem State.setSess_clock (i : SlotId) (x : Session) : (s.setSess i x).clock = s.clock := by simp only [State.setSess]
@[simp] theorem State.setSess_pins (i : SlotId) (x : Session) : (s.setSess i x).pins = s.pins := by simp only [State.setSess]
@[simp] theorem State.setSess_engines (i : SlotId) (x : Session) : (s.setSess i x).engines = s.engines := by simp only [State.setSess]
@[simp] theorem State.setSess_hints (i : SlotId) (x : Session) : (s.setSess i x).hints = s.hints := by simp only [State.setSess]
@[simp] theorem State.setSess_banks (i : SlotId) (x : Session) : (s.setSess i x).banks = s.banks := by simp only [State.setSess]
@[simp] theorem State.setSess_marks (i : SlotId) (x : Session) : (s.setSess i x).marks = s.marks := by simp only [State.setSess]
@[simp] theorem State.setSess_landq (i : SlotId) (x : Session) : (s.setSess i x).landq = s.landq := by simp only [State.setSess]
@[simp] theorem State.setSess_scrubAt (i : SlotId) (x : Session) : (s.setSess i x).scrubAt = s.scrubAt := by simp only [State.setSess]
@[simp] theorem State.setSess_spareRow (i : SlotId) (x : Session) : (s.setSess i x).spareRow = s.spareRow := by simp only [State.setSess]
@[simp] theorem State.setSess_squares (i : SlotId) (x : Session) : (s.setSess i x).squares = s.squares := by simp only [State.setSess]
@[simp] theorem State.setSess_mesh (i : SlotId) (x : Session) : (s.setSess i x).mesh = s.mesh := by simp only [State.setSess]
@[simp] theorem State.setSess_parked (i : SlotId) (x : Session) : (s.setSess i x).parked = s.parked := by simp only [State.setSess]
@[simp] theorem State.setSess_bars (i : SlotId) (x : Session) : (s.setSess i x).bars = s.bars := by simp only [State.setSess]
@[simp] theorem State.setSess_watches (i : SlotId) (x : Session) : (s.setSess i x).watches = s.watches := by simp only [State.setSess]
@[simp] theorem State.setSess_lateLogged (i : SlotId) (x : Session) : (s.setSess i x).lateLogged = s.lateLogged := by simp only [State.setSess]
@[simp] theorem State.setSess_taps (i : SlotId) (x : Session) : (s.setSess i x).taps = s.taps := by simp only [State.setSess]
@[simp] theorem State.setSess_margins (i : SlotId) (x : Session) : (s.setSess i x).margins = s.margins := by simp only [State.setSess]
@[simp] theorem State.setSess_power (i : SlotId) (x : Session) : (s.setSess i x).power = s.power := by simp only [State.setSess]
@[simp] theorem State.setSess_net (i : SlotId) (x : Session) : (s.setSess i x).net = s.net := by simp only [State.setSess]
@[simp] theorem State.setSess_boot (i : SlotId) (x : Session) : (s.setSess i x).boot = s.boot := by simp only [State.setSess]
@[simp] theorem State.setSess_sec (i : SlotId) (x : Session) : (s.setSess i x).sec = s.sec := by simp only [State.setSess]
@[simp] theorem State.setSess_front (i : SlotId) (x : Session) : (s.setSess i x).front = { s.front with sessions := vset s.front.sessions i x } := rfl
@[simp] theorem State.setSess_thermal (i : SlotId) (x : Session) : (s.setSess i x).thermal = s.thermal := by simp only [State.setSess]
@[simp] theorem State.setSess_elog (i : SlotId) (x : Session) : (s.setSess i x).elog = s.elog := by simp only [State.setSess]
@[simp] theorem State.setSess_gauges (i : SlotId) (x : Session) : (s.setSess i x).gauges = s.gauges := by simp only [State.setSess]
@[simp] theorem State.setSess_outbox (i : SlotId) (x : Session) : (s.setSess i x).outbox = s.outbox := by simp only [State.setSess]
@[simp] theorem State.setSess_drawn (i : SlotId) (x : Session) : (s.setSess i x).drawn = s.drawn := by simp only [State.setSess]
@[simp] theorem State.setSess_pending (i : SlotId) (x : Session) : (s.setSess i x).pending = s.pending := by simp only [State.setSess]

@[simp] theorem State.setGauge_regs (g : GaugeId) (x : Gauge) : (s.setGauge g x).regs = s.regs := by simp only [State.setGauge]
@[simp] theorem State.setGauge_mem (g : GaugeId) (x : Gauge) : (s.setGauge g x).mem = s.mem := by simp only [State.setGauge]
@[simp] theorem State.setGauge_clock (g : GaugeId) (x : Gauge) : (s.setGauge g x).clock = s.clock := by simp only [State.setGauge]
@[simp] theorem State.setGauge_pins (g : GaugeId) (x : Gauge) : (s.setGauge g x).pins = s.pins := by simp only [State.setGauge]
@[simp] theorem State.setGauge_engines (g : GaugeId) (x : Gauge) : (s.setGauge g x).engines = s.engines := by simp only [State.setGauge]
@[simp] theorem State.setGauge_hints (g : GaugeId) (x : Gauge) : (s.setGauge g x).hints = s.hints := by simp only [State.setGauge]
@[simp] theorem State.setGauge_banks (g : GaugeId) (x : Gauge) : (s.setGauge g x).banks = s.banks := by simp only [State.setGauge]
@[simp] theorem State.setGauge_marks (g : GaugeId) (x : Gauge) : (s.setGauge g x).marks = s.marks := by simp only [State.setGauge]
@[simp] theorem State.setGauge_landq (g : GaugeId) (x : Gauge) : (s.setGauge g x).landq = s.landq := by simp only [State.setGauge]
@[simp] theorem State.setGauge_scrubAt (g : GaugeId) (x : Gauge) : (s.setGauge g x).scrubAt = s.scrubAt := by simp only [State.setGauge]
@[simp] theorem State.setGauge_spareRow (g : GaugeId) (x : Gauge) : (s.setGauge g x).spareRow = s.spareRow := by simp only [State.setGauge]
@[simp] theorem State.setGauge_squares (g : GaugeId) (x : Gauge) : (s.setGauge g x).squares = s.squares := by simp only [State.setGauge]
@[simp] theorem State.setGauge_mesh (g : GaugeId) (x : Gauge) : (s.setGauge g x).mesh = s.mesh := by simp only [State.setGauge]
@[simp] theorem State.setGauge_parked (g : GaugeId) (x : Gauge) : (s.setGauge g x).parked = s.parked := by simp only [State.setGauge]
@[simp] theorem State.setGauge_bars (g : GaugeId) (x : Gauge) : (s.setGauge g x).bars = s.bars := by simp only [State.setGauge]
@[simp] theorem State.setGauge_watches (g : GaugeId) (x : Gauge) : (s.setGauge g x).watches = s.watches := by simp only [State.setGauge]
@[simp] theorem State.setGauge_lateLogged (g : GaugeId) (x : Gauge) : (s.setGauge g x).lateLogged = s.lateLogged := by simp only [State.setGauge]
@[simp] theorem State.setGauge_taps (g : GaugeId) (x : Gauge) : (s.setGauge g x).taps = s.taps := by simp only [State.setGauge]
@[simp] theorem State.setGauge_margins (g : GaugeId) (x : Gauge) : (s.setGauge g x).margins = s.margins := by simp only [State.setGauge]
@[simp] theorem State.setGauge_power (g : GaugeId) (x : Gauge) : (s.setGauge g x).power = s.power := by simp only [State.setGauge]
@[simp] theorem State.setGauge_net (g : GaugeId) (x : Gauge) : (s.setGauge g x).net = s.net := by simp only [State.setGauge]
@[simp] theorem State.setGauge_boot (g : GaugeId) (x : Gauge) : (s.setGauge g x).boot = s.boot := by simp only [State.setGauge]
@[simp] theorem State.setGauge_sec (g : GaugeId) (x : Gauge) : (s.setGauge g x).sec = s.sec := by simp only [State.setGauge]
@[simp] theorem State.setGauge_front (g : GaugeId) (x : Gauge) : (s.setGauge g x).front = s.front := by simp only [State.setGauge]
@[simp] theorem State.setGauge_thermal (g : GaugeId) (x : Gauge) : (s.setGauge g x).thermal = s.thermal := by simp only [State.setGauge]
@[simp] theorem State.setGauge_elog (g : GaugeId) (x : Gauge) : (s.setGauge g x).elog = s.elog := by simp only [State.setGauge]
@[simp] theorem State.setGauge_gauges (g : GaugeId) (x : Gauge) : (s.setGauge g x).gauges = vset s.gauges g x := rfl
@[simp] theorem State.setGauge_outbox (g : GaugeId) (x : Gauge) : (s.setGauge g x).outbox = s.outbox := by simp only [State.setGauge]
@[simp] theorem State.setGauge_drawn (g : GaugeId) (x : Gauge) : (s.setGauge g x).drawn = s.drawn := by simp only [State.setGauge]
@[simp] theorem State.setGauge_pending (g : GaugeId) (x : Gauge) : (s.setGauge g x).pending = s.pending := by simp only [State.setGauge]

end Sys2Proof.Machine
end

