-- ==== Sys2Proof/Laws/Table.lean ====
section
/-! SUPPORT. Sparse tables: what reading after writing gives, and which operations keep the canonical form. -/
namespace Sys2Proof

@[simp] theorem Tbl.get_nil {α : Type} (d : Nat → α) (k : Nat) : Tbl.get d [] k = d k := rfl

theorem Tbl.get_erase_same {α : Type} (d : Nat → α) (t : Tbl α) (k : Nat) : Tbl.get d (Tbl.erase t k) k = d k := by
  induction t with
  | nil => rfl
  | cons p t ih =>
    obtain ⟨a, v⟩ := p
    by_cases h : a = k <;> simp [Tbl.erase, Tbl.get, h, ih]

theorem Tbl.get_erase_other {α : Type} (d : Nat → α) (t : Tbl α) {k j : Nat} (hj : j ≠ k) :
    Tbl.get d (Tbl.erase t k) j = Tbl.get d t j := by
  induction t with
  | nil => rfl
  | cons p t ih =>
    obtain ⟨a, v⟩ := p
    by_cases h : a = k
    · have : a ≠ j := fun e => hj (e.symm.trans h)
      simp only [Tbl.erase, h, if_true, Tbl.get, ih]
      simp [← h, this]
    · simp [Tbl.erase, Tbl.get, h, ih]

theorem Tbl.get_insert_other {α : Type} (d : Nat → α) (t : Tbl α) {k j : Nat} (v : α) (hj : j ≠ k) :
    Tbl.get d (Tbl.insert t k v) j = Tbl.get d t j := by
  have hk : k ≠ j := Ne.symm hj
  induction t with
  | nil => simp [Tbl.insert, Tbl.get, hk]
  | cons p t ih =>
    obtain ⟨a, w⟩ := p
    by_cases h : k < a <;> simp [Tbl.insert, Tbl.get, h, hk, ih]

theorem Tbl.get_insert_erase {α : Type} (d : Nat → α) (t : Tbl α) (k : Nat) (v : α) :
    Tbl.get d (Tbl.insert (Tbl.erase t k) k v) k = v := by
  induction t with
  | nil => simp [Tbl.erase, Tbl.insert, Tbl.get]
  | cons p t ih =>
    obtain ⟨a, w⟩ := p
    by_cases h : a = k
    · simpa [Tbl.erase, h] using ih
    · by_cases hl : k < a <;> simp [Tbl.erase, Tbl.insert, Tbl.get, h, hl, ih]

/-- A key reads as what was written at it. -/
@[simp] theorem Tbl.get_set_same {α : Type} [DecidableEq α] (d : Nat → α) (t : Tbl α) (k : Nat) (v : α) :
    Tbl.get d (Tbl.set d t k v) k = v := by
  unfold Tbl.set
  split
  · rename_i h; rw [Tbl.get_erase_same, h]
  · exact Tbl.get_insert_erase d t k v

/-- A write leaves every other key alone. -/
theorem Tbl.get_set_other {α : Type} [DecidableEq α] (d : Nat → α) (t : Tbl α) {k j : Nat} (v : α) (hj : j ≠ k) :
    Tbl.get d (Tbl.set d t k v) j = Tbl.get d t j := by
  unfold Tbl.set
  split
  · exact Tbl.get_erase_other d t hj
  · rw [Tbl.get_insert_other d _ v hj, Tbl.get_erase_other d t hj]

theorem Tbl.get_set {α : Type} [DecidableEq α] (d : Nat → α) (t : Tbl α) (k j : Nat) (v : α) :
    Tbl.get d (Tbl.set d t k v) j = if j = k then v else Tbl.get d t j := by
  by_cases h : j = k
  · simp [h]
  · simp [h, Tbl.get_set_other d t v h]

theorem Tbl.wfFrom_mono {α : Type} [DecidableEq α] (d : Nat → α) {lo lo' : Nat} (h : lo' ≤ lo) (t : Tbl α)
    (ht : Tbl.wfFrom d lo t = true) : Tbl.wfFrom d lo' t = true := by
  cases t with
  | nil => rfl
  | cons p t =>
    obtain ⟨a, v⟩ := p
    simp only [Tbl.wfFrom, Bool.and_eq_true, decide_eq_true_eq] at ht ⊢
    exact ⟨⟨by omega, ht.1.2⟩, ht.2⟩

theorem Tbl.wfFrom_filter {α : Type} [DecidableEq α] (d : Nat → α) (f : Nat × α → Bool) (t : Tbl α) :
    ∀ lo, Tbl.wfFrom d lo t = true → Tbl.wfFrom d lo (t.filter f) = true := by
  induction t with
  | nil => intro _ _; rfl
  | cons p t ih =>
    intro lo ht
    obtain ⟨a, v⟩ := p
    simp only [Tbl.wfFrom, Bool.and_eq_true, decide_eq_true_eq] at ht
    by_cases h : f (a, v) = true
    · simp only [List.filter_cons, h, if_true, Tbl.wfFrom, Bool.and_eq_true, decide_eq_true_eq]
      exact ⟨ht.1, ih _ ht.2⟩
    · simp only [List.filter_cons, h]
      exact Tbl.wfFrom_mono d (by omega) _ (ih _ ht.2)

theorem Tbl.erase_eq_filter {α : Type} (t : Tbl α) (k : Nat) : Tbl.erase t k = t.filter fun p => decide (p.1 ≠ k) := by
  induction t with
  | nil => rfl
  | cons p t ih =>
    obtain ⟨a, v⟩ := p
    by_cases h : a = k <;> simp [Tbl.erase, h, ih]

theorem Tbl.wfFrom_insert {α : Type} [DecidableEq α] (d : Nat → α) (k : Nat) (v : α) (hv : v ≠ d k) (t : Tbl α) :
    ∀ lo, lo ≤ k → (∀ p ∈ t, p.1 ≠ k) → Tbl.wfFrom d lo t = true → Tbl.wfFrom d lo (Tbl.insert t k v) = true := by
  induction t with
  | nil => intro lo hlo _ _; simp [Tbl.insert, Tbl.wfFrom, hlo, hv]
  | cons p t ih =>
    intro lo hlo hne ht
    obtain ⟨a, w⟩ := p
    have ha : a ≠ k := hne (a, w) (List.mem_cons_self ..)
    simp only [Tbl.wfFrom, Bool.and_eq_true, decide_eq_true_eq] at ht
    by_cases h : k < a
    · simp only [Tbl.insert, h, if_true, Tbl.wfFrom, Bool.and_eq_true, decide_eq_true_eq]
      exact ⟨⟨hlo, hv⟩, ⟨by omega, ht.1.2⟩, ht.2⟩
    · simp only [Tbl.insert, h, if_false, Tbl.wfFrom, Bool.and_eq_true, decide_eq_true_eq]
      exact ⟨ht.1, ih _ (by omega) (fun q hq => hne q (List.mem_cons_of_mem _ hq)) ht.2⟩

theorem Tbl.wf_nil {α : Type} [DecidableEq α] (d : Nat → α) : Tbl.wf d [] = true := rfl

/-- Taking entries out keeps the canonical form. -/
theorem Tbl.wf_filter {α : Type} [DecidableEq α] (d : Nat → α) (f : Nat × α → Bool) (t : Tbl α) (h : Tbl.wf d t = true) :
    Tbl.wf d (t.filter f) = true := Tbl.wfFrom_filter d f t 0 h

/-- A write keeps the canonical form. -/
theorem Tbl.wf_set {α : Type} [DecidableEq α] (d : Nat → α) (t : Tbl α) (k : Nat) (v : α) (h : Tbl.wf d t = true) :
    Tbl.wf d (Tbl.set d t k v) = true := by
  have he : Tbl.wf d (Tbl.erase t k) = true := by rw [Tbl.erase_eq_filter]; exact Tbl.wf_filter d _ t h
  unfold Tbl.set
  split
  · exact he
  · rename_i hv
    refine Tbl.wfFrom_insert d k v hv _ 0 (Nat.zero_le k) ?_ he
    intro p hp
    rw [Tbl.erase_eq_filter, List.mem_filter] at hp
    exact of_decide_eq_true hp.2

@[simp] theorem vget_vset_same {α : Type} {n : Nat} (v : Vector α n) (i : Fin n) (x : α) : vget (vset v i x) i = x := by
  show (v.set i.val x i.isLt)[i.val] = x
  exact Vector.getElem_set_self i.isLt

theorem vget_vset_other {α : Type} {n : Nat} (v : Vector α n) {i j : Fin n} (x : α) (h : j ≠ i) : vget (vset v i x) j = vget v j := by
  show (v.set i.val x i.isLt)[j.val] = v[j.val]
  exact Vector.getElem_set_ne i.isLt j.isLt fun e => h (Fin.ext e.symm)

end Sys2Proof
end

