-- ==== Sys2Proof/Laws/Registers.lean ====
section
/-! SUPPORT. What reading a register or a byte gives after an update of the state. -/
namespace Sys2Proof.Machine

theorem getBits_lt (x lo w : Nat) : getBits x lo w < 2 ^ w := Nat.mod_lt _ (Nat.two_pow_pos w)

theorem getBits_testBit (x lo w i : Nat) : (getBits x lo w).testBit i = (decide (i < w) && x.testBit (lo + i)) := by
  rw [getBits, Nat.testBit_mod_two_pow, Nat.testBit_div_two_pow, Nat.add_comm i lo]

/-- Replacing a field sets its bits and leaves the others. -/
theorem putBits_testBit (x lo w v i : Nat) :
    (putBits x lo w v).testBit i = if lo ≤ i ∧ i < lo + w then v.testBit (i - lo) else x.testBit i := by
  have e : putBits x lo w v = 2 ^ lo * (2 ^ w * (x / 2 ^ (lo + w)) + v % 2 ^ w) + x % 2 ^ lo := by
    unfold putBits
    rw [Nat.pow_add, Nat.mul_add, Nat.mul_comm (x / _), Nat.mul_assoc, Nat.mul_comm (v % _)]
    omega
  rw [e, Nat.testBit_two_pow_mul_add _ (Nat.mod_lt _ (Nat.two_pow_pos lo)), Nat.testBit_mod_two_pow]
  by_cases h : i < lo
  · simp [h, show ¬ lo ≤ i by omega]
  · rw [if_neg h, Nat.testBit_two_pow_mul_add _ (Nat.mod_lt _ (Nat.two_pow_pos w)), Nat.testBit_mod_two_pow, Nat.testBit_div_two_pow]
    by_cases h' : i < lo + w
    · simp [show i - lo < w by omega, show lo ≤ i by omega, h']
    · simp [show ¬ i - lo < w by omega, h', show i - lo - w + (lo + w) = i by omega]

/-- A replaced field reads as what was put there. -/
theorem getBits_putBits_same (x lo w v : Nat) : getBits (putBits x lo w v) lo w = v % 2 ^ w := by
  apply Nat.eq_of_testBit_eq
  intro i
  rw [getBits_testBit, putBits_testBit, Nat.testBit_mod_two_pow]
  by_cases h : i < w <;> simp [h]

/-- A field that does not overlap the replaced one reads as before. -/
theorem getBits_putBits_apart (x lo w v lo' w' : Nat) (h : lo' + w' ≤ lo ∨ lo + w ≤ lo') :
    getBits (putBits x lo w v) lo' w' = getBits x lo' w' := by
  apply Nat.eq_of_testBit_eq
  intro i
  rw [getBits_testBit, getBits_testBit, putBits_testBit]
  by_cases hi : i < w'
  · rw [if_neg (by omega)]
  · simp [hi]

/-- Nothing beyond bit 63 is read of a field that ends there. -/
theorem getBits_mod64 (x lo w : Nat) (h : lo + w ≤ 64) : getBits (x % 2 ^ 64) lo w = getBits x lo w := by
  apply Nat.eq_of_testBit_eq
  intro i
  rw [getBits_testBit, getBits_testBit, Nat.testBit_mod_two_pow]
  by_cases hi : i < w
  · simp [show lo + i < 64 by omega]
  · simp [hi]

variable (s : State)

theorem State.rd_lt (k : Nat) : s.rd k < 2 ^ 64 := BitVec.isLt _

@[simp] theorem State.rd_wr_same (k v : Nat) : (s.wr k v).rd k = v % 2 ^ 64 := by
  simp only [State.rd, State.wr_regs, Tbl.get_set_same, BitVec.toNat_ofNat]

theorem State.rd_wr_other {k j : Nat} (v : Nat) (h : j ≠ k) : (s.wr k v).rd j = s.rd j := by
  simp only [State.rd, State.wr_regs, Tbl.get_set_other _ _ _ h]

theorem State.rd_put_other (f : Field) (v i j : Nat) {k : Nat} (h : k ≠ f.reg.key i j) : (s.put f v i j).rd k = s.rd k :=
  State.rd_wr_other s _ h

/-- A field reads as what was put in it. -/
theorem State.get_put_same (f : Field) (h : f.fits) (v i j : Nat) : (s.put f v i j).get f i j = v % 2 ^ f.w := by
  simp only [State.get, State.put, State.rd_wr_same, getBits_mod64 _ _ _ h, getBits_putBits_same]

/-- A put leaves the fields of other registers. -/
theorem State.get_put_other (f g : Field) (v i j i' j' : Nat) (h : g.reg.key i' j' ≠ f.reg.key i j) :
    (s.put f v i j).get g i' j' = s.get g i' j' := by
  simp only [State.get, State.rd_put_other s f v i j h]

/-- A put leaves the other fields of its register. -/
theorem State.get_put_apart (f g : Field) (v i j : Nat) (hr : g.reg = f.reg) (hg : g.fits) (h : g.lo + g.w ≤ f.lo ∨ f.lo + f.w ≤ g.lo) :
    (s.put f v i j).get g i j = s.get g i j := by
  simp only [State.get, State.put, hr, State.rd_wr_same, getBits_mod64 _ _ _ hg, getBits_putBits_apart _ _ _ _ _ _ h]

@[simp] theorem State.reg_setReg_same (r : Reg) (v i j : Nat) : (s.setReg r v i j).reg r i j = v % 2 ^ 64 := State.rd_wr_same ..

theorem State.rd_setReg_other (r : Reg) (v i j : Nat) {k : Nat} (h : k ≠ r.key i j) : (s.setReg r v i j).rd k = s.rd k :=
  State.rd_wr_other s _ h

theorem State.get_lt (f : Field) (i j : Nat) : s.get f i j < 2 ^ f.w := getBits_lt ..

@[simp] theorem State.byte_setByte_same (k : Nat) (b : Byte) : (s.setByte k b).byte k = b := by
  simp only [State.byte, State.setByte_mem, Tbl.get_set_same]

theorem State.byte_setByte_other {k j : Nat} (b : Byte) (h : j ≠ k) : (s.setByte k b).byte j = s.byte j := by
  simp only [State.byte, State.setByte_mem, Tbl.get_set_other _ _ _ h]

@[simp] theorem State.byte_wr (key v : Nat) (q : Nat) : (s.wr key v).byte q = s.byte q := by simp only [State.byte, State.wr_mem]
@[simp] theorem State.byte_put (f : Field) (v i j : Nat) (q : Nat) : (s.put f v i j).byte q = s.byte q := by simp only [State.byte, State.put_mem]
@[simp] theorem State.byte_setReg (r : Reg) (v i j : Nat) (q : Nat) : (s.setReg r v i j).byte q = s.byte q := by simp only [State.byte, State.setReg_mem]
@[simp] theorem State.rd_setByte (key : Nat) (b : Byte) (q : Nat) : (s.setByte key b).rd q = s.rd q := by simp only [State.rd, State.setByte_regs]
@[simp] theorem State.get_setByte (key : Nat) (b : Byte) (F : Field) (i' j' : Nat) : (s.setByte key b).get F i' j' = s.get F i' j' := by simp only [State.get, State.rd_setByte]
@[simp] theorem State.on_setByte (key : Nat) (b : Byte) (F : Field) (i' j' : Nat) : (s.setByte key b).on F i' j' = s.on F i' j' := by simp only [State.on, State.get_setByte]
@[simp] theorem State.reg_setByte (key : Nat) (b : Byte) (R : Reg) (i' j' : Nat) : (s.setByte key b).reg R i' j' = s.reg R i' j' := by simp only [State.reg, State.rd_setByte]
@[simp] theorem State.rd_emit (o : Output) (q : Nat) : (s.emit o).rd q = s.rd q := by simp only [State.rd, State.emit_regs]
@[simp] theorem State.get_emit (o : Output) (F : Field) (i' j' : Nat) : (s.emit o).get F i' j' = s.get F i' j' := by simp only [State.get, State.rd_emit]
@[simp] theorem State.on_emit (o : Output) (F : Field) (i' j' : Nat) : (s.emit o).on F i' j' = s.on F i' j' := by simp only [State.on, State.get_emit]
@[simp] theorem State.reg_emit (o : Output) (R : Reg) (i' j' : Nat) : (s.emit o).reg R i' j' = s.reg R i' j' := by simp only [State.reg, State.rd_emit]
@[simp] theorem State.byte_emit (o : Output) (q : Nat) : (s.emit o).byte q = s.byte q := by simp only [State.byte, State.emit_mem]
@[simp] theorem State.rd_setEng (e : EngineId) (x : Engine) (q : Nat) : (s.setEng e x).rd q = s.rd q := by simp only [State.rd, State.setEng_regs]
@[simp] theorem State.get_setEng (e : EngineId) (x : Engine) (F : Field) (i' j' : Nat) : (s.setEng e x).get F i' j' = s.get F i' j' := by simp only [State.get, State.rd_setEng]
@[simp] theorem State.on_setEng (e : EngineId) (x : Engine) (F : Field) (i' j' : Nat) : (s.setEng e x).on F i' j' = s.on F i' j' := by simp only [State.on, State.get_setEng]
@[simp] theorem State.reg_setEng (e : EngineId) (x : Engine) (R : Reg) (i' j' : Nat) : (s.setEng e x).reg R i' j' = s.reg R i' j' := by simp only [State.reg, State.rd_setEng]
@[simp] theorem State.byte_setEng (e : EngineId) (x : Engine) (q : Nat) : (s.setEng e x).byte q = s.byte q := by simp only [State.byte, State.setEng_mem]
@[simp] theorem State.rd_modEng (e : EngineId) (f : Engine → Engine) (q : Nat) : (s.modEng e f).rd q = s.rd q := by simp only [State.rd, State.modEng_regs]
@[simp] theorem State.get_modEng (e : EngineId) (f : Engine → Engine) (F : Field) (i' j' : Nat) : (s.modEng e f).get F i' j' = s.get F i' j' := by simp only [State.get, State.rd_modEng]
@[simp] theorem State.on_modEng (e : EngineId) (f : Engine → Engine) (F : Field) (i' j' : Nat) : (s.modEng e f).on F i' j' = s.on F i' j' := by simp only [State.on, State.get_modEng]
@[simp] theorem State.reg_modEng (e : EngineId) (f : Engine → Engine) (R : Reg) (i' j' : Nat) : (s.modEng e f).reg R i' j' = s.reg R i' j' := by simp only [State.reg, State.rd_modEng]
@[simp] theorem State.byte_modEng (e : EngineId) (f : Engine → Engine) (q : Nat) : (s.modEng e f).byte q = s.byte q := by simp only [State.byte, State.modEng_mem]
@[simp] theorem State.rd_setSq (k : SquareId) (x : Square) (q : Nat) : (s.setSq k x).rd q = s.rd q := by simp only [State.rd, State.setSq_regs]
@[simp] theorem State.get_setSq (k : SquareId) (x : Square) (F : Field) (i' j' : Nat) : (s.setSq k x).get F i' j' = s.get F i' j' := by simp only [State.get, State.rd_setSq]
@[simp] theorem State.on_setSq (k : SquareId) (x : Square) (F : Field) (i' j' : Nat) : (s.setSq k x).on F i' j' = s.on F i' j' := by simp only [State.on, State.get_setSq]
@[simp] theorem State.reg_setSq (k : SquareId) (x : Square) (R : Reg) (i' j' : Nat) : (s.setSq k x).reg R i' j' = s.reg R i' j' := by simp only [State.reg, State.rd_setSq]
@[simp] theorem State.byte_setSq (k : SquareId) (x : Square) (q : Nat) : (s.setSq k x).byte q = s.byte q := by simp only [State.byte, State.setSq_mem]
@[simp] theorem State.rd_setMark (w m : Nat) (q : Nat) : (s.setMark w m).rd q = s.rd q := by simp only [State.rd, State.setMark_regs]
@[simp] theorem State.get_setMark (w m : Nat) (F : Field) (i' j' : Nat) : (s.setMark w m).get F i' j' = s.get F i' j' := by simp only [State.get, State.rd_setMark]
@[simp] theorem State.on_setMark (w m : Nat) (F : Field) (i' j' : Nat) : (s.setMark w m).on F i' j' = s.on F i' j' := by simp only [State.on, State.get_setMark]
@[simp] theorem State.reg_setMark (w m : Nat) (R : Reg) (i' j' : Nat) : (s.setMark w m).reg R i' j' = s.reg R i' j' := by simp only [State.reg, State.rd_setMark]
@[simp] theorem State.byte_setMark (w m : Nat) (q : Nat) : (s.setMark w m).byte q = s.byte q := by simp only [State.byte, State.setMark_mem]
@[simp] theorem State.rd_setBank (e : EngineId) (b : Nat) (x : Bank) (q : Nat) : (s.setBank e b x).rd q = s.rd q := by simp only [State.rd, State.setBank_regs]
@[simp] theorem State.get_setBank (e : EngineId) (b : Nat) (x : Bank) (F : Field) (i' j' : Nat) : (s.setBank e b x).get F i' j' = s.get F i' j' := by simp only [State.get, State.rd_setBank]
@[simp] theorem State.on_setBank (e : EngineId) (b : Nat) (x : Bank) (F : Field) (i' j' : Nat) : (s.setBank e b x).on F i' j' = s.on F i' j' := by simp only [State.on, State.get_setBank]
@[simp] theorem State.reg_setBank (e : EngineId) (b : Nat) (x : Bank) (R : Reg) (i' j' : Nat) : (s.setBank e b x).reg R i' j' = s.reg R i' j' := by simp only [State.reg, State.rd_setBank]
@[simp] theorem State.byte_setBank (e : EngineId) (b : Nat) (x : Bank) (q : Nat) : (s.setBank e b x).byte q = s.byte q := by simp only [State.byte, State.setBank_mem]
@[simp] theorem State.rd_setBar (b : Fin 64) (x : Bar) (q : Nat) : (s.setBar b x).rd q = s.rd q := by simp only [State.rd, State.setBar_regs]
@[simp] theorem State.get_setBar (b : Fin 64) (x : Bar) (F : Field) (i' j' : Nat) : (s.setBar b x).get F i' j' = s.get F i' j' := by simp only [State.get, State.rd_setBar]
@[simp] theorem State.on_setBar (b : Fin 64) (x : Bar) (F : Field) (i' j' : Nat) : (s.setBar b x).on F i' j' = s.on F i' j' := by simp only [State.on, State.get_setBar]
@[simp] theorem State.reg_setBar (b : Fin 64) (x : Bar) (R : Reg) (i' j' : Nat) : (s.setBar b x).reg R i' j' = s.reg R i' j' := by simp only [State.reg, State.rd_setBar]
@[simp] theorem State.byte_setBar (b : Fin 64) (x : Bar) (q : Nat) : (s.setBar b x).byte q = s.byte q := by simp only [State.byte, State.setBar_mem]
@[simp] theorem State.rd_setPort (p : PortId) (x : Port) (q : Nat) : (s.setPort p x).rd q = s.rd q := by simp only [State.rd, State.setPort_regs]
@[simp] theorem State.get_setPort (p : PortId) (x : Port) (F : Field) (i' j' : Nat) : (s.setPort p x).get F i' j' = s.get F i' j' := by simp only [State.get, State.rd_setPort]
@[simp] theorem State.on_setPort (p : PortId) (x : Port) (F : Field) (i' j' : Nat) : (s.setPort p x).on F i' j' = s.on F i' j' := by simp only [State.on, State.get_setPort]
@[simp] theorem State.reg_setPort (p : PortId) (x : Port) (R : Reg) (i' j' : Nat) : (s.setPort p x).reg R i' j' = s.reg R i' j' := by simp only [State.reg, State.rd_setPort]
@[simp] theorem State.byte_setPort (p : PortId) (x : Port) (q : Nat) : (s.setPort p x).byte q = s.byte q := by simp only [State.byte, State.setPort_mem]
@[simp] theorem State.rd_setRegion (r : RegionId) (x : Region) (q : Nat) : (s.setRegion r x).rd q = s.rd q := by simp only [State.rd, State.setRegion_regs]
@[simp] theorem State.get_setRegion (r : RegionId) (x : Region) (F : Field) (i' j' : Nat) : (s.setRegion r x).get F i' j' = s.get F i' j' := by simp only [State.get, State.rd_setRegion]
@[simp] theorem State.on_setRegion (r : RegionId) (x : Region) (F : Field) (i' j' : Nat) : (s.setRegion r x).on F i' j' = s.on F i' j' := by simp only [State.on, State.get_setRegion]
@[simp] theorem State.reg_setRegion (r : RegionId) (x : Region) (R : Reg) (i' j' : Nat) : (s.setRegion r x).reg R i' j' = s.reg R i' j' := by simp only [State.reg, State.rd_setRegion]
@[simp] theorem State.byte_setRegion (r : RegionId) (x : Region) (q : Nat) : (s.setRegion r x).byte q = s.byte q := by simp only [State.byte, State.setRegion_mem]
@[simp] theorem State.rd_setPower (f : Power → Power) (q : Nat) : (s.setPower f).rd q = s.rd q := by simp only [State.rd, State.setPower_regs]
@[simp] theorem State.get_setPower (f : Power → Power) (F : Field) (i' j' : Nat) : (s.setPower f).get F i' j' = s.get F i' j' := by simp only [State.get, State.rd_setPower]
@[simp] theorem State.on_setPower (f : Power → Power) (F : Field) (i' j' : Nat) : (s.setPower f).on F i' j' = s.on F i' j' := by simp only [State.on, State.get_setPower]
@[simp] theorem State.reg_setPower (f : Power → Power) (R : Reg) (i' j' : Nat) : (s.setPower f).reg R i' j' = s.reg R i' j' := by simp only [State.reg, State.rd_setPower]
@[simp] theorem State.byte_setPower (f : Power → Power) (q : Nat) : (s.setPower f).byte q = s.byte q := by simp only [State.byte, State.setPower_mem]
@[simp] theorem State.rd_setClock (f : Clock → Clock) (q : Nat) : (s.setClock f).rd q = s.rd q := by simp only [State.rd, State.setClock_regs]
@[simp] theorem State.get_setClock (f : Clock → Clock) (F : Field) (i' j' : Nat) : (s.setClock f).get F i' j' = s.get F i' j' := by simp only [State.get, State.rd_setClock]
@[simp] theorem State.on_setClock (f : Clock → Clock) (F : Field) (i' j' : Nat) : (s.setClock f).on F i' j' = s.on F i' j' := by simp only [State.on, State.get_setClock]
@[simp] theorem State.reg_setClock (f : Clock → Clock) (R : Reg) (i' j' : Nat) : (s.setClock f).reg R i' j' = s.reg R i' j' := by simp only [State.reg, State.rd_setClock]
@[simp] theorem State.byte_setClock (f : Clock → Clock) (q : Nat) : (s.setClock f).byte q = s.byte q := by simp only [State.byte, State.setClock_mem]
@[simp] theorem State.rd_setBoot (f : Boot → Boot) (q : Nat) : (s.setBoot f).rd q = s.rd q := by simp only [State.rd, State.setBoot_regs]
@[simp] theorem State.get_setBoot (f : Boot → Boot) (F : Field) (i' j' : Nat) : (s.setBoot f).get F i' j' = s.get F i' j' := by simp only [State.get, State.rd_setBoot]
@[simp] theorem State.on_setBoot (f : Boot → Boot) (F : Field) (i' j' : Nat) : (s.setBoot f).on F i' j' = s.on F i' j' := by simp only [State.on, State.get_setBoot]
@[simp] theorem State.reg_setBoot (f : Boot → Boot) (R : Reg) (i' j' : Nat) : (s.setBoot f).reg R i' j' = s.reg R i' j' := by simp only [State.reg, State.rd_setBoot]
@[simp] theorem State.byte_setBoot (f : Boot → Boot) (q : Nat) : (s.setBoot f).byte q = s.byte q := by simp only [State.byte, State.setBoot_mem]
@[simp] theorem State.rd_setSec (f : Sec → Sec) (q : Nat) : (s.setSec f).rd q = s.rd q := by simp only [State.rd, State.setSec_regs]
@[simp] theorem State.get_setSec (f : Sec → Sec) (F : Field) (i' j' : Nat) : (s.setSec f).get F i' j' = s.get F i' j' := by simp only [State.get, State.rd_setSec]
@[simp] theorem State.on_setSec (f : Sec → Sec) (F : Field) (i' j' : Nat) : (s.setSec f).on F i' j' = s.on F i' j' := by simp only [State.on, State.get_setSec]
@[simp] theorem State.reg_setSec (f : Sec → Sec) (R : Reg) (i' j' : Nat) : (s.setSec f).reg R i' j' = s.reg R i' j' := by simp only [State.reg, State.rd_setSec]
@[simp] theorem State.byte_setSec (f : Sec → Sec) (q : Nat) : (s.setSec f).byte q = s.byte q := by simp only [State.byte, State.setSec_mem]
@[simp] theorem State.rd_setThermal (f : Thermal → Thermal) (q : Nat) : (s.setThermal f).rd q = s.rd q := by simp only [State.rd, State.setThermal_regs]
@[simp] theorem State.get_setThermal (f : Thermal → Thermal) (F : Field) (i' j' : Nat) : (s.setThermal f).get F i' j' = s.get F i' j' := by simp only [State.get, State.rd_setThermal]
@[simp] theorem State.on_setThermal (f : Thermal → Thermal) (F : Field) (i' j' : Nat) : (s.setThermal f).on F i' j' = s.on F i' j' := by simp only [State.on, State.get_setThermal]
@[simp] theorem State.reg_setThermal (f : Thermal → Thermal) (R : Reg) (i' j' : Nat) : (s.setThermal f).reg R i' j' = s.reg R i' j' := by simp only [State.reg, State.rd_setThermal]
@[simp] theorem State.byte_setThermal (f : Thermal → Thermal) (q : Nat) : (s.setThermal f).byte q = s.byte q := by simp only [State.byte, State.setThermal_mem]
@[simp] theorem State.rd_setFront (f : Front → Front) (q : Nat) : (s.setFront f).rd q = s.rd q := by simp only [State.rd, State.setFront_regs]
@[simp] theorem State.get_setFront (f : Front → Front) (F : Field) (i' j' : Nat) : (s.setFront f).get F i' j' = s.get F i' j' := by simp only [State.get, State.rd_setFront]
@[simp] theorem State.on_setFront (f : Front → Front) (F : Field) (i' j' : Nat) : (s.setFront f).on F i' j' = s.on F i' j' := by simp only [State.on, State.get_setFront]
@[simp] theorem State.reg_setFront (f : Front → Front) (R : Reg) (i' j' : Nat) : (s.setFront f).reg R i' j' = s.reg R i' j' := by simp only [State.reg, State.rd_setFront]
@[simp] theorem State.byte_setFront (f : Front → Front) (q : Nat) : (s.setFront f).byte q = s.byte q := by simp only [State.byte, State.setFront_mem]
@[simp] theorem State.rd_setSess (i : SlotId) (x : Session) (q : Nat) : (s.setSess i x).rd q = s.rd q := by simp only [State.rd, State.setSess_regs]
@[simp] theorem State.get_setSess (i : SlotId) (x : Session) (F : Field) (i' j' : Nat) : (s.setSess i x).get F i' j' = s.get F i' j' := by simp only [State.get, State.rd_setSess]
@[simp] theorem State.on_setSess (i : SlotId) (x : Session) (F : Field) (i' j' : Nat) : (s.setSess i x).on F i' j' = s.on F i' j' := by simp only [State.on, State.get_setSess]
@[simp] theorem State.reg_setSess (i : SlotId) (x : Session) (R : Reg) (i' j' : Nat) : (s.setSess i x).reg R i' j' = s.reg R i' j' := by simp only [State.reg, State.rd_setSess]
@[simp] theorem State.byte_setSess (i : SlotId) (x : Session) (q : Nat) : (s.setSess i x).byte q = s.byte q := by simp only [State.byte, State.setSess_mem]
@[simp] theorem State.rd_setGauge (g : GaugeId) (x : Gauge) (q : Nat) : (s.setGauge g x).rd q = s.rd q := by simp only [State.rd, State.setGauge_regs]
@[simp] theorem State.get_setGauge (g : GaugeId) (x : Gauge) (F : Field) (i' j' : Nat) : (s.setGauge g x).get F i' j' = s.get F i' j' := by simp only [State.get, State.rd_setGauge]
@[simp] theorem State.on_setGauge (g : GaugeId) (x : Gauge) (F : Field) (i' j' : Nat) : (s.setGauge g x).on F i' j' = s.on F i' j' := by simp only [State.on, State.get_setGauge]
@[simp] theorem State.reg_setGauge (g : GaugeId) (x : Gauge) (R : Reg) (i' j' : Nat) : (s.setGauge g x).reg R i' j' = s.reg R i' j' := by simp only [State.reg, State.rd_setGauge]
@[simp] theorem State.byte_setGauge (g : GaugeId) (x : Gauge) (q : Nat) : (s.setGauge g x).byte q = s.byte q := by simp only [State.byte, State.setGauge_mem]

end Sys2Proof.Machine
end

