-- ==== Sys2Proof/Laws/Moves.lean ====
section
/-! SUPPORT. What every command can do to the parts of the state, to the tables, the fuses, the log's queues, the outputs, the count of free values
and the queue of commands: the relation between the state before and the state after, and how it composes. -/
namespace Sys2Proof.Machine

/-- A table comes from another by writes and by taking entries out. -/
inductive Edits {α : Type} [DecidableEq α] (d : Nat → α) : Tbl α → Tbl α → Prop where
  | refl (t : Tbl α) : Edits d t t
  | set {t u : Tbl α} (h : Edits d t u) (k : Nat) (v : α) : Edits d t (Tbl.set d u k v)
  | filter {t u : Tbl α} (h : Edits d t u) (f : Nat × α → Bool) : Edits d t (u.filter f)
  | clear (t : Tbl α) : Edits d t []

/-- The fuses of an array come from those of another by blowing bits. -/
inductive Blows : Tbl (BitVec 32) → Tbl (BitVec 32) → Prop where
  | refl (t : Tbl (BitVec 32)) : Blows t t
  | blow {t u : Tbl (BitVec 32)} (h : Blows t u) (w v : Nat) :
      Blows t (Tbl.set (fun _ => 0#32) u w (BitVec.ofNat 32 ((Tbl.get (fun _ => 0#32) u w).toNat ||| v)))

/-- The parts named are among others. -/
structure Parts (a ps : List Part) : Prop where
  all : ∀ p ∈ a, p ∈ ps

/-- Parts as bits of a number. -/
def Part.mask : List Part → Nat
  | [] => 0
  | p :: a => 2 ^ p.ctorIdx ||| Part.mask a

def Part.le (a b : List Part) : Bool := Part.mask a ||| Part.mask b == Part.mask b

theorem Part.mask_bit (a : List Part) (p : Part) : (Part.mask a).testBit p.ctorIdx = true ↔ p ∈ a := by
  have inj : ∀ q : Part, p.ctorIdx = q.ctorIdx → p = q := fun q h => by
    rw [← Part.ofNat_ctorIdx p, ← Part.ofNat_ctorIdx q, h]
  induction a with
  | nil => simp [Part.mask]
  | cons q a ih =>
    simp only [Part.mask, Nat.testBit_or, Nat.testBit_two_pow, Bool.or_eq_true, ih, decide_eq_true_eq, List.mem_cons]
    constructor
    · rintro (h | h)
      · exact .inl (inj q h.symm)
      · exact .inr h
    · rintro (h | h)
      · exact .inl (h ▸ rfl)
      · exact .inr h

theorem Part.mem_of_le {a b : List Part} (h : Part.le a b = true) {p : Part} (hp : p ∈ a) : p ∈ b := by
  have e : Part.mask a ||| Part.mask b = Part.mask b := by simpa [Part.le] using h
  rw [← Part.mask_bit, ← e, Nat.testBit_or, (Part.mask_bit a p).mpr hp, Bool.true_or]

theorem Parts.s {a b ps : List Part} (h : Parts a ps) (hb : Part.le b a = true) : Parts b ps :=
  ⟨fun p hp => h.all p (Part.mem_of_le hb hp)⟩

theorem Parts.refl (ps : List Part) : Parts ps ps := ⟨fun _ h => h⟩

theorem Parts.m {a ps : List Part} (h : Parts a ps) {p : Part} (hp : Part.le [p] a = true) : p ∈ ps :=
  h.all p (Part.mem_of_le hp (List.mem_singleton.mpr rfl))

/-- What a command can do: only the parts `ps` change, and of the engines only those of `es`; tables change by writes and by taking entries
out, fuses are only blown, the log keeps its bounds, what was sent stays sent, free values are only drawn, and the queue stays. -/
structure Moves (ps : List Part) (es : EngineId → Prop) (s t : State) : Prop where
  regs : Edits regReset s.regs t.regs
  mem : Edits memDefault s.mem t.mem
  banks : Edits (fun _ => Bank.idle) s.banks t.banks
  marks : Edits (fun _ => 0) s.marks t.marks
  spareRow : Edits (fun _ => 0) s.spareRow t.spareRow
  taps : Edits (fun _ => 0) s.taps t.taps
  margins : Edits (fun _ => 0) s.margins t.margins
  otp : Blows s.sec.otp t.sec.otp
  log : s.elog.Bounded → t.elog.Bounded
  outbox : s.outbox <+: t.outbox
  drawn : s.drawn ≤ t.drawn
  pending : t.pending = s.pending
  parts : OnlyParts ps s t
  engines : OnlyEngines es s t

theorem Edits.trans {α : Type} [DecidableEq α] {d : Nat → α} {t u v : Tbl α} (h : Edits d t u) (h' : Edits d u v) : Edits d t v := by
  induction h' with
  | refl => exact h
  | set _ k x ih => exact ih.set k x
  | filter _ f ih => exact ih.filter f
  | clear => exact .clear t

theorem Blows.trans {t u v : Tbl (BitVec 32)} (h : Blows t u) (h' : Blows u v) : Blows t v := by
  induction h' with
  | refl => exact h
  | blow _ w x ih => exact ih.blow w x

theorem Part.Same.refl (p : Part) (s : State) : p.Same s s := by cases p <;> exact rfl

theorem Part.Same.trans {p : Part} {s t u : State} (h : p.Same s t) (h' : p.Same t u) : p.Same s u := by
  cases p <;> exact Eq.trans h' h

theorem Moves.refl {ps : List Part} {es : EngineId → Prop} (s : State) : Moves ps es s s :=
  ⟨.refl _, .refl _, .refl _, .refl _, .refl _, .refl _, .refl _, .refl _, id, List.prefix_refl _, Nat.le_refl _, rfl, fun p _ => Part.Same.refl p s,
    fun _ _ => rfl⟩

theorem Moves.trans {ps : List Part} {es : EngineId → Prop} {s t u : State} (h : Moves ps es s t) (h' : Moves ps es t u) : Moves ps es s u :=
  ⟨h.regs.trans h'.regs, h.mem.trans h'.mem, h.banks.trans h'.banks, h.marks.trans h'.marks, h.spareRow.trans h'.spareRow,
    h.taps.trans h'.taps, h.margins.trans h'.margins, h.otp.trans h'.otp, h'.log ∘ h.log, h.outbox.trans h'.outbox,
    Nat.le_trans h.drawn h'.drawn, h'.pending.trans h.pending, fun p hp => (h.parts p hp).trans (h'.parts p hp),
    fun e he => (h'.engines e he).trans (h.engines e he)⟩

/-- Moves to the state that an event may give. -/
def OptMoves (ps : List Part) (es : EngineId → Prop) (s : State) (o : Option State) : Prop := ∀ t, o = some t → Moves ps es s t

/-- Moves to the next state that a command may answer. -/
def OutMoves (ps : List Part) (es : EngineId → Prop) (s : State) (o : Out) : Prop := ∀ t, o = .next t → Moves ps es s t

section
variable {ps : List Part} {es : EngineId → Prop}

theorem optMoves_some {s t : State} (h : Moves ps es s t) : OptMoves ps es s (Option.some t) := by intro u e; cases e; exact h
theorem optMoves_none (s : State) : OptMoves ps es s Option.none := by intro u e; cases e
theorem outMoves_next {s t : State} (h : Moves ps es s t) : OutMoves ps es s (.next t) := by intro u e; cases e; exact h
theorem outMoves_refused (s : State) (r : Refusal) : OutMoves ps es s (.refused r) := by intro u e; cases e
theorem outMoves_fault (s : State) (f : Fault) : OutMoves ps es s (.fault f) := by intro u e; cases e

theorem need_moves {s : State} (b : Bool) (why : String) {k : Out} (h : OutMoves ps es s k) : OutMoves ps es s (need b why k) := by
  unfold need; split
  · exact h
  · exact outMoves_refused _ _

theorem needSome_moves {α : Type} {s : State} (o : Option α) (why : String) {k : α → Out} (h : ∀ a, o = some a → OutMoves ps es s (k a)) :
    OutMoves ps es s (needSome o why k) := by
  unfold needSome; split
  · exact h _ rfl
  · exact outMoves_refused _ _

theorem Moves.foldl {α : Type} {s t : State} {f : State → α → State} (l : List α) (h : Moves ps es s t)
    (hf : ∀ u x, Moves ps es s u → Moves ps es s (f u x)) : Moves ps es s (l.foldl f t) := by
  induction l generalizing t with
  | nil => exact h
  | cons x l ih => exact ih (hf t x h)

/-! What each branch of a conditional does, the conditional does: for states, optional states, outcomes and pairs. -/

theorem moves_ite {s : State} {c : Prop} [Decidable c] {a b : State} (ha : Moves ps es s a) (hb : Moves ps es s b) : Moves ps es s (if c then a else b) := by
  split
  · exact ha
  · exact hb

theorem moves_dite {s : State} {c : Prop} [Decidable c] {a : c → State} {b : ¬c → State} (ha : ∀ q, Moves ps es s (a q)) (hb : ∀ q, Moves ps es s (b q)) :
    Moves ps es s (if q : c then a q else b q) := by
  split
  · exact ha _
  · exact hb _

theorem optMoves_ite {s : State} {c : Prop} [Decidable c] {a b : Option State} (ha : OptMoves ps es s a) (hb : OptMoves ps es s b) : OptMoves ps es s (if c then a else b) := by
  split
  · exact ha
  · exact hb

theorem optMoves_dite {s : State} {c : Prop} [Decidable c] {a : c → Option State} {b : ¬c → Option State} (ha : ∀ q, OptMoves ps es s (a q)) (hb : ∀ q, OptMoves ps es s (b q)) :
    OptMoves ps es s (if q : c then a q else b q) := by
  split
  · exact ha _
  · exact hb _

theorem outMoves_ite {s : State} {c : Prop} [Decidable c] {a b : Out} (ha : OutMoves ps es s a) (hb : OutMoves ps es s b) : OutMoves ps es s (if c then a else b) := by
  split
  · exact ha
  · exact hb

theorem outMoves_dite {s : State} {c : Prop} [Decidable c] {a : c → Out} {b : ¬c → Out} (ha : ∀ q, OutMoves ps es s (a q)) (hb : ∀ q, OutMoves ps es s (b q)) :
    OutMoves ps es s (if q : c then a q else b q) := by
  split
  · exact ha _
  · exact hb _

theorem fstMoves_ite {α : Type} {s : State} {c : Prop} [Decidable c] {a b : State × α} (ha : Moves ps es s (a).1) (hb : Moves ps es s (b).1) : Moves ps es s ((if c then a else b)).1 := by
  split
  · exact ha
  · exact hb

theorem fstMoves_dite {α : Type} {s : State} {c : Prop} [Decidable c] {a : c → State × α} {b : ¬c → State × α} (ha : ∀ q, Moves ps es s ((a q)).1) (hb : ∀ q, Moves ps es s ((b q)).1) :
    Moves ps es s ((if q : c then a q else b q)).1 := by
  split
  · exact ha _
  · exact hb _

theorem optMoves_getD {s d : State} {o : Option State} (h : OptMoves ps es s o) (hd : Moves ps es s d) : Moves ps es s (o.getD d) := by
  cases o with
  | none => exact hd
  | some t => exact h t rfl

theorem optMoves_map {α : Type} {s : State} {o : Option α} {f : α → State} (h : ∀ a, Moves ps es s (f a)) : OptMoves ps es s (o.map f) := by
  cases o with
  | none => exact optMoves_none s
  | some a => exact optMoves_some (h a)

theorem optMoves_findSome {α : Type} {s : State} {l : List α} {f : α → Option State} (h : ∀ a, OptMoves ps es s (f a)) :
    OptMoves ps es s (l.findSome? f) := by
  intro t e
  obtain ⟨a, -, ha⟩ := List.exists_of_findSome?_eq_some e
  exact h a t ha

theorem fstMoves_mk {α : Type} {s t : State} {x : α} (h : Moves ps es s t) : Moves ps es s (t, x).1 := h
theorem moves_then {s t u : State} (h : Moves ps es t u) (h' : Moves ps es s t) : Moves ps es s u := h'.trans h
theorem fstMoves_then {α : Type} {s t : State} {p : State × α} (h : Moves ps es t p.1) (h' : Moves ps es s t) : Moves ps es s p.1 := h'.trans h
theorem optMoves_then {s t : State} {o : Option State} (h : OptMoves ps es t o) (h' : Moves ps es s t) : OptMoves ps es s o :=
  fun u e => h'.trans (h u e)
theorem outMoves_then {s t : State} {o : Out} (h : OutMoves ps es t o) (h' : Moves ps es s t) : OutMoves ps es s o := fun u e => h'.trans (h u e)

/-- A state that is written out from another by an update of its fields. -/
theorem Moves.lit {s t : State} {x0 x1 x2 x3 x4 x5 x6 x7 x8 x9 x10 x11 x12 x13 x14 x15 x16 x17 x18 x19 x20 x21 x22 x23 x24 x25 x26 x27 x28 x29} (hp : x29 = t.pending) (h : Moves ps es s t)
    (a : Edits regReset t.regs x0) (b : Edits memDefault t.mem x1) (c : Edits (fun _ => Bank.idle) t.banks x6)
    (d : Edits (fun _ => 0) t.marks x7) (e : Edits (fun _ => 0) t.spareRow x10) (f : Edits (fun _ => 0) t.taps x17)
    (g : Edits (fun _ => 0) t.margins x18) (i : Blows t.sec.otp x22.otp)
    (j : s.elog.Bounded → t.elog.Bounded → x25.Bounded) (k : t.outbox <+: x27) (l : t.drawn ≤ x28)
    (m : ∀ p, p ∉ ps → p.Same t (State.mk x0 x1 x2 x3 x4 x5 x6 x7 x8 x9 x10 x11 x12 x13 x14 x15 x16 x17 x18 x19 x20 x21 x22 x23 x24 x25 x26 x27 x28 x29)) (n : ∀ q, ¬ es q → vget x4 q = vget t.engines q) :
    Moves ps es s (State.mk x0 x1 x2 x3 x4 x5 x6 x7 x8 x9 x10 x11 x12 x13 x14 x15 x16 x17 x18 x19 x20 x21 x22 x23 x24 x25 x26 x27 x28 x29) :=
  ⟨h.regs.trans a, h.mem.trans b, h.banks.trans c, h.marks.trans d, h.spareRow.trans e, h.taps.trans f, h.margins.trans g, h.otp.trans i,
    fun hs => j hs (h.log hs), h.outbox.trans k, Nat.le_trans h.drawn l, hp.trans h.pending, fun p q => (h.parts p q).trans (m p q),
    fun q r => (n q r).trans (h.engines q r)⟩

/-- A state that is written out from another by an update of its fields other than the engines. -/
theorem Moves.litE {s t : State} {x0 x1 x2 x3 x5 x6 x7 x8 x9 x10 x11 x12 x13 x14 x15 x16 x17 x18 x19 x20 x21 x22 x23 x24 x25 x26 x27 x28 x29} (hp : x29 = t.pending) (h : Moves ps es s t)
    (a : Edits regReset t.regs x0) (b : Edits memDefault t.mem x1) (c : Edits (fun _ => Bank.idle) t.banks x6)
    (d : Edits (fun _ => 0) t.marks x7) (e : Edits (fun _ => 0) t.spareRow x10) (f : Edits (fun _ => 0) t.taps x17)
    (g : Edits (fun _ => 0) t.margins x18) (i : Blows t.sec.otp x22.otp)
    (j : s.elog.Bounded → t.elog.Bounded → x25.Bounded) (k : t.outbox <+: x27) (l : t.drawn ≤ x28)
    (m : ∀ p, p ∉ ps → p.Same t (State.mk x0 x1 x2 x3 t.engines x5 x6 x7 x8 x9 x10 x11 x12 x13 x14 x15 x16 x17 x18 x19 x20 x21 x22 x23 x24 x25 x26 x27 x28 x29)) :
    Moves ps es s (State.mk x0 x1 x2 x3 t.engines x5 x6 x7 x8 x9 x10 x11 x12 x13 x14 x15 x16 x17 x18 x19 x20 x21 x22 x23 x24 x25 x26 x27 x28 x29) :=
  ⟨h.regs.trans a, h.mem.trans b, h.banks.trans c, h.marks.trans d, h.spareRow.trans e, h.taps.trans f, h.margins.trans g, h.otp.trans i,
    fun hs => j hs (h.log hs), h.outbox.trans k, Nat.le_trans h.drawn l, hp.trans h.pending, fun p q => (h.parts p q).trans (m p q),
    fun q r => h.engines q r⟩

end

end Sys2Proof.Machine
end

