-- ==== Sys2Proof/Laws/MovesMemory.lean ====
section
/-! SUPPORT. What the operations of Ops, Keys, Hints, Elog, Gauges, Pins, Memory, Landings, Ports, Engine, Squares, Regions, BauBook can do: each is a move. -/
namespace Sys2Proof.Machine
variable {ps : List Part} {es : EngineId → Prop}

theorem State.wr_moves {s₀ s : State} {key v : Nat} (hp : Parts [.regs] ps) (h₀ : Moves ps es s₀ s) :
    Moves ps es s₀ (State.wr s key v) := by
  unfold State.wr
  exact (Moves.litE rfl h₀ (Edits.set (.refl _) _ _) (.refl _) (.refl _) (.refl _) (.refl _) (.refl _) (.refl _) (.refl _) (fun _ h => h) (List.prefix_refl _) (Nat.le_refl _) (fun p hn => by cases p <;> first | exact absurd (hp.m rfl) hn | (simp only [Part.Same]; done) | exact rfl))

theorem State.put_moves {s₀ s : State} {f : Field} {v inst idx : Nat} (hp : Parts [.regs] ps) (h₀ : Moves ps es s₀ s) :
    Moves ps es s₀ (State.put s f v inst idx) := by
  unfold State.put
  exact (State.wr_moves hp h₀)

theorem State.count_moves {s₀ s : State} {f : Field} {k inst idx : Nat} (hp : Parts [.regs] ps) (h₀ : Moves ps es s₀ s) :
    Moves ps es s₀ (State.count s f k inst idx) := by
  unfold State.count
  exact (State.put_moves hp h₀)

theorem State.sendReport_moves {s₀ s : State} {r : Report} (hp : Parts [.regs, .elog] ps) (h₀ : Moves ps es s₀ s) :
    Moves ps es s₀ (State.sendReport s r) := by
  unfold State.sendReport
  split
  · rename_i hq
    refine Moves.litE rfl h₀ (.refl _) (.refl _) (.refl _) (.refl _) (.refl _) (.refl _) (.refl _) (.refl _) (fun _ h => ⟨?_, h.2⟩)
      (List.prefix_refl _) (Nat.le_refl _) (fun p hn => by cases p <;> first | exact absurd (hp.m rfl) hn | (simp only [Part.Same]; done) | exact rfl)
    simpa using Nat.succ_le_of_lt hq
  · exact State.count_moves (hp.s rfl) h₀

theorem State.setReg_moves {s₀ s : State} {r : Reg} {v inst idx : Nat} (hp : Parts [.regs] ps) (h₀ : Moves ps es s₀ s) :
    Moves ps es s₀ (State.setReg s r v inst idx) := by
  unfold State.setReg
  exact (State.wr_moves hp h₀)

theorem State.swWrite_moves {s₀ s : State} {r : Reg} {v inst idx : Nat} {locked : Bool} (hp : Parts [.regs] ps) (h₀ : Moves ps es s₀ s) :
    Moves ps es s₀ (State.swWrite s r v inst idx locked) := by
  unfold State.swWrite
  exact (State.setReg_moves hp h₀)

theorem State.setByte_moves {s₀ s : State} {key : Nat} {b : Byte} (hp : Parts [.mem] ps) (h₀ : Moves ps es s₀ s) :
    Moves ps es s₀ (State.setByte s key b) := by
  unfold State.setByte
  exact (Moves.litE rfl h₀ (.refl _) (Edits.set (.refl _) _ _) (.refl _) (.refl _) (.refl _) (.refl _) (.refl _) (.refl _) (fun _ h => h) (List.prefix_refl _) (Nat.le_refl _) (fun p hn => by cases p <;> first | exact absurd (hp.m rfl) hn | (simp only [Part.Same]; done) | exact rfl))

theorem State.setBytes_moves {s₀ s : State} {key : Nat} {b : List Byte} (hp : Parts [.mem] ps) (h₀ : Moves ps es s₀ s) : Moves ps es s₀ (s.setBytes key b) := by
  induction b generalizing s key with
  | nil => exact h₀
  | cons x b ih => exact ih (State.setByte_moves hp h₀)

theorem State.writeSram_moves {s₀ s : State} {addr : Nat} {b : List Byte} (hp : Parts [.mem] ps) (h₀ : Moves ps es s₀ s) :
    Moves ps es s₀ (State.writeSram s addr b) := by
  unfold State.writeSram
  exact (State.setBytes_moves hp h₀)

theorem State.swFields_moves {s₀ s : State} {r : Reg} {v inst idx : Nat} {locked : Bool} (hp : Parts [.regs] ps) (h₀ : Moves ps es s₀ s) :
    Moves ps es s₀ (State.swFields s r v inst idx locked) := by
  unfold State.swFields
  exact (State.swWrite_moves hp h₀)

theorem State.log_moves {s₀ s : State} {typ cls inst sev : Nat} {code : Code} {detail sub : Nat} (hp : Parts [.regs, .elog] ps) (h₀ : Moves ps es s₀ s) :
    Moves ps es s₀ (State.log s typ cls inst sev code detail sub) := by
  unfold State.log
  exact (State.sendReport_moves hp h₀)

theorem State.bump_moves {s₀ s : State} {f : Field} {inst idx : Nat} (hp : Parts [.regs] ps) (h₀ : Moves ps es s₀ s) :
    Moves ps es s₀ (State.bump s f inst idx) := by
  unfold State.bump
  exact (State.put_moves hp h₀)

theorem State.draw_moves {s₀ s : State} (hp : Parts [.drawn] ps) (h₀ : Moves ps es s₀ s) :
    Moves ps es s₀ (State.draw s) := by
  unfold State.draw
  exact (Moves.litE rfl h₀ (.refl _) (.refl _) (.refl _) (.refl _) (.refl _) (.refl _) (.refl _) (.refl _) (fun _ h => h) (List.prefix_refl _) (Nat.le_succ _) (fun p hn => by cases p <;> first | exact absurd (hp.m rfl) hn | (simp only [Part.Same]; done) | exact rfl))

theorem State.resetReg_moves {s₀ s : State} {r : Reg} {inst idx : Nat} (hp : Parts [.regs] ps) (h₀ : Moves ps es s₀ s) :
    Moves ps es s₀ (State.resetReg s r inst idx) := by
  unfold State.resetReg
  exact (State.wr_moves hp h₀)

theorem State.emit_moves {s₀ s : State} {o : Output} (hp : Parts [.outbox] ps) (h₀ : Moves ps es s₀ s) :
    Moves ps es s₀ (State.emit s o) := by
  unfold State.emit
  exact (Moves.litE rfl h₀ (.refl _) (.refl _) (.refl _) (.refl _) (.refl _) (.refl _) (.refl _) (.refl _) (fun _ h => h) (List.prefix_append _ _) (Nat.le_refl _) (fun p hn => by cases p <;> first | exact absurd (hp.m rfl) hn | (simp only [Part.Same]; done) | exact rfl))

theorem State.logEvent_moves {s₀ s : State} {typ cls inst sev detail : Nat} (hp : Parts [.regs, .elog] ps) (h₀ : Moves ps es s₀ s) :
    Moves ps es s₀ (State.logEvent s typ cls inst sev detail) := by
  unfold State.logEvent
  exact (State.log_moves hp h₀)

theorem State.swRead_moves {s₀ s : State} {r : Reg} {inst idx : Nat} (hp : Parts [.regs] ps) (h₀ : Moves ps es s₀ s) :
    Moves ps es s₀ (State.swRead s r inst idx).1 := by
  unfold State.swRead
  exact (State.setReg_moves hp h₀)

theorem State.setSec_moves {s₀ s : State} {f : Sec → Sec} (hp : Parts [.sec] ps) (h₀ : Moves ps es s₀ s) (hf : (f s.sec).otp = s.sec.otp := by rfl)
    (hg : (f s.sec).mrs = s.sec.mrs := by rfl) : Moves ps es s₀ (s.setSec f) := by
  unfold State.setSec
  exact Moves.litE rfl h₀ (.refl _) (.refl _) (.refl _) (.refl _) (.refl _) (.refl _) (.refl _) (hf ▸ .refl _) (fun _ h => h) (List.prefix_refl _)
    (Nat.le_refl _) (fun p hn => by cases p <;> first | exact absurd (hp.m rfl) hn | exact hf | exact hg | exact rfl)

theorem State.blow_moves {s₀ s : State} {w v : Nat} (hp : Parts [.otp] ps) (h₀ : Moves ps es s₀ s) :
    Moves ps es s₀ (State.blow s w v) := by
  unfold State.blow State.setSec
  exact Moves.litE rfl h₀ (.refl _) (.refl _) (.refl _) (.refl _) (.refl _) (.refl _) (.refl _) ((Blows.refl _).blow _ _) (fun _ h => h)
    (List.prefix_refl _) (Nat.le_refl _) (fun p hn => by cases p <;> first | exact absurd (hp.m rfl) hn | (simp only [Part.Same]; done) | exact rfl)

theorem State.noteSigned_moves {s₀ s : State} (hp : Parts [.sec] ps) (h₀ : Moves ps es s₀ s) :
    Moves ps es s₀ (State.noteSigned s) := by
  unfold State.noteSigned
  exact (State.setSec_moves hp h₀)

theorem State.vpmHints_moves {s₀ s : State} (hp : Parts [.regs] ps) (h₀ : Moves ps es s₀ s) :
    Moves ps es s₀ (State.vpmHints s) := by
  unfold State.vpmHints
  exact (State.put_moves hp (State.put_moves hp h₀))

theorem State.hintDelivered_moves {s₀ s : State} {e : EngineId} {a : Announce} (hp : Parts [.regs, .hints] ps) (h₀ : Moves ps es s₀ s) :
    Moves ps es s₀ (State.hintDelivered s e a) := by
  unfold State.hintDelivered
  exact (State.vpmHints_moves (hp.s rfl) (Moves.litE rfl h₀ (.refl _) (.refl _) (.refl _) (.refl _) (.refl _) (.refl _) (.refl _) (.refl _) (fun _ h => h) (List.prefix_refl _) (Nat.le_refl _) (fun p hn => by cases p <;> first | exact absurd (hp.m rfl) hn | (simp only [Part.Same]; done) | exact rfl)))

theorem State.hintDue_moves {s₀ s : State} {e : EngineId} (hp : Parts [.regs, .hints] ps) (h₀ : Moves ps es s₀ s) :
    Moves ps es s₀ (State.hintDue s e) := by
  unfold State.hintDue
  exact (by (try dsimp only); split; exact (moves_ite (State.hintDelivered_moves hp h₀) h₀); exact h₀)

theorem State.hintsDue_moves {s₀ s : State} (hp : Parts [.regs, .hints] ps) (h₀ : Moves ps es s₀ s) :
    Moves ps es s₀ (State.hintsDue s) := by
  unfold State.hintsDue
  exact (Moves.foldl _ h₀ fun _ _ h1 => (State.hintDue_moves hp h1))

theorem State.setHint_moves {s₀ s : State} {e : EngineId} {h : Option Hint} (hp : Parts [.regs, .hints] ps) (h₀ : Moves ps es s₀ s) :
    Moves ps es s₀ (State.setHint s e h) := by
  unfold State.setHint
  exact (State.vpmHints_moves (hp.s rfl) (Moves.litE rfl h₀ (.refl _) (.refl _) (.refl _) (.refl _) (.refl _) (.refl _) (.refl _) (.refl _) (fun _ h => h) (List.prefix_refl _) (Nat.le_refl _) (fun p hn => by cases p <;> first | exact absurd (hp.m rfl) hn | (simp only [Part.Same]; done) | exact rfl)))

theorem State.leaveRun_moves {s₀ s : State} {e : EngineId} (hp : Parts [.regs, .hints] ps) (h₀ : Moves ps es s₀ s) :
    Moves ps es s₀ (State.leaveRun s e) := by
  unfold State.leaveRun
  exact (moves_ite h₀ (State.vpmHints_moves (hp.s rfl) (Moves.litE rfl h₀ (.refl _) (.refl _) (.refl _) (.refl _) (.refl _) (.refl _) (.refl _) (.refl _) (fun _ h => h) (List.prefix_refl _) (Nat.le_refl _) (fun p hn => by cases p <;> first | exact absurd (hp.m rfl) hn | (simp only [Part.Same]; done) | exact rfl))))

theorem State.announce_moves {s₀ s : State} {e : EngineId} {kind lead duration : Nat} (hp : Parts [.hints] ps) (h₀ : Moves ps es s₀ s) :
    Moves ps es s₀ (State.announce s e kind lead duration) := by
  unfold State.announce
  exact (Moves.litE rfl h₀ (.refl _) (.refl _) (.refl _) (.refl _) (.refl _) (.refl _) (.refl _) (.refl _) (fun _ h => h) (List.prefix_refl _) (Nat.le_refl _) (fun p hn => by cases p <;> first | exact absurd (hp.m rfl) hn | (simp only [Part.Same]; done) | exact rfl))

theorem State.writeTail_moves {s₀ s : State} {v : Nat} (hp : Parts [.regs] ps) (h₀ : Moves ps es s₀ s) :
    Moves ps es s₀ (State.writeTail s v) := by
  unfold State.writeTail
  exact (moves_ite (State.put_moves hp h₀) h₀)

theorem State.writeElogStatus_moves {s₀ s : State} {v : Nat} (hp : Parts [.regs] ps) (h₀ : Moves ps es s₀ s) :
    Moves ps es s₀ (State.writeElogStatus s v) := by
  unfold State.writeElogStatus
  exact (moves_then (moves_then (State.writeTail_moves hp (moves_ite (State.put_moves hp (Moves.refl _)) (Moves.refl _))) (moves_ite (State.put_moves hp (Moves.refl _)) (Moves.refl _))) (moves_ite (State.put_moves hp h₀) h₀))

theorem State.stormCount_moves {s₀ s : State} {r : Report} (hp : Parts [.elog] ps) (h₀ : Moves ps es s₀ s) :
    Moves ps es s₀ (State.stormCount s r).1 := by
  unfold State.stormCount
  exact (by (try dsimp only); split; exact (Moves.litE rfl h₀ (.refl _) (.refl _) (.refl _) (.refl _) (.refl _) (.refl _) (.refl _) (.refl _) (by exact fun _ h => ⟨h.1, h.2⟩) (List.prefix_refl _) (Nat.le_refl _) (fun p hn => by cases p <;> first | exact absurd (hp.m rfl) hn | (simp only [Part.Same]; done) | exact rfl)); exact (fstMoves_ite (Moves.litE rfl h₀ (.refl _) (.refl _) (.refl _) (.refl _) (.refl _) (.refl _) (.refl _) (.refl _) (by exact fun _ h => ⟨h.1, h.2⟩) (List.prefix_refl _) (Nat.le_refl _) (fun p hn => by cases p <;> first | exact absurd (hp.m rfl) hn | (simp only [Part.Same]; done) | exact rfl)) (Moves.litE rfl h₀ (.refl _) (.refl _) (.refl _) (.refl _) (.refl _) (.refl _) (.refl _) (.refl _) (by exact fun _ h => ⟨h.1, h.2⟩) (List.prefix_refl _) (Nat.le_refl _) (fun p hn => by cases p <;> first | exact absurd (hp.m rfl) hn | (simp only [Part.Same]; done) | exact rfl))))

theorem State.summarise_moves {s₀ s : State} {r : Report} (hp : Parts [.regs] ps) (h₀ : Moves ps es s₀ s) :
    Moves ps es s₀ (State.summarise s r) := by
  unfold State.summarise
  exact (State.put_moves hp (State.put_moves hp (State.count_moves hp h₀)))

theorem State.setOpen_moves {s₀ s : State} {l : List LogEntry} (hp : Parts [.regs, .elog] ps) (hl : s₀.elog.Bounded → l.length ≤ 64) (h₀ : Moves ps es s₀ s) :
    Moves ps es s₀ (s.setOpen l) := by
  unfold State.setOpen
  exact State.put_moves (hp.s rfl) (Moves.litE rfl h₀ (.refl _) (.refl _) (.refl _) (.refl _) (.refl _) (.refl _) (.refl _) (.refl _)
    (fun hs h => ⟨h.1, hl hs⟩) (List.prefix_refl _) (Nat.le_refl _) (fun p hn => by cases p <;> first | exact absurd (hp.m rfl) hn | (simp only [Part.Same]; done) | exact rfl))

theorem State.elogIrq_moves {s₀ s : State} (hp : Parts [.regs, .outbox] ps) (h₀ : Moves ps es s₀ s) :
    Moves ps es s₀ (State.elogIrq s) := by
  unfold State.elogIrq
  exact (State.emit_moves (hp.s rfl) (State.put_moves (hp.s rfl) h₀))

theorem State.setMasks_moves {s₀ s : State} {l : List StormMask} (hp : Parts [.regs, .elog] ps) (h₀ : Moves ps es s₀ s) :
    Moves ps es s₀ (State.setMasks s l) := by
  unfold State.setMasks
  exact (State.put_moves (hp.s rfl) (Moves.litE rfl h₀ (.refl _) (.refl _) (.refl _) (.refl _) (.refl _) (.refl _) (.refl _) (.refl _) (by exact fun _ h => ⟨h.1, h.2⟩) (List.prefix_refl _) (Nat.le_refl _) (fun p hn => by cases p <;> first | exact absurd (hp.m rfl) hn | (simp only [Part.Same]; done) | exact rfl)))

theorem State.putEntry_moves {s₀ s : State} {r : Reg} {e : LogEntry} (hp : Parts [.regs] ps) (h₀ : Moves ps es s₀ s) :
    Moves ps es s₀ (State.putEntry s r e) := by
  unfold State.putEntry
  exact (Moves.foldl _ h₀ fun _ _ h1 => (State.setReg_moves hp h1))

theorem State.closeEntry_moves {s₀ s : State} {e : LogEntry} (hp : Parts [.regs, .mem, .outbox] ps) (h₀ : Moves ps es s₀ s) :
    Moves ps es s₀ (State.closeEntry s e) := by
  unfold State.closeEntry
  exact (moves_then (moves_then (moves_ite (State.elogIrq_moves (hp.s rfl) (Moves.refl _)) (Moves.refl _)) (moves_ite (State.put_moves (hp.s rfl) (State.count_moves (hp.s rfl) (Moves.refl _))) (State.bump_moves (hp.s rfl) (State.writeSram_moves (hp.s rfl) (Moves.refl _))))) (State.putEntry_moves (hp.s rfl) h₀))

theorem State.closeOldest_moves {s₀ s : State} (hp : Parts [.regs, .mem, .elog, .outbox] ps) (h₀ : Moves ps es s₀ s) :
    Moves ps es s₀ (State.closeOldest s) := by
  unfold State.closeOldest
  split
  · exact h₀
  · rename_i e rest he
    exact State.closeEntry_moves (hp.s rfl) (State.setOpen_moves (hp.s rfl) (fun h => by have := (h₀.log h).opened; rw [he, List.length_cons] at this; omega) h₀)

theorem State.setOpen_elog (s : State) (l : List LogEntry) : (s.setOpen l).elog = { s.elog with opened := l } := State.put_elog ..

theorem State.setBytes_elog (s : State) (k : Nat) (b : List Byte) : (s.setBytes k b).elog = s.elog := by
  induction b generalizing s k with
  | nil => rfl
  | cons x b ih => exact (ih (s.setByte k x) (k + 1)).trans (State.setByte_elog s k x)

theorem State.foldl_elog {α : Type} {f : State → α → State} (hf : ∀ s x, (f s x).elog = s.elog) (l : List α) (s : State) :
    (l.foldl f s).elog = s.elog := by
  induction l generalizing s with
  | nil => rfl
  | cons x l ih => exact (ih _).trans (hf s x)

theorem State.count_elog (s : State) (f : Field) (k i j : Nat) : (s.count f k i j).elog = s.elog := State.put_elog ..

theorem State.ite_elog {c : Prop} [Decidable c] {a b : State} {x : Elog} (ha : a.elog = x) (hb : b.elog = x) : (if c then a else b).elog = x := by
  split
  · exact ha
  · exact hb

theorem State.closeEntry_elog (s : State) (e : LogEntry) : (s.closeEntry e).elog = s.elog := by
  have hp : (s.putEntry R.ELOG_LATEST e).elog = s.elog := State.foldl_elog (fun s x => State.setReg_elog ..) _ s
  have hq {t : State} (h : t.elog = s.elog) : t.elogIrq.elog = s.elog := ((State.emit_elog ..).trans (State.put_elog ..)).trans h
  have hr (t : State) : (t.bump F.ELOG_STATUS.head).elog = t.elog := State.put_elog ..
  have hm : ∀ t : State, t.elog = s.elog → (if t.elogHeld = 4096 then (t.count F.ELOG_COUNTS.overflow 1).put F.ELOG_STATUS.overflowed 1
      else (t.writeSram (elogRing + 32 * (t.get F.ELOG_STATUS.head % 4096)) (leBytes 32 e.word)).bump F.ELOG_STATUS.head).elog = s.elog :=
    fun t ht => State.ite_elog (((State.put_elog ..).trans (State.count_elog ..)).trans ht) (((hr _).trans (State.setBytes_elog ..)).trans ht)
  have h := hm _ hp
  exact State.ite_elog (hq h) h

/-- Opening an entry keeps the bound where there is room. -/
theorem State.openEntry_moves {s₀ s : State} {e : LogEntry} (hp : Parts [.regs, .elog] ps) (hl : s₀.elog.Bounded → s.elog.opened.length < 64) (h₀ : Moves ps es s₀ s) :
    Moves ps es s₀ (s.openEntry e) :=
  State.setOpen_moves (hp.s rfl) (fun h => by simpa using Nat.succ_le_of_lt (hl h)) h₀

theorem State.closeOldest_opened (s : State) (h : s.elog.opened ≠ []) : (s.closeOldest).elog.opened.length + 1 = s.elog.opened.length := by
  unfold State.closeOldest
  split
  · contradiction
  · rename_i e rest he
    simp [State.closeEntry_elog, State.setOpen_elog, he]

theorem State.coalesce_moves {s₀ s : State} {r : Report} (hp : Parts [.regs, .mem, .elog, .outbox] ps) (h₀ : Moves ps es s₀ s) : Moves ps es s₀ (s.coalesce r) := by
  unfold State.coalesce
  simp only
  split
  · rename_i e he
    split
    · exact State.setOpen_moves (hp.s rfl) (fun h => by simpa using (h₀.log h).opened) h₀
    · have hlt : (s.elog.opened.filter fun x => !x.matches r).length < s.elog.opened.length := by
        have hm := List.mem_of_find?_eq_some he
        have hr := List.find?_some he
        refine List.length_filter_lt_length_iff_exists.mpr ⟨e, hm, ?_⟩
        simpa using hr
      refine State.openEntry_moves (hp.s rfl) (fun h => ?_) (State.closeEntry_moves (hp.s rfl) (State.setOpen_moves (hp.s rfl) (fun h => ?_) h₀))
      · have := (h₀.log h).opened
        rw [State.closeEntry_elog, State.setOpen_elog]
        show (s.elog.opened.filter _).length < 64
        omega
      · have := (h₀.log h).opened
        omega
  · split
    · rename_i h64
      refine State.openEntry_moves (hp.s rfl) (fun _ => ?_) (State.closeOldest_moves hp h₀)
      have := State.closeOldest_opened s (fun e => by rw [e] at h64; cases h64)
      omega
    · rename_i h64
      exact State.openEntry_moves (hp.s rfl) (fun h => by have := (h₀.log h).opened; omega) h₀

theorem State.firstError_moves {s₀ s : State} {r : Report} (hp : Parts [.regs, .outbox] ps) (h₀ : Moves ps es s₀ s) :
    Moves ps es s₀ (State.firstError s r) := by
  unfold State.firstError
  exact (moves_ite (State.elogIrq_moves hp (State.put_moves (hp.s rfl) (State.putEntry_moves (hp.s rfl) h₀))) h₀)

theorem State.accept_moves {s₀ s : State} {r : Report} (hp : Parts [.regs, .mem, .elog, .outbox] ps) (h₀ : Moves ps es s₀ s) :
    Moves ps es s₀ (State.accept s r) := by
  have hn := State.stormCount_moves (hp.s rfl) (r := r) (State.summarise_moves (hp.s rfl) (r := r) h₀)
  unfold State.accept
  simp only
  split
  · exact State.count_moves (hp.s rfl) hn
  · split
    · exact State.closeEntry_moves (hp.s rfl) (State.setMasks_moves (hp.s rfl) (State.put_moves (hp.s rfl) (State.count_moves (hp.s rfl) hn)))
    · exact State.coalesce_moves hp (State.firstError_moves (hp.s rfl) hn)

theorem execErrorReport_moves {s₀ : State} {r : Option Report} {s : State} (hp : Parts [.regs, .mem, .elog, .outbox] ps) (h₀ : Moves ps es s₀ s) :
    OutMoves ps es s₀ (execErrorReport r s) := by
  unfold execErrorReport
  have h1 : Moves ps es s₀ (match r with
      | some r => s.sendReport r
      | none => s) := by
    split
    · exact State.sendReport_moves (hp.s rfl) h₀
    · exact h₀
  simp only
  split
  · exact outMoves_refused _ _
  · rename_i q rest hq
    refine outMoves_next (State.accept_moves hp (Moves.litE rfl h1 (.refl _) (.refl _) (.refl _) (.refl _) (.refl _) (.refl _) (.refl _) (.refl _)
      (fun _ h => ⟨?_, h.2⟩) (List.prefix_refl _) (Nat.le_refl _) (fun p hn => by cases p <;> first | exact absurd (hp.m rfl) hn | (simp only [Part.Same]; done) | exact rfl)))
    have := h.1
    rw [hq, List.length_cons] at this
    exact Nat.le_of_succ_le this

theorem execElogTailWrite_moves {s₀ : State} {v : Word} {s : State} (hp : Parts [.regs] ps) (h₀ : Moves ps es s₀ s) :
    OutMoves ps es s₀ (execElogTailWrite v s) := by
  unfold execElogTailWrite
  exact (outMoves_next (State.writeElogStatus_moves hp h₀))

theorem execEntryClose_moves {s₀ s : State} (hp : Parts [.regs, .mem, .elog, .outbox] ps) (h₀ : Moves ps es s₀ s) :
    OutMoves ps es s₀ (execEntryClose s) := by
  unfold execEntryClose
  exact (need_moves _ _ (outMoves_next (State.closeOldest_moves hp h₀)))

theorem execElogSumRead_moves {s₀ : State} {i : Fin 16} {s : State} (hp : Parts [.regs] ps) (h₀ : Moves ps es s₀ s) :
    OutMoves ps es s₀ (execElogSumRead i s) := by
  unfold execElogSumRead
  exact (outMoves_next (State.swRead_moves hp h₀))

theorem State.closeAll_moves {s₀ s : State} (hp : Parts [.regs, .mem, .elog, .outbox] ps) (h₀ : Moves ps es s₀ s) :
    Moves ps es s₀ (State.closeAll s) := by
  unfold State.closeAll
  exact Moves.foldl _ (State.setOpen_moves (hp.s rfl) (fun _ => Nat.zero_le _) h₀) fun _ _ h => State.closeEntry_moves (hp.s rfl) h

theorem execElogFlush_moves {s₀ s : State} (hp : Parts [.regs, .mem, .elog, .outbox] ps) (h₀ : Moves ps es s₀ s) :
    OutMoves ps es s₀ (execElogFlush s) := by
  unfold execElogFlush
  exact (outMoves_next (State.closeAll_moves hp h₀))

theorem execStormMaskEnd_moves {s₀ : State} {cls inst sub : Nat} {s : State} (hp : Parts [.regs, .elog] ps) (h₀ : Moves ps es s₀ s) :
    OutMoves ps es s₀ (execStormMaskEnd cls inst sub s) := by
  unfold execStormMaskEnd
  exact (need_moves _ _ (outMoves_next (State.setMasks_moves hp h₀)))

theorem execElogCountsRead_moves {s₀ s : State} (hp : Parts [.regs] ps) (h₀ : Moves ps es s₀ s) :
    OutMoves ps es s₀ (execElogCountsRead s) := by
  unfold execElogCountsRead
  exact (outMoves_next (State.swRead_moves hp h₀))

theorem State.setGauge_moves {s₀ s : State} {g : GaugeId} {x : Gauge} (hp : Parts [.gauges] ps) (h₀ : Moves ps es s₀ s) :
    Moves ps es s₀ (State.setGauge s g x) := by
  unfold State.setGauge
  exact (Moves.litE rfl h₀ (.refl _) (.refl _) (.refl _) (.refl _) (.refl _) (.refl _) (.refl _) (.refl _) (fun _ h => h) (List.prefix_refl _) (Nat.le_refl _) (fun p hn => by cases p <;> first | exact absurd (hp.m rfl) hn | (simp only [Part.Same]; done) | exact rfl))

theorem State.sample_moves {s₀ s : State} {g : GaugeId} {v stamp : Nat} (hp : Parts [.gauges] ps) (h₀ : Moves ps es s₀ s) :
    Moves ps es s₀ (State.sample s g v stamp) := by
  unfold State.sample
  exact (moves_ite h₀ (moves_ite (State.setGauge_moves hp h₀) (by (try dsimp only); split; exact (moves_ite (State.setGauge_moves hp h₀) (State.setGauge_moves hp h₀)); exact (State.setGauge_moves hp h₀))))

theorem State.writeGaugePeriod_moves {s₀ s : State} {g : GaugeId} {v : Nat} (hp : Parts [.regs] ps) (h₀ : Moves ps es s₀ s) :
    Moves ps es s₀ (State.writeGaugePeriod s g v) := by
  unfold State.writeGaugePeriod
  exact (State.put_moves hp h₀)

theorem State.latch_moves {s₀ s : State} {g : GaugeId} {x : GaugeStats} {endT : Nat} {stepped part : Bool} (hp : Parts [.regs] ps) (h₀ : Moves ps es s₀ s) :
    Moves ps es s₀ (State.latch s g x endT stepped part) := by
  unfold State.latch
  exact (State.bump_moves hp (State.put_moves hp (State.put_moves hp (Moves.foldl _ (State.setReg_moves hp (State.setReg_moves hp (State.setReg_moves hp (State.put_moves hp (State.put_moves hp (State.put_moves hp (State.put_moves hp h₀))))))) fun _ _ h4 => (State.setReg_moves hp h4)))))

theorem State.latchEnded_moves {s₀ s : State} {g : GaugeId} (hp : Parts [.regs, .gauges] ps) (h₀ : Moves ps es s₀ s) :
    Moves ps es s₀ (State.latchEnded s g) := by
  unfold State.latchEnded
  exact (by (try dsimp only); split; exact (State.setGauge_moves (hp.s rfl) (State.latch_moves (hp.s rfl) h₀)); exact h₀)

theorem State.endGaugeMasks_moves {s₀ s : State} {g : GaugeId} (hp : Parts [.regs, .elog] ps) (h₀ : Moves ps es s₀ s) :
    Moves ps es s₀ (State.endGaugeMasks s g) := by
  unfold State.endGaugeMasks
  exact (State.put_moves (hp.s rfl) (Moves.litE rfl h₀ (.refl _) (.refl _) (.refl _) (.refl _) (.refl _) (.refl _) (.refl _) (.refl _) (by exact fun _ h => ⟨h.1, h.2⟩) (List.prefix_refl _) (Nat.le_refl _) (fun p hn => by cases p <;> first | exact absurd (hp.m rfl) hn | (simp only [Part.Same]; done) | exact rfl)))

theorem State.gaugeStepOne_moves {s₀ s : State} {before after : Nat} {g : GaugeId} (hp : Parts [.regs, .elog, .gauges] ps) (h₀ : Moves ps es s₀ s) :
    Moves ps es s₀ (State.gaugeStepOne s before after g) := by
  unfold State.gaugeStepOne
  exact (moves_ite (State.endGaugeMasks_moves (hp.s rfl) (State.setGauge_moves (hp.s rfl) (State.latch_moves (hp.s rfl) (State.latchEnded_moves (hp.s rfl) h₀)))) h₀)

theorem execGaugeSample_moves {s₀ : State} {g : GaugeId} {value : Nat} {stamp : Word} {s : State} (hp : Parts [.gauges] ps) (h₀ : Moves ps es s₀ s) :
    OutMoves ps es s₀ (execGaugeSample g value stamp s) := by
  unfold execGaugeSample
  exact (by (try dsimp only); split; exact (outMoves_next (State.sample_moves hp h₀)); exact (outMoves_next h₀))

theorem State.applySource_moves {s₀ s : State} {g : GaugeId} (hp : Parts [.regs, .gauges] ps) (h₀ : Moves ps es s₀ s) :
    Moves ps es s₀ (State.applySource s g) := by
  unfold State.applySource
  exact (moves_then (moves_ite (Moves.refl _) (State.put_moves (hp.s rfl) (Moves.refl _))) (State.setGauge_moves (hp.s rfl) (State.put_moves (hp.s rfl) h₀)))

theorem State.boundary_moves {s₀ s : State} {g : GaugeId} (hp : Parts [.regs, .elog, .gauges] ps) (h₀ : Moves ps es s₀ s) :
    Moves ps es s₀ (State.boundary s g) := by
  unfold State.boundary
  exact (State.applySource_moves (hp.s rfl) (State.put_moves (hp.s rfl) (State.endGaugeMasks_moves (hp.s rfl) (State.setGauge_moves (hp.s rfl) (State.latchEnded_moves (hp.s rfl) h₀)))))

theorem execPeriodBoundary_moves {s₀ : State} {g : GaugeId} {s : State} (hp : Parts [.regs, .elog, .gauges] ps) (h₀ : Moves ps es s₀ s) :
    OutMoves ps es s₀ (execPeriodBoundary g s) := by
  unfold execPeriodBoundary
  exact (need_moves _ _ (outMoves_next (State.boundary_moves hp h₀)))

theorem State.writeGaugeCfg_moves {s₀ s : State} {g : GaugeId} {v : Nat} (hp : Parts [.regs, .elog, .gauges] ps) (h₀ : Moves ps es s₀ s) :
    Moves ps es s₀ (State.writeGaugeCfg s g v) := by
  unfold State.writeGaugeCfg
  exact (moves_then (moves_ite (moves_ite (Moves.refl _) (State.endGaugeMasks_moves (hp.s rfl) (State.setGauge_moves (hp.s rfl) (State.put_moves (hp.s rfl) (State.latch_moves (hp.s rfl) (State.latchEnded_moves (hp.s rfl) (Moves.refl _))))))) (State.applySource_moves (hp.s rfl) (Moves.refl _))) (State.swWrite_moves (hp.s rfl) h₀))

theorem execGaugeCfgWrite_moves {s₀ : State} {g : GaugeId} {v : Word} {s : State} (hp : Parts [.regs, .elog, .gauges] ps) (h₀ : Moves ps es s₀ s) :
    OutMoves ps es s₀ (execGaugeCfgWrite g v s) := by
  unfold execGaugeCfgWrite
  exact (outMoves_next (State.writeGaugeCfg_moves hp h₀))

theorem State.gaugeStep_moves {s₀ s : State} {before after : Nat} (hp : Parts [.regs, .elog, .gauges] ps) (h₀ : Moves ps es s₀ s) :
    Moves ps es s₀ (State.gaugeStep s before after) := by
  unfold State.gaugeStep
  exact (Moves.foldl _ h₀ fun _ _ h1 => (State.gaugeStepOne_moves hp h1))

theorem execGaugeLatch_moves {s₀ : State} {g : GaugeId} {s : State} (hp : Parts [.regs, .gauges] ps) (h₀ : Moves ps es s₀ s) :
    OutMoves ps es s₀ (execGaugeLatch g s) := by
  unfold execGaugeLatch
  exact (need_moves _ _ (outMoves_next (State.latchEnded_moves hp h₀)))

theorem execGaugePeriodWrite_moves {s₀ : State} {g : GaugeId} {v : Word} {s : State} (hp : Parts [.regs] ps) (h₀ : Moves ps es s₀ s) :
    OutMoves ps es s₀ (execGaugePeriodWrite g v s) := by
  unfold execGaugePeriodWrite
  exact (outMoves_next (State.writeGaugePeriod_moves hp h₀))

theorem State.putBit_moves {s₀ s : State} {f : Field} {i : Nat} {b : Bool} {inst idx : Nat} (hp : Parts [.regs] ps) (h₀ : Moves ps es s₀ s) :
    Moves ps es s₀ (State.putBit s f i b inst idx) := by
  unfold State.putBit
  exact (State.put_moves hp h₀)

theorem State.refreshPinIn_moves {s₀ s : State} (hp : Parts [.regs] ps) (h₀ : Moves ps es s₀ s) :
    Moves ps es s₀ (State.refreshPinIn s) := by
  unfold State.refreshPinIn
  exact (Moves.foldl _ h₀ fun _ _ h1 => (State.putBit_moves hp h1))

theorem State.judgeChatter_moves {s₀ s : State} {n : PinId} (hp : Parts [.regs, .pins, .elog] ps) (h₀ : Moves ps es s₀ s) :
    Moves ps es s₀ (State.judgeChatter s n) := by
  unfold State.judgeChatter
  exact (Moves.litE rfl (moves_ite (State.logEvent_moves (hp.s rfl) (State.putBit_moves (hp.s rfl) h₀)) h₀) (.refl _) (.refl _) (.refl _) (.refl _) (.refl _) (.refl _) (.refl _) (.refl _) (fun _ h => h) (List.prefix_refl _) (Nat.le_refl _) (fun p hn => by cases p <;> first | exact absurd (hp.m rfl) hn | (simp only [Part.Same]; done) | exact rfl))

theorem execChatterWindowEnd_moves {s₀ s : State} (hp : Parts [.regs, .pins, .elog] ps) (h₀ : Moves ps es s₀ s) :
    OutMoves ps es s₀ (execChatterWindowEnd s) := by
  unfold execChatterWindowEnd
  exact (outMoves_next (Moves.foldl _ h₀ fun _ _ h1 => (State.judgeChatter_moves hp h1)))

theorem State.pinEdge_moves {s₀ s : State} {n : PinId} (hp : Parts [.regs, .pins, .outbox] ps) (h₀ : Moves ps es s₀ s) :
    Moves ps es s₀ (State.pinEdge s n) := by
  unfold State.pinEdge
  exact (moves_ite h₀ (moves_then (moves_ite (moves_then (moves_ite (State.emit_moves (hp.s rfl) (Moves.refl _)) (Moves.refl _)) (State.putBit_moves (hp.s rfl) (Moves.refl _))) (Moves.refl _)) (Moves.litE rfl h₀ (.refl _) (.refl _) (.refl _) (.refl _) (.refl _) (.refl _) (.refl _) (.refl _) (fun _ h => h) (List.prefix_refl _) (Nat.le_refl _) (fun p hn => by cases p <;> first | exact absurd (hp.m rfl) hn | (simp only [Part.Same]; done) | exact rfl))))

theorem execInputEdge_moves {s₀ : State} {n : Fin 17} {level : Bool} {s : State} (hp : Parts [.regs, .pins, .outbox] ps) (h₀ : Moves ps es s₀ s) :
    OutMoves ps es s₀ (execInputEdge n level s) := by
  unfold execInputEdge
  exact (need_moves _ _ (outMoves_then (outMoves_dite (fun _ => (outMoves_next (State.pinEdge_moves hp (State.putBit_moves (hp.s rfl) (Moves.refl _))))) fun _ => (outMoves_ite (outMoves_next (State.put_moves (hp.s rfl) (Moves.refl _))) (outMoves_next (State.put_moves (hp.s rfl) (Moves.refl _))))) (Moves.litE rfl h₀ (.refl _) (.refl _) (.refl _) (.refl _) (.refl _) (.refl _) (.refl _) (.refl _) (fun _ h => h) (List.prefix_refl _) (Nat.le_refl _) (fun p hn => by cases p <;> first | exact absurd (hp.m rfl) hn | (simp only [Part.Same]; done) | exact rfl))))

theorem State.writePinFault_moves {s₀ s : State} {v : Nat} (hp : Parts [.regs, .pins] ps) (h₀ : Moves ps es s₀ s) :
    Moves ps es s₀ (State.writePinFault s v) := by
  unfold State.writePinFault
  exact (Moves.foldl _ (State.swWrite_moves (hp.s rfl) h₀) fun _ _ h2 => (moves_ite (State.putBit_moves (hp.s rfl) (Moves.litE rfl h2 (.refl _) (.refl _) (.refl _) (.refl _) (.refl _) (.refl _) (.refl _) (.refl _) (fun _ h => h) (List.prefix_refl _) (Nat.le_refl _) (fun p hn => by cases p <;> first | exact absurd (hp.m rfl) hn | (simp only [Part.Same]; done) | exact rfl))) h2))

theorem execPinFaultClear_moves {s₀ : State} {v : Word} {s : State} (hp : Parts [.regs, .pins] ps) (h₀ : Moves ps es s₀ s) :
    OutMoves ps es s₀ (execPinFaultClear v s) := by
  unfold execPinFaultClear
  exact (outMoves_next (State.writePinFault_moves hp h₀))

theorem execInputStuck_moves {s₀ : State} {n : PinId} {s : State} (hp : Parts [.regs, .elog] ps) (h₀ : Moves ps es s₀ s) :
    OutMoves ps es s₀ (execInputStuck n s) := by
  unfold execInputStuck
  exact (need_moves _ _ (outMoves_next (State.logEvent_moves hp (State.putBit_moves (hp.s rfl) h₀))))

theorem State.writePinGpio_moves {s₀ s : State} {v : Nat} (hp : Parts [.regs] ps) (h₀ : Moves ps es s₀ s) :
    Moves ps es s₀ (State.writePinGpio s v) := by
  unfold State.writePinGpio
  exact (State.refreshPinIn_moves hp (State.swWrite_moves hp h₀))

theorem State.noteErr_moves {s₀ s : State} {e : EngineId} {key kind : Nat} (hp : Parts [.regs] ps) (h₀ : Moves ps es s₀ s) :
    Moves ps es s₀ (State.noteErr s e key kind) := by
  unfold State.noteErr
  exact (moves_ite h₀ (State.put_moves hp (State.put_moves hp (State.put_moves hp h₀))))

theorem State.noteWord_moves {s₀ s : State} {e : EngineId} {w : Nat} (hp : Parts [.regs, .elog] ps) (h₀ : Moves ps es s₀ s) :
    Moves ps es s₀ (State.noteWord s e w) := by
  unfold State.noteWord
  exact (by (try dsimp only); split; exact (State.count_moves (hp.s rfl) h₀); exact (State.log_moves hp (State.noteErr_moves (hp.s rfl) (State.count_moves (hp.s rfl) h₀))); exact (State.log_moves hp (State.noteErr_moves (hp.s rfl) h₀)); exact h₀)

theorem State.noteWords_moves {s₀ s : State} {e : EngineId} {ws : List Nat} (hp : Parts [.regs, .elog] ps) (h₀ : Moves ps es s₀ s) :
    Moves ps es s₀ (State.noteWords s e ws) := by
  unfold State.noteWords
  exact (Moves.foldl _ (moves_ite (State.count_moves (hp.s rfl) h₀) h₀) fun _ _ h2 => (State.noteWord_moves hp h2))

theorem State.setSq_moves {s₀ s : State} {k : SquareId} {x : Square} (hp : Parts [.squares] ps) (h₀ : Moves ps es s₀ s) :
    Moves ps es s₀ (State.setSq s k x) := by
  unfold State.setSq
  exact (Moves.litE rfl h₀ (.refl _) (.refl _) (.refl _) (.refl _) (.refl _) (.refl _) (.refl _) (.refl _) (fun _ h => h) (List.prefix_refl _) (Nat.le_refl _) (fun p hn => by cases p <;> first | exact absurd (hp.m rfl) hn | (simp only [Part.Same]; done) | exact rfl))

theorem State.noteWindow_moves {s₀ s : State} {k : SquareId} {w : Nat} (hp : Parts [.regs, .squares, .elog] ps) (h₀ : Moves ps es s₀ s) :
    Moves ps es s₀ (State.noteWindow s k w) := by
  unfold State.noteWindow
  exact (moves_ite h₀ (State.log_moves (hp.s rfl) (State.setSq_moves (hp.s rfl) h₀)))

theorem State.noteRead_moves {s₀ s : State} {a n : Nat} (hp : Parts [.regs, .squares, .elog] ps) (h₀ : Moves ps es s₀ s) :
    Moves ps es s₀ (State.noteRead s a n) := by
  unfold State.noteRead
  exact (by (try dsimp only); split; exact (moves_ite h₀ (State.noteWords_moves (hp.s rfl) h₀)); exact (moves_ite h₀ (Moves.foldl _ h₀ fun _ _ h1 => (State.noteWindow_moves hp h1))); exact h₀)

theorem State.setMark_moves {s₀ s : State} {word m : Nat} (hp : Parts [.marks] ps) (h₀ : Moves ps es s₀ s) :
    Moves ps es s₀ (State.setMark s word m) := by
  unfold State.setMark
  exact (Moves.litE rfl h₀ (.refl _) (.refl _) (.refl _) (Edits.set (.refl _) _ _) (.refl _) (.refl _) (.refl _) (.refl _) (fun _ h => h) (List.prefix_refl _) (Nat.le_refl _) (fun p hn => by cases p <;> first | exact absurd (hp.m rfl) hn | (simp only [Part.Same]; done) | exact rfl))

theorem State.wordWritten_moves {s₀ s : State} {e : EngineId} {whole : List Nat} {w : Nat} (hp : Parts [.regs, .marks] ps) (h₀ : Moves ps es s₀ s) :
    Moves ps es s₀ (State.wordWritten s e whole w) := by
  unfold State.wordWritten
  exact (moves_ite (State.setMark_moves (hp.s rfl) h₀) (moves_ite (State.count_moves (hp.s rfl) (State.setMark_moves (hp.s rfl) h₀)) h₀))

theorem State.clearMarks_moves {s₀ s : State} {e : EngineId} {keys : List Nat} (hp : Parts [.regs, .marks, .squares] ps) (h₀ : Moves ps es s₀ s) :
    Moves ps es s₀ (State.clearMarks s e keys) := by
  unfold State.clearMarks
  exact (Moves.foldl _ (State.put_moves (hp.s rfl) (State.setSq_moves (hp.s rfl) h₀)) fun _ _ h2 => (State.wordWritten_moves (hp.s rfl) h2))

theorem State.setEng_moves {s₀ s : State} {e : EngineId} {x : Engine} (hp : Parts [.engines] ps) (qe : es e) (h₀ : Moves ps es s₀ s) :
    Moves ps es s₀ (State.setEng s e x) := by
  unfold State.setEng
  exact (Moves.lit rfl h₀ (.refl _) (.refl _) (.refl _) (.refl _) (.refl _) (.refl _) (.refl _) (.refl _) (fun _ h => h) (List.prefix_refl _) (Nat.le_refl _) (fun p hn => by cases p <;> first | exact absurd (hp.m rfl) hn | (simp only [Part.Same]; done) | exact rfl) (fun q hq => vget_vset_other _ _ fun h => hq (h ▸ qe)))

theorem State.modEng_moves {s₀ s : State} {e : EngineId} {f : Engine → Engine} (hp : Parts [.engines] ps) (qe : es e) (h₀ : Moves ps es s₀ s) :
    Moves ps es s₀ (State.modEng s e f) := by
  unfold State.modEng
  exact (State.setEng_moves hp qe h₀)

theorem State.engReach_moves {s₀ s : State} {e : EngineId} {k : Out} (_hp : Parts [] ps) (h₀ : Moves ps es s₀ s) (hk : OutMoves ps es s₀ k) :
    OutMoves ps es s₀ (State.engReach s e k) := by
  unfold State.engReach
  exact (outMoves_ite (outMoves_next h₀) hk)

theorem State.touch_moves {s₀ s : State} {k : SquareId} {sector : Nat} (hp : Parts [.squares] ps) (h₀ : Moves ps es s₀ s) :
    Moves ps es s₀ (State.touch s k sector) := by
  unfold State.touch
  exact (State.setSq_moves hp h₀)

theorem State.storeKeys_moves {s₀ s : State} {l : List (Nat × Byte)} (hp : Parts [.mem] ps) (h₀ : Moves ps es s₀ s) : Moves ps es s₀ (s.storeKeys l) := by
  induction l generalizing s with
  | nil => exact h₀
  | cons x l ih => exact ih (State.setByte_moves hp h₀)

theorem State.writeLocal_moves {s₀ s : State} {a : Nat} {b : List Byte} (hp : Parts [.regs, .mem, .marks, .squares] ps) (h₀ : Moves ps es s₀ s) :
    Moves ps es s₀ (State.writeLocal s a b).1 := by
  unfold State.writeLocal
  exact (by (try dsimp only); split; exact (by (try dsimp only); split; exact (State.clearMarks_moves (hp.s rfl) (State.storeKeys_moves (hp.s rfl) h₀)); exact (State.setSq_moves (hp.s rfl) (State.storeKeys_moves (hp.s rfl) h₀)); exact (State.storeKeys_moves (hp.s rfl) h₀)); exact h₀)

theorem State.setBank_moves {s₀ s : State} {e : EngineId} {b : Nat} {x : Bank} (hp : Parts [.banks] ps) (h₀ : Moves ps es s₀ s) :
    Moves ps es s₀ (State.setBank s e b x) := by
  unfold State.setBank
  exact (Moves.litE rfl h₀ (.refl _) (.refl _) (Edits.set (.refl _) _ _) (.refl _) (.refl _) (.refl _) (.refl _) (.refl _) (fun _ h => h) (List.prefix_refl _) (Nat.le_refl _) (fun p hn => by cases p <;> first | exact absurd (hp.m rfl) hn | (simp only [Part.Same]; done) | exact rfl))

theorem execRefreshCatchup_moves {s₀ : State} {e : EngineId} {b : BankId} {s : State} (hp : Parts [.regs, .banks] ps) (h₀ : Moves ps es s₀ s) :
    OutMoves ps es s₀ (execRefreshCatchup e b s) := by
  unfold execRefreshCatchup
  exact (need_moves _ _ (outMoves_next (State.count_moves (hp.s rfl) (State.setBank_moves (hp.s rfl) h₀))))

theorem State.discardFor_moves {s₀ s : State} {g : EngineId} (hp : Parts [.regs] ps) (h₀ : Moves ps es s₀ s) :
    Moves ps es s₀ (State.discardFor s g) := by
  unfold State.discardFor
  exact (State.count_moves hp h₀)

theorem execLndPoisonRead_moves {s₀ : State} {e : EngineId} {s : State} (hp : Parts [.regs] ps) (h₀ : Moves ps es s₀ s) :
    OutMoves ps es s₀ (execLndPoisonRead e s) := by
  unfold execLndPoisonRead
  exact (outMoves_next (State.swRead_moves hp h₀))

theorem State.upset_moves {s₀ s : State} {rowKey : Nat} {u : Upset} (hp : Parts [.marks] ps) (h₀ : Moves ps es s₀ s) :
    Moves ps es s₀ (State.upset s rowKey u) := by
  unfold State.upset
  exact (by (try dsimp only); split; exact h₀; exact (moves_ite (State.setMark_moves hp h₀) (moves_ite (State.setMark_moves hp h₀) h₀)); exact (moves_ite h₀ (State.setMark_moves hp h₀)); exact (State.setMark_moves hp h₀))

theorem execRefresh_moves {s₀ : State} {e : EngineId} {b : BankId} {s : State} (hp : Parts [.banks] ps) (h₀ : Moves ps es s₀ s) :
    OutMoves ps es s₀ (execRefresh e b s) := by
  unfold execRefresh
  exact (need_moves _ _ (outMoves_next (State.setBank_moves hp h₀)))

theorem State.complete_moves {s₀ s : State} {who : Requester} {id : Nat} {c : Code} {detail : Nat} {data : List Byte} (hp : Parts [.regs, .outbox] ps) (h₀ : Moves ps es s₀ s) :
    Moves ps es s₀ (State.complete s who id c detail data) := by
  unfold State.complete
  exact (by (try dsimp only); split; exact (moves_ite (State.discardFor_moves (hp.s rfl) h₀) (State.emit_moves (hp.s rfl) h₀)); exact (State.emit_moves (hp.s rfl) h₀))

theorem State.answer_moves {s₀ s : State} {r : MemReq} {c : Code} {data : List Byte} {detail : Nat} (hp : Parts [.regs, .mesh, .outbox] ps) (h₀ : Moves ps es s₀ s) :
    Moves ps es s₀ (State.answer s r c data detail) := by
  unfold State.answer
  exact (by (try dsimp only); split; exact (Moves.litE rfl h₀ (.refl _) (.refl _) (.refl _) (.refl _) (.refl _) (.refl _) (.refl _) (.refl _) (fun _ h => h) (List.prefix_refl _) (Nat.le_refl _) (fun p hn => by cases p <;> first | exact absurd (hp.m rfl) hn | (simp only [Part.Same]; done) | exact rfl)); exact (State.complete_moves (hp.s rfl) h₀))

theorem execRefreshDue_moves {s₀ : State} {e : EngineId} {b : BankId} {s : State} (hp : Parts [.regs, .banks] ps) (h₀ : Moves ps es s₀ s) :
    OutMoves ps es s₀ (execRefreshDue e b s) := by
  unfold execRefreshDue
  exact (need_moves _ _ (outMoves_next (State.put_moves (hp.s rfl) (State.setBank_moves (hp.s rfl) h₀))))

theorem State.serve_moves {s₀ s : State} {r : MemReq} (hp : Parts [.regs, .mem, .marks, .squares, .mesh, .elog, .outbox] ps) (h₀ : Moves ps es s₀ s) :
    Moves ps es s₀ (State.serve s r) := by
  unfold State.serve
  exact (by (try dsimp only); split; exact (State.answer_moves (hp.s rfl) (State.noteRead_moves (hp.s rfl) h₀)); exact (State.answer_moves (hp.s rfl) (State.writeLocal_moves (hp.s rfl) h₀)))

theorem execVerticalChannelRequest_moves {s₀ : State} {e : EngineId} {chan : Fin 128} {req : MemReq} {badFlag : Bool} {s : State} (hp : Parts [.regs, .mem, .marks, .landq, .squares, .mesh, .elog, .outbox] ps) (h₀ : Moves ps es s₀ s) :
    OutMoves ps es s₀ (execVerticalChannelRequest e chan req badFlag s) := by
  unfold execVerticalChannelRequest
  exact (need_moves _ _ (need_moves _ _ (need_moves _ _ (need_moves _ _ (need_moves _ _ (outMoves_then (outMoves_ite (outMoves_next (State.answer_moves (hp.s rfl) (Moves.refl _))) (outMoves_ite (outMoves_next (State.serve_moves (hp.s rfl) (State.touch_moves (hp.s rfl) (Moves.refl _)))) (outMoves_next (Moves.litE rfl (Moves.refl _) (.refl _) (.refl _) (.refl _) (.refl _) (.refl _) (.refl _) (.refl _) (.refl _) (fun _ h => h) (List.prefix_refl _) (Nat.le_refl _) (fun p hn => by cases p <;> first | exact absurd (hp.m rfl) hn | (simp only [Part.Same]; done) | exact rfl))))) (moves_ite (State.logEvent_moves (hp.s rfl) h₀) h₀)))))))

theorem State.writeScrub_moves {s₀ s : State} {e : EngineId} {v : Nat} (hp : Parts [.regs, .scrubAt] ps) (h₀ : Moves ps es s₀ s) :
    Moves ps es s₀ (State.writeScrub s e v) := by
  unfold State.writeScrub
  exact (State.put_moves (hp.s rfl) (State.put_moves (hp.s rfl) (moves_ite (Moves.litE rfl h₀ (.refl _) (.refl _) (.refl _) (.refl _) (.refl _) (.refl _) (.refl _) (.refl _) (fun _ h => h) (List.prefix_refl _) (Nat.le_refl _) (fun p hn => by cases p <;> first | exact absurd (hp.m rfl) hn | (simp only [Part.Same]; done) | exact rfl)) h₀)))

theorem execRowCloseTimeout_moves {s₀ : State} {e : EngineId} {b : BankId} {s : State} (hp : Parts [.banks] ps) (h₀ : Moves ps es s₀ s) :
    OutMoves ps es s₀ (execRowCloseTimeout e b s) := by
  unfold execRowCloseTimeout
  exact (need_moves _ _ (outMoves_next (State.setBank_moves hp h₀)))

theorem execLndUeCountRead_moves {s₀ : State} {e : EngineId} {s : State} (hp : Parts [.regs] ps) (h₀ : Moves ps es s₀ s) :
    OutMoves ps es s₀ (execLndUeCountRead e s) := by
  unfold execLndUeCountRead
  exact (outMoves_next (State.swRead_moves hp h₀))

theorem State.upsets_moves {s₀ s : State} {rowKey : Nat} {l : List Upset} (hp : Parts [.marks] ps) (h₀ : Moves ps es s₀ s) :
    Moves ps es s₀ (State.upsets s rowKey l) := by
  unfold State.upsets
  exact (Moves.foldl _ h₀ fun _ _ h1 => (State.upset_moves hp h1))

theorem State.takeAccess_moves {s₀ s : State} {e : EngineId} {b : Nat} {q : LandReq} {ups : List Upset} (hp : Parts [.banks, .marks, .landq] ps) (h₀ : Moves ps es s₀ s) :
    Moves ps es s₀ (State.takeAccess s e b q ups) := by
  unfold State.takeAccess
  exact (State.setBank_moves (hp.s rfl) (State.upsets_moves (hp.s rfl) (Moves.litE rfl h₀ (.refl _) (.refl _) (.refl _) (.refl _) (.refl _) (.refl _) (.refl _) (.refl _) (fun _ h => h) (List.prefix_refl _) (Nat.le_refl _) (fun p hn => by cases p <;> first | exact absurd (hp.m rfl) hn | (simp only [Part.Same]; done) | exact rfl))))

theorem execBankAccess_moves {s₀ : State} {e : EngineId} {b : BankId} {ups : List Upset} {s : State} (hp : Parts [.regs, .mem, .banks, .marks, .landq, .squares, .mesh, .elog, .outbox] ps) (h₀ : Moves ps es s₀ s) :
    OutMoves ps es s₀ (execBankAccess e b ups s) := by
  unfold execBankAccess
  exact (needSome_moves _ _ fun _ _ => (need_moves _ _ (need_moves _ _ (need_moves _ _ (outMoves_next (State.serve_moves (hp.s rfl) (State.takeAccess_moves (hp.s rfl) h₀)))))))

theorem execLndCeCountRead_moves {s₀ : State} {e : EngineId} {s : State} (hp : Parts [.regs] ps) (h₀ : Moves ps es s₀ s) :
    OutMoves ps es s₀ (execLndCeCountRead e s) := by
  unfold execLndCeCountRead
  exact (outMoves_next (State.swRead_moves hp h₀))

theorem execLndRefreshRead_moves {s₀ : State} {e : EngineId} {s : State} (hp : Parts [.regs] ps) (h₀ : Moves ps es s₀ s) :
    OutMoves ps es s₀ (execLndRefreshRead e s) := by
  unfold execLndRefreshRead
  exact (outMoves_next (State.swRead_moves hp h₀))

theorem State.setPort_moves {s₀ s : State} {p : PortId} {x : Port} (hp : Parts [.net] ps) (h₀ : Moves ps es s₀ s) :
    Moves ps es s₀ (State.setPort s p x) := by
  unfold State.setPort
  exact (Moves.litE rfl h₀ (.refl _) (.refl _) (.refl _) (.refl _) (.refl _) (.refl _) (.refl _) (.refl _) (fun _ h => h) (List.prefix_refl _) (Nat.le_refl _) (fun p hn => by cases p <;> first | exact absurd (hp.m rfl) hn | (simp only [Part.Same]; done) | exact rfl))

theorem State.logRepair_moves {s₀ s : State} {p : PortId} {lane : Nat} {tx half : Bool} (hp : Parts [.regs, .elog] ps) (h₀ : Moves ps es s₀ s) :
    Moves ps es s₀ (State.logRepair s p lane tx half) := by
  unfold State.logRepair
  exact (State.logEvent_moves hp h₀)

theorem State.mapOut_moves {s₀ s : State} {p : PortId} {tx : Bool} {lane : Nat} (hp : Parts [.regs, .net] ps) (h₀ : Moves ps es s₀ s) :
    Moves ps es s₀ (State.mapOut s p tx lane) := by
  unfold State.mapOut
  exact (moves_then (moves_ite (State.put_moves (hp.s rfl) (Moves.refl _)) (State.put_moves (hp.s rfl) (Moves.refl _))) (State.setPort_moves (hp.s rfl) h₀))

theorem State.goHalf_moves {s₀ s : State} {p : PortId} (hp : Parts [.regs, .net] ps) (h₀ : Moves ps es s₀ s) :
    Moves ps es s₀ (State.goHalf s p) := by
  unfold State.goHalf
  exact (State.put_moves (hp.s rfl) (State.setPort_moves (hp.s rfl) h₀))

theorem State.followLane_moves {s₀ s : State} {p : PortId} (hp : Parts [.regs, .net, .elog] ps) (h₀ : Moves ps es s₀ s) :
    Moves ps es s₀ (State.followLane s p) := by
  unfold State.followLane
  exact (by (try dsimp only); split; exact (moves_ite (moves_then (moves_ite (State.logRepair_moves (hp.s rfl) (State.mapOut_moves (hp.s rfl) (Moves.refl _))) (State.logRepair_moves (hp.s rfl) (State.goHalf_moves (hp.s rfl) (Moves.refl _)))) (State.setPort_moves (hp.s rfl) h₀)) h₀); exact h₀)

theorem State.transmit_moves {s₀ s : State} {p : PortId} {bytes : List Byte} (hp : Parts [.regs, .net, .elog, .outbox] ps) (h₀ : Moves ps es s₀ s) :
    Moves ps es s₀ (State.transmit s p bytes) := by
  unfold State.transmit
  exact (State.emit_moves (hp.s rfl) (State.setPort_moves (hp.s rfl) (State.followLane_moves (hp.s rfl) h₀)))

theorem State.sendRaw_moves {s₀ s : State} {p : PortId} {ftype : Nat} {area : List Byte} {nak : Bool} {credit : Nat × Nat} (hp : Parts [.regs, .net, .elog, .outbox] ps) (h₀ : Moves ps es s₀ s) :
    Moves ps es s₀ (State.sendRaw s p ftype area nak credit) := by
  unfold State.sendRaw
  exact (State.transmit_moves hp (State.setPort_moves (hp.s rfl) h₀))

theorem State.sendIdle_moves {s₀ s : State} {p : PortId} {nak : Bool} {credit : Nat × Nat} (hp : Parts [.regs, .net, .elog, .outbox] ps) (h₀ : Moves ps es s₀ s) :
    Moves ps es s₀ (State.sendIdle s p nak credit) := by
  unfold State.sendIdle
  exact (State.sendRaw_moves hp h₀)

theorem State.sendFlit_moves {s₀ s : State} {p : PortId} {ftype : Nat} {area : List Byte} (hp : Parts [.regs, .net, .elog, .outbox] ps) (h₀ : Moves ps es s₀ s) :
    Moves ps es s₀ (State.sendFlit s p ftype area) := by
  unfold State.sendFlit
  exact (State.sendRaw_moves hp (moves_ite (State.sendIdle_moves hp h₀) h₀))

theorem State.sendPkt_moves {s₀ s : State} {p : PortId} {k : Pkt} (hp : Parts [.regs, .net, .elog, .outbox] ps) (h₀ : Moves ps es s₀ s) :
    Moves ps es s₀ (State.sendPkt s p k) := by
  unfold State.sendPkt
  exact (State.sendFlit_moves hp (State.setPort_moves (hp.s rfl) h₀))

theorem State.drainPort_moves {s₀ s : State} {p : PortId} {held : List (Fin 10)} {l : List OutPkt} (hp : Parts [.regs, .net, .elog, .outbox] ps) (h₀ : Moves ps es s₀ s) :
    Moves ps es s₀ (s.drainPort p held l) := by
  induction l generalizing s held with
  | nil => exact h₀
  | cons q l ih =>
    unfold State.drainPort
    split
    · exact ih (State.sendPkt_moves hp h₀)
    · exact ih (State.setPort_moves (hp.s rfl) h₀)

theorem State.flushPort_moves {s₀ s : State} {p : PortId} (hp : Parts [.regs, .net, .elog, .outbox] ps) (h₀ : Moves ps es s₀ s) :
    Moves ps es s₀ (State.flushPort s p) := by
  unfold State.flushPort
  exact (State.drainPort_moves hp (State.setPort_moves (hp.s rfl) h₀))

theorem State.enqueue_moves {s₀ s : State} {inp : Option PortId} {orig : Pkt} {p : PortId} {k : Pkt} (hp : Parts [.regs, .net, .elog, .outbox] ps) (h₀ : Moves ps es s₀ s) :
    Moves ps es s₀ (State.enqueue s inp orig p k) := by
  unfold State.enqueue
  exact (State.flushPort_moves hp (State.setPort_moves (hp.s rfl) (moves_ite (Moves.litE rfl h₀ (.refl _) (.refl _) (.refl _) (.refl _) (.refl _) (.refl _) (.refl _) (.refl _) (fun _ h => h) (List.prefix_refl _) (Nat.le_refl _) (fun p hn => by cases p <;> first | exact absurd (hp.m rfl) hn | (simp only [Part.Same]; done) | exact rfl)) h₀)))

theorem State.finishAccess_moves {s₀ s : State} {o : OutReq} {c : Code} {detail : Nat} {data : List Byte} (hp : Parts [.regs, .mesh, .outbox] ps) (h₀ : Moves ps es s₀ s) :
    Moves ps es s₀ (State.finishAccess s o c detail data) := by
  unfold State.finishAccess
  exact (by (try dsimp only); split; exact (Moves.litE rfl h₀ (.refl _) (.refl _) (.refl _) (.refl _) (.refl _) (.refl _) (.refl _) (.refl _) (fun _ h => h) (List.prefix_refl _) (Nat.le_refl _) (fun p hn => by cases p <;> first | exact absurd (hp.m rfl) hn | (simp only [Part.Same]; done) | exact rfl)); exact (State.complete_moves (hp.s rfl) h₀))

theorem State.closeAccess_moves {s₀ s : State} {access : Nat} (hp : Parts [.regs, .mesh, .net, .outbox] ps) (h₀ : Moves ps es s₀ s) :
    Moves ps es s₀ (State.closeAccess s access) := by
  unfold State.closeAccess
  exact (by (try dsimp only); split; exact h₀; exact (moves_ite (State.finishAccess_moves (hp.s rfl) (Moves.litE rfl h₀ (.refl _) (.refl _) (.refl _) (.refl _) (.refl _) (.refl _) (.refl _) (.refl _) (fun _ h => h) (List.prefix_refl _) (Nat.le_refl _) (fun p hn => by cases p <;> first | exact absurd (hp.m rfl) hn | (simp only [Part.Same]; done) | exact rfl))) h₀))

theorem State.pieceDone_moves {s₀ s : State} {o : OutReq} {c : Code} {detail : Nat} {data : List Byte} (hp : Parts [.regs, .mesh, .net, .outbox] ps) (h₀ : Moves ps es s₀ s) :
    Moves ps es s₀ (State.pieceDone s o c detail data) := by
  unfold State.pieceDone
  exact (State.closeAccess_moves hp (Moves.litE rfl h₀ (.refl _) (.refl _) (.refl _) (.refl _) (.refl _) (.refl _) (.refl _) (.refl _) (fun _ h => h) (List.prefix_refl _) (Nat.le_refl _) (fun p hn => by cases p <;> first | exact absurd (hp.m rfl) hn | (simp only [Part.Same]; done) | exact rfl)))

theorem State.dropPkt_moves {s₀ s : State} (hp : Parts [.net] ps) (h₀ : Moves ps es s₀ s) :
    Moves ps es s₀ (State.dropPkt s) := by
  unfold State.dropPkt
  exact (Moves.litE rfl h₀ (.refl _) (.refl _) (.refl _) (.refl _) (.refl _) (.refl _) (.refl _) (.refl _) (fun _ h => h) (List.prefix_refl _) (Nat.le_refl _) (fun p hn => by cases p <;> first | exact absurd (hp.m rfl) hn | (simp only [Part.Same]; done) | exact rfl))

theorem State.noWay_moves {s₀ s : State} {inp : Option PortId} {k : Pkt} (hp : Parts [.regs, .mesh, .net, .elog, .outbox] ps) (h₀ : Moves ps es s₀ s) :
    Moves ps es s₀ (State.noWay s inp k) := by
  unfold State.noWay
  exact (moves_ite (by (try dsimp only); split; exact (by (try dsimp only); split; exact (State.pieceDone_moves (hp.s rfl) h₀); exact (State.dropPkt_moves (hp.s rfl) h₀)); exact (by (try dsimp only); split; exact (State.enqueue_moves (hp.s rfl) h₀); exact (State.dropPkt_moves (hp.s rfl) h₀))) (State.dropPkt_moves (hp.s rfl) h₀))

theorem State.sendOut_moves {s₀ s : State} {inp : Option PortId} {k : Pkt} (hp : Parts [.regs, .mesh, .net, .elog, .outbox] ps) (h₀ : Moves ps es s₀ s) :
    Moves ps es s₀ (State.sendOut s inp k) := by
  unfold State.sendOut
  exact (by (try dsimp only); split; exact (State.enqueue_moves (hp.s rfl) h₀); exact (moves_ite (State.noWay_moves hp h₀) (State.emit_moves (hp.s rfl) h₀)); exact (State.noWay_moves hp h₀))

theorem State.sendFlg_moves {s₀ s : State} {dst f op tag : Nat} (hp : Parts [.regs, .mesh, .net, .elog, .outbox] ps) (h₀ : Moves ps es s₀ s) :
    Moves ps es s₀ (State.sendFlg s dst f op tag) := by
  unfold State.sendFlg
  exact (State.sendOut_moves hp h₀)

theorem State.sendMsg_moves {s₀ s : State} {ptype dst aux : Nat} (hp : Parts [.regs, .mesh, .net, .elog, .outbox] ps) (h₀ : Moves ps es s₀ s) :
    Moves ps es s₀ (State.sendMsg s ptype dst aux) := by
  unfold State.sendMsg
  exact (State.sendOut_moves hp h₀)

theorem State.sendBar_moves {s₀ s : State} {dst b op gen : Nat} (hp : Parts [.regs, .mesh, .net, .elog, .outbox] ps) (h₀ : Moves ps es s₀ s) :
    Moves ps es s₀ (State.sendBar s dst b op gen) := by
  unfold State.sendBar
  exact (State.sendMsg_moves hp h₀)

theorem State.sendCtl_moves {s₀ s : State} {p : PortId} {m : LinkCtl} (hp : Parts [.regs, .net, .elog, .outbox] ps) (h₀ : Moves ps es s₀ s) :
    Moves ps es s₀ (State.sendCtl s p m) := by
  unfold State.sendCtl
  exact (State.sendFlit_moves hp h₀)

theorem State.failOuts_moves {s₀ s : State} {p : OutReq → Bool} (hp : Parts [.regs, .mesh, .net, .outbox] ps) (h₀ : Moves ps es s₀ s) :
    Moves ps es s₀ (State.failOuts s p) := by
  unfold State.failOuts
  exact (Moves.foldl _ h₀ fun _ _ h1 => (State.pieceDone_moves hp h1))

theorem State.tagPieces_moves {s₀ s : State} {o : OutReq} {l : List (Nat × Nat)} (hp : Parts [.net] ps) (h₀ : Moves ps es s₀ s) :
    Moves ps es s₀ (s.tagPieces o l).1 := by
  induction l generalizing s with
  | nil => exact h₀
  | cons q l ih =>
    unfold State.tagPieces
    exact ih (Moves.litE rfl h₀ (.refl _) (.refl _) (.refl _) (.refl _) (.refl _) (.refl _) (.refl _) (.refl _) (fun _ h => h) (List.prefix_refl _) (Nat.le_refl _) (fun p hn => by cases p <;> first | exact absurd (hp.m rfl) hn | (simp only [Part.Same]; done) | exact rfl))

theorem State.sendPiece_moves {s₀ s : State} {a : Nat} {op : MemOp} {epoch : Option Epoch} {q : Nat × Nat × Nat} (hp : Parts [.regs, .mesh, .net, .elog, .outbox] ps) (h₀ : Moves ps es s₀ s) :
    Moves ps es s₀ (State.sendPiece s a op epoch q) := by
  unfold State.sendPiece
  exact (State.sendOut_moves hp h₀)

theorem State.originate_moves {s₀ s : State} {r : MemReq} {via : Option (SquareId × Fin 2)} (hp : Parts [.regs, .mesh, .net, .elog, .outbox] ps) (h₀ : Moves ps es s₀ s) :
    Moves ps es s₀ (State.originate s r via) := by
  unfold State.originate
  exact (by (try dsimp only); split; exact (State.finishAccess_moves (hp.s rfl) (Moves.litE rfl h₀ (.refl _) (.refl _) (.refl _) (.refl _) (.refl _) (.refl _) (.refl _) (.refl _) (fun _ h => h) (List.prefix_refl _) (Nat.le_refl _) (fun p hn => by cases p <;> first | exact absurd (hp.m rfl) hn | (simp only [Part.Same]; done) | exact rfl))); exact (Moves.foldl _ (State.tagPieces_moves (hp.s rfl) (Moves.litE rfl h₀ (.refl _) (.refl _) (.refl _) (.refl _) (.refl _) (.refl _) (.refl _) (.refl _) (fun _ h => h) (List.prefix_refl _) (Nat.le_refl _) (fun p hn => by cases p <;> first | exact absurd (hp.m rfl) hn | (simp only [Part.Same]; done) | exact rfl))) fun _ _ h2 => (State.sendPiece_moves hp h2)))

theorem State.sendCpl_moves {s₀ s : State} {dst tag : Nat} {spur : Bool} {c : Code} {detail : Nat} {data : List Byte} (hp : Parts [.regs, .mesh, .net, .elog, .outbox] ps) (h₀ : Moves ps es s₀ s) :
    Moves ps es s₀ (State.sendCpl s dst tag spur c detail data) := by
  unfold State.sendCpl
  exact (State.sendOut_moves hp h₀)

theorem State.enterState_moves {s₀ s : State} {e : EngineId} {st : Nat} {signal : Bool} (hp : Parts [.regs, .hints, .outbox] ps) (h₀ : Moves ps es s₀ s) :
    Moves ps es s₀ (State.enterState s e st signal) := by
  unfold State.enterState
  exact (moves_then (moves_ite (State.emit_moves (hp.s rfl) (Moves.refl _)) (Moves.refl _)) (State.put_moves (hp.s rfl) (moves_ite (State.leaveRun_moves (hp.s rfl) h₀) h₀)))

theorem State.bauStatus_moves {s₀ s : State} {e : EngineId} (hp : Parts [.regs] ps) (h₀ : Moves ps es s₀ s) :
    Moves ps es s₀ (State.bauStatus s e) := by
  unfold State.bauStatus
  exact (State.put_moves hp (State.put_moves hp (State.put_moves hp (State.put_moves hp (State.put_moves hp h₀)))))

theorem State.setEngBcs_moves {s₀ s : State} {e : EngineId} {g : Engine} (hp : Parts [.regs, .engines] ps) (qe : es e) (h₀ : Moves ps es s₀ s) :
    Moves ps es s₀ (State.setEngBcs s e g) := by
  unfold State.setEngBcs
  exact (moves_ite (State.setEng_moves (hp.s rfl) qe h₀) (State.bauStatus_moves (hp.s rfl) (State.setEng_moves (hp.s rfl) qe h₀)))

theorem State.writeBack_moves {s₀ s : State} {l : Line} (hp : Parts [.regs, .marks] ps) (h₀ : Moves ps es s₀ s) :
    Moves ps es s₀ (State.writeBack s l) := by
  unfold State.writeBack
  exact (moves_then (moves_ite (State.count_moves (hp.s rfl) (Moves.refl _)) (Moves.refl _)) (Moves.foldl _ h₀ fun _ _ h1 => (moves_ite (State.setMark_moves (hp.s rfl) h1) (moves_ite (State.setMark_moves (hp.s rfl) h1) h1))))

theorem State.dropLines_moves {s₀ s : State} {k : SquareId} {p : Line → Bool} (hp : Parts [.regs, .marks, .squares] ps) (h₀ : Moves ps es s₀ s) :
    Moves ps es s₀ (State.dropLines s k p) := by
  unfold State.dropLines
  exact (State.put_moves (hp.s rfl) (State.setSq_moves (hp.s rfl) (Moves.foldl _ h₀ fun _ _ h1 => (State.writeBack_moves (hp.s rfl) h1))))

theorem State.allocate_moves {s₀ s : State} {k : SquareId} {sector : Nat} {c : LineClass} {dirty : Bool} (hp : Parts [.regs, .marks, .squares] ps) (h₀ : Moves ps es s₀ s) :
    Moves ps es s₀ (State.allocate s k sector c dirty) := by
  unfold State.allocate
  exact (by (try dsimp only); split; exact h₀; exact (State.setSq_moves (hp.s rfl) (by (try dsimp only); split; exact (State.dropLines_moves hp h₀); exact h₀)))

theorem State.useLine_moves {s₀ s : State} {k : SquareId} {sector : Nat} (hp : Parts [.squares] ps) (h₀ : Moves ps es s₀ s) :
    Moves ps es s₀ (State.useLine s k sector) := by
  unfold State.useLine
  exact (moves_ite (State.touch_moves hp h₀) h₀)

theorem State.writeAs_moves {s₀ s : State} {who : Requester} {a : Nat} {b : List Byte} (hp : Parts [.regs, .mem, .marks, .squares, .elog] ps) (h₀ : Moves ps es s₀ s) :
    Moves ps es s₀ (State.writeAs s who a b).1 := by
  unfold State.writeAs
  exact (by (try dsimp only); split; exact (by (try dsimp only); split; exact (fstMoves_ite (State.writeLocal_moves (hp.s rfl) (State.allocate_moves (hp.s rfl) h₀)) (fstMoves_then (State.writeLocal_moves (hp.s rfl) (moves_ite (Moves.refl _) (State.allocate_moves (hp.s rfl) (Moves.refl _)))) (State.noteWords_moves (hp.s rfl) h₀))); exact (State.writeLocal_moves (hp.s rfl) (State.useLine_moves (hp.s rfl) h₀))); exact (State.writeLocal_moves (hp.s rfl) h₀))

theorem State.writeSectors_moves {s₀ s : State} {who : Requester} {c : Code} {b : List Byte} {l : List (Nat × Nat)} (hp : Parts [.regs, .mem, .marks, .squares, .elog] ps) (h₀ : Moves ps es s₀ s) :
    Moves ps es s₀ (s.writeSectors who c b l).1 := by
  induction l generalizing s c b with
  | nil => exact h₀
  | cons x l ih => exact ih (State.writeAs_moves hp h₀)

theorem State.writeSpan_moves {s₀ s : State} {who : Requester} {a : Nat} {b : List Byte} (hp : Parts [.regs, .mem, .marks, .squares, .elog] ps) (h₀ : Moves ps es s₀ s) :
    Moves ps es s₀ (State.writeSpan s who a b).1 := by
  unfold State.writeSpan
  exact (State.writeSectors_moves hp h₀)

theorem State.toLanding_moves {s₀ s : State} {e : EngineId} {r : MemReq} {fill : Bool} (hp : Parts [.landq] ps) (h₀ : Moves ps es s₀ s) :
    Moves ps es s₀ (State.toLanding s e r fill) := by
  unfold State.toLanding
  exact (Moves.litE rfl h₀ (.refl _) (.refl _) (.refl _) (.refl _) (.refl _) (.refl _) (.refl _) (.refl _) (fun _ h => h) (List.prefix_refl _) (Nat.le_refl _) (fun p hn => by cases p <;> first | exact absurd (hp.m rfl) hn | (simp only [Part.Same]; done) | exact rfl))

theorem State.uncached_moves {s₀ s : State} {e : EngineId} {r : MemReq} (hp : Parts [.regs, .landq, .mesh, .outbox] ps) (h₀ : Moves ps es s₀ s) :
    Moves ps es s₀ (State.uncached s e r) := by
  unfold State.uncached
  exact (moves_ite (State.toLanding_moves (hp.s rfl) h₀) (State.answer_moves (hp.s rfl) h₀))

theorem State.cleanLine_moves {s₀ s : State} {k : SquareId} {l : Line} (hp : Parts [.regs, .marks, .squares] ps) (h₀ : Moves ps es s₀ s) :
    Moves ps es s₀ (State.cleanLine s k l) := by
  unfold State.cleanLine
  exact (State.setSq_moves (hp.s rfl) (State.writeBack_moves (hp.s rfl) h₀))

theorem State.writeSqFlush_moves {s₀ s : State} {k : SquareId} {v : Nat} (hp : Parts [.regs, .squares] ps) (h₀ : Moves ps es s₀ s) :
    Moves ps es s₀ (State.writeSqFlush s k v) := by
  unfold State.writeSqFlush
  exact (moves_then (moves_ite (State.put_moves (hp.s rfl) (State.setSq_moves (hp.s rfl) (Moves.refl _))) (Moves.refl _)) (State.put_moves (hp.s rfl) h₀))

theorem State.poisonLine_moves {s₀ s : State} {k : SquareId} {l : Line} (hp : Parts [.regs, .squares, .elog] ps) (h₀ : Moves ps es s₀ s) :
    Moves ps es s₀ (State.poisonLine s k l) := by
  unfold State.poisonLine
  exact (moves_ite h₀ (moves_then (State.log_moves (hp.s rfl) (moves_ite (Moves.refl _) (State.setReg_moves (hp.s rfl) (Moves.refl _)))) (State.put_moves (hp.s rfl) (State.count_moves (hp.s rfl) (State.setSq_moves (hp.s rfl) h₀)))))

theorem State.refetch_moves {s₀ s : State} {k : SquareId} {e : EngineId} {sector : Nat} (hp : Parts [.regs, .marks, .squares, .elog] ps) (h₀ : Moves ps es s₀ s) :
    Moves ps es s₀ (State.refetch s k e sector) := by
  unfold State.refetch
  exact (moves_then (moves_ite (State.dropLines_moves (hp.s rfl) (Moves.refl _)) (Moves.refl _)) (State.noteWords_moves (hp.s rfl) (State.count_moves (hp.s rfl) h₀)))

theorem State.squareDram_moves {s₀ s : State} {k : SquareId} {e : EngineId} {r : MemReq} {bad : List (Fin 64)} (hp : Parts [.regs, .mem, .marks, .landq, .squares, .mesh, .elog, .outbox] ps) (h₀ : Moves ps es s₀ s) :
    Moves ps es s₀ (State.squareDram s k e r bad) := by
  unfold State.squareDram
  exact (by (try dsimp only); split; exact (moves_ite (State.serve_moves (hp.s rfl) (State.touch_moves (hp.s rfl) h₀)) (moves_ite (State.serve_moves (hp.s rfl) (State.touch_moves (hp.s rfl) (State.poisonLine_moves (hp.s rfl) h₀))) (moves_then (moves_ite (State.uncached_moves (hp.s rfl) (Moves.refl _)) (State.serve_moves (hp.s rfl) (State.touch_moves (hp.s rfl) (Moves.refl _)))) (State.refetch_moves (hp.s rfl) h₀)))); exact (by (try dsimp only); split; exact (State.toLanding_moves (hp.s rfl) h₀); exact (moves_ite (State.serve_moves (hp.s rfl) (State.allocate_moves (hp.s rfl) h₀)) (State.toLanding_moves (hp.s rfl) (State.setSq_moves (hp.s rfl) h₀)))))

theorem State.writeSqCtl_moves {s₀ s : State} {k : SquareId} {v : Nat} (hp : Parts [.regs, .squares] ps) (h₀ : Moves ps es s₀ s) :
    Moves ps es s₀ (State.writeSqCtl s k v) := by
  unfold State.writeSqCtl
  exact (moves_then (moves_ite (Moves.refl _) (moves_ite (State.put_moves (hp.s rfl) (Moves.refl _)) (State.put_moves (hp.s rfl) (State.put_moves (hp.s rfl) (State.setSq_moves (hp.s rfl) (Moves.refl _)))))) (State.put_moves (hp.s rfl) h₀))

theorem execSqCtlWrite_moves {s₀ : State} {k : SquareId} {v : Word} {s : State} (hp : Parts [.regs, .squares] ps) (h₀ : Moves ps es s₀ s) :
    OutMoves ps es s₀ (execSqCtlWrite k v s) := by
  unfold execSqCtlWrite
  exact (outMoves_next (State.writeSqCtl_moves hp h₀))

theorem State.windowParity_moves {s₀ s : State} {k : SquareId} {sector : Nat} {bad : List (Fin 64)} (hp : Parts [.squares] ps) (h₀ : Moves ps es s₀ s) :
    Moves ps es s₀ (State.windowParity s k sector bad) := by
  unfold State.windowParity
  exact (moves_ite h₀ (State.setSq_moves hp h₀))

theorem execSquareRequest_moves {s₀ : State} {k : SquareId} {req : MemReq} {bad : List (Fin 64)} {s : State} (hp : Parts [.regs, .mem, .marks, .landq, .squares, .mesh, .elog, .outbox] ps) (h₀ : Moves ps es s₀ s) :
    OutMoves ps es s₀ (execSquareRequest k req bad s) := by
  unfold execSquareRequest
  exact (need_moves _ _ (by (try dsimp only); split; exact (need_moves _ _ (need_moves _ _ (need_moves _ _ (outMoves_ite (outMoves_next (State.answer_moves (hp.s rfl) h₀)) (outMoves_next (State.serve_moves (hp.s rfl) (State.windowParity_moves (hp.s rfl) h₀))))))); exact (need_moves _ _ (need_moves _ _ (need_moves _ _ (need_moves _ _ (outMoves_ite (outMoves_next (State.answer_moves (hp.s rfl) h₀)) (outMoves_next (State.squareDram_moves hp h₀))))))); exact (outMoves_refused _ _)))

theorem execSqFlushGo_moves {s₀ : State} {k : SquareId} {v : Word} {s : State} (hp : Parts [.regs, .squares] ps) (h₀ : Moves ps es s₀ s) :
    OutMoves ps es s₀ (execSqFlushGo k v s) := by
  unfold execSqFlushGo
  exact (outMoves_next (State.writeSqFlush_moves hp h₀))

theorem execSqFlushDone_moves {s₀ : State} {k : SquareId} {s : State} (hp : Parts [.regs, .marks, .squares] ps) (h₀ : Moves ps es s₀ s) :
    OutMoves ps es s₀ (execSqFlushDone k s) := by
  unfold execSqFlushDone
  exact (need_moves _ _ (outMoves_next (State.put_moves (hp.s rfl) (State.setSq_moves (hp.s rfl) (moves_ite (State.dropLines_moves hp h₀) (Moves.foldl _ h₀ fun _ _ h1 => (State.cleanLine_moves hp h1)))))))

theorem State.noteAs_moves {s₀ s : State} {who : Requester} {a n : Nat} (hp : Parts [.regs, .marks, .squares, .elog] ps) (h₀ : Moves ps es s₀ s) :
    Moves ps es s₀ (State.noteAs s who a n) := by
  unfold State.noteAs
  exact (by (try dsimp only); split; exact (by (try dsimp only); split; exact (moves_then (moves_ite (Moves.refl _) (State.allocate_moves (hp.s rfl) (Moves.refl _))) (State.noteWords_moves (hp.s rfl) h₀)); exact (State.noteRead_moves (hp.s rfl) (State.useLine_moves (hp.s rfl) h₀))); exact (State.noteRead_moves (hp.s rfl) h₀))

theorem State.noteSpan_moves {s₀ s : State} {who : Requester} {a n : Nat} (hp : Parts [.regs, .marks, .squares, .elog] ps) (h₀ : Moves ps es s₀ s) :
    Moves ps es s₀ (State.noteSpan s who a n) := by
  unfold State.noteSpan
  exact (Moves.foldl _ h₀ fun _ _ h1 => (State.noteAs_moves hp h1))

theorem execSqRefetchRead_moves {s₀ : State} {k : SquareId} {s : State} (hp : Parts [.regs] ps) (h₀ : Moves ps es s₀ s) :
    OutMoves ps es s₀ (execSqRefetchRead k s) := by
  unfold execSqRefetchRead
  exact (outMoves_next (State.swRead_moves hp h₀))

theorem State.zeroWindow_moves {s₀ s : State} {k : SquareId} (hp : Parts [.mem] ps) (h₀ : Moves ps es s₀ s) :
    Moves ps es s₀ (State.zeroWindow s k) := by
  unfold State.zeroWindow
  exact (Moves.litE rfl h₀ (.refl _) (Edits.filter (.refl _) _) (.refl _) (.refl _) (.refl _) (.refl _) (.refl _) (.refl _) (fun _ h => h) (List.prefix_refl _) (Nat.le_refl _) (fun p hn => by cases p <;> first | exact absurd (hp.m rfl) hn | (simp only [Part.Same]; done) | exact rfl))

theorem execSqPoisonRead_moves {s₀ : State} {k : SquareId} {s : State} (hp : Parts [.regs] ps) (h₀ : Moves ps es s₀ s) :
    OutMoves ps es s₀ (execSqPoisonRead k s) := by
  unfold execSqPoisonRead
  exact (outMoves_next (State.swRead_moves hp h₀))

theorem execPlazaFillDone_moves {s₀ : State} {k : SquareId} {failed : Bool} {s : State} (hp : Parts [.regs, .mem, .banks, .marks, .landq, .squares, .mesh, .elog, .outbox] ps) (h₀ : Moves ps es s₀ s) :
    OutMoves ps es s₀ (execPlazaFillDone k failed s) := by
  unfold execPlazaFillDone
  exact (needSome_moves _ _ fun _ _ => (needSome_moves _ _ fun _ _ => (needSome_moves _ _ fun _ _ => (need_moves _ _ (need_moves _ _ (outMoves_then (outMoves_then (outMoves_ite (outMoves_next (State.uncached_moves (hp.s rfl) (Moves.refl _))) (outMoves_ite (outMoves_next (State.serve_moves (hp.s rfl) (State.allocate_moves (hp.s rfl) (Moves.refl _)))) (outMoves_next (State.toLanding_moves (hp.s rfl) (Moves.refl _))))) (moves_ite (Moves.refl _) (State.noteWords_moves (hp.s rfl) (Moves.refl _)))) (State.setSq_moves (hp.s rfl) (State.takeAccess_moves (hp.s rfl) h₀))))))))

theorem execWindowChangeDone_moves {s₀ : State} {k : SquareId} {s : State} (hp : Parts [.regs, .mem, .marks, .squares] ps) (h₀ : Moves ps es s₀ s) :
    OutMoves ps es s₀ (execWindowChangeDone k s) := by
  unfold execWindowChangeDone
  exact (need_moves _ _ (outMoves_next (State.put_moves (hp.s rfl) (State.setSq_moves (hp.s rfl) (State.zeroWindow_moves (hp.s rfl) (State.dropLines_moves (hp.s rfl) h₀))))))

theorem State.zeroCore_moves {s₀ s : State} {e : EngineId} (hp : Parts [.mem] ps) (h₀ : Moves ps es s₀ s) :
    Moves ps es s₀ (State.zeroCore s e) := by
  unfold State.zeroCore
  exact (Moves.litE rfl h₀ (.refl _) (Edits.filter (.refl _) _) (.refl _) (.refl _) (.refl _) (.refl _) (.refl _) (.refl _) (fun _ h => h) (List.prefix_refl _) (Nat.le_refl _) (fun p hn => by cases p <;> first | exact absurd (hp.m rfl) hn | (simp only [Part.Same]; done) | exact rfl))

theorem State.loseLines_moves {s₀ s : State} {k : SquareId} (hp : Parts [.regs, .mem, .squares] ps) (h₀ : Moves ps es s₀ s) :
    Moves ps es s₀ (State.loseLines s k) := by
  unfold State.loseLines
  exact (State.put_moves (hp.s rfl) (State.setSq_moves (hp.s rfl) (Moves.foldl _ h₀ fun _ _ h1 => (State.setBytes_moves (hp.s rfl) h1))))

theorem State.loseRegion_moves {s₀ s : State} {r : RegionId} (hp : Parts [.regs, .mem, .engines, .squares] ps) (ha : ∀ q, es q) (h₀ : Moves ps es s₀ s) :
    Moves ps es s₀ (State.loseRegion s r) := by
  unfold State.loseRegion
  exact (by (try dsimp only); split; exact (State.zeroWindow_moves (hp.s rfl) (State.loseLines_moves (hp.s rfl) (by (try dsimp only); split; exact (State.zeroCore_moves (hp.s rfl) (State.modEng_moves (hp.s rfl) (ha _) h₀)); exact h₀))); exact (by (try dsimp only); split; exact (State.zeroCore_moves (hp.s rfl) (State.modEng_moves (hp.s rfl) (ha _) h₀)); exact h₀))

theorem State.pllOff_moves {s₀ s : State} {r : RegionId} (hp : Parts [.regs] ps) (h₀ : Moves ps es s₀ s) :
    Moves ps es s₀ (State.pllOff s r) := by
  unfold State.pllOff
  exact (moves_ite (State.put_moves hp h₀) h₀)

theorem State.setRegion_moves {s₀ s : State} {r : RegionId} {x : Region} (hp : Parts [.power] ps) (h₀ : Moves ps es s₀ s) :
    Moves ps es s₀ (State.setRegion s r x) := by
  unfold State.setRegion
  exact (Moves.litE rfl h₀ (.refl _) (.refl _) (.refl _) (.refl _) (.refl _) (.refl _) (.refl _) (.refl _) (fun _ h => h) (List.prefix_refl _) (Nat.le_refl _) (fun p hn => by cases p <;> first | exact absurd (hp.m rfl) hn | (simp only [Part.Same]; done) | exact rfl))

theorem State.skipOthers_moves {s₀ s : State} {r : RegionId} (hp : Parts [.power] ps) (h₀ : Moves ps es s₀ s) :
    Moves ps es s₀ (State.skipOthers s r) := by
  unfold State.skipOthers
  exact (Moves.foldl _ h₀ fun _ _ h1 => (State.setRegion_moves hp h1))

theorem State.closeGates_moves {s₀ s : State} {r : RegionId} {late : Bool} (hp : Parts [.power] ps) (h₀ : Moves ps es s₀ s) :
    Moves ps es s₀ (State.closeGates s r late) := by
  unfold State.closeGates
  exact (moves_then (moves_ite (State.skipOthers_moves hp (Moves.refl _)) (Moves.refl _)) (State.setRegion_moves hp h₀))

theorem State.startTurn_moves {s₀ s : State} {r : RegionId} (hp : Parts [.power] ps) (h₀ : Moves ps es s₀ s) :
    Moves ps es s₀ (State.startTurn s r) := by
  unfold State.startTurn
  exact (moves_ite (State.closeGates_moves hp h₀) (State.setRegion_moves hp h₀))

theorem State.nextTurn_moves {s₀ s : State} {r : RegionId} (hp : Parts [.power] ps) (h₀ : Moves ps es s₀ s) :
    Moves ps es s₀ (State.nextTurn s r) := by
  unfold State.nextTurn
  exact (by (try dsimp only); split; exact (State.startTurn_moves hp h₀); exact h₀)

theorem State.skipEnds_moves {s₀ s : State} {r : RegionId} (hp : Parts [.power] ps) (h₀ : Moves ps es s₀ s) :
    Moves ps es s₀ (State.skipEnds s r) := by
  unfold State.skipEnds
  exact (Moves.foldl _ h₀ fun _ _ h1 => (State.setRegion_moves hp h1))

theorem State.leaveTurn_moves {s₀ s : State} {r : RegionId} {phase : WakePhase} (hp : Parts [.power] ps) (h₀ : Moves ps es s₀ s) :
    Moves ps es s₀ (State.leaveTurn s r phase) := by
  unfold State.leaveTurn
  exact (moves_ite (State.nextTurn_moves hp (by (try dsimp only); split; exact (State.skipEnds_moves hp (State.setRegion_moves hp h₀)); exact (State.setRegion_moves hp h₀))) (State.setRegion_moves hp h₀))

theorem State.segmentFell_moves {s₀ s : State} {r : RegionId} (hp : Parts [.power] ps) (h₀ : Moves ps es s₀ s) :
    Moves ps es s₀ (State.segmentFell s r) := by
  unfold State.segmentFell
  exact (by (try dsimp only); split; exact (State.startTurn_moves hp h₀); exact h₀)

theorem State.windowEnds_moves {s₀ s : State} {r : RegionId} (hp : Parts [.regs, .power] ps) (h₀ : Moves ps es s₀ s) :
    Moves ps es s₀ (State.windowEnds s r) := by
  unfold State.windowEnds
  exact (moves_then (moves_ite (State.put_moves (hp.s rfl) (Moves.refl _)) (Moves.refl _)) (State.leaveTurn_moves (hp.s rfl) h₀))

theorem State.endTurn_moves {s₀ s : State} {r : RegionId} (hp : Parts [.regs, .power] ps) (h₀ : Moves ps es s₀ s) :
    Moves ps es s₀ (State.endTurn s r) := by
  unfold State.endTurn
  exact (State.put_moves (hp.s rfl) (State.leaveTurn_moves (hp.s rfl) h₀))

theorem State.windowsDue_moves {s₀ s : State} (hp : Parts [.regs, .power] ps) (h₀ : Moves ps es s₀ s) :
    Moves ps es s₀ (State.windowsDue s) := by
  unfold State.windowsDue
  exact (Moves.foldl _ h₀ fun _ _ h1 => (by (try dsimp only); split; exact (moves_ite (State.windowEnds_moves hp h1) h1); exact h1))

theorem State.sleep_moves {s₀ s : State} {r : RegionId} {target : Nat} (hp : Parts [.regs, .mem, .engines, .squares, .power] ps) (ha : ∀ q, es q) (h₀ : Moves ps es s₀ s) :
    Moves ps es s₀ (State.sleep s r target) := by
  unfold State.sleep
  exact (moves_then (State.segmentFell_moves (hp.s rfl) (moves_ite (State.loseRegion_moves (hp.s rfl) ha (Moves.refl _)) (Moves.refl _))) (State.pllOff_moves (hp.s rfl) (State.put_moves (hp.s rfl) h₀)))

theorem State.wake_moves {s₀ s : State} {r : RegionId} (hp : Parts [.regs, .power] ps) (h₀ : Moves ps es s₀ s) :
    Moves ps es s₀ (State.wake s r) := by
  unfold State.wake
  exact (moves_ite (moves_then (moves_ite (State.setRegion_moves (hp.s rfl) (Moves.refl _)) (State.startTurn_moves (hp.s rfl) (Moves.refl _))) (State.put_moves (hp.s rfl) h₀)) h₀)

end Sys2Proof.Machine
end

