-- ==== Sys2Proof/Laws/MovesEngine.lean ====
section
/-! SUPPORT. What the operations of Checks, Sequencer, Control, Streams, Compute, Moves, RingRoad, Roundabout, EngCtl, Epochs, BauOps, Bau, Scrub can do: each is a move. -/
namespace Sys2Proof.Machine
variable {ps : List Part} {es : EngineId → Prop}

theorem execInstructionComplete_moves {s₀ : State} {e : EngineId} {id : Nat} {s : State} (hp : Parts [.engines] ps) (qe : es e) (h₀ : Moves ps es s₀ s) :
    OutMoves ps es s₀ (execInstructionComplete e id s) := by
  unfold execInstructionComplete
  exact (needSome_moves _ _ fun _ _ => (need_moves _ _ (need_moves _ _ (need_moves _ _ (outMoves_next (State.setEng_moves hp qe h₀))))))

theorem execInstructionRetire_moves {s₀ : State} {e : EngineId} {s : State} (hp : Parts [.regs, .engines] ps) (qe : es e) (h₀ : Moves ps es s₀ s) :
    OutMoves ps es s₀ (execInstructionRetire e s) := by
  unfold execInstructionRetire
  exact (needSome_moves _ _ fun _ _ => (need_moves _ _ (outMoves_then (outMoves_next (moves_ite (State.put_moves (hp.s rfl) (Moves.refl _)) (Moves.refl _))) (State.setEngBcs_moves hp qe h₀))))

theorem State.fault_moves {s₀ s : State} {e : EngineId} {w : Nat} (hp : Parts [.regs, .hints, .elog, .outbox] ps) (h₀ : Moves ps es s₀ s) :
    Moves ps es s₀ (State.fault s e w) := by
  unfold State.fault
  exact (State.log_moves (hp.s rfl) (State.enterState_moves (hp.s rfl) (State.put_moves (hp.s rfl) (State.setReg_moves (hp.s rfl) h₀))))

theorem State.setPc_moves {s₀ s : State} {e : EngineId} {n : Nat} (hp : Parts [.regs, .engines] ps) (qe : es e) (h₀ : Moves ps es s₀ s) :
    Moves ps es s₀ (State.setPc s e n) := by
  unfold State.setPc
  exact (State.modEng_moves (hp.s rfl) qe (State.put_moves (hp.s rfl) h₀))

theorem State.issueWord_moves {s₀ s : State} {e : EngineId} {w : IWord} (hp : Parts [.regs, .engines] ps) (qe : es e) (h₀ : Moves ps es s₀ s) :
    OutMoves ps es s₀ (State.issueWord s e w) := by
  unfold State.issueWord
  exact (need_moves _ _ (need_moves _ _ (need_moves _ _ (need_moves _ _ (outMoves_ite (outMoves_next (State.setPc_moves hp qe (State.modEng_moves (hp.s rfl) qe h₀))) (need_moves _ _ (outMoves_ite (need_moves _ _ (outMoves_ite (outMoves_next (State.setPc_moves hp qe (State.modEng_moves (hp.s rfl) qe h₀))) (outMoves_ite (outMoves_next (State.setPc_moves hp qe (State.modEng_moves (hp.s rfl) qe h₀))) (outMoves_next (State.setPc_moves hp qe (State.modEng_moves (hp.s rfl) qe h₀)))))) (outMoves_next (State.setPc_moves hp qe (State.modEng_moves (hp.s rfl) qe h₀))))))))))

theorem execInstructionIssue_moves {s₀ : State} {e : EngineId} {parity : Bool} {s : State} (hp : Parts [.regs, .engines] ps) (qe : es e) (h₀ : Moves ps es s₀ s) :
    OutMoves ps es s₀ (execInstructionIssue e parity s) := by
  unfold execInstructionIssue
  exact (need_moves _ _ (outMoves_ite (outMoves_next (State.modEng_moves (hp.s rfl) qe h₀)) (need_moves _ _ (outMoves_ite (outMoves_next (State.modEng_moves (hp.s rfl) qe h₀)) (State.issueWord_moves hp qe h₀)))))

theorem State.setEntry_moves {s₀ s : State} {e : EngineId} {x : Entry} (hp : Parts [.engines] ps) (qe : es e) (h₀ : Moves ps es s₀ s) :
    Moves ps es s₀ (State.setEntry s e x) := by
  unfold State.setEntry
  exact (State.modEng_moves hp qe h₀)

theorem execEnterFaulted_moves {s₀ : State} {e : EngineId} {s : State} (hp : Parts [.regs, .engines, .hints, .elog, .outbox] ps) (qe : es e) (h₀ : Moves ps es s₀ s) :
    OutMoves ps es s₀ (execEnterFaulted e s) := by
  unfold execEnterFaulted
  exact (needSome_moves _ _ fun _ _ => (need_moves _ _ (outMoves_next (State.fault_moves (hp.s rfl) (State.setEng_moves (hp.s rfl) qe h₀)))))

theorem State.seqOp_moves {s₀ s : State} {e : EngineId} {op : Nat} {k : Entry → Out} (_hp : Parts [] ps) (_h₀ : Moves ps es s₀ s) (hk : ∀ (a0 : Entry), OutMoves ps es s₀ (k a0)) :
    OutMoves ps es s₀ (State.seqOp s e op k) := by
  unfold State.seqOp
  exact (needSome_moves _ _ fun _ _ => (need_moves _ _ (hk _)))

theorem State.setS_moves {s₀ s : State} {e : EngineId} {i : Nat} {v : Word} (hp : Parts [.engines] ps) (qe : es e) (h₀ : Moves ps es s₀ s) :
    Moves ps es s₀ (State.setS s e i v) := by
  unfold State.setS
  exact (State.modEng_moves hp qe h₀)

theorem State.seqDone_moves {s₀ s : State} {e : EngineId} {x : Entry} {c : Code} (hp : Parts [.engines] ps) (qe : es e) (h₀ : Moves ps es s₀ s) :
    Moves ps es s₀ (State.seqDone s e x c) := by
  unfold State.seqDone
  exact (State.setEntry_moves hp qe h₀)

theorem execCtlAlu_moves {s₀ : State} {e : EngineId} {s : State} (hp : Parts [.engines] ps) (qe : es e) (h₀ : Moves ps es s₀ s) :
    OutMoves ps es s₀ (execCtlAlu e s) := by
  unfold execCtlAlu
  exact (State.seqOp_moves (hp.s rfl) h₀ (fun _ => (outMoves_next (State.setS_moves hp qe (State.seqDone_moves hp qe h₀)))))

theorem execCtlNop_moves {s₀ : State} {e : EngineId} {s : State} (hp : Parts [.engines] ps) (qe : es e) (h₀ : Moves ps es s₀ s) :
    OutMoves ps es s₀ (execCtlNop e s) := by
  unfold execCtlNop
  exact (State.seqOp_moves (hp.s rfl) h₀ (fun _ => (outMoves_next (State.seqDone_moves hp qe h₀))))

theorem execCtlTadv_moves {s₀ : State} {e : EngineId} {s : State} (hp : Parts [.engines] ps) (qe : es e) (h₀ : Moves ps es s₀ s) :
    OutMoves ps es s₀ (execCtlTadv e s) := by
  unfold execCtlTadv
  exact (State.seqOp_moves (hp.s rfl) h₀ (fun _ => (outMoves_next (State.modEng_moves hp qe (State.seqDone_moves hp qe h₀)))))

theorem execCtlPhase_moves {s₀ : State} {e : EngineId} {s : State} (hp : Parts [.engines, .hints] ps) (qe : es e) (h₀ : Moves ps es s₀ s) :
    OutMoves ps es s₀ (execCtlPhase e s) := by
  unfold execCtlPhase
  exact (State.seqOp_moves (hp.s rfl) h₀ (fun _ => (outMoves_next (State.announce_moves (hp.s rfl) (State.seqDone_moves (hp.s rfl) qe h₀)))))

theorem execCfgSet_moves {s₀ : State} {e : EngineId} {s : State} (hp : Parts [.engines] ps) (qe : es e) (h₀ : Moves ps es s₀ s) :
    OutMoves ps es s₀ (execCfgSet e s) := by
  unfold execCfgSet
  exact (State.seqOp_moves (hp.s rfl) h₀ (fun _ => (need_moves _ _ (by (try dsimp only); split; exact (outMoves_next (State.modEng_moves hp qe (State.seqDone_moves hp qe h₀))); exact (outMoves_next (State.seqDone_moves hp qe h₀))))))

theorem execCtlBr_moves {s₀ : State} {e : EngineId} {s : State} (hp : Parts [.regs, .engines] ps) (qe : es e) (h₀ : Moves ps es s₀ s) :
    OutMoves ps es s₀ (execCtlBr e s) := by
  unfold execCtlBr
  exact (State.seqOp_moves (hp.s rfl) h₀ (fun _ => (outMoves_next (State.setPc_moves hp qe (State.seqDone_moves (hp.s rfl) qe h₀)))))

theorem execCtlEndl_moves {s₀ : State} {e : EngineId} {s : State} (hp : Parts [.regs, .engines] ps) (qe : es e) (h₀ : Moves ps es s₀ s) :
    OutMoves ps es s₀ (execCtlEndl e s) := by
  unfold execCtlEndl
  exact (State.seqOp_moves (hp.s rfl) h₀ (fun _ => (outMoves_ite (outMoves_next (State.setPc_moves hp qe (State.modEng_moves (hp.s rfl) qe (State.seqDone_moves (hp.s rfl) qe h₀)))) (outMoves_next (State.seqDone_moves (hp.s rfl) qe h₀)))))

theorem execCtlYield_moves {s₀ : State} {e : EngineId} {s : State} (hp : Parts [.engines] ps) (qe : es e) (h₀ : Moves ps es s₀ s) :
    OutMoves ps es s₀ (execCtlYield e s) := by
  unfold execCtlYield
  exact (State.seqOp_moves (hp.s rfl) h₀ (fun _ => (outMoves_ite (outMoves_next (State.setEntry_moves hp qe h₀)) (outMoves_next (State.setEntry_moves hp qe h₀)))))

theorem execCtlLoop_moves {s₀ : State} {e : EngineId} {s : State} (hp : Parts [.regs, .engines] ps) (qe : es e) (h₀ : Moves ps es s₀ s) :
    OutMoves ps es s₀ (execCtlLoop e s) := by
  unfold execCtlLoop
  exact (State.seqOp_moves (hp.s rfl) h₀ (fun _ => (by (try dsimp only); split; exact (outMoves_next (State.setPc_moves hp qe (State.seqDone_moves (hp.s rfl) qe h₀))); exact (outMoves_next (State.setPc_moves hp qe (State.seqDone_moves (hp.s rfl) qe h₀))); exact (outMoves_next (State.setPc_moves hp qe (State.modEng_moves (hp.s rfl) qe (State.seqDone_moves (hp.s rfl) qe h₀)))))))

theorem execCfgGet_moves {s₀ : State} {e : EngineId} {s : State} (hp : Parts [.engines] ps) (qe : es e) (h₀ : Moves ps es s₀ s) :
    OutMoves ps es s₀ (execCfgGet e s) := by
  unfold execCfgGet
  exact (State.seqOp_moves (hp.s rfl) h₀ (fun _ => (outMoves_next (State.setS_moves hp qe (State.seqDone_moves hp qe h₀)))))

theorem execCtlTset_moves {s₀ : State} {e : EngineId} {s : State} (hp : Parts [.engines] ps) (qe : es e) (h₀ : Moves ps es s₀ s) :
    OutMoves ps es s₀ (execCtlTset e s) := by
  unfold execCtlTset
  exact (State.seqOp_moves (hp.s rfl) h₀ (fun _ => (outMoves_next (State.modEng_moves hp qe (State.seqDone_moves hp qe h₀)))))

theorem execCtlCmp_moves {s₀ : State} {e : EngineId} {s : State} (hp : Parts [.engines] ps) (qe : es e) (h₀ : Moves ps es s₀ s) :
    OutMoves ps es s₀ (execCtlCmp e s) := by
  unfold execCtlCmp
  exact (State.seqOp_moves (hp.s rfl) h₀ (fun _ => (outMoves_next (State.modEng_moves hp qe (State.seqDone_moves hp qe h₀)))))

theorem execCtlHalt_moves {s₀ : State} {e : EngineId} {s : State} (hp : Parts [.regs, .engines, .hints, .outbox] ps) (qe : es e) (h₀ : Moves ps es s₀ s) :
    OutMoves ps es s₀ (execCtlHalt e s) := by
  unfold execCtlHalt
  exact (State.seqOp_moves (hp.s rfl) h₀ (fun _ => (need_moves _ _ (by (try dsimp only); split; exact (outMoves_next (State.enterState_moves (hp.s rfl) (State.put_moves (hp.s rfl) (State.setEng_moves (hp.s rfl) qe h₀)))); exact (outMoves_next (State.setEng_moves (hp.s rfl) qe h₀))))))

theorem execCtlSets_moves {s₀ : State} {e : EngineId} {s : State} (hp : Parts [.engines] ps) (qe : es e) (h₀ : Moves ps es s₀ s) :
    OutMoves ps es s₀ (execCtlSets e s) := by
  unfold execCtlSets
  exact (State.seqOp_moves (hp.s rfl) h₀ (fun _ => (outMoves_next (State.setS_moves hp qe (State.seqDone_moves hp qe h₀)))))

theorem State.noteReads_moves {s₀ s : State} {e : EngineId} {reads : List (Nat × Nat)} (hp : Parts [.regs, .marks, .squares, .elog] ps) (h₀ : Moves ps es s₀ s) :
    Moves ps es s₀ (State.noteReads s e reads) := by
  unfold State.noteReads
  exact (Moves.foldl _ h₀ fun _ _ h1 => (moves_ite (State.noteSpan_moves hp h1) h1))

theorem State.arrayFails_moves {s₀ s : State} {e : EngineId} {x : Entry} (hp : Parts [.engines] ps) (qe : es e) (h₀ : Moves ps es s₀ s) :
    Moves ps es s₀ (State.arrayFails s e x) := by
  unfold State.arrayFails
  exact (moves_ite (State.modEng_moves hp qe h₀) h₀)

theorem State.deliverList_moves {s₀ s : State} {e : EngineId} {x : Entry} (hp : Parts [.regs, .engines, .marks, .squares, .elog] ps) (qe : es e) (h₀ : Moves ps es s₀ s) :
    Moves ps es s₀ (State.deliverList s e x) := by
  unfold State.deliverList
  exact (by (try dsimp only); split; exact (moves_ite (State.setEntry_moves (hp.s rfl) qe (State.noteReads_moves (hp.s rfl) h₀)) (State.arrayFails_moves (hp.s rfl) qe (State.setEntry_moves (hp.s rfl) qe (State.noteReads_moves (hp.s rfl) h₀)))); exact (State.arrayFails_moves (hp.s rfl) qe (State.setEntry_moves (hp.s rfl) qe (State.noteReads_moves (hp.s rfl) h₀))))

theorem State.deliver_moves {s₀ s : State} {e : EngineId} {x : Entry} {i : Nat} {r : Reply} (hp : Parts [.regs, .engines, .marks, .squares, .elog] ps) (qe : es e) (h₀ : Moves ps es s₀ s) :
    Moves ps es s₀ (State.deliver s e x i r) := by
  unfold State.deliver
  exact (by (try dsimp only); split; exact (State.setEntry_moves (hp.s rfl) qe h₀); exact (by (try dsimp only); split; exact (State.modEng_moves (hp.s rfl) qe (State.setEntry_moves (hp.s rfl) qe (State.noteReads_moves (hp.s rfl) h₀))); exact (State.arrayFails_moves (hp.s rfl) qe (State.setEntry_moves (hp.s rfl) qe (State.noteReads_moves (hp.s rfl) h₀)))))

theorem execStreamReadReturn_moves {s₀ : State} {e : EngineId} {id : Nat} {r : Reply} {s : State} (hp : Parts [.regs, .engines, .marks, .squares, .elog] ps) (qe : es e) (h₀ : Moves ps es s₀ s) :
    OutMoves ps es s₀ (execStreamReadReturn e id r s) := by
  unfold execStreamReadReturn
  exact (needSome_moves _ _ fun _ _ => (need_moves _ _ (outMoves_ite (need_moves _ _ (outMoves_next (State.deliverList_moves hp qe h₀))) (needSome_moves _ _ fun _ _ => (need_moves _ _ (need_moves _ _ (outMoves_next (State.deliver_moves hp qe h₀))))))))

theorem State.drainFail_moves {s₀ s : State} {e : EngineId} {idx : Nat} {c : Code} (hp : Parts [.regs, .engines, .elog] ps) (qe : es e) (h₀ : Moves ps es s₀ s) :
    Moves ps es s₀ (State.drainFail s e idx c) := by
  unfold State.drainFail
  exact (State.log_moves (hp.s rfl) (State.modEng_moves (hp.s rfl) qe h₀))

theorem execScaleRecordUpdate_moves {s₀ : State} {e : EngineId} {parity : Bool} {s : State} (hp : Parts [.regs, .mem, .engines, .marks, .squares, .elog] ps) (qe : es e) (h₀ : Moves ps es s₀ s) :
    OutMoves ps es s₀ (execScaleRecordUpdate e parity s) := by
  unfold execScaleRecordUpdate
  exact (needSome_moves _ _ fun _ _ => (needSome_moves _ _ fun _ _ => (need_moves _ _ (need_moves _ _ (by (try dsimp only); split; exact (outMoves_next (State.writeSpan_moves (hp.s rfl) (State.noteSpan_moves (hp.s rfl) (State.modEng_moves (hp.s rfl) qe h₀)))); exact (outMoves_next (State.drainFail_moves (hp.s rfl) qe (State.noteSpan_moves (hp.s rfl) (State.modEng_moves (hp.s rfl) qe h₀)))))))))

theorem State.drainWrite_moves {s₀ s : State} {e : EngineId} {ep : Option Nat} {a : Nat} {b : List Byte} {c : Code} (hp : Parts [.regs, .mem, .marks, .squares, .elog, .outbox] ps) (h₀ : Moves ps es s₀ s) :
    Moves ps es s₀ (State.drainWrite s e ep a b c).1 := by
  unfold State.drainWrite
  exact (fstMoves_ite (by (try dsimp only); split; exact h₀; exact (State.writeSpan_moves (hp.s rfl) h₀)) (by (try dsimp only); split; exact h₀; exact (State.emit_moves (hp.s rfl) h₀)))

theorem execStreamGrant_moves {s₀ : State} {e : EngineId} {s : State} (hp : Parts [.engines] ps) (qe : es e) (h₀ : Moves ps es s₀ s) :
    OutMoves ps es s₀ (execStreamGrant e s) := by
  unfold execStreamGrant
  exact (needSome_moves _ _ fun _ _ => (need_moves _ _ (outMoves_next (State.setEntry_moves hp qe h₀))))

theorem State.unitOp_moves {s₀ s : State} {e : EngineId} {u : Unt} {op : Nat} {k : Entry → Out} (_hp : Parts [] ps) (_h₀ : Moves ps es s₀ s) (hk : ∀ (a0 : Entry), OutMoves ps es s₀ (k a0)) :
    OutMoves ps es s₀ (State.unitOp s e u op k) := by
  unfold State.unitOp
  exact (needSome_moves _ _ fun _ _ => (need_moves _ _ (need_moves _ _ (need_moves _ _ (need_moves _ _ (hk _))))))

theorem execResultBufferReserve_moves {s₀ : State} {e : EngineId} {s : State} (hp : Parts [.engines] ps) (qe : es e) (h₀ : Moves ps es s₀ s) :
    OutMoves ps es s₀ (execResultBufferReserve e s) := by
  unfold execResultBufferReserve
  exact (needSome_moves _ _ fun _ _ => (need_moves _ _ (outMoves_next (State.setEntry_moves hp qe h₀))))

theorem execDrainWriteDone_moves {s₀ : State} {e : EngineId} {code : Code} {s : State} (hp : Parts [.regs, .mem, .engines, .marks, .squares, .elog, .outbox] ps) (qe : es e) (h₀ : Moves ps es s₀ s) :
    OutMoves ps es s₀ (execDrainWriteDone e code s) := by
  unfold execDrainWriteDone
  exact (needSome_moves _ _ fun _ _ => (by (try dsimp only); split; exact (outMoves_refused _ _); exact (need_moves _ _ (outMoves_then (outMoves_next (moves_ite (Moves.refl _) (State.drainFail_moves (hp.s rfl) qe (Moves.refl _)))) (State.modEng_moves (hp.s rfl) qe (State.drainWrite_moves (hp.s rfl) h₀))))))

theorem State.setAcc_moves {s₀ s : State} {e : EngineId} {a : Option AccState} (hp : Parts [.engines] ps) (qe : es e) (h₀ : Moves ps es s₀ s) :
    Moves ps es s₀ (State.setAcc s e a) := by
  unfold State.setAcc
  exact (State.modEng_moves hp qe h₀)

theorem State.unitParity_moves {s₀ s : State} {e : EngineId} {x : Entry} {h : ParityHit} (hp : Parts [.regs, .engines, .elog] ps) (qe : es e) (h₀ : Moves ps es s₀ s) :
    Moves ps es s₀ (State.unitParity s e x h) := by
  unfold State.unitParity
  exact (State.log_moves (hp.s rfl) (State.setEntry_moves (hp.s rfl) qe h₀))

theorem State.runUnit_moves {s₀ s : State} {e : EngineId} {u : Unt} {op : Nat} {parity : Parity} {work : Entry → Work} (hp : Parts [.regs, .engines, .marks, .squares, .elog] ps) (qe : es e) (h₀ : Moves ps es s₀ s) :
    OutMoves ps es s₀ (State.runUnit s e u op parity work) := by
  unfold State.runUnit
  exact (State.unitOp_moves (hp.s rfl) h₀ (fun _ => (need_moves _ _ (by (try dsimp only); split; exact (outMoves_next (State.unitParity_moves (hp.s rfl) qe (State.noteReads_moves (hp.s rfl) h₀))); exact (outMoves_next (State.setEntry_moves (hp.s rfl) qe h₀)); exact (by (try dsimp only); split; exact (outMoves_next (State.setEntry_moves (hp.s rfl) qe (State.noteReads_moves (hp.s rfl) h₀))); exact (outMoves_next (State.setEntry_moves (hp.s rfl) qe (State.noteReads_moves (hp.s rfl) h₀))))))))

theorem execVecUn_moves {s₀ : State} {e : EngineId} {parity : Parity} {s : State} (hp : Parts [.regs, .engines, .marks, .squares, .elog] ps) (qe : es e) (h₀ : Moves ps es s₀ s) :
    OutMoves ps es s₀ (execVecUn e parity s) := by
  unfold execVecUn
  exact (State.runUnit_moves hp qe h₀)

theorem State.matEnds_moves {s₀ s : State} {e : EngineId} {x y : Entry} (hp : Parts [.engines] ps) (qe : es e) (h₀ : Moves ps es s₀ s) :
    Moves ps es s₀ (State.matEnds s e x y) := by
  unfold State.matEnds
  exact (State.arrayFails_moves hp qe (State.setEntry_moves hp qe h₀))

theorem State.matRun_moves {s₀ s : State} {e : EngineId} {x : Entry} {parity : Parity} (hp : Parts [.regs, .engines, .marks, .squares, .elog] ps) (qe : es e) (h₀ : Moves ps es s₀ s) :
    Moves ps es s₀ (State.matRun s e x parity) := by
  unfold State.matRun
  exact (by (try dsimp only); split; exact (State.setEntry_moves (hp.s rfl) qe (State.noteReads_moves (hp.s rfl) h₀)); exact (by (try dsimp only); split; exact (State.arrayFails_moves (hp.s rfl) qe (State.unitParity_moves (hp.s rfl) qe (State.noteReads_moves (hp.s rfl) h₀))); exact (by (try dsimp only); split; exact (State.matEnds_moves (hp.s rfl) qe (State.noteReads_moves (hp.s rfl) h₀)); exact (by (try dsimp only); split; exact (State.modEng_moves (hp.s rfl) qe (State.setEntry_moves (hp.s rfl) qe (State.noteReads_moves (hp.s rfl) h₀))); exact (State.matEnds_moves (hp.s rfl) qe (State.noteReads_moves (hp.s rfl) h₀)); exact (State.matEnds_moves (hp.s rfl) qe (State.noteReads_moves (hp.s rfl) h₀))))))

theorem execMatCvt_moves {s₀ : State} {e : EngineId} {parity : Parity} {s : State} (hp : Parts [.regs, .engines, .marks, .squares, .elog] ps) (qe : es e) (h₀ : Moves ps es s₀ s) :
    OutMoves ps es s₀ (execMatCvt e parity s) := by
  unfold execMatCvt
  exact (State.runUnit_moves hp qe h₀)

theorem execNrmLn_moves {s₀ : State} {e : EngineId} {parity : Parity} {s : State} (hp : Parts [.regs, .engines, .marks, .squares, .elog] ps) (qe : es e) (h₀ : Moves ps es s₀ s) :
    OutMoves ps es s₀ (execNrmLn e parity s) := by
  unfold execNrmLn
  exact (State.runUnit_moves hp qe h₀)

theorem execSfnEval_moves {s₀ : State} {e : EngineId} {parity : Parity} {s : State} (hp : Parts [.regs, .engines, .marks, .squares, .elog] ps) (qe : es e) (h₀ : Moves ps es s₀ s) :
    OutMoves ps es s₀ (execSfnEval e parity s) := by
  unfold execSfnEval
  exact (State.runUnit_moves hp qe h₀)

theorem execVecSel_moves {s₀ : State} {e : EngineId} {parity : Parity} {s : State} (hp : Parts [.regs, .engines, .marks, .squares, .elog] ps) (qe : es e) (h₀ : Moves ps es s₀ s) :
    OutMoves ps es s₀ (execVecSel e parity s) := by
  unfold execVecSel
  exact (State.runUnit_moves hp qe h₀)

theorem execNrmRms_moves {s₀ : State} {e : EngineId} {parity : Parity} {s : State} (hp : Parts [.regs, .engines, .marks, .squares, .elog] ps) (qe : es e) (h₀ : Moves ps es s₀ s) :
    OutMoves ps es s₀ (execNrmRms e parity s) := by
  unfold execNrmRms
  exact (State.runUnit_moves hp qe h₀)

theorem execAttMerge_moves {s₀ : State} {e : EngineId} {parity : Parity} {s : State} (hp : Parts [.regs, .engines, .marks, .squares, .elog] ps) (qe : es e) (h₀ : Moves ps es s₀ s) :
    OutMoves ps es s₀ (execAttMerge e parity s) := by
  unfold execAttMerge
  exact (State.runUnit_moves hp qe (State.setAcc_moves (hp.s rfl) qe h₀))

theorem execVecBin_moves {s₀ : State} {e : EngineId} {parity : Parity} {s : State} (hp : Parts [.regs, .engines, .marks, .squares, .elog] ps) (qe : es e) (h₀ : Moves ps es s₀ s) :
    OutMoves ps es s₀ (execVecBin e parity s) := by
  unfold execVecBin
  exact (State.runUnit_moves hp qe h₀)

theorem execMatMul_moves {s₀ : State} {e : EngineId} {parity : Parity} {s : State} (hp : Parts [.regs, .engines, .marks, .squares, .elog] ps) (qe : es e) (h₀ : Moves ps es s₀ s) :
    OutMoves ps es s₀ (execMatMul e parity s) := by
  unfold execMatMul
  exact (State.unitOp_moves (hp.s rfl) h₀ (fun _ => (need_moves _ _ (outMoves_next (State.matRun_moves hp qe h₀)))))

theorem execSfnSwap_moves {s₀ : State} {e : EngineId} {s : State} (hp : Parts [.engines] ps) (qe : es e) (h₀ : Moves ps es s₀ s) :
    OutMoves ps es s₀ (execSfnSwap e s) := by
  unfold execSfnSwap
  exact (State.unitOp_moves (hp.s rfl) h₀ (fun _ => (need_moves _ _ (outMoves_next (State.modEng_moves hp qe (State.setEntry_moves hp qe h₀))))))

theorem execVecRed_moves {s₀ : State} {e : EngineId} {parity : Parity} {s : State} (hp : Parts [.regs, .engines, .marks, .squares, .elog] ps) (qe : es e) (h₀ : Moves ps es s₀ s) :
    OutMoves ps es s₀ (execVecRed e parity s) := by
  unfold execVecRed
  exact (State.runUnit_moves hp qe h₀)

theorem execAttRun_moves {s₀ : State} {e : EngineId} {parity : Parity} {s : State} (hp : Parts [.regs, .engines, .marks, .squares, .elog] ps) (qe : es e) (h₀ : Moves ps es s₀ s) :
    OutMoves ps es s₀ (execAttRun e parity s) := by
  unfold execAttRun
  exact (State.runUnit_moves hp qe (State.setAcc_moves (hp.s rfl) qe h₀))

theorem execNrmStat_moves {s₀ : State} {e : EngineId} {parity : Parity} {s : State} (hp : Parts [.regs, .engines, .marks, .squares, .elog] ps) (qe : es e) (h₀ : Moves ps es s₀ s) :
    OutMoves ps es s₀ (execNrmStat e parity s) := by
  unfold execNrmStat
  exact (State.runUnit_moves hp qe h₀)

theorem execVecFma_moves {s₀ : State} {e : EngineId} {parity : Parity} {s : State} (hp : Parts [.regs, .engines, .marks, .squares, .elog] ps) (qe : es e) (h₀ : Moves ps es s₀ s) :
    OutMoves ps es s₀ (execVecFma e parity s) := by
  unfold execVecFma
  exact (State.runUnit_moves hp qe h₀)

theorem execSfnLoad_moves {s₀ : State} {e : EngineId} {parity : Parity} {s : State} (hp : Parts [.regs, .engines, .marks, .squares, .elog] ps) (qe : es e) (h₀ : Moves ps es s₀ s) :
    OutMoves ps es s₀ (execSfnLoad e parity s) := by
  unfold execSfnLoad
  exact (State.unitOp_moves (hp.s rfl) h₀ (fun _ => (need_moves _ _ (by (try dsimp only); split; exact (outMoves_next (State.unitParity_moves (hp.s rfl) qe (State.modEng_moves (hp.s rfl) qe (State.noteReads_moves (hp.s rfl) h₀)))); exact (outMoves_next (State.setEntry_moves (hp.s rfl) qe (State.modEng_moves (hp.s rfl) qe (State.noteReads_moves (hp.s rfl) h₀)))); exact (outMoves_next (State.setEntry_moves (hp.s rfl) qe (State.modEng_moves (hp.s rfl) qe (State.noteReads_moves (hp.s rfl) h₀))))))))

theorem State.moveEnd_moves {s₀ s : State} {e : EngineId} {x : Entry} {r : Reply} {c : Code} {a : Nat} (hp : Parts [.engines] ps) (qe : es e) (h₀ : Moves ps es s₀ s) :
    Moves ps es s₀ (State.moveEnd s e x r c a) := by
  unfold State.moveEnd
  exact (State.setEntry_moves hp qe h₀)

theorem execCtlLds_moves {s₀ : State} {e : EngineId} {r : Reply} {s : State} (hp : Parts [.regs, .engines, .marks, .squares, .elog] ps) (qe : es e) (h₀ : Moves ps es s₀ s) :
    OutMoves ps es s₀ (execCtlLds e r s) := by
  unfold execCtlLds
  exact (State.unitOp_moves (hp.s rfl) h₀ (fun _ => (need_moves _ _ (outMoves_ite (outMoves_next (State.moveEnd_moves (hp.s rfl) qe h₀)) (need_moves _ _ (by (try dsimp only); split; exact (outMoves_then (outMoves_next (moves_ite (Moves.refl _) (State.setS_moves (hp.s rfl) qe (Moves.refl _)))) (State.setEntry_moves (hp.s rfl) qe (State.noteReads_moves (hp.s rfl) h₀))); exact (outMoves_next (State.moveEnd_moves (hp.s rfl) qe (State.noteReads_moves (hp.s rfl) h₀)))))))))

theorem State.writeAll_moves {s₀ s : State} {x : Entry} {c : Code} {w : Writes} (hp : Parts [.regs, .mem, .marks, .squares, .elog, .outbox] ps) (h₀ : Moves ps es s₀ s) : Moves ps es s₀ (s.writeAll x c w).1 := by
  induction w generalizing s with
  | nil => exact h₀
  | cons q w ih => exact ih (State.drainWrite_moves hp h₀)

theorem State.mcastWrite_moves {s₀ s : State} {x : Entry} {w : Writes} {l : List Nat} (hp : Parts [.regs, .mem, .marks, .squares, .elog, .outbox] ps) (h₀ : Moves ps es s₀ s) :
    Moves ps es s₀ (s.mcastWrite x w l).1 := by
  induction l generalizing s with
  | nil => exact h₀
  | cons n l ih =>
    unfold State.mcastWrite
    simp only
    split
    · exact ih h₀
    · exact ih (State.writeAll_moves hp h₀)

theorem State.mcastPart_moves {s₀ s : State} {x : Entry} {w : Writes} {dests : List Nat} (hp : Parts [.regs, .mem, .marks, .squares, .elog, .outbox] ps) (h₀ : Moves ps es s₀ s) :
    Moves ps es s₀ (State.mcastPart s x w dests) := by
  unfold State.mcastPart
  exact (Moves.foldl _ h₀ fun _ _ h1 => (State.mcastWrite_moves hp h1))

theorem State.timedOut_moves {s₀ s : State} {e : EngineId} {x : Entry} (hp : Parts [.regs, .mem, .engines, .marks, .squares, .elog, .outbox, .drawn] ps) (qe : es e) (h₀ : Moves ps es s₀ s) :
    Moves ps es s₀ (State.timedOut s e x) := by
  unfold State.timedOut
  exact (by (try dsimp only); split; exact (State.modEng_moves (hp.s rfl) qe h₀); exact (State.draw_moves (hp.s rfl) (State.writeAll_moves (hp.s rfl) h₀)); exact (State.draw_moves (hp.s rfl) (State.mcastPart_moves (hp.s rfl) h₀)); exact (State.arrayFails_moves (hp.s rfl) qe h₀))

theorem execRemoteAccessTimeout_moves {s₀ : State} {e : EngineId} {id : Nat} {s : State} (hp : Parts [.regs, .mem, .engines, .marks, .squares, .mesh, .net, .elog, .outbox, .drawn] ps) (qe : es e) (h₀ : Moves ps es s₀ s) :
    OutMoves ps es s₀ (execRemoteAccessTimeout e id s) := by
  unfold execRemoteAccessTimeout
  exact (outMoves_ite (outMoves_next (Moves.foldl _ h₀ fun _ _ h1 => (State.pieceDone_moves (hp.s rfl) h1))) (needSome_moves _ _ fun _ _ => (need_moves _ _ (outMoves_next (State.setEntry_moves (hp.s rfl) qe (State.timedOut_moves (hp.s rfl) qe h₀))))))

theorem execCtlSts_moves {s₀ : State} {e : EngineId} {r : Reply} {s : State} (hp : Parts [.regs, .mem, .engines, .marks, .squares, .elog, .outbox] ps) (qe : es e) (h₀ : Moves ps es s₀ s) :
    OutMoves ps es s₀ (execCtlSts e r s) := by
  unfold execCtlSts
  exact (State.unitOp_moves (hp.s rfl) h₀ (fun _ => (outMoves_ite (outMoves_next (State.moveEnd_moves (hp.s rfl) qe h₀)) (need_moves _ _ (outMoves_ite (outMoves_next (State.setEntry_moves (hp.s rfl) qe (State.drainWrite_moves (hp.s rfl) h₀))) (outMoves_next (State.moveEnd_moves (hp.s rfl) qe (State.drainWrite_moves (hp.s rfl) h₀))))))))

theorem execCtlPage_moves {s₀ : State} {e : EngineId} {r : Reply} {s : State} (hp : Parts [.regs, .engines, .marks, .squares, .elog] ps) (qe : es e) (h₀ : Moves ps es s₀ s) :
    OutMoves ps es s₀ (execCtlPage e r s) := by
  unfold execCtlPage
  exact (State.unitOp_moves (hp.s rfl) h₀ (fun _ => (need_moves _ _ (outMoves_then (outMoves_ite (outMoves_next (State.setEntry_moves (hp.s rfl) qe (Moves.refl _))) (outMoves_next (State.moveEnd_moves (hp.s rfl) qe (Moves.refl _)))) (State.modEng_moves (hp.s rfl) qe (State.noteReads_moves (hp.s rfl) h₀))))))

theorem execMovMcast_moves {s₀ : State} {e : EngineId} {r : Reply} {s : State} (hp : Parts [.regs, .mem, .engines, .marks, .squares, .elog, .outbox, .drawn] ps) (qe : es e) (h₀ : Moves ps es s₀ s) :
    OutMoves ps es s₀ (execMovMcast e r s) := by
  unfold execMovMcast
  exact (State.unitOp_moves (hp.s rfl) h₀ (fun _ => (outMoves_ite (outMoves_next (State.moveEnd_moves (hp.s rfl) qe h₀)) (outMoves_ite (outMoves_next (State.setEntry_moves (hp.s rfl) qe h₀)) (need_moves _ _ (need_moves _ _ (by (try dsimp only); split; exact (outMoves_next (State.setEntry_moves (hp.s rfl) qe h₀)); exact (by (try dsimp only); split; exact (outMoves_next (State.setEntry_moves (hp.s rfl) qe (State.draw_moves (hp.s rfl) (State.mcastPart_moves (hp.s rfl) (State.noteReads_moves (hp.s rfl) h₀))))); exact (by (try dsimp only); split; exact (outMoves_next (State.setEntry_moves (hp.s rfl) qe (State.mcastWrite_moves (hp.s rfl) (State.noteReads_moves (hp.s rfl) h₀)))); exact (outMoves_next (State.setEntry_moves (hp.s rfl) qe (State.mcastWrite_moves (hp.s rfl) (State.noteReads_moves (hp.s rfl) h₀)))))))))))))

theorem execMovCopy_moves {s₀ : State} {e : EngineId} {r : Reply} {s : State} (hp : Parts [.regs, .mem, .engines, .marks, .squares, .elog, .outbox, .drawn] ps) (qe : es e) (h₀ : Moves ps es s₀ s) :
    OutMoves ps es s₀ (execMovCopy e r s) := by
  unfold execMovCopy
  exact (State.unitOp_moves (hp.s rfl) h₀ (fun _ => (need_moves _ _ (need_moves _ _ (by (try dsimp only); split; exact (outMoves_next (State.setEntry_moves (hp.s rfl) qe h₀)); exact (by (try dsimp only); split; exact (outMoves_next (State.setEntry_moves (hp.s rfl) qe (State.draw_moves (hp.s rfl) (State.writeAll_moves (hp.s rfl) (State.noteReads_moves (hp.s rfl) h₀))))); exact (by (try dsimp only); split; exact (outMoves_next (State.setEntry_moves (hp.s rfl) qe (State.writeAll_moves (hp.s rfl) (State.noteReads_moves (hp.s rfl) h₀)))); exact (outMoves_next (State.moveEnd_moves (hp.s rfl) qe (State.writeAll_moves (hp.s rfl) (State.noteReads_moves (hp.s rfl) h₀)))))))))))

theorem State.ringOp_moves {s₀ s : State} {e : EngineId} {k : Ring → Entry → Out} (_hp : Parts [] ps) (_h₀ : Moves ps es s₀ s) (hk : ∀ (a0 : Ring) (a1 : Entry), OutMoves ps es s₀ (k a0 a1)) :
    OutMoves ps es s₀ (State.ringOp s e k) := by
  unfold State.ringOp
  exact (needSome_moves _ _ fun _ _ => (needSome_moves _ _ fun _ _ => (need_moves _ _ (hk _ _))))

theorem State.ringEnd_moves {s₀ s : State} {e : EngineId} {x : Entry} {c : Code} {detail : Nat} (hp : Parts [.engines] ps) (qe : es e) (h₀ : Moves ps es s₀ s) :
    Moves ps es s₀ (State.ringEnd s e x c detail) := by
  unfold State.ringEnd
  exact (State.modEng_moves hp qe (State.setEntry_moves hp qe h₀))

theorem State.ringSeq_moves {s₀ s : State} {e : EngineId} {x : Entry} {r : Reply} {a n block : Nat} {k : State → Out} (hp : Parts [.regs, .mem, .engines, .marks, .squares, .elog, .outbox] ps) (qe : es e) (h₀ : Moves ps es s₀ s) (hk : ∀ (a0 : State), Moves ps es s₀ a0 → OutMoves ps es s₀ (k a0)) :
    OutMoves ps es s₀ (State.ringSeq s e x r a n block k) := by
  unfold State.ringSeq
  exact (need_moves _ _ (by (try dsimp only); split; exact (outMoves_next (State.ringEnd_moves (hp.s rfl) qe h₀)); exact (outMoves_ite (hk _ (State.drainWrite_moves (hp.s rfl) h₀)) (outMoves_next (State.ringEnd_moves (hp.s rfl) qe (State.drainWrite_moves (hp.s rfl) h₀))))))

theorem State.setRing_moves {s₀ s : State} {e : EngineId} {r : Ring} (hp : Parts [.engines] ps) (qe : es e) (h₀ : Moves ps es s₀ s) :
    Moves ps es s₀ (State.setRing s e r) := by
  unfold State.setRing
  exact (State.modEng_moves hp qe h₀)

theorem execRingForwardDone_moves {s₀ : State} {e : EngineId} {parity : Bool} {r : Reply} {s : State} (hp : Parts [.regs, .mem, .engines, .marks, .squares, .elog, .outbox] ps) (qe : es e) (h₀ : Moves ps es s₀ s) :
    OutMoves ps es s₀ (execRingForwardDone e parity r s) := by
  unfold execRingForwardDone
  exact (State.ringOp_moves (hp.s rfl) h₀ (fun _ _ => (need_moves _ _ (outMoves_ite (outMoves_next (State.modEng_moves (hp.s rfl) qe (State.unitParity_moves (hp.s rfl) qe h₀))) (outMoves_ite (State.ringSeq_moves hp qe h₀ (fun _ h1 => (outMoves_next (State.setRing_moves (hp.s rfl) qe h1)))) (outMoves_next (State.ringEnd_moves (hp.s rfl) qe h₀)))))))

theorem execRingForwardStart_moves {s₀ : State} {e : EngineId} {s : State} (hp : Parts [.regs, .mem, .engines, .marks, .squares, .elog, .outbox] ps) (qe : es e) (h₀ : Moves ps es s₀ s) :
    OutMoves ps es s₀ (execRingForwardStart e s) := by
  unfold execRingForwardStart
  exact (State.ringOp_moves (hp.s rfl) h₀ (fun _ _ => (need_moves _ _ (by (try dsimp only); split; exact (outMoves_next (State.ringEnd_moves (hp.s rfl) qe h₀)); exact (need_moves _ _ (by (try dsimp only); split; exact (outMoves_next (State.ringEnd_moves (hp.s rfl) qe (State.noteReads_moves (hp.s rfl) h₀))); exact (by (try dsimp only); split; exact (outMoves_next (State.setRing_moves (hp.s rfl) qe (State.writeAll_moves (hp.s rfl) (State.noteReads_moves (hp.s rfl) h₀)))); exact (outMoves_next (State.ringEnd_moves (hp.s rfl) qe (State.writeAll_moves (hp.s rfl) (State.noteReads_moves (hp.s rfl) h₀))))))); exact (outMoves_next (State.ringEnd_moves (hp.s rfl) qe (State.noteReads_moves (hp.s rfl) h₀)))))))

theorem State.ringResult_moves {s₀ s : State} {e : EngineId} {x : Entry} {r : Ring} (hp : Parts [.engines] ps) (qe : es e) (h₀ : Moves ps es s₀ s) :
    Moves ps es s₀ (State.ringResult s e x r) := by
  unfold State.ringResult
  exact (State.modEng_moves hp qe (State.setEntry_moves hp qe h₀))

theorem execRingChunkReady_moves {s₀ : State} {e : EngineId} {parity : Parity} {s : State} (hp : Parts [.regs, .engines, .marks, .squares, .elog] ps) (qe : es e) (h₀ : Moves ps es s₀ s) :
    OutMoves ps es s₀ (execRingChunkReady e parity s) := by
  unfold execRingChunkReady
  exact (State.ringOp_moves (hp.s rfl) h₀ (fun _ _ => (need_moves _ _ (by (try dsimp only); split; exact (outMoves_next (State.modEng_moves (hp.s rfl) qe (State.unitParity_moves (hp.s rfl) qe h₀))); exact (by (try dsimp only); split; exact (outMoves_next (State.ringEnd_moves (hp.s rfl) qe h₀)); exact (by (try dsimp only); split; exact (outMoves_next (State.setRing_moves (hp.s rfl) qe (State.noteReads_moves (hp.s rfl) h₀))); exact (outMoves_next (State.ringEnd_moves (hp.s rfl) qe (State.noteReads_moves (hp.s rfl) h₀)))))))))

theorem execRingStepEnd_moves {s₀ : State} {e : EngineId} {r : Reply} {s : State} (hp : Parts [.regs, .mem, .engines, .marks, .squares, .elog, .outbox] ps) (qe : es e) (h₀ : Moves ps es s₀ s) :
    OutMoves ps es s₀ (execRingStepEnd e r s) := by
  unfold execRingStepEnd
  exact (State.ringOp_moves (hp.s rfl) h₀ (fun _ _ => (need_moves _ _ (State.ringSeq_moves hp qe h₀ (fun _ h1 => (outMoves_ite (outMoves_next (State.ringResult_moves (hp.s rfl) qe h1)) (outMoves_next (State.setRing_moves (hp.s rfl) qe h1))))))))

theorem execAttRing_moves {s₀ : State} {e : EngineId} {s : State} (hp : Parts [.regs, .engines, .marks, .squares, .elog] ps) (qe : es e) (h₀ : Moves ps es s₀ s) :
    OutMoves ps es s₀ (execAttRing e s) := by
  unfold execAttRing
  exact (State.unitOp_moves (hp.s rfl) h₀ (fun _ => (need_moves _ _ (by (try dsimp only); split; exact (outMoves_next (State.ringEnd_moves (hp.s rfl) qe (State.setAcc_moves (hp.s rfl) qe h₀))); exact (by (try dsimp only); split; exact (by (try dsimp only); split; exact (outMoves_next (State.modEng_moves (hp.s rfl) qe (State.setEntry_moves (hp.s rfl) qe (State.noteReads_moves (hp.s rfl) (State.setAcc_moves (hp.s rfl) qe h₀))))); exact (outMoves_next (State.ringEnd_moves (hp.s rfl) qe (State.noteReads_moves (hp.s rfl) (State.setAcc_moves (hp.s rfl) qe h₀))))); exact (outMoves_next (State.ringEnd_moves (hp.s rfl) qe (State.noteReads_moves (hp.s rfl) (State.setAcc_moves (hp.s rfl) qe h₀)))))))))

theorem execRingWaitTimeout_moves {s₀ : State} {e : EngineId} {s : State} (hp : Parts [.engines] ps) (qe : es e) (h₀ : Moves ps es s₀ s) :
    OutMoves ps es s₀ (execRingWaitTimeout e s) := by
  unfold execRingWaitTimeout
  exact (State.ringOp_moves (hp.s rfl) h₀ (fun _ _ => (need_moves _ _ (outMoves_next (State.ringEnd_moves hp qe h₀)))))

theorem State.setBar_moves {s₀ s : State} {b : Fin 64} {x : Bar} (hp : Parts [.bars] ps) (h₀ : Moves ps es s₀ s) :
    Moves ps es s₀ (State.setBar s b x) := by
  unfold State.setBar
  exact (Moves.litE rfl h₀ (.refl _) (.refl _) (.refl _) (.refl _) (.refl _) (.refl _) (.refl _) (.refl _) (fun _ h => h) (List.prefix_refl _) (Nat.le_refl _) (fun p hn => by cases p <;> first | exact absurd (hp.m rfl) hn | (simp only [Part.Same]; done) | exact rfl))

theorem State.barPut_moves {s₀ s : State} {f : Field} {b : Fin 64} {v : Nat} (hp : Parts [.regs] ps) (h₀ : Moves ps es s₀ s) :
    Moves ps es s₀ (State.barPut s f b v) := by
  unfold State.barPut
  exact (State.put_moves hp h₀)

theorem State.syncEnd_moves {s₀ s : State} {e : EngineId} {x : Entry} {c : Code} {detail : Nat} (hp : Parts [.engines] ps) (qe : es e) (h₀ : Moves ps es s₀ s) :
    Moves ps es s₀ (State.syncEnd s e x c detail) := by
  unfold State.syncEnd
  exact (State.setEntry_moves hp qe h₀)

theorem State.endOrphan_moves {s₀ s : State} {e : EngineId} {x : Entry} (hp : Parts [.regs, .engines] ps) (qe : es e) (h₀ : Moves ps es s₀ s) :
    Moves ps es s₀ (State.endOrphan s e x) := by
  unfold State.endOrphan
  exact (State.discardFor_moves (hp.s rfl) (State.modEng_moves (hp.s rfl) qe h₀))

theorem State.endWait_moves {s₀ s : State} {p : Entry → Bool} {c : Code} {e : EngineId} (hp : Parts [.regs, .engines] ps) (qe : es e) (h₀ : Moves ps es s₀ s) :
    Moves ps es s₀ (State.endWait s p c e) := by
  unfold State.endWait
  exact (Moves.foldl _ (by (try dsimp only); split; exact (moves_ite (State.syncEnd_moves (hp.s rfl) qe h₀) h₀); exact h₀) fun _ _ h2 => (State.endOrphan_moves hp qe h2))

theorem State.endWaits_moves {s₀ s : State} {p : Entry → Bool} {c : Code} (hp : Parts [.regs, .engines] ps) (ha : ∀ q, es q) (h₀ : Moves ps es s₀ s) :
    Moves ps es s₀ (State.endWaits s p c) := by
  unfold State.endWaits
  exact (Moves.foldl _ h₀ fun _ _ h1 => (State.endWait_moves hp (ha _) h1))

theorem State.releaseBar_moves {s₀ s : State} {b : Fin 64} (hp : Parts [.regs, .engines, .mesh, .bars, .net, .elog, .outbox] ps) (ha : ∀ q, es q) (h₀ : Moves ps es s₀ s) :
    Moves ps es s₀ (State.releaseBar s b) := by
  unfold State.releaseBar
  exact (State.endWaits_moves (hp.s rfl) ha (State.barPut_moves (hp.s rfl) (State.barPut_moves (hp.s rfl) (State.barPut_moves (hp.s rfl) (State.setBar_moves (hp.s rfl) (Moves.foldl _ h₀ fun _ _ h1 => (State.sendBar_moves (hp.s rfl) h1)))))))

theorem State.tryRelease_moves {s₀ s : State} {b : Fin 64} {n : Nat} (hp : Parts [.regs, .engines, .mesh, .bars, .net, .elog, .outbox] ps) (ha : ∀ q, es q) (h₀ : Moves ps es s₀ s) : Moves ps es s₀ (s.tryRelease b n) := by
  induction n generalizing s with
  | zero => exact h₀
  | succ n ih =>
    unfold State.tryRelease
    split
    · split
      · split
        · exact h₀
        · exact State.sendBar_moves (hp.s rfl) (State.setBar_moves (hp.s rfl) h₀)
      · exact ih (State.releaseBar_moves hp ha h₀)
    · exact h₀

theorem State.barAdvance_moves {s₀ s : State} {b : Fin 64} (hp : Parts [.regs, .engines, .mesh, .bars, .net, .elog, .outbox] ps) (ha : ∀ q, es q) (h₀ : Moves ps es s₀ s) :
    Moves ps es s₀ (State.barAdvance s b) := by
  unfold State.barAdvance
  exact (State.tryRelease_moves hp ha h₀)

theorem State.syncOp_moves {s₀ s : State} {e : EngineId} {op : Nat} {k : Entry → Out} (_hp : Parts [] ps) (_h₀ : Moves ps es s₀ s) (hk : ∀ (a0 : Entry), OutMoves ps es s₀ (k a0)) :
    OutMoves ps es s₀ (State.syncOp s e op k) := by
  unfold State.syncOp
  exact (needSome_moves _ _ fun _ _ => (need_moves _ _ (need_moves _ _ (hk _))))

theorem execSyncEpoch_moves {s₀ : State} {e : EngineId} {s : State} (hp : Parts [.engines] ps) (qe : es e) (h₀ : Moves ps es s₀ s) :
    OutMoves ps es s₀ (execSyncEpoch e s) := by
  unfold execSyncEpoch
  exact (State.syncOp_moves (hp.s rfl) h₀ (fun _ => (need_moves _ _ (outMoves_next (State.syncEnd_moves hp qe h₀)))))

theorem State.barWait_moves {s₀ s : State} {e : EngineId} {x : Entry} {gen : Nat} (hp : Parts [.engines] ps) (qe : es e) (h₀ : Moves ps es s₀ s) :
    Moves ps es s₀ (State.barWait s e x gen) := by
  unfold State.barWait
  exact (moves_ite (State.syncEnd_moves hp qe h₀) (moves_ite (State.syncEnd_moves hp qe h₀) (State.setEntry_moves hp qe h₀)))

theorem execChildArrival_moves {s₀ : State} {b : Fin 64} {child : BlockId} {s : State} (hp : Parts [.regs, .engines, .mesh, .bars, .net, .elog, .outbox] ps) (ha : ∀ q, es q) (h₀ : Moves ps es s₀ s) :
    OutMoves ps es s₀ (execChildArrival b child s) := by
  unfold execChildArrival
  exact (outMoves_next (State.barAdvance_moves hp ha (State.barPut_moves (hp.s rfl) (State.setBar_moves (hp.s rfl) h₀))))

theorem State.orphanEpoch_moves {s₀ s : State} {e : EngineId} {x : Entry} {k : State} (hp : Parts [.regs, .engines] ps) (qe : es e) (h₀ : Moves ps es s₀ s) (hk : Moves ps es s₀ k) :
    OutMoves ps es s₀ (State.orphanEpoch s e x k) := by
  unfold State.orphanEpoch
  exact (by (try dsimp only); split; exact (outMoves_next hk); exact (outMoves_refused _ _); exact (outMoves_next (State.endOrphan_moves hp qe h₀)))

theorem State.setFlag_moves {s₀ s : State} {f : Nat} {v : Bool} (hp : Parts [.regs, .engines, .mesh, .watches, .net, .elog, .outbox] ps) (ha : ∀ q, es q) (h₀ : Moves ps es s₀ s) :
    Moves ps es s₀ (State.setFlag s f v) := by
  unfold State.setFlag
  exact (moves_then (moves_ite (Moves.refl _) (State.endWaits_moves (hp.s rfl) ha (Moves.refl _))) (Moves.foldl _ (Moves.litE rfl (State.setReg_moves (hp.s rfl) (State.setReg_moves (hp.s rfl) h₀)) (.refl _) (.refl _) (.refl _) (.refl _) (.refl _) (.refl _) (.refl _) (.refl _) (fun _ h => h) (List.prefix_refl _) (Nat.le_refl _) (fun p hn => by cases p <;> first | exact absurd (hp.m rfl) hn | (simp only [Part.Same]; done) | exact rfl)) fun _ _ h3 => (State.sendFlg_moves (hp.s rfl) h3)))

theorem State.syncEpoch_moves {s₀ s : State} {e : EngineId} {x : Entry} {k : Out} (hp : Parts [.engines] ps) (qe : es e) (h₀ : Moves ps es s₀ s) (hk : OutMoves ps es s₀ k) :
    OutMoves ps es s₀ (State.syncEpoch s e x k) := by
  unfold State.syncEpoch
  exact (by (try dsimp only); split; exact hk; exact (outMoves_refused _ _); exact (outMoves_next (State.syncEnd_moves hp qe h₀)))

theorem State.messageEpoch_moves {s₀ s : State} {b : BlockId} {f : Fin 256} {m : FlagMsg} {k : State} (hp : Parts [.regs, .mesh, .net, .elog, .outbox] ps) (h₀ : Moves ps es s₀ s) (hk : Moves ps es s₀ k) :
    OutMoves ps es s₀ (State.messageEpoch s b f m k) := by
  unfold State.messageEpoch
  exact (by (try dsimp only); split; exact (outMoves_next hk); exact (by (try dsimp only); split; exact (outMoves_next hk); exact (outMoves_refused _ _); exact (outMoves_next (State.sendOut_moves hp h₀))))

theorem State.flagChange_moves {s₀ s : State} {f : Fin 256} {who : Requester} {m : FlagMsg} {set : Bool} (hp : Parts [.regs, .engines, .mesh, .watches, .net, .elog, .outbox] ps) (ha : ∀ q, es q) (h₀ : Moves ps es s₀ s) :
    OutMoves ps es s₀ (State.flagChange s f who m set) := by
  unfold State.flagChange
  exact (by (try dsimp only); split; exact (need_moves _ _ (by (try dsimp only); split; exact (State.orphanEpoch_moves (hp.s rfl) (ha _) h₀ (State.setFlag_moves hp ha (State.endOrphan_moves (hp.s rfl) (ha _) h₀))); exact (needSome_moves _ _ fun _ _ => (need_moves _ _ (State.syncEpoch_moves (hp.s rfl) (ha _) h₀ (outMoves_next (State.setFlag_moves hp ha (State.syncEnd_moves (hp.s rfl) (ha _) h₀)))))))); exact (State.messageEpoch_moves (hp.s rfl) h₀ (State.sendFlg_moves (hp.s rfl) (State.setFlag_moves hp ha h₀))); exact (outMoves_next (State.setFlag_moves hp ha h₀)))

theorem execFlagSet_moves {s₀ : State} {f : Fin 256} {who : Requester} {m : FlagMsg} {s : State} (hp : Parts [.regs, .engines, .mesh, .watches, .net, .elog, .outbox] ps) (ha : ∀ q, es q) (h₀ : Moves ps es s₀ s) :
    OutMoves ps es s₀ (execFlagSet f who m s) := by
  unfold execFlagSet
  exact (State.flagChange_moves hp ha h₀)

theorem State.setFlags_moves {s₀ s : State} {i w : Nat} {v : Bool} (hp : Parts [.regs, .engines, .mesh, .watches, .net, .elog, .outbox] ps) (ha : ∀ q, es q) (h₀ : Moves ps es s₀ s) :
    Moves ps es s₀ (State.setFlags s i w v) := by
  unfold State.setFlags
  exact (Moves.foldl _ h₀ fun _ _ h1 => (moves_ite (State.setFlag_moves hp ha h1) h1))

theorem execAvFlagSetWrite_moves {s₀ : State} {i : Fin 4} {v : Word} {s : State} (hp : Parts [.regs, .engines, .mesh, .watches, .net, .elog, .outbox] ps) (ha : ∀ q, es q) (h₀ : Moves ps es s₀ s) :
    OutMoves ps es s₀ (execAvFlagSetWrite i v s) := by
  unfold execAvFlagSetWrite
  exact (outMoves_next (State.setFlags_moves hp ha h₀))

theorem execFlagClear_moves {s₀ : State} {f : Fin 256} {who : Requester} {m : FlagMsg} {s : State} (hp : Parts [.regs, .engines, .mesh, .watches, .net, .elog, .outbox] ps) (ha : ∀ q, es q) (h₀ : Moves ps es s₀ s) :
    OutMoves ps es s₀ (execFlagClear f who m s) := by
  unfold execFlagClear
  exact (State.flagChange_moves hp ha h₀)

theorem State.countArrival_moves {s₀ s : State} {b : Fin 64} {r : State × Nat} (hp : Parts [.regs, .bars] ps) (h₀ : Moves ps es s₀ s) (e : s.countArrival b = some r) :
    Moves ps es s₀ r.1 := by
  unfold State.countArrival at e
  simp only at e
  split at e
  · cases e; exact State.barPut_moves (hp.s rfl) h₀
  · split at e
    · cases e; exact State.setBar_moves (hp.s rfl) h₀
    · cases e

theorem State.arrive_moves {s₀ s : State} {e : EngineId} {x : Entry} (hp : Parts [.regs, .engines, .mesh, .bars, .net, .elog, .outbox] ps) (ha : ∀ q, es q) (h₀ : Moves ps es s₀ s) :
    Moves ps es s₀ (State.arrive s e x) := by
  unfold State.arrive
  simp only
  split
  · exact State.syncEnd_moves (hp.s rfl) (ha _) h₀
  · split
    · exact State.syncEnd_moves (hp.s rfl) (ha _) h₀
    · rename_i u gen hc
      have hu : Moves ps es s₀ u := State.countArrival_moves (hp.s rfl) h₀ hc
      exact State.barAdvance_moves hp ha (moves_ite (State.syncEnd_moves (hp.s rfl) (ha _) (State.modEng_moves (hp.s rfl) (ha _) hu)) (State.setEntry_moves (hp.s rfl) (ha _) (State.modEng_moves (hp.s rfl) (ha _) hu)))

theorem State.arriveLate_moves {s₀ s : State} {e : EngineId} {x : Entry} (hp : Parts [.regs, .engines, .mesh, .bars, .net, .elog, .outbox] ps) (ha : ∀ q, es q) (h₀ : Moves ps es s₀ s) :
    Moves ps es s₀ (State.arriveLate s e x) := by
  unfold State.arriveLate
  simp only
  split
  · exact State.endOrphan_moves (hp.s rfl) (ha _) h₀
  · split
    · exact State.endOrphan_moves (hp.s rfl) (ha _) h₀
    · rename_i u gen hc
      have hu : Moves ps es s₀ u := State.countArrival_moves (hp.s rfl) h₀ hc
      exact State.barAdvance_moves hp ha (moves_ite (State.endOrphan_moves (hp.s rfl) (ha _) hu) (State.modEng_moves (hp.s rfl) (ha _) hu))

theorem execBarrierArrival_moves {s₀ : State} {e : EngineId} {s : State} (hp : Parts [.regs, .engines, .mesh, .bars, .net, .elog, .outbox] ps) (ha : ∀ q, es q) (h₀ : Moves ps es s₀ s) :
    OutMoves ps es s₀ (execBarrierArrival e s) := by
  unfold execBarrierArrival
  exact (by (try dsimp only); split; exact (State.orphanEpoch_moves (hp.s rfl) (ha _) h₀ (State.arriveLate_moves hp ha h₀)); exact (State.syncOp_moves (hp.s rfl) h₀ (fun _ => (need_moves _ _ (State.syncEpoch_moves (hp.s rfl) (ha _) h₀ (outMoves_next (State.arrive_moves hp ha h₀)))))))

theorem State.breakBarrier_moves {s₀ s : State} {lost : Nat} {b : Fin 64} (hp : Parts [.regs, .engines, .elog] ps) (ha : ∀ q, es q) (h₀ : Moves ps es s₀ s) :
    Moves ps es s₀ (State.breakBarrier s lost b) := by
  unfold State.breakBarrier
  exact (moves_ite (State.endWaits_moves (hp.s rfl) ha (moves_ite h₀ (State.log_moves (hp.s rfl) (State.barPut_moves (hp.s rfl) h₀)))) h₀)

theorem State.roundaboutLost_moves {s₀ s : State} {lost : Nat} (hp : Parts [.regs, .engines, .watches, .elog] ps) (ha : ∀ q, es q) (h₀ : Moves ps es s₀ s) :
    Moves ps es s₀ (State.roundaboutLost s lost) := by
  unfold State.roundaboutLost
  exact (Moves.litE rfl (Moves.foldl _ h₀ fun _ _ h1 => (State.breakBarrier_moves (hp.s rfl) ha h1)) (.refl _) (.refl _) (.refl _) (.refl _) (.refl _) (.refl _) (.refl _) (.refl _) (fun _ h => h) (List.prefix_refl _) (Nat.le_refl _) (fun p hn => by cases p <;> first | exact absurd (hp.m rfl) hn | (simp only [Part.Same]; done) | exact rfl))

theorem execFlagWatch_moves {s₀ : State} {f : Fin 256} {who : BlockId} {forSet : Bool} {m : FlagMsg} {s : State} (hp : Parts [.regs, .mesh, .watches, .net, .elog, .outbox] ps) (h₀ : Moves ps es s₀ s) :
    OutMoves ps es s₀ (execFlagWatch f who forSet m s) := by
  unfold execFlagWatch
  exact (State.messageEpoch_moves (hp.s rfl) h₀ (moves_ite (State.sendFlg_moves (hp.s rfl) h₀) (moves_ite (State.emit_moves (hp.s rfl) h₀) (Moves.litE rfl h₀ (.refl _) (.refl _) (.refl _) (.refl _) (.refl _) (.refl _) (.refl _) (.refl _) (fun _ h => h) (List.prefix_refl _) (Nat.le_refl _) (fun p hn => by cases p <;> first | exact absurd (hp.m rfl) hn | (simp only [Part.Same]; done) | exact rfl)))))

theorem State.implicitFence_moves {s₀ s : State} {e : EngineId} {x : Entry} {k : State → Out} (hp : Parts [.engines] ps) (qe : es e) (h₀ : Moves ps es s₀ s) (hk : ∀ (a0 : State), Moves ps es s₀ a0 → OutMoves ps es s₀ (k a0)) :
    OutMoves ps es s₀ (State.implicitFence s e x k) := by
  unfold State.implicitFence
  exact (need_moves _ _ (outMoves_ite (hk _ (State.setEng_moves hp qe h₀)) (outMoves_next (State.syncEnd_moves hp qe (State.setEng_moves hp qe h₀)))))

theorem State.askHome_moves {s₀ s : State} {e : EngineId} {x : Entry} (hp : Parts [.regs, .engines, .mesh, .net, .elog, .outbox] ps) (qe : es e) (h₀ : Moves ps es s₀ s) :
    Moves ps es s₀ (State.askHome s e x) := by
  unfold State.askHome
  exact (moves_ite (State.syncEnd_moves (hp.s rfl) qe h₀) (State.sendOut_moves (hp.s rfl) (State.setEntry_moves (hp.s rfl) qe h₀)))

theorem execSyncFlag_moves {s₀ : State} {e : EngineId} {s : State} (hp : Parts [.regs, .engines, .mesh, .net, .elog, .outbox] ps) (qe : es e) (h₀ : Moves ps es s₀ s) :
    OutMoves ps es s₀ (execSyncFlag e s) := by
  unfold execSyncFlag
  exact (State.syncOp_moves (hp.s rfl) h₀ (fun _ => (need_moves _ _ (outMoves_ite (State.implicitFence_moves (hp.s rfl) qe h₀ (fun _ h1 => (outMoves_ite (outMoves_next (State.askHome_moves hp qe h1)) (outMoves_next (State.setEntry_moves (hp.s rfl) qe h1))))) (outMoves_ite (outMoves_next (State.askHome_moves hp qe h₀)) (State.syncEpoch_moves (hp.s rfl) qe h₀ (outMoves_ite (outMoves_next (State.syncEnd_moves (hp.s rfl) qe h₀)) (outMoves_next (State.setEntry_moves (hp.s rfl) qe h₀)))))))))

theorem execFlagAnswer_moves {s₀ : State} {f : Fin 256} {e : EngineId} {a : FlagAns} {s : State} (hp : Parts [.regs, .engines] ps) (qe : es e) (h₀ : Moves ps es s₀ s) :
    OutMoves ps es s₀ (execFlagAnswer f e a s) := by
  unfold execFlagAnswer
  exact (by (try dsimp only); split; exact (outMoves_next (State.endOrphan_moves hp qe h₀)); exact (needSome_moves _ _ fun _ _ => (need_moves _ _ (by (try dsimp only); split; exact (outMoves_next (State.syncEnd_moves (hp.s rfl) qe h₀)); exact (outMoves_next (State.syncEnd_moves (hp.s rfl) qe h₀)); exact (need_moves _ _ (outMoves_next (State.setEntry_moves (hp.s rfl) qe h₀)))))))

theorem execParentRelease_moves {s₀ : State} {b : Fin 64} {_gen : BitVec 12} {s : State} (hp : Parts [.regs, .engines, .mesh, .bars, .net, .elog, .outbox] ps) (ha : ∀ q, es q) (h₀ : Moves ps es s₀ s) :
    OutMoves ps es s₀ (execParentRelease b _gen s) := by
  unfold execParentRelease
  exact (need_moves _ _ (outMoves_next (State.barAdvance_moves hp ha (State.releaseBar_moves hp ha h₀))))

theorem execWatchRetry_moves {s₀ : State} {f : Fin 256} {e : EngineId} {s : State} (hp : Parts [.regs, .engines, .mesh, .net, .elog, .outbox] ps) (qe : es e) (h₀ : Moves ps es s₀ s) :
    OutMoves ps es s₀ (execWatchRetry f e s) := by
  unfold execWatchRetry
  exact (needSome_moves _ _ fun _ _ => (need_moves _ _ (outMoves_next (State.askHome_moves hp qe h₀))))

theorem execAvFlagClrWrite_moves {s₀ : State} {i : Fin 4} {v : Word} {s : State} (hp : Parts [.regs, .engines, .mesh, .watches, .net, .elog, .outbox] ps) (ha : ∀ q, es q) (h₀ : Moves ps es s₀ s) :
    OutMoves ps es s₀ (execAvFlagClrWrite i v s) := by
  unfold execAvFlagClrWrite
  exact (outMoves_next (State.setFlags_moves hp ha h₀))

theorem State.writeBarCfg_moves {s₀ s : State} {b : Fin 64} {n : Nat} (hp : Parts [.regs, .engines, .mesh, .bars, .net, .elog, .outbox] ps) (ha : ∀ q, es q) (h₀ : Moves ps es s₀ s) :
    Moves ps es s₀ (State.writeBarCfg s b n) := by
  unfold State.writeBarCfg
  exact (moves_then (moves_then (State.barAdvance_moves hp ha (moves_ite (Moves.refl _) (moves_ite (State.setBar_moves (hp.s rfl) (State.barPut_moves (hp.s rfl) (State.barPut_moves (hp.s rfl) (Moves.refl _)))) (Moves.refl _)))) (State.barPut_moves (hp.s rfl) (moves_ite (State.barPut_moves (hp.s rfl) (Moves.refl _)) (Moves.refl _)))) (moves_ite h₀ (State.barPut_moves (hp.s rfl) (State.barPut_moves (hp.s rfl) (State.barPut_moves (hp.s rfl) (State.barPut_moves (hp.s rfl) h₀))))))

theorem execAvBarCfgWrite_moves {s₀ : State} {b : Fin 64} {v : Word} {s : State} (hp : Parts [.regs, .engines, .mesh, .bars, .net, .elog, .outbox] ps) (ha : ∀ q, es q) (h₀ : Moves ps es s₀ s) :
    OutMoves ps es s₀ (execAvBarCfgWrite b v s) := by
  unfold execAvBarCfgWrite
  exact (outMoves_next (State.writeBarCfg_moves hp ha h₀))

theorem execSyncFence_moves {s₀ : State} {e : EngineId} {s : State} (hp : Parts [.engines] ps) (qe : es e) (h₀ : Moves ps es s₀ s) :
    OutMoves ps es s₀ (execSyncFence e s) := by
  unfold execSyncFence
  exact (State.syncOp_moves (hp.s rfl) h₀ (fun _ => (need_moves _ _ (outMoves_next (State.syncEnd_moves hp qe (State.setEng_moves hp qe h₀))))))

theorem execSyncBar_moves {s₀ : State} {e : EngineId} {s : State} (hp : Parts [.engines] ps) (qe : es e) (h₀ : Moves ps es s₀ s) :
    OutMoves ps es s₀ (execSyncBar e s) := by
  unfold execSyncBar
  exact (State.syncOp_moves (hp.s rfl) h₀ (fun _ => (need_moves _ _ (outMoves_ite (by (try dsimp only); split; exact (outMoves_ite (outMoves_next (State.syncEnd_moves hp qe h₀)) (outMoves_next (State.syncEnd_moves hp qe h₀))); exact (State.syncEpoch_moves hp qe h₀ (outMoves_next (State.barWait_moves hp qe h₀)))) (State.implicitFence_moves hp qe h₀ (fun _ h1 => (outMoves_next (State.setEntry_moves hp qe h1))))))))

theorem State.suspended_moves {s₀ s : State} {e : EngineId} (hp : Parts [.regs, .hints, .outbox] ps) (h₀ : Moves ps es s₀ s) :
    Moves ps es s₀ (State.suspended s e) := by
  unfold State.suspended
  exact (State.enterState_moves hp h₀)

theorem execYieldSuspend_moves {s₀ : State} {e : EngineId} {s : State} (hp : Parts [.regs, .engines, .hints, .outbox] ps) (qe : es e) (h₀ : Moves ps es s₀ s) :
    OutMoves ps es s₀ (execYieldSuspend e s) := by
  unfold execYieldSuspend
  exact (need_moves _ _ (needSome_moves _ _ fun _ _ => (need_moves _ _ (need_moves _ _ (outMoves_then (outMoves_ite (outMoves_then (outMoves_next (moves_ite (State.modEng_moves (hp.s rfl) qe (Moves.refl _)) (State.suspended_moves (hp.s rfl) (Moves.refl _)))) (State.put_moves (hp.s rfl) (Moves.refl _))) (outMoves_next (Moves.refl _))) (State.setEng_moves (hp.s rfl) qe h₀))))))

theorem State.cancelled_moves {s₀ s : State} {e : EngineId} (hp : Parts [.regs, .engines, .hints, .outbox] ps) (qe : es e) (h₀ : Moves ps es s₀ s) :
    Moves ps es s₀ (State.cancelled s e) := by
  unfold State.cancelled
  exact (State.enterState_moves (hp.s rfl) (State.put_moves (hp.s rfl) (State.modEng_moves (hp.s rfl) qe h₀)))

theorem execCancelDrained_moves {s₀ : State} {e : EngineId} {s : State} (hp : Parts [.regs, .engines, .hints, .outbox] ps) (qe : es e) (h₀ : Moves ps es s₀ s) :
    OutMoves ps es s₀ (execCancelDrained e s) := by
  unfold execCancelDrained
  exact (need_moves _ _ (need_moves _ _ (outMoves_next (State.cancelled_moves hp qe h₀))))

theorem State.ctxFault_moves {s₀ s : State} {e : EngineId} {c : Code} (hp : Parts [.regs, .engines, .hints, .elog, .outbox] ps) (qe : es e) (h₀ : Moves ps es s₀ s) :
    Moves ps es s₀ (State.ctxFault s e c) := by
  unfold State.ctxFault
  exact (State.fault_moves (hp.s rfl) (State.put_moves (hp.s rfl) (State.modEng_moves (hp.s rfl) qe h₀)))

theorem State.cancelEngine_moves {s₀ s : State} {e : EngineId} (hp : Parts [.regs, .engines, .hints, .outbox] ps) (qe : es e) (h₀ : Moves ps es s₀ s) :
    Moves ps es s₀ (State.cancelEngine s e) := by
  unfold State.cancelEngine
  exact (moves_ite (State.cancelled_moves hp qe h₀) (State.enterState_moves (hp.s rfl) (State.setEngBcs_moves (hp.s rfl) qe h₀)))

theorem State.resumeEngine_moves {s₀ s : State} {e : EngineId} (hp : Parts [.regs, .engines, .hints, .power, .outbox] ps) (qe : es e) (h₀ : Moves ps es s₀ s) :
    Moves ps es s₀ (State.resumeEngine s e) := by
  unfold State.resumeEngine
  exact (State.wake_moves (hp.s rfl) (State.enterState_moves (hp.s rfl) (moves_ite (State.modEng_moves (hp.s rfl) qe h₀) (State.modEng_moves (hp.s rfl) qe h₀))))

theorem State.startEngine_moves {s₀ s : State} {e : EngineId} (hp : Parts [.regs, .engines, .hints, .power, .outbox] ps) (qe : es e) (h₀ : Moves ps es s₀ s) :
    Moves ps es s₀ (State.startEngine s e) := by
  unfold State.startEngine
  exact (State.wake_moves (hp.s rfl) (State.enterState_moves (hp.s rfl) (State.setPc_moves (hp.s rfl) qe (State.modEng_moves (hp.s rfl) qe h₀))))

theorem State.engCommand_moves {s₀ s : State} {e : EngineId} {a2 : EngCmd} (hp : Parts [.regs, .engines, .hints, .power, .outbox] ps) (qe : es e) (h₀ : Moves ps es s₀ s) :
    Moves ps es s₀ (State.engCommand s e a2) := by
  unfold State.engCommand
  exact (by (try dsimp only); split; exact (State.cancelEngine_moves (hp.s rfl) qe h₀); exact (State.enterState_moves (hp.s rfl) (State.setReg_moves (hp.s rfl) h₀)); exact (State.enterState_moves (hp.s rfl) h₀); exact (State.resumeEngine_moves hp qe h₀); exact (State.startEngine_moves hp qe h₀))

theorem State.writeEngCtl_moves {s₀ s : State} {e : EngineId} {v : Nat} (hp : Parts [.regs, .engines, .hints, .power, .outbox] ps) (qe : es e) (h₀ : Moves ps es s₀ s) :
    Moves ps es s₀ (State.writeEngCtl s e v) := by
  unfold State.writeEngCtl
  exact (by (try dsimp only); split; exact (State.swFields_moves (hp.s rfl) h₀); exact (moves_then (moves_ite (State.engCommand_moves hp qe (Moves.refl _)) (Moves.refl _)) (moves_ite (State.swFields_moves (hp.s rfl) h₀) (State.put_moves (hp.s rfl) (State.swFields_moves (hp.s rfl) h₀)))))

theorem State.engRow_moves {s₀ s : State} {e : EngineId} {v : Word} {c : EngCmd} (hp : Parts [.regs, .engines, .hints, .power, .outbox] ps) (qe : es e) (h₀ : Moves ps es s₀ s) :
    OutMoves ps es s₀ (State.engRow s e v c) := by
  unfold State.engRow
  exact (need_moves _ _ (State.engReach_moves (hp.s rfl) h₀ (outMoves_next (State.writeEngCtl_moves hp qe h₀))))

theorem execEngResume_moves {s₀ : State} {e : EngineId} {v : Word} {s : State} (hp : Parts [.regs, .engines, .hints, .power, .outbox] ps) (qe : es e) (h₀ : Moves ps es s₀ s) :
    OutMoves ps es s₀ (execEngResume e v s) := by
  unfold execEngResume
  exact (State.engRow_moves hp qe h₀)

theorem State.writePgcmd_moves {s₀ s : State} {e : EngineId} {v : Nat} (hp : Parts [.regs, .engines, .power] ps) (qe : es e) (h₀ : Moves ps es s₀ s) :
    Moves ps es s₀ (State.writePgcmd s e v) := by
  unfold State.writePgcmd
  exact (moves_then (moves_ite (moves_ite (State.put_moves (hp.s rfl) (Moves.refl _)) (State.wake_moves (hp.s rfl) (State.put_moves (hp.s rfl) (State.modEng_moves (hp.s rfl) qe (Moves.refl _))))) (Moves.refl _)) (State.swFields_moves (hp.s rfl) h₀))

theorem execEngPgcmdGo_moves {s₀ : State} {e : EngineId} {v : Word} {s : State} (hp : Parts [.regs, .engines, .power] ps) (qe : es e) (h₀ : Moves ps es s₀ s) :
    OutMoves ps es s₀ (execEngPgcmdGo e v s) := by
  unfold execEngPgcmdGo
  exact (State.engReach_moves (hp.s rfl) h₀ (outMoves_next (State.writePgcmd_moves hp qe h₀)))

theorem execEngCancel_moves {s₀ : State} {e : EngineId} {v : Word} {s : State} (hp : Parts [.regs, .engines, .hints, .power, .outbox] ps) (qe : es e) (h₀ : Moves ps es s₀ s) :
    OutMoves ps es s₀ (execEngCancel e v s) := by
  unfold execEngCancel
  exact (State.engRow_moves hp qe h₀)

theorem execContextWriteDone_moves {s₀ : State} {e : EngineId} {r : Reply} {s : State} (hp : Parts [.regs, .mem, .engines, .hints, .marks, .squares, .elog, .outbox] ps) (qe : es e) (h₀ : Moves ps es s₀ s) :
    OutMoves ps es s₀ (execContextWriteDone e r s) := by
  unfold execContextWriteDone
  exact (need_moves _ _ (need_moves _ _ (outMoves_then (outMoves_ite (outMoves_next (State.modEng_moves (hp.s rfl) qe (Moves.refl _))) (outMoves_ite (outMoves_next (State.suspended_moves (hp.s rfl) (State.modEng_moves (hp.s rfl) qe (Moves.refl _)))) (outMoves_next (State.ctxFault_moves (hp.s rfl) qe (Moves.refl _))))) (State.drainWrite_moves (hp.s rfl) h₀))))

theorem execEngSuspend_moves {s₀ : State} {e : EngineId} {v : Word} {s : State} (hp : Parts [.regs, .engines, .hints, .power, .outbox] ps) (qe : es e) (h₀ : Moves ps es s₀ s) :
    OutMoves ps es s₀ (execEngSuspend e v s) := by
  unfold execEngSuspend
  exact (State.engRow_moves hp qe h₀)

theorem execContextReadDone_moves {s₀ : State} {e : EngineId} {r : Reply} {s : State} (hp : Parts [.regs, .engines, .hints, .marks, .squares, .elog, .outbox] ps) (qe : es e) (h₀ : Moves ps es s₀ s) :
    OutMoves ps es s₀ (execContextReadDone e r s) := by
  unfold execContextReadDone
  exact (need_moves _ _ (need_moves _ _ (need_moves _ _ (need_moves _ _ (outMoves_then (outMoves_ite (outMoves_next (State.modEng_moves (hp.s rfl) qe (Moves.refl _))) (outMoves_ite (outMoves_next (State.setPc_moves (hp.s rfl) qe (State.modEng_moves (hp.s rfl) qe (Moves.refl _)))) (outMoves_next (State.ctxFault_moves (hp.s rfl) qe (Moves.refl _))))) (State.noteReads_moves (hp.s rfl) h₀))))))

theorem execEngClear_moves {s₀ : State} {e : EngineId} {v : Word} {s : State} (hp : Parts [.regs, .engines, .hints, .power, .outbox] ps) (qe : es e) (h₀ : Moves ps es s₀ s) :
    OutMoves ps es s₀ (execEngClear e v s) := by
  unfold execEngClear
  exact (State.engRow_moves hp qe h₀)

theorem execEngStart_moves {s₀ : State} {e : EngineId} {v : Word} {s : State} (hp : Parts [.regs, .engines, .hints, .power, .outbox] ps) (qe : es e) (h₀ : Moves ps es s₀ s) :
    OutMoves ps es s₀ (execEngStart e v s) := by
  unfold execEngStart
  exact (State.engRow_moves hp qe h₀)

theorem execPageLoadDone_moves {s₀ : State} {e : EngineId} {r : Reply} {s : State} (hp : Parts [.regs, .engines, .marks, .squares, .elog] ps) (qe : es e) (h₀ : Moves ps es s₀ s) :
    OutMoves ps es s₀ (execPageLoadDone e r s) := by
  unfold execPageLoadDone
  exact (needSome_moves _ _ fun _ _ => (need_moves _ _ (need_moves _ _ (need_moves _ _ (outMoves_next (State.put_moves (hp.s rfl) (State.put_moves (hp.s rfl) (State.modEng_moves (hp.s rfl) qe (State.noteReads_moves (hp.s rfl) h₀)))))))))

theorem State.refreshAll_moves {s₀ s : State} (hp : Parts [.regs] ps) (h₀ : Moves ps es s₀ s) :
    Moves ps es s₀ (State.refreshAll s) := by
  unfold State.refreshAll
  exact (State.put_moves hp h₀)

theorem State.putApplied_moves {s₀ s : State} {u : Nat} {b : Bool} (hp : Parts [.regs] ps) (h₀ : Moves ps es s₀ s) :
    Moves ps es s₀ (State.putApplied s u b) := by
  unfold State.putApplied
  exact (State.refreshAll_moves hp (State.setReg_moves hp h₀))

theorem State.noteApplied_moves {s₀ s : State} {u : Nat} (hp : Parts [.regs] ps) (h₀ : Moves ps es s₀ s) :
    Moves ps es s₀ (State.noteApplied s u) := by
  unfold State.noteApplied
  exact (moves_then (moves_ite (State.putApplied_moves hp (Moves.refl _)) (Moves.refl _)) (State.put_moves hp h₀))

theorem State.openRow_moves {s₀ s : State} {e : EngineId} {b row : Nat} (hp : Parts [.banks] ps) (h₀ : Moves ps es s₀ s) :
    Moves ps es s₀ (State.openRow s e b row) := by
  unfold State.openRow
  exact (State.setBank_moves hp h₀)

theorem State.noteBank_moves {s₀ s : State} {e : EngineId} {b : Nat} {l : List (Nat × Nat)} (hp : Parts [.regs, .elog] ps) (h₀ : Moves ps es s₀ s) :
    Moves ps es s₀ (State.noteBank s e b l) := by
  unfold State.noteBank
  exact (moves_ite h₀ (State.noteWords_moves hp h₀))

theorem State.setBc_moves {s₀ s : State} {e : EngineId} {x : Broadcast} (hp : Parts [.regs, .engines] ps) (qe : es e) (h₀ : Moves ps es s₀ s) :
    Moves ps es s₀ (State.setBc s e x) := by
  unfold State.setBc
  exact (State.bauStatus_moves (hp.s rfl) (State.modEng_moves (hp.s rfl) qe h₀))

theorem State.bauError_moves {s₀ s : State} {e : EngineId} {x : Broadcast} {c : Code} {result : Bool} {bank row : Nat} (hp : Parts [.regs, .elog] ps) (h₀ : Moves ps es s₀ s) :
    Moves ps es s₀ (State.bauError s e x c result bank row) := by
  unfold State.bauError
  exact (moves_then (State.log_moves hp (moves_ite (Moves.refl _) (State.setReg_moves (hp.s rfl) (Moves.refl _)))) (State.count_moves (hp.s rfl) h₀))

theorem State.checkStep_moves {s₀ s : State} {e : EngineId} {x : Broadcast} {b : Nat} {err : Bool} (hp : Parts [.regs, .engines, .banks, .elog] ps) (qe : es e) (h₀ : Moves ps es s₀ s) :
    Moves ps es s₀ (State.checkStep s e x b err) := by
  unfold State.checkStep
  exact (by (try dsimp only); split; exact (State.setBc_moves (hp.s rfl) qe (State.openRow_moves (hp.s rfl) (State.noteBank_moves (hp.s rfl) h₀))); exact (State.setBc_moves (hp.s rfl) qe (State.bauError_moves (hp.s rfl) (State.openRow_moves (hp.s rfl) (State.noteBank_moves (hp.s rfl) h₀)))))

theorem State.applyBauMode_moves {s₀ s : State} {e : EngineId} (hp : Parts [.regs] ps) (h₀ : Moves ps es s₀ s) :
    Moves ps es s₀ (State.applyBauMode s e) := by
  unfold State.applyBauMode
  exact (State.noteApplied_moves hp (State.put_moves hp (State.put_moves hp h₀)))

theorem execBauWait_moves {s₀ : State} {e : EngineId} {s : State} (hp : Parts [.engines] ps) (qe : es e) (h₀ : Moves ps es s₀ s) :
    OutMoves ps es s₀ (execBauWait e s) := by
  unfold execBauWait
  exact (needSome_moves _ _ fun _ _ => (need_moves _ _ (need_moves _ _ (by (try dsimp only); split; exact (outMoves_next (State.setEntry_moves hp qe h₀)); exact (outMoves_next (State.setEng_moves hp qe h₀))))))

theorem execBauModeApply_moves {s₀ : State} {e : EngineId} {s : State} (hp : Parts [.regs] ps) (h₀ : Moves ps es s₀ s) :
    OutMoves ps es s₀ (execBauModeApply e s) := by
  unfold execBauModeApply
  exact (need_moves _ _ (outMoves_next (State.applyBauMode_moves hp h₀)))

theorem State.endBc_moves {s₀ s : State} {e : EngineId} {x : Broadcast} (hp : Parts [.regs, .engines] ps) (qe : es e) (h₀ : Moves ps es s₀ s) :
    Moves ps es s₀ (State.endBc s e x) := by
  unfold State.endBc
  exact (State.bauStatus_moves (hp.s rfl) (State.count_moves (hp.s rfl) (State.modEng_moves (hp.s rfl) qe h₀)))

theorem State.bcComplete_moves {s₀ s : State} {e : EngineId} {id : Nat} {c : Code} {detail : Nat} (hp : Parts [.engines] ps) (qe : es e) (h₀ : Moves ps es s₀ s) :
    Moves ps es s₀ (State.bcComplete s e id c detail) := by
  unfold State.bcComplete
  exact (State.modEng_moves hp qe h₀)

theorem execCheckPassDone_moves {s₀ : State} {e : EngineId} {s : State} (hp : Parts [.regs, .engines] ps) (qe : es e) (h₀ : Moves ps es s₀ s) :
    OutMoves ps es s₀ (execCheckPassDone e s) := by
  unfold execCheckPassDone
  exact (needSome_moves _ _ fun _ _ => (by (try dsimp only); split; exact (outMoves_next (State.endBc_moves hp qe (State.bcComplete_moves (hp.s rfl) qe h₀))); exact (outMoves_next (State.endBc_moves hp qe (State.bcComplete_moves (hp.s rfl) qe h₀))); exact (outMoves_next (State.setBc_moves hp qe h₀))))

theorem State.present_moves {s₀ s : State} {e : EngineId} {op : Nat} (hp : Parts [.engines] ps) (qe : es e) (h₀ : Moves ps es s₀ s) :
    OutMoves ps es s₀ (State.present s e op) := by
  unfold State.present
  exact (needSome_moves _ _ fun _ _ => (need_moves _ _ (need_moves _ _ (need_moves _ _ (need_moves _ _ (outMoves_next (State.setEntry_moves hp qe h₀)))))))

theorem execBauOpt_moves {s₀ : State} {e : EngineId} {s : State} (hp : Parts [.engines] ps) (qe : es e) (h₀ : Moves ps es s₀ s) :
    OutMoves ps es s₀ (execBauOpt e s) := by
  unfold execBauOpt
  exact (State.present_moves hp qe h₀)

theorem execBauDqt_moves {s₀ : State} {e : EngineId} {s : State} (hp : Parts [.engines] ps) (qe : es e) (h₀ : Moves ps es s₀ s) :
    OutMoves ps es s₀ (execBauDqt e s) := by
  unfold execBauDqt
  exact (State.present_moves hp qe h₀)

theorem State.bauDeliver_moves {s₀ s : State} {e : EngineId} {x : Broadcast} {bank : Nat} {c : Code} {core : Nat} (hp : Parts [.engines] ps) (qe : es e) (h₀ : Moves ps es s₀ s) :
    Moves ps es s₀ (State.bauDeliver s e x bank c core) := by
  unfold State.bauDeliver
  exact (moves_ite h₀ (State.modEng_moves hp qe h₀))

theorem State.resultFail_moves {s₀ s : State} {e : EngineId} {x : Broadcast} {c : Code} (hp : Parts [.regs, .engines, .elog] ps) (qe : es e) (h₀ : Moves ps es s₀ s) :
    Moves ps es s₀ (State.resultFail s e x c) := by
  unfold State.resultFail
  exact (State.bauDeliver_moves (hp.s rfl) qe (State.bauError_moves (hp.s rfl) h₀))

theorem execOptRecordUpdate_moves {s₀ : State} {e : EngineId} {s : State} (hp : Parts [.regs, .mem, .engines, .marks, .squares, .elog] ps) (qe : es e) (h₀ : Moves ps es s₀ s) :
    OutMoves ps es s₀ (execOptRecordUpdate e s) := by
  unfold execOptRecordUpdate
  exact (needSome_moves _ _ fun _ _ => (need_moves _ _ (by (try dsimp only); split; exact (outMoves_next (State.endBc_moves (hp.s rfl) qe (moves_ite (State.writeSpan_moves (hp.s rfl) (State.noteSpan_moves (hp.s rfl) h₀)) (State.resultFail_moves (hp.s rfl) qe (State.writeSpan_moves (hp.s rfl) (State.noteSpan_moves (hp.s rfl) h₀)))))); exact (outMoves_next (State.endBc_moves (hp.s rfl) qe (State.resultFail_moves (hp.s rfl) qe (State.noteSpan_moves (hp.s rfl) h₀)))))))

theorem State.settleBc_moves {s₀ s : State} {e : EngineId} {x : Broadcast} (hp : Parts [.regs, .engines] ps) (qe : es e) (h₀ : Moves ps es s₀ s) :
    Moves ps es s₀ (State.settleBc s e x) := by
  unfold State.settleBc
  exact (moves_ite (State.endBc_moves hp qe h₀) (State.setBc_moves hp qe h₀))

theorem execWaveRelease_moves {s₀ : State} {e : EngineId} {s : State} (hp : Parts [.regs, .engines] ps) (qe : es e) (h₀ : Moves ps es s₀ s) :
    OutMoves ps es s₀ (execWaveRelease e s) := by
  unfold execWaveRelease
  exact (needSome_moves _ _ fun _ _ => (outMoves_ite (outMoves_next (State.settleBc_moves hp qe (State.bcComplete_moves (hp.s rfl) qe h₀))) (outMoves_next (State.setBc_moves hp qe h₀))))

theorem execBauBusTransfer_moves {s₀ : State} {e : EngineId} {layer : Fin 4} {s : State} (hp : Parts [.regs, .engines] ps) (qe : es e) (h₀ : Moves ps es s₀ s) :
    OutMoves ps es s₀ (execBauBusTransfer e layer s) := by
  unfold execBauBusTransfer
  exact (needSome_moves _ _ fun _ _ => (by (try dsimp only); split; exact (outMoves_next (State.setBc_moves hp qe h₀)); exact (outMoves_next (State.setBc_moves hp qe h₀)); exact (outMoves_next (State.setBc_moves hp qe h₀)); exact (outMoves_refused _ _)))

theorem execBauCountsRead_moves {s₀ : State} {e : EngineId} {s : State} (hp : Parts [.regs] ps) (h₀ : Moves ps es s₀ s) :
    OutMoves ps es s₀ (execBauCountsRead e s) := by
  unfold execBauCountsRead
  exact (outMoves_next (State.swRead_moves hp h₀))

theorem execBauAdd_moves {s₀ : State} {e : EngineId} {s : State} (hp : Parts [.engines] ps) (qe : es e) (h₀ : Moves ps es s₀ s) :
    OutMoves ps es s₀ (execBauAdd e s) := by
  unfold execBauAdd
  exact (State.present_moves hp qe h₀)

theorem State.sourceStep_moves {s₀ s : State} {e : EngineId} {x : Broadcast} {c : Nat} {err : Bool} (hp : Parts [.regs, .engines, .banks, .elog] ps) (qe : es e) (h₀ : Moves ps es s₀ s) :
    Moves ps es s₀ (State.sourceStep s e x c err) := by
  unfold State.sourceStep
  exact (by (try dsimp only); split; exact (State.setBc_moves (hp.s rfl) qe (State.openRow_moves (hp.s rfl) (State.noteBank_moves (hp.s rfl) h₀))); exact (State.settleBc_moves (hp.s rfl) qe (State.bauDeliver_moves (hp.s rfl) qe (State.bauError_moves (hp.s rfl) (State.openRow_moves (hp.s rfl) (State.noteBank_moves (hp.s rfl) h₀))))))

theorem State.bankWrite_moves {s₀ s : State} {e : EngineId} {b : Nat} {l : List (Nat × List Byte)} (hp : Parts [.regs, .mem, .marks, .squares] ps) (h₀ : Moves ps es s₀ s) :
    Moves ps es s₀ (State.bankWrite s e b l) := by
  unfold State.bankWrite
  exact (Moves.foldl _ h₀ fun _ _ h1 => (State.clearMarks_moves (hp.s rfl) (State.storeKeys_moves (hp.s rfl) h1)))

theorem execLandingRecallDone_moves {s₀ : State} {e : EngineId} {s : State} (hp : Parts [.regs, .engines, .marks, .squares] ps) (qe : es e) (h₀ : Moves ps es s₀ s) :
    OutMoves ps es s₀ (execLandingRecallDone e s) := by
  unfold execLandingRecallDone
  exact (needSome_moves _ _ fun _ _ => (need_moves _ _ (outMoves_next (State.setBc_moves (hp.s rfl) qe (State.dropLines_moves (hp.s rfl) h₀)))))

theorem State.mainStep_moves {s₀ s : State} {e : EngineId} {x : Broadcast} {b : Nat} {err : Bool} (hp : Parts [.regs, .mem, .engines, .banks, .marks, .squares, .elog] ps) (qe : es e) (h₀ : Moves ps es s₀ s) :
    Moves ps es s₀ (State.mainStep s e x b err) := by
  unfold State.mainStep
  exact (by (try dsimp only); split; exact (State.settleBc_moves (hp.s rfl) qe (State.bankWrite_moves (hp.s rfl) (State.openRow_moves (hp.s rfl) (State.noteBank_moves (hp.s rfl) h₀)))); exact (State.settleBc_moves (hp.s rfl) qe (State.bauDeliver_moves (hp.s rfl) qe (State.bauError_moves (hp.s rfl) (State.openRow_moves (hp.s rfl) (State.noteBank_moves (hp.s rfl) h₀))))))

theorem execBauAxpy_moves {s₀ : State} {e : EngineId} {s : State} (hp : Parts [.engines] ps) (qe : es e) (h₀ : Moves ps es s₀ s) :
    OutMoves ps es s₀ (execBauAxpy e s) := by
  unfold execBauAxpy
  exact (State.present_moves hp qe h₀)

theorem execBauStep_moves {s₀ : State} {e : EngineId} {b : BankId} {err : StepErr} {s : State} (hp : Parts [.regs, .mem, .engines, .banks, .marks, .squares, .elog] ps) (qe : es e) (h₀ : Moves ps es s₀ s) :
    OutMoves ps es s₀ (execBauStep e b err s) := by
  unfold execBauStep
  exact (need_moves _ _ (need_moves _ _ (needSome_moves _ _ fun _ _ => (need_moves _ _ (by (try dsimp only); split; exact (outMoves_next (State.checkStep_moves (hp.s rfl) qe h₀)); exact (outMoves_ite (outMoves_next (State.mainStep_moves hp qe h₀)) (outMoves_next (State.sourceStep_moves (hp.s rfl) qe h₀))))))))

theorem execBauQnt_moves {s₀ : State} {e : EngineId} {s : State} (hp : Parts [.engines] ps) (qe : es e) (h₀ : Moves ps es s₀ s) :
    OutMoves ps es s₀ (execBauQnt e s) := by
  unfold execBauQnt
  exact (State.present_moves hp qe h₀)

theorem execBauCopy_moves {s₀ : State} {e : EngineId} {s : State} (hp : Parts [.engines] ps) (qe : es e) (h₀ : Moves ps es s₀ s) :
    OutMoves ps es s₀ (execBauCopy e s) := by
  unfold execBauCopy
  exact (State.present_moves hp qe h₀)

theorem execBauMaxabs_moves {s₀ : State} {e : EngineId} {s : State} (hp : Parts [.engines] ps) (qe : es e) (h₀ : Moves ps es s₀ s) :
    OutMoves ps es s₀ (execBauMaxabs e s) := by
  unfold execBauMaxabs
  exact (State.present_moves hp qe h₀)

theorem execBroadcastAccept_moves {s₀ : State} {e : EngineId} {s : State} (hp : Parts [.regs, .engines, .marks, .squares, .elog] ps) (qe : es e) (h₀ : Moves ps es s₀ s) :
    OutMoves ps es s₀ (execBroadcastAccept e s) := by
  unfold execBroadcastAccept
  exact (needSome_moves _ _ fun _ _ => (need_moves _ _ (need_moves _ _ (outMoves_ite (outMoves_next (State.setEntry_moves (hp.s rfl) qe h₀)) (by (try dsimp only); split; exact (outMoves_refused _ _); exact (outMoves_next (State.setEntry_moves (hp.s rfl) qe (State.count_moves (hp.s rfl) h₀))); exact (need_moves _ _ (by (try dsimp only); split; exact (outMoves_next (State.setEntry_moves (hp.s rfl) qe h₀)); exact (outMoves_ite (outMoves_next (State.setEntry_moves (hp.s rfl) qe (State.noteReads_moves (hp.s rfl) h₀))) (outMoves_ite (outMoves_next (State.setEntry_moves (hp.s rfl) qe (State.noteReads_moves (hp.s rfl) h₀))) (outMoves_ite (outMoves_next (State.setEntry_moves (hp.s rfl) qe (State.noteReads_moves (hp.s rfl) h₀))) (outMoves_ite (outMoves_next (State.setEntry_moves (hp.s rfl) qe (State.noteReads_moves (hp.s rfl) h₀))) (outMoves_next (State.bauStatus_moves (hp.s rfl) (State.modEng_moves (hp.s rfl) qe (State.noteReads_moves (hp.s rfl) h₀)))))))))))))))

theorem execBauResultWrite_moves {s₀ : State} {e : EngineId} {s : State} (hp : Parts [.regs, .mem, .engines, .marks, .squares, .elog] ps) (qe : es e) (h₀ : Moves ps es s₀ s) :
    OutMoves ps es s₀ (execBauResultWrite e s) := by
  unfold execBauResultWrite
  exact (needSome_moves _ _ fun _ _ => (need_moves _ _ (outMoves_next (State.endBc_moves (hp.s rfl) qe (moves_ite (State.writeSpan_moves (hp.s rfl) h₀) (State.resultFail_moves (hp.s rfl) qe (State.writeSpan_moves (hp.s rfl) h₀)))))))

theorem execBauFill_moves {s₀ : State} {e : EngineId} {s : State} (hp : Parts [.engines] ps) (qe : es e) (h₀ : Moves ps es s₀ s) :
    OutMoves ps es s₀ (execBauFill e s) := by
  unfold execBauFill
  exact (State.present_moves hp qe h₀)

theorem execBauScale_moves {s₀ : State} {e : EngineId} {s : State} (hp : Parts [.engines] ps) (qe : es e) (h₀ : Moves ps es s₀ s) :
    OutMoves ps es s₀ (execBauScale e s) := by
  unfold execBauScale
  exact (State.present_moves hp qe h₀)

theorem execBauSum_moves {s₀ : State} {e : EngineId} {s : State} (hp : Parts [.engines] ps) (qe : es e) (h₀ : Moves ps es s₀ s) :
    OutMoves ps es s₀ (execBauSum e s) := by
  unfold execBauSum
  exact (State.present_moves hp qe h₀)

theorem State.scrubNext_moves {s₀ s : State} {e : EngineId} (hp : Parts [.regs, .scrubAt] ps) (h₀ : Moves ps es s₀ s) :
    Moves ps es s₀ (State.scrubNext s e) := by
  unfold State.scrubNext
  exact (moves_ite (Moves.litE rfl h₀ (.refl _) (.refl _) (.refl _) (.refl _) (.refl _) (.refl _) (.refl _) (.refl _) (fun _ h => h) (List.prefix_refl _) (Nat.le_refl _) (fun p hn => by cases p <;> first | exact absurd (hp.m rfl) hn | (simp only [Part.Same]; done) | exact rfl)) (moves_then (moves_ite (State.put_moves (hp.s rfl) (Moves.refl _)) (State.bump_moves (hp.s rfl) (State.put_moves (hp.s rfl) (Moves.refl _)))) (Moves.litE rfl h₀ (.refl _) (.refl _) (.refl _) (.refl _) (.refl _) (.refl _) (.refl _) (.refl _) (fun _ h => h) (List.prefix_refl _) (Nat.le_refl _) (fun p hn => by cases p <;> first | exact absurd (hp.m rfl) hn | (simp only [Part.Same]; done) | exact rfl))))

theorem State.scrubWord_moves {s₀ s : State} {e : EngineId} {w : Nat} (hp : Parts [.regs, .marks, .elog] ps) (h₀ : Moves ps es s₀ s) :
    Moves ps es s₀ (State.scrubWord s e w) := by
  unfold State.scrubWord
  exact (by (try dsimp only); split; exact (State.count_moves (hp.s rfl) (State.setMark_moves (hp.s rfl) h₀)); exact (State.log_moves (hp.s rfl) (State.noteErr_moves (hp.s rfl) (State.count_moves (hp.s rfl) h₀))); exact h₀)

theorem execScrubRead_moves {s₀ : State} {e : EngineId} {b : BankId} {ups : List Upset} {s : State} (hp : Parts [.regs, .banks, .marks, .scrubAt, .elog] ps) (h₀ : Moves ps es s₀ s) :
    OutMoves ps es s₀ (execScrubRead e b ups s) := by
  unfold execScrubRead
  exact (need_moves _ _ (need_moves _ _ (need_moves _ _ (need_moves _ _ (by (try dsimp only); split; exact (outMoves_next (State.scrubNext_moves (hp.s rfl) h₀)); exact (outMoves_then (outMoves_next (State.scrubNext_moves (hp.s rfl) (State.setBank_moves (hp.s rfl) (moves_ite (State.logEvent_moves (hp.s rfl) (Moves.refl _)) (Moves.refl _))))) (Moves.foldl _ (State.upsets_moves (hp.s rfl) h₀) fun _ _ h2 => (State.scrubWord_moves (hp.s rfl) h2))))))))

end Sys2Proof.Machine
end

