-- ==== Sys2Proof/Laws/MovesLinks.lean ====
section
/-! SUPPORT. What the operations of Mesh, Training, Links can do: each is a move. -/
namespace Sys2Proof.Machine
variable {ps : List Part} {es : EngineId → Prop}

theorem execAvDiscardRead_moves {s₀ : State} {k : SquareId} {s : State} (hp : Parts [.regs] ps) (h₀ : Moves ps es s₀ s) :
    OutMoves ps es s₀ (execAvDiscardRead k s) := by
  unfold execAvDiscardRead
  exact (outMoves_next (State.swRead_moves hp h₀))

theorem State.park_moves {s₀ s : State} {k : SquareId} {r : MemReq} {region : RegionId} (hp : Parts [.regs, .parked, .power] ps) (h₀ : Moves ps es s₀ s) :
    Moves ps es s₀ (State.park s k r region) := by
  unfold State.park
  exact (Moves.litE rfl (State.wake_moves (hp.s rfl) h₀) (.refl _) (.refl _) (.refl _) (.refl _) (.refl _) (.refl _) (.refl _) (.refl _) (fun _ h => h) (List.prefix_refl _) (Nat.le_refl _) (fun p hn => by cases p <;> first | exact absurd (hp.m rfl) hn | (simp only [Part.Same]; done) | exact rfl))

theorem State.withEpoch_moves {s₀ s : State} {k : SquareId} {r : MemReq} {t : Target} {go : Option State} (hp : Parts [.regs, .mesh, .outbox] ps) (h₀ : Moves ps es s₀ s) (hgo : OptMoves ps es s₀ go) :
    OptMoves ps es s₀ (State.withEpoch s k r t go) := by
  unfold State.withEpoch
  exact (by (try dsimp only); split; exact (optMoves_none _); exact (optMoves_some (State.answer_moves hp h₀)); exact hgo)

theorem State.serveSpan_moves {s₀ s : State} {r : MemReq} (hp : Parts [.regs, .mem, .marks, .squares, .mesh, .elog, .outbox] ps) (h₀ : Moves ps es s₀ s) :
    Moves ps es s₀ (State.serveSpan s r) := by
  unfold State.serveSpan
  exact (by (try dsimp only); split; exact (State.answer_moves (hp.s rfl) (State.noteSpan_moves (hp.s rfl) h₀)); exact (State.answer_moves (hp.s rfl) (State.writeSpan_moves (hp.s rfl) h₀)))

theorem State.deliverRequest_moves {s₀ s : State} {k : SquareId} {r : MemReq} (hp : Parts [.regs, .mem, .marks, .landq, .squares, .mesh, .parked, .power, .elog, .outbox] ps) (h₀ : Moves ps es s₀ s) :
    OptMoves ps es s₀ (State.deliverRequest s k r) := by
  unfold State.deliverRequest
  exact (by (try dsimp only); split; exact (optMoves_some (State.answer_moves (hp.s rfl) h₀)); exact (optMoves_some (State.answer_moves (hp.s rfl) h₀)); exact (optMoves_ite (optMoves_some (State.answer_moves (hp.s rfl) h₀)) (optMoves_ite (optMoves_some (State.answer_moves (hp.s rfl) h₀)) (optMoves_ite (optMoves_none _) (State.withEpoch_moves (hp.s rfl) h₀ (optMoves_some (moves_ite (State.serve_moves (hp.s rfl) h₀) (State.park_moves (hp.s rfl) h₀))))))); exact (optMoves_ite (optMoves_some (State.answer_moves (hp.s rfl) h₀)) (State.withEpoch_moves (hp.s rfl) h₀ (optMoves_ite (optMoves_none _) (optMoves_some (moves_ite (State.serve_moves (hp.s rfl) h₀) (State.park_moves (hp.s rfl) h₀)))))); exact (optMoves_ite (optMoves_some (State.answer_moves (hp.s rfl) h₀)) (optMoves_ite (optMoves_none _) (State.withEpoch_moves (hp.s rfl) h₀ (optMoves_ite (optMoves_some (State.park_moves (hp.s rfl) h₀)) (optMoves_ite (optMoves_none _) (optMoves_some (moves_ite (State.squareDram_moves (hp.s rfl) h₀) (State.serveSpan_moves (hp.s rfl) h₀)))))))))

theorem State.unmesh_moves {s₀ s : State} {p : MeshPkt} (hp : Parts [.mesh] ps) (h₀ : Moves ps es s₀ s) :
    Moves ps es s₀ (State.unmesh s p) := by
  unfold State.unmesh
  exact (Moves.litE rfl h₀ (.refl _) (.refl _) (.refl _) (.refl _) (.refl _) (.refl _) (.refl _) (.refl _) (fun _ h => h) (List.prefix_refl _) (Nat.le_refl _) (fun p hn => by cases p <;> first | exact absurd (hp.m rfl) hn | (simp only [Part.Same]; done) | exact rfl))

theorem State.deliverPkt_moves {s₀ s : State} {k : SquareId} {plane : Fin 2} {a3 : MeshBody} (hp : Parts [.regs, .mem, .marks, .landq, .squares, .mesh, .parked, .power, .net, .elog, .outbox] ps) (h₀ : Moves ps es s₀ s) :
    OptMoves ps es s₀ (State.deliverPkt s k plane a3) := by
  unfold State.deliverPkt
  exact (by (try dsimp only); split; exact (optMoves_some (State.emit_moves (hp.s rfl) h₀)); exact (optMoves_some (State.sendCpl_moves (hp.s rfl) h₀)); exact (optMoves_some (State.complete_moves (hp.s rfl) h₀)); exact (optMoves_ite (State.deliverRequest_moves (hp.s rfl) h₀) (optMoves_ite (optMoves_some (State.originate_moves (hp.s rfl) h₀)) (optMoves_none _))); exact (optMoves_none _))

theorem State.movePkt_moves {s₀ s : State} {p : MeshPkt} (hp : Parts [.regs, .mem, .marks, .landq, .squares, .mesh, .parked, .power, .net, .elog, .outbox] ps) (h₀ : Moves ps es s₀ s) :
    OptMoves ps es s₀ (State.movePkt s p) := by
  unfold State.movePkt
  exact (optMoves_ite (State.deliverPkt_moves hp (State.unmesh_moves (hp.s rfl) h₀)) (optMoves_some (Moves.litE rfl (State.unmesh_moves (hp.s rfl) h₀) (.refl _) (.refl _) (.refl _) (.refl _) (.refl _) (.refl _) (.refl _) (.refl _) (fun _ h => h) (List.prefix_refl _) (Nat.le_refl _) (fun p hn => by cases p <;> first | exact absurd (hp.m rfl) hn | (simp only [Part.Same]; done) | exact rfl))))

theorem State.leftOf_moves {s₀ s : State} {p : MeshPkt} {rest : List Nat} (hp : Parts [.mesh] ps) (h₀ : Moves ps es s₀ s) :
    Moves ps es s₀ (State.leftOf s p rest) := by
  unfold State.leftOf
  exact (by (try dsimp only); split; exact (moves_ite (State.unmesh_moves hp h₀) (Moves.litE rfl h₀ (.refl _) (.refl _) (.refl _) (.refl _) (.refl _) (.refl _) (.refl _) (.refl _) (fun _ h => h) (List.prefix_refl _) (Nat.le_refl _) (fun p hn => by cases p <;> first | exact absurd (hp.m rfl) hn | (simp only [Part.Same]; done) | exact rfl))); exact h₀)

theorem State.branchPkt_moves {s₀ s : State} {k : SquareId} {p : MeshPkt} (hp : Parts [.regs, .mem, .marks, .landq, .squares, .mesh, .parked, .power, .elog, .outbox] ps) (h₀ : Moves ps es s₀ s) :
    OptMoves ps es s₀ (State.branchPkt s k p) := by
  unfold State.branchPkt
  split
  · split
    · exact optMoves_some (State.unmesh_moves (hp.s rfl) h₀)
    · extract_lets mine s'
      refine optMoves_ite (optMoves_findSome fun n => ?_) ?_
      · intro t e
        obtain ⟨u, hu, rfl⟩ := Option.map_eq_some_iff.mp e
        exact State.leftOf_moves (hp.s rfl) (State.deliverRequest_moves hp h₀ u hu)
      · have h1 : Moves ps es s₀ s' := State.leftOf_moves (hp.s rfl) h₀
        clear_value s'
        exact optMoves_some (Moves.litE rfl h1 (.refl _) (.refl _) (.refl _) (.refl _) (.refl _) (.refl _) (.refl _) (.refl _) (fun _ h => h) (List.prefix_refl _) (Nat.le_refl _) (fun p hn => by cases p <;> first | exact absurd (hp.m rfl) hn | (simp only [Part.Same]; done) | exact rfl))
  · exact optMoves_none _

theorem execMulticastBranch_moves {s₀ : State} {k : SquareId} {plane : Fin 2} {p : Option MeshPkt} {s : State} (hp : Parts [.regs, .mem, .marks, .landq, .squares, .mesh, .parked, .power, .elog, .outbox] ps) (h₀ : Moves ps es s₀ s) :
    OutMoves ps es s₀ (execMulticastBranch k plane p s) := by
  unfold execMulticastBranch
  split
  · exact need_moves _ _ (outMoves_next (Moves.litE rfl h₀ (.refl _) (.refl _) (.refl _) (.refl _) (.refl _) (.refl _) (.refl _) (.refl _) (fun _ h => h) (List.prefix_refl _) (Nat.le_refl _) (fun p hn => by cases p <;> first | exact absurd (hp.m rfl) hn | (simp only [Part.Same]; done) | exact rfl)))
  · exact needSome_moves _ _ fun t e => outMoves_next (optMoves_findSome (fun _ => State.branchPkt_moves hp h₀) t e)

theorem State.noteTurn_moves {s₀ s : State} {k : SquareId} {plane : Fin 2} {out inp : MeshPort} {cls : Nat} (hp : Parts [.net] ps) (h₀ : Moves ps es s₀ s) :
    Moves ps es s₀ (State.noteTurn s k plane out inp cls) := by
  unfold State.noteTurn
  exact (Moves.litE rfl h₀ (.refl _) (.refl _) (.refl _) (.refl _) (.refl _) (.refl _) (.refl _) (.refl _) (fun _ h => h) (List.prefix_refl _) (Nat.le_refl _) (fun p hn => by cases p <;> first | exact absurd (hp.m rfl) hn | (simp only [Part.Same]; done) | exact rfl))

theorem State.routerMove_moves {s₀ s : State} {k : SquareId} {plane : Fin 2} {q : MeshPkt × State} (hp : Parts [.regs, .mem, .marks, .landq, .squares, .mesh, .parked, .power, .net, .elog, .outbox] ps) (h₀ : Moves ps es s₀ s)
    (e : s.routerMove k plane = some q) : Moves ps es s₀ q.2 := by
  obtain ⟨a, -, ha⟩ := List.exists_of_findSome?_eq_some e
  obtain ⟨u, hu, rfl⟩ := Option.map_eq_some_iff.mp ha
  exact State.noteTurn_moves (hp.s rfl) (State.movePkt_moves hp h₀ u hu)

theorem execMeshPacket_moves {s₀ : State} {k : SquareId} {plane : Fin 2} {p : Option MeshPkt} {s : State} (hp : Parts [.regs, .mem, .marks, .landq, .squares, .mesh, .parked, .power, .net, .elog, .outbox] ps) (h₀ : Moves ps es s₀ s) :
    OutMoves ps es s₀ (execMeshPacket k plane p s) := by
  unfold execMeshPacket
  split
  · exact need_moves _ _ (outMoves_next (Moves.litE rfl h₀ (.refl _) (.refl _) (.refl _) (.refl _) (.refl _) (.refl _) (.refl _) (.refl _) (fun _ h => h) (List.prefix_refl _) (Nat.le_refl _) (fun p hn => by cases p <;> first | exact absurd (hp.m rfl) hn | (simp only [Part.Same]; done) | exact rfl)))
  · exact needSome_moves _ _ fun _ e => outMoves_next (State.routerMove_moves hp h₀ e)

theorem execDeliveredResetTimeout_moves {s₀ : State} {e : EngineId} {s : State} (hp : Parts [.regs, .mesh, .parked, .outbox] ps) (h₀ : Moves ps es s₀ s) :
    OutMoves ps es s₀ (execDeliveredResetTimeout e s) := by
  unfold execDeliveredResetTimeout
  exact (need_moves _ _ (outMoves_next (Moves.foldl _ (Moves.litE rfl h₀ (.refl _) (.refl _) (.refl _) (.refl _) (.refl _) (.refl _) (.refl _) (.refl _) (fun _ h => h) (List.prefix_refl _) (Nat.le_refl _) (fun p hn => by cases p <;> first | exact absurd (hp.m rfl) hn | (simp only [Part.Same]; done) | exact rfl)) fun _ _ h2 => (by (try dsimp only); split; exact (State.answer_moves (hp.s rfl) h2); exact h2))))

theorem State.unpark_moves {s₀ s : State} {p : MeshPkt → Bool} (hp : Parts [.regs, .mem, .marks, .landq, .squares, .mesh, .parked, .power, .elog, .outbox] ps) (h₀ : Moves ps es s₀ s) :
    Moves ps es s₀ (State.unpark s p) := by
  unfold State.unpark
  exact (Moves.foldl _ (Moves.litE rfl h₀ (.refl _) (.refl _) (.refl _) (.refl _) (.refl _) (.refl _) (.refl _) (.refl _) (fun _ h => h) (List.prefix_refl _) (Nat.le_refl _) (fun p hn => by cases p <;> first | exact absurd (hp.m rfl) hn | (simp only [Part.Same]; done) | exact rfl)) fun _ _ h2 => (by (try dsimp only); split; exact (optMoves_getD (State.deliverRequest_moves hp h2) (Moves.litE rfl h2 (.refl _) (.refl _) (.refl _) (.refl _) (.refl _) (.refl _) (.refl _) (.refl _) (fun _ h => h) (List.prefix_refl _) (Nat.le_refl _) (fun p hn => by cases p <;> first | exact absurd (hp.m rfl) hn | (simp only [Part.Same]; done) | exact rfl))); exact h2))

theorem State.refreshXw_moves {s₀ s : State} {k : SquareId} (hp : Parts [.regs] ps) (h₀ : Moves ps es s₀ s) :
    Moves ps es s₀ (State.refreshXw s k) := by
  unfold State.refreshXw
  exact (State.setReg_moves hp (State.setReg_moves hp h₀))

theorem State.refreshAllXw_moves {s₀ s : State} (hp : Parts [.regs] ps) (h₀ : Moves ps es s₀ s) :
    Moves ps es s₀ (State.refreshAllXw s) := by
  unfold State.refreshAllXw
  exact (Moves.foldl _ h₀ fun _ _ h1 => (State.refreshXw_moves hp h1))

theorem execXwMarginLow_moves {s₀ : State} {k : SquareId} {i : Fin 7} {b : Fin 16} {margin : BitVec 6} {s : State} (hp : Parts [.regs, .margins, .elog] ps) (h₀ : Moves ps es s₀ s) :
    OutMoves ps es s₀ (execXwMarginLow k i b margin s) := by
  unfold execXwMarginLow
  exact (need_moves _ _ (need_moves _ _ (outMoves_next (State.logEvent_moves (hp.s rfl) (State.refreshXw_moves (hp.s rfl) (Moves.litE rfl h₀ (.refl _) (.refl _) (.refl _) (.refl _) (.refl _) (.refl _) (Edits.set (.refl _) _ _) (.refl _) (fun _ h => h) (List.prefix_refl _) (Nat.le_refl _) (fun p hn => by cases p <;> first | exact absurd (hp.m rfl) hn | (simp only [Part.Same]; done) | exact rfl)))))))

theorem State.clearTap_moves {s₀ s : State} {key : Nat} (hp : Parts [.taps, .margins] ps) (h₀ : Moves ps es s₀ s) :
    Moves ps es s₀ (State.clearTap s key) := by
  unfold State.clearTap
  exact (Moves.litE rfl h₀ (.refl _) (.refl _) (.refl _) (.refl _) (.refl _) (Edits.set (.refl _) _ _) (Edits.set (.refl _) _ _) (.refl _) (fun _ h => h) (List.prefix_refl _) (Nat.le_refl _) (fun p hn => by cases p <;> first | exact absurd (hp.m rfl) hn | (simp only [Part.Same]; done) | exact rfl))

theorem State.bundleFails_moves {s₀ s : State} {k : SquareId} {i b step : Nat} (hp : Parts [.regs, .taps, .margins, .elog] ps) (h₀ : Moves ps es s₀ s) :
    Moves ps es s₀ (State.bundleFails s k i b step) := by
  unfold State.bundleFails
  exact (State.logEvent_moves (hp.s rfl) (State.clearTap_moves (hp.s rfl) h₀))

theorem State.setTap_moves {s₀ s : State} {key tap margin : Nat} (hp : Parts [.taps, .margins] ps) (h₀ : Moves ps es s₀ s) :
    Moves ps es s₀ (State.setTap s key tap margin) := by
  unfold State.setTap
  exact (Moves.litE rfl h₀ (.refl _) (.refl _) (.refl _) (.refl _) (.refl _) (Edits.set (.refl _) _ _) (Edits.set (.refl _) _ _) (.refl _) (fun _ h => h) (List.prefix_refl _) (Nat.le_refl _) (fun p hn => by cases p <;> first | exact absurd (hp.m rfl) hn | (simp only [Part.Same]; done) | exact rfl))

theorem State.calibrate_moves {s₀ s : State} {k : SquareId} {i b step mask : Nat} (hp : Parts [.regs, .taps, .margins, .elog] ps) (h₀ : Moves ps es s₀ s) :
    Moves ps es s₀ (State.calibrate s k i b step mask) := by
  unfold State.calibrate
  exact (by (try dsimp only); split; exact (State.setTap_moves (hp.s rfl) h₀); exact (State.bundleFails_moves hp h₀))

theorem State.calibrateFree_moves {s₀ s : State} {k : SquareId} {i b step : Nat} (hp : Parts [.regs, .taps, .margins, .elog, .drawn] ps) (h₀ : Moves ps es s₀ s) :
    Moves ps es s₀ (State.calibrateFree s k i b step) := by
  unfold State.calibrateFree
  exact (State.draw_moves (hp.s rfl) (State.calibrate_moves (hp.s rfl) h₀))

theorem State.putPort_moves {s₀ s : State} {p : PortId} {st : Nat} (hp : Parts [.regs] ps) (h₀ : Moves ps es s₀ s) :
    Moves ps es s₀ (State.putPort s p st) := by
  unfold State.putPort
  exact (State.put_moves hp h₀)

theorem State.emptyPort_moves {s₀ s : State} {p : PortId} (hp : Parts [.regs, .mesh, .net, .elog, .outbox] ps) (h₀ : Moves ps es s₀ s) :
    Moves ps es s₀ (State.emptyPort s p) := by
  unfold State.emptyPort
  exact (State.failOuts_moves (hp.s rfl) (Moves.foldl _ (State.put_moves (hp.s rfl) (State.put_moves (hp.s rfl) (State.setPort_moves (hp.s rfl) h₀))) fun _ _ h3 => (State.sendOut_moves hp h3)))

theorem State.sendNotice_moves {s₀ s : State} {b : Nat} {p : PortId} (hp : Parts [.regs, .net, .elog, .outbox] ps) (h₀ : Moves ps es s₀ s) :
    Moves ps es s₀ (State.sendNotice s b p) := by
  unfold State.sendNotice
  exact (moves_ite (State.enqueue_moves hp h₀) h₀)

theorem State.loseBlock_moves {s₀ s : State} {b : Nat} {onPort : Option PortId} (hp : Parts [.regs, .engines, .mesh, .watches, .net, .elog, .outbox] ps) (ha : ∀ q, es q) (h₀ : Moves ps es s₀ s) :
    Moves ps es s₀ (State.loseBlock s b onPort) := by
  unfold State.loseBlock
  exact (moves_then (moves_ite (Moves.refl _) (State.emit_moves (hp.s rfl) (State.log_moves (hp.s rfl) (State.endWaits_moves (hp.s rfl) ha (State.roundaboutLost_moves (hp.s rfl) ha (State.failOuts_moves (hp.s rfl) (Moves.foldl _ (State.setReg_moves (hp.s rfl) (Moves.refl _)) fun _ _ h3 => (State.sendNotice_moves (hp.s rfl) h3)))))))) (Moves.litE rfl h₀ (.refl _) (.refl _) (.refl _) (.refl _) (.refl _) (.refl _) (.refl _) (.refl _) (fun _ h => h) (List.prefix_refl _) (Nat.le_refl _) (fun p hn => by cases p <;> first | exact absurd (hp.m rfl) hn | (simp only [Part.Same]; done) | exact rfl)))

theorem State.losePort_moves {s₀ s : State} {p : PortId} {cause : Nat} {down : Option Bool} (hp : Parts [.regs, .engines, .mesh, .watches, .net, .elog, .outbox] ps) (ha : ∀ q, es q) (h₀ : Moves ps es s₀ s) :
    Moves ps es s₀ (State.losePort s p cause down) := by
  unfold State.losePort
  exact (moves_then (moves_then (moves_ite (moves_ite (State.loseBlock_moves hp ha (Moves.refl _)) (moves_ite (Moves.refl _) (Moves.litE rfl (Moves.refl _) (.refl _) (.refl _) (.refl _) (.refl _) (.refl _) (.refl _) (.refl _) (.refl _) (fun _ h => h) (List.prefix_refl _) (Nat.le_refl _) (fun p hn => by cases p <;> first | exact absurd (hp.m rfl) hn | (simp only [Part.Same]; done) | exact rfl)))) (Moves.refl _)) (State.emit_moves (hp.s rfl) (State.log_moves (hp.s rfl) (moves_ite (State.put_moves (hp.s rfl) (Moves.refl _)) (Moves.refl _))))) (State.emptyPort_moves (hp.s rfl) (State.put_moves (hp.s rfl) (State.put_moves (hp.s rfl) (State.putPort_moves (hp.s rfl) (by (try dsimp only); split; exact (moves_ite (State.sendCtl_moves (hp.s rfl) h₀) h₀); exact h₀))))))

theorem execNoFlitTimeout_moves {s₀ : State} {p : PortId} {s : State} (hp : Parts [.regs, .engines, .mesh, .watches, .net, .elog, .outbox] ps) (ha : ∀ q, es q) (h₀ : Moves ps es s₀ s) :
    OutMoves ps es s₀ (execNoFlitTimeout p s) := by
  unfold execNoFlitTimeout
  exact (need_moves _ _ (outMoves_next (State.losePort_moves hp ha h₀)))

theorem State.newKeys_moves {s₀ s : State} {p : PortId} {m h : Hello} {k : LinkKey × LinkKey} (hp : Parts [.net] ps) (h₀ : Moves ps es s₀ s) :
    Moves ps es s₀ (State.newKeys s p m h k) := by
  unfold State.newKeys
  exact (State.setPort_moves hp h₀)

theorem State.sayFinish_moves {s₀ s : State} {p : PortId} {h : Hello} (hp : Parts [.outbox, .sec] ps) (h₀ : Moves ps es s₀ s) :
    Moves ps es s₀ (State.sayFinish s p h) := by
  unfold State.sayFinish
  exact (by (try dsimp only); split; exact (State.emit_moves (hp.s rfl) (State.noteSigned_moves (hp.s rfl) h₀)); exact h₀)

theorem State.sayHello_moves {s₀ s : State} {p : PortId} (hp : Parts [.net, .outbox, .drawn] ps) (h₀ : Moves ps es s₀ s) :
    Moves ps es s₀ (State.sayHello s p) := by
  unfold State.sayHello
  exact (State.emit_moves (hp.s rfl) (State.draw_moves (hp.s rfl) (State.setPort_moves (hp.s rfl) h₀)))

theorem State.train_moves {s₀ s : State} {p : PortId} (hp : Parts [.regs, .net] ps) (h₀ : Moves ps es s₀ s) :
    Moves ps es s₀ (State.train s p) := by
  unfold State.train
  exact (moves_ite (State.putPort_moves (hp.s rfl) h₀) (State.bump_moves (hp.s rfl) (State.putPort_moves (hp.s rfl) (State.setPort_moves (hp.s rfl) h₀))))

theorem execHoldoffExpiry_moves {s₀ : State} {p : PortId} {s : State} (hp : Parts [.regs, .net] ps) (h₀ : Moves ps es s₀ s) :
    OutMoves ps es s₀ (execHoldoffExpiry p s) := by
  unfold execHoldoffExpiry
  exact (need_moves _ _ (outMoves_next (State.train_moves hp h₀)))

theorem State.activate_moves {s₀ s : State} {p : PortId} {h : Hello} {k : LinkKey × LinkKey} (hp : Parts [.regs, .net] ps) (h₀ : Moves ps es s₀ s) :
    Moves ps es s₀ (State.activate s p h k) := by
  unfold State.activate
  exact (State.putPort_moves (hp.s rfl) (State.put_moves (hp.s rfl) (State.put_moves (hp.s rfl) (State.put_moves (hp.s rfl) (State.put_moves (hp.s rfl) (State.setPort_moves (hp.s rfl) h₀))))))

theorem State.rekey_moves {s₀ s : State} {p : PortId} (hp : Parts [.net, .outbox, .drawn] ps) (h₀ : Moves ps es s₀ s) :
    Moves ps es s₀ (State.rekey s p) := by
  unfold State.rekey
  exact (moves_ite (State.sayHello_moves hp (State.setPort_moves (hp.s rfl) h₀)) h₀)

theorem execKeyPhaseAdvance_moves {s₀ : State} {p : PortId} {s : State} (hp : Parts [.net] ps) (h₀ : Moves ps es s₀ s) :
    OutMoves ps es s₀ (execKeyPhaseAdvance p s) := by
  unfold execKeyPhaseAdvance
  exact (need_moves _ _ (outMoves_next (State.setPort_moves hp h₀)))

theorem State.putLanes_moves {s₀ s : State} {p : PortId} {rx tx : List Nat} (hp : Parts [.regs, .net] ps) (h₀ : Moves ps es s₀ s) :
    Moves ps es s₀ (State.putLanes s p rx tx) := by
  unfold State.putLanes
  exact (State.put_moves (hp.s rfl) (State.put_moves (hp.s rfl) (State.put_moves (hp.s rfl) (State.put_moves (hp.s rfl) (State.setPort_moves (hp.s rfl) h₀)))))

theorem State.toAlign_moves {s₀ s : State} {p : PortId} {half : Bool} {rx tx : List Nat} {eq : List Byte} (hp : Parts [.regs, .net] ps) (h₀ : Moves ps es s₀ s) :
    Moves ps es s₀ (State.toAlign s p half rx tx eq) := by
  unfold State.toAlign
  exact (State.putPort_moves (hp.s rfl) (State.putLanes_moves hp (State.setPort_moves (hp.s rfl) h₀)))

theorem State.laneMap_moves {s₀ s : State} {p : PortId} {rx tx : List Nat} (hp : Parts [.regs, .engines, .mesh, .watches, .net, .elog, .outbox, .drawn] ps) (ha : ∀ q, es q) (h₀ : Moves ps es s₀ s) :
    Moves ps es s₀ (State.laneMap s p rx tx) := by
  unfold State.laneMap
  exact (moves_then (moves_ite (State.toAlign_moves (hp.s rfl) (Moves.refl _)) (moves_ite (State.toAlign_moves (hp.s rfl) (Moves.refl _)) (State.setPort_moves (hp.s rfl) (State.losePort_moves (hp.s rfl) ha (Moves.refl _))))) (State.draw_moves (hp.s rfl) h₀))

theorem State.disablePort_moves {s₀ s : State} {p : PortId} (hp : Parts [.regs, .mesh, .net, .elog, .outbox] ps) (h₀ : Moves ps es s₀ s) :
    Moves ps es s₀ (State.disablePort s p) := by
  unfold State.disablePort
  exact (moves_then (moves_ite (State.put_moves (hp.s rfl) (Moves.refl _)) (Moves.refl _)) (State.emptyPort_moves hp (State.put_moves (hp.s rfl) (State.putPort_moves (hp.s rfl) h₀))))

theorem State.enablePort_moves {s₀ s : State} {p : PortId} {on : Bool} (hp : Parts [.regs, .mesh, .net, .elog, .outbox] ps) (h₀ : Moves ps es s₀ s) :
    Moves ps es s₀ (State.enablePort s p on) := by
  unfold State.enablePort
  exact (moves_then (moves_ite (Moves.refl _) (moves_ite (State.train_moves (hp.s rfl) (Moves.refl _)) (State.disablePort_moves hp (Moves.refl _)))) (State.put_moves (hp.s rfl) h₀))

theorem execPlDisable_moves {s₀ : State} {p : PortId} {s : State} (hp : Parts [.regs, .mesh, .net, .elog, .outbox] ps) (h₀ : Moves ps es s₀ s) :
    OutMoves ps es s₀ (execPlDisable p s) := by
  unfold execPlDisable
  exact (outMoves_next (State.enablePort_moves hp h₀))

theorem State.downPort_moves {s₀ s : State} {p : PortId} (hp : Parts [.regs, .engines, .mesh, .watches, .net, .elog, .outbox] ps) (ha : ∀ q, es q) (h₀ : Moves ps es s₀ s) :
    Moves ps es s₀ (State.downPort s p) := by
  unfold State.downPort
  exact (moves_ite (State.losePort_moves hp ha h₀) h₀)

theorem execPlDown_moves {s₀ : State} {p : PortId} {s : State} (hp : Parts [.regs, .engines, .mesh, .watches, .net, .elog, .outbox] ps) (ha : ∀ q, es q) (h₀ : Moves ps es s₀ s) :
    OutMoves ps es s₀ (execPlDown p s) := by
  unfold execPlDown
  exact (outMoves_next (State.downPort_moves hp ha h₀))

theorem execElectricalDone_moves {s₀ : State} {p : PortId} {rxBad txBad : List (Fin 34)} {memoOk : Bool} {s : State} (hp : Parts [.regs, .engines, .mesh, .watches, .net, .elog, .outbox, .drawn] ps) (ha : ∀ q, es q) (h₀ : Moves ps es s₀ s) :
    OutMoves ps es s₀ (execElectricalDone p rxBad txBad memoOk s) := by
  unfold execElectricalDone
  exact (need_moves _ _ (outMoves_ite (outMoves_ite (outMoves_next (State.toAlign_moves (hp.s rfl) h₀)) (outMoves_next (State.setPort_moves (hp.s rfl) h₀))) (outMoves_next (State.laneMap_moves hp ha h₀))))

theorem State.startRepair_moves {s₀ s : State} {p : PortId} {i : Nat} (hp : Parts [.regs, .net, .elog, .outbox] ps) (h₀ : Moves ps es s₀ s) :
    Moves ps es s₀ (State.startRepair s p i) := by
  unfold State.startRepair
  exact (by (try dsimp only); split; exact (State.sendCtl_moves hp (State.put_moves (hp.s rfl) (State.setPort_moves (hp.s rfl) h₀))); exact (moves_ite (State.sendCtl_moves hp (State.setPort_moves (hp.s rfl) h₀)) h₀))

theorem execLaneErrorWindow_moves {s₀ : State} {p : PortId} {s : State} (hp : Parts [.regs, .net, .elog, .outbox] ps) (h₀ : Moves ps es s₀ s) :
    OutMoves ps es s₀ (execLaneErrorWindow p s) := by
  unfold execLaneErrorWindow
  exact (need_moves _ _ (by (try dsimp only); split; exact (outMoves_ite (outMoves_next (State.setPort_moves (hp.s rfl) h₀)) (outMoves_next (State.startRepair_moves hp (State.setPort_moves (hp.s rfl) h₀)))); exact (outMoves_next (State.setPort_moves (hp.s rfl) h₀))))

theorem execFinish_moves {s₀ : State} {p : PortId} {sig : List Byte} {s : State} (hp : Parts [.regs, .engines, .mesh, .watches, .net, .elog, .outbox] ps) (ha : ∀ q, es q) (h₀ : Moves ps es s₀ s) :
    OutMoves ps es s₀ (execFinish p sig s) := by
  unfold execFinish
  exact (needSome_moves _ _ fun _ _ => (needSome_moves _ _ fun _ _ => (need_moves _ _ (by (try dsimp only); split; exact (outMoves_ite (outMoves_next (State.losePort_moves hp ha h₀)) (outMoves_ite (outMoves_next (State.newKeys_moves (hp.s rfl) h₀)) (outMoves_next (State.activate_moves (hp.s rfl) h₀)))); exact (outMoves_next (State.losePort_moves hp ha h₀))))))

theorem execHello_moves {s₀ : State} {p : PortId} {h : Hello} {s : State} (hp : Parts [.regs, .engines, .mesh, .watches, .net, .elog, .outbox, .drawn, .sec] ps) (ha : ∀ q, es q) (h₀ : Moves ps es s₀ s) :
    OutMoves ps es s₀ (execHello p h s) := by
  unfold execHello
  exact (need_moves _ _ (outMoves_ite (outMoves_next (State.sayFinish_moves (hp.s rfl) (State.setPort_moves (hp.s rfl) (State.rekey_moves (hp.s rfl) h₀)))) (outMoves_next (State.losePort_moves (hp.s rfl) ha h₀))))

theorem execRekeyTimer_moves {s₀ : State} {p : PortId} {s : State} (hp : Parts [.net, .outbox, .drawn] ps) (h₀ : Moves ps es s₀ s) :
    OutMoves ps es s₀ (execRekeyTimer p s) := by
  unfold execRekeyTimer
  exact (need_moves _ _ (outMoves_next (State.rekey_moves hp h₀)))

theorem execLaneSwitch_moves {s₀ : State} {p : PortId} {s : State} (hp : Parts [.regs, .net, .elog] ps) (h₀ : Moves ps es s₀ s) :
    OutMoves ps es s₀ (execLaneSwitch p s) := by
  unfold execLaneSwitch
  exact (needSome_moves _ _ fun _ _ => (need_moves _ _ (by (try dsimp only); split; exact (outMoves_next (State.logRepair_moves (hp.s rfl) (State.put_moves (hp.s rfl) (State.mapOut_moves (hp.s rfl) (State.setPort_moves (hp.s rfl) h₀))))); exact (outMoves_next (State.logRepair_moves (hp.s rfl) (State.goHalf_moves (hp.s rfl) (State.setPort_moves (hp.s rfl) h₀)))))))

theorem execAlignDone_moves {s₀ : State} {p : PortId} {ok : Bool} {asym : Time16} {s : State} (hp : Parts [.regs, .engines, .mesh, .watches, .net, .elog, .outbox, .drawn] ps) (ha : ∀ q, es q) (h₀ : Moves ps es s₀ s) :
    OutMoves ps es s₀ (execAlignDone p ok asym s) := by
  unfold execAlignDone
  exact (need_moves _ _ (outMoves_ite (outMoves_next (State.losePort_moves (hp.s rfl) ha h₀)) (outMoves_ite (outMoves_next (State.losePort_moves (hp.s rfl) ha h₀)) (outMoves_next (State.sayHello_moves (hp.s rfl) (State.putPort_moves (hp.s rfl) (State.setPort_moves (hp.s rfl) h₀)))))))

theorem execPlRekey_moves {s₀ : State} {p : PortId} {s : State} (hp : Parts [.net, .outbox, .drawn] ps) (h₀ : Moves ps es s₀ s) :
    OutMoves ps es s₀ (execPlRekey p s) := by
  unfold execPlRekey
  exact (outMoves_next (State.rekey_moves hp h₀))

theorem State.writePlCtl_moves {s₀ s : State} {p : PortId} {v : Nat} (hp : Parts [.regs, .engines, .mesh, .watches, .net, .elog, .outbox, .drawn] ps) (ha : ∀ q, es q) (h₀ : Moves ps es s₀ s) :
    Moves ps es s₀ (State.writePlCtl s p v) := by
  unfold State.writePlCtl
  exact (moves_then (moves_then (moves_ite (State.rekey_moves (hp.s rfl) (Moves.refl _)) (Moves.refl _)) (moves_ite (State.downPort_moves (hp.s rfl) ha (Moves.refl _)) (Moves.refl _))) (State.enablePort_moves (hp.s rfl) (State.put_moves (hp.s rfl) (State.put_moves (hp.s rfl) h₀))))

theorem execPlEnable_moves {s₀ : State} {p : PortId} {s : State} (hp : Parts [.regs, .mesh, .net, .elog, .outbox] ps) (h₀ : Moves ps es s₀ s) :
    OutMoves ps es s₀ (execPlEnable p s) := by
  unfold execPlEnable
  exact (outMoves_next (State.enablePort_moves hp h₀))

theorem State.replay_moves {s₀ s : State} {p : PortId} (hp : Parts [.regs, .engines, .mesh, .watches, .net, .elog, .outbox] ps) (ha : ∀ q, es q) (h₀ : Moves ps es s₀ s) :
    Moves ps es s₀ (State.replay s p) := by
  unfold State.replay
  exact (moves_ite (State.losePort_moves hp ha h₀) (Moves.foldl _ (State.setPort_moves (hp.s rfl) (moves_ite (State.sendIdle_moves (hp.s rfl) h₀) h₀)) fun _ _ h3 => (State.transmit_moves (hp.s rfl) h3)))

theorem State.discardFlit_moves {s₀ s : State} {p : PortId} {badTag : Bool} (hp : Parts [.regs, .engines, .mesh, .watches, .net, .elog, .outbox] ps) (ha : ∀ q, es q) (h₀ : Moves ps es s₀ s) :
    Moves ps es s₀ (State.discardFlit s p badTag) := by
  unfold State.discardFlit
  exact (moves_then (moves_ite (moves_then (moves_ite (State.losePort_moves hp ha (Moves.refl _)) (Moves.refl _)) (State.setPort_moves (hp.s rfl) (State.count_moves (hp.s rfl) (Moves.refl _)))) (Moves.refl _)) (moves_ite h₀ (State.sendIdle_moves (hp.s rfl) (State.count_moves (hp.s rfl) (State.setPort_moves (hp.s rfl) h₀)))))

theorem State.tollFail_moves {s₀ s : State} {p : PortId} {kind src addr : Nat} (hp : Parts [.regs, .net, .elog] ps) (h₀ : Moves ps es s₀ s) :
    Moves ps es s₀ (State.tollFail s p kind src addr) := by
  unfold State.tollFail
  exact (moves_then (moves_then (moves_ite (Moves.refl _) (State.log_moves (hp.s rfl) (State.setPort_moves (hp.s rfl) (Moves.refl _)))) (moves_ite (Moves.refl _) (State.setReg_moves (hp.s rfl) (Moves.refl _)))) (State.count_moves (hp.s rfl) h₀))

theorem execTollCountRead_moves {s₀ : State} {p : PortId} {s : State} (hp : Parts [.regs] ps) (h₀ : Moves ps es s₀ s) :
    OutMoves ps es s₀ (execTollCountRead p s) := by
  unfold execTollCountRead
  exact (outMoves_next (State.swRead_moves hp h₀))

theorem State.freeCells_moves {s₀ s : State} {p : PortId} {k : Pkt} (hp : Parts [.net] ps) (h₀ : Moves ps es s₀ s) :
    Moves ps es s₀ (State.freeCells s p k) := by
  unfold State.freeCells
  exact (State.setPort_moves hp h₀)

theorem State.passPkt_moves {s₀ s : State} {p : PortId} {k : Pkt} (hp : Parts [.regs, .mesh, .net, .elog, .outbox] ps) (h₀ : Moves ps es s₀ s) :
    Moves ps es s₀ (State.passPkt s p k) := by
  unfold State.passPkt
  exact (moves_ite (moves_ite (State.setPort_moves (hp.s rfl) h₀) (moves_ite (State.setPort_moves (hp.s rfl) h₀) (State.emit_moves (hp.s rfl) (State.freeCells_moves (hp.s rfl) h₀)))) (State.sendOut_moves hp (State.freeCells_moves (hp.s rfl) h₀)))

theorem State.writeTollRate_moves {s₀ s : State} {p : PortId} {v : Nat} (hp : Parts [.regs] ps) (h₀ : Moves ps es s₀ s) :
    Moves ps es s₀ (State.writeTollRate s p v) := by
  unfold State.writeTollRate
  exact (State.setReg_moves hp h₀)

theorem State.dequeue_moves {s₀ s : State} {p : PortId} {k : Pkt} {rest : List Pkt} (hp : Parts [.net] ps) (h₀ : Moves ps es s₀ s) :
    Moves ps es s₀ (State.dequeue s p k rest) := by
  unfold State.dequeue
  exact (State.freeCells_moves hp (State.setPort_moves hp h₀))

theorem execProbeAnswer_moves {s₀ : State} {src : BlockId} {s : State} (hp : Parts [.net] ps) (h₀ : Moves ps es s₀ s) :
    OutMoves ps es s₀ (execProbeAnswer src s) := by
  unfold execProbeAnswer
  exact (outMoves_next (Moves.litE rfl h₀ (.refl _) (.refl _) (.refl _) (.refl _) (.refl _) (.refl _) (.refl _) (.refl _) (fun _ h => h) (List.prefix_refl _) (Nat.le_refl _) (fun p hn => by cases p <;> first | exact absurd (hp.m rfl) hn | (simp only [Part.Same]; done) | exact rfl)))

theorem State.takePkt_moves {s₀ s : State} {p : PortId} {k : Pkt} (hp : Parts [.regs, .mesh, .net, .elog, .outbox] ps) (h₀ : Moves ps es s₀ s) :
    Moves ps es s₀ (State.takePkt s p k) := by
  unfold State.takePkt
  exact (by (try dsimp only); split; exact (State.passPkt_moves hp (State.setPort_moves (hp.s rfl) h₀)); exact (moves_then (moves_ite (Moves.refl _) (State.freeCells_moves (hp.s rfl) (State.setPort_moves (hp.s rfl) (Moves.refl _)))) (State.tollFail_moves (hp.s rfl) h₀)); exact (State.sendCpl_moves hp (State.tollFail_moves (hp.s rfl) (State.freeCells_moves (hp.s rfl) (State.setPort_moves (hp.s rfl) h₀)))))

theorem State.takePkts_moves {s₀ s : State} {p : PortId} {area : List Byte} {n : Nat} (hp : Parts [.regs, .mesh, .net, .elog, .outbox] ps) (h₀ : Moves ps es s₀ s) :
    Moves ps es s₀ (s.takePkts p area n) := by
  induction n generalizing s area with
  | zero => exact h₀
  | succ n ih =>
    unfold State.takePkts
    split
    · exact moves_ite h₀ (State.tollFail_moves (hp.s rfl) h₀)
    · exact moves_ite (ih (State.takePkt_moves hp h₀)) (State.tollFail_moves (hp.s rfl) h₀)

theorem State.takeCtl_moves {s₀ s : State} {p : PortId} {m : LinkCtl} (hp : Parts [.regs, .engines, .mesh, .watches, .net, .elog, .outbox] ps) (ha : ∀ q, es q) (h₀ : Moves ps es s₀ s) :
    Moves ps es s₀ (State.takeCtl s p m) := by
  unfold State.takeCtl
  exact (by (try dsimp only); split; exact (State.losePort_moves hp ha h₀); exact (State.setPort_moves (hp.s rfl) h₀); exact h₀)

theorem State.flitBody_moves {s₀ s : State} {p : PortId} {ftype : Nat} {area : List Byte} (hp : Parts [.regs, .engines, .mesh, .watches, .net, .elog, .outbox] ps) (ha : ∀ q, es q) (h₀ : Moves ps es s₀ s) :
    Moves ps es s₀ (State.flitBody s p ftype area) := by
  unfold State.flitBody
  exact (by (try dsimp only); split; exact (State.takePkts_moves (hp.s rfl) h₀); exact (State.takeCtl_moves hp ha h₀); exact h₀)

theorem State.acceptFlit_moves {s₀ s : State} {p : PortId} {x : Port} {f : FlitHdr} {area : List Byte} (hp : Parts [.regs, .engines, .mesh, .watches, .net, .elog, .outbox] ps) (ha : ∀ q, es q) (h₀ : Moves ps es s₀ s) :
    Moves ps es s₀ (State.acceptFlit s p x f area) := by
  unfold State.acceptFlit
  exact (moves_then (moves_then (moves_ite (State.flushPort_moves (hp.s rfl) (State.flitBody_moves hp ha (Moves.refl _))) (Moves.refl _)) (moves_ite (State.replay_moves hp ha (Moves.refl _)) (Moves.refl _))) (State.setPort_moves (hp.s rfl) h₀))

theorem State.takeFlit_moves {s₀ s : State} {p : PortId} {flit : List Byte} (hp : Parts [.regs, .engines, .mesh, .watches, .net, .elog, .outbox] ps) (ha : ∀ q, es q) (h₀ : Moves ps es s₀ s) :
    Moves ps es s₀ (State.takeFlit s p flit) := by
  unfold State.takeFlit
  exact (moves_ite (by (try dsimp only); split; exact (State.acceptFlit_moves hp ha h₀); exact (State.discardFlit_moves hp ha h₀); exact (State.discardFlit_moves hp ha h₀)) (moves_ite (by (try dsimp only); split; exact (State.losePort_moves hp ha h₀); exact h₀) h₀))

theorem State.takeWord_moves {s₀ s : State} {p : PortId} {bits : LaneBits} {c : Nat} (hp : Parts [.regs, .engines, .mesh, .watches, .net, .elog, .outbox] ps) (ha : ∀ q, es q) (h₀ : Moves ps es s₀ s) :
    Moves ps es s₀ (State.takeWord s p bits c) := by
  unfold State.takeWord
  exact (by (try dsimp only); split; exact (moves_then (moves_ite (State.discardFlit_moves hp ha (Moves.refl _)) (Moves.refl _)) (State.count_moves (hp.s rfl) h₀)); exact (State.takeFlit_moves hp ha (State.count_moves (hp.s rfl) (State.setPort_moves (hp.s rfl) h₀))))

theorem execRemoteCompletion_moves {s₀ : State} {p : PortId} {s : State} (hp : Parts [.regs, .mesh, .net, .outbox] ps) (h₀ : Moves ps es s₀ s) :
    OutMoves ps es s₀ (execRemoteCompletion p s) := by
  unfold execRemoteCompletion
  exact (by (try dsimp only); split; exact (outMoves_refused _ _); exact (by (try dsimp only); split; exact (outMoves_next (State.pieceDone_moves hp (State.freeCells_moves (hp.s rfl) (State.setPort_moves (hp.s rfl) h₀)))); exact (outMoves_next (State.freeCells_moves (hp.s rfl) (State.setPort_moves (hp.s rfl) h₀)))))

theorem execProbeTimeout_moves {s₀ : State} {b : BlockId} {s : State} (hp : Parts [.regs, .engines, .mesh, .watches, .net, .elog, .outbox] ps) (ha : ∀ q, es q) (h₀ : Moves ps es s₀ s) :
    OutMoves ps es s₀ (execProbeTimeout b s) := by
  unfold execProbeTimeout
  exact (need_moves _ _ (outMoves_next (State.loseBlock_moves hp ha h₀)))

theorem execPlRetryRead_moves {s₀ : State} {p : PortId} {s : State} (hp : Parts [.regs] ps) (h₀ : Moves ps es s₀ s) :
    OutMoves ps es s₀ (execPlRetryRead p s) := by
  unfold execPlRetryRead
  exact (outMoves_next (State.swRead_moves hp h₀))

theorem execCreditReturn_moves {s₀ : State} {p : PortId} {cls : Fin 5} {vc : Bool} {cells : BitVec 11} {s : State} (hp : Parts [.regs, .net, .elog, .outbox] ps) (h₀ : Moves ps es s₀ s) :
    OutMoves ps es s₀ (execCreditReturn p cls vc cells s) := by
  unfold execCreditReturn
  exact (need_moves _ _ (need_moves _ _ (need_moves _ _ (outMoves_next (State.sendIdle_moves hp (State.setPort_moves (hp.s rfl) h₀))))))

theorem execIdleFlit_moves {s₀ : State} {p : PortId} {s : State} (hp : Parts [.regs, .net, .elog, .outbox] ps) (h₀ : Moves ps es s₀ s) :
    OutMoves ps es s₀ (execIdleFlit p s) := by
  unfold execIdleFlit
  exact (need_moves _ _ (outMoves_next (State.sendIdle_moves hp h₀)))

theorem State.moveNow_moves {s₀ s : State} {p : MeshPkt} (hp : Parts [.regs, .mem, .marks, .landq, .squares, .mesh, .parked, .power, .net, .elog, .outbox] ps) (h₀ : Moves ps es s₀ s) :
    Moves ps es s₀ (State.moveNow s p) := by
  unfold State.moveNow
  split
  · rename_i q e
    exact moves_ite (State.routerMove_moves hp h₀ e) h₀
  · exact h₀

theorem State.answerNow_moves {s₀ s : State} {k : SquareId} {r : MemReq} (hp : Parts [.regs, .mem, .marks, .landq, .squares, .mesh, .parked, .power, .net, .elog, .outbox] ps) (h₀ : Moves ps es s₀ s) :
    Moves ps es s₀ (State.answerNow s k r) := by
  unfold State.answerNow
  exact (by (try dsimp only); split; exact (State.moveNow_moves hp h₀); exact h₀)

theorem execBlockLost_moves {s₀ : State} {b : BlockId} {onPort : Option PortId} {s : State} (hp : Parts [.regs, .engines, .mesh, .watches, .net, .elog, .outbox] ps) (ha : ∀ q, es q) (h₀ : Moves ps es s₀ s) :
    OutMoves ps es s₀ (execBlockLost b onPort s) := by
  unfold execBlockLost
  exact (outMoves_next (State.loseBlock_moves hp ha h₀))

theorem execFlitReceive_moves {s₀ : State} {p : PortId} {bits : LaneBits} {s : State} (hp : Parts [.regs, .engines, .mesh, .watches, .net, .elog, .outbox] ps) (ha : ∀ q, es q) (h₀ : Moves ps es s₀ s) :
    OutMoves ps es s₀ (execFlitReceive p bits s) := by
  unfold execFlitReceive
  exact (need_moves _ _ (outMoves_next (State.setPort_moves (hp.s rfl) (State.takeWord_moves hp ha (State.takeWord_moves hp ha h₀)))))

theorem State.writeTwinWin_moves {s₀ s : State} {v : Nat} (hp : Parts [.regs] ps) (h₀ : Moves ps es s₀ s) :
    Moves ps es s₀ (State.writeTwinWin s v) := by
  unfold State.writeTwinWin
  exact (State.swWrite_moves hp h₀)

theorem execPlTwinWinWrite_moves {s₀ : State} {v : Word} {s : State} (hp : Parts [.regs] ps) (h₀ : Moves ps es s₀ s) :
    OutMoves ps es s₀ (execPlTwinWinWrite v s) := by
  unfold execPlTwinWinWrite
  exact (outMoves_next (State.writeTwinWin_moves hp h₀))

theorem State.admit_moves {s₀ s : State} {r : MemReq} {k : SquareId} (hp : Parts [.regs, .mem, .marks, .landq, .squares, .mesh, .parked, .power, .net, .elog, .outbox] ps) (h₀ : Moves ps es s₀ s) :
    Moves ps es s₀ (State.takeIn s r k) := by
  unfold State.takeIn
  exact (State.answerNow_moves hp (State.moveNow_moves hp (Moves.litE rfl h₀ (.refl _) (.refl _) (.refl _) (.refl _) (.refl _) (.refl _) (.refl _) (.refl _) (fun _ h => h) (List.prefix_refl _) (Nat.le_refl _) (fun p hn => by cases p <;> first | exact absurd (hp.m rfl) hn | (simp only [Part.Same]; done) | exact rfl))))

theorem State.serveInbound_moves {s₀ s : State} {p : PortId} {k : Pkt} {rest : List Pkt} {a4 : Option (SquareId × MeshPort)} (hp : Parts [.regs, .mem, .marks, .landq, .squares, .mesh, .parked, .power, .net, .elog, .outbox] ps) (h₀ : Moves ps es s₀ s) :
    OutMoves ps es s₀ (State.serveInbound s p k rest a4) := by
  unfold State.serveInbound
  exact (by (try dsimp only); split; exact (outMoves_next (State.sendCpl_moves (hp.s rfl) (State.dequeue_moves (hp.s rfl) h₀))); exact (need_moves _ _ (outMoves_next (State.admit_moves hp (State.dequeue_moves (hp.s rfl) h₀)))))

theorem execRemoteRequest_moves {s₀ : State} {p : PortId} {s : State} (hp : Parts [.regs, .mem, .marks, .landq, .squares, .mesh, .parked, .power, .net, .elog, .outbox] ps) (h₀ : Moves ps es s₀ s) :
    OutMoves ps es s₀ (execRemoteRequest p s) := by
  unfold execRemoteRequest
  exact (by (try dsimp only); split; exact (outMoves_refused _ _); exact (State.serveInbound_moves hp h₀))

theorem execPlFecCountRead_moves {s₀ : State} {p : PortId} {s : State} (hp : Parts [.regs] ps) (h₀ : Moves ps es s₀ s) :
    OutMoves ps es s₀ (execPlFecCountRead p s) := by
  unfold execPlFecCountRead
  exact (outMoves_next (State.swRead_moves hp h₀))

theorem execPlLostClear_moves {s₀ : State} {i : Fin 64} {v : Word} {s : State} (hp : Parts [.regs] ps) (h₀ : Moves ps es s₀ s) :
    OutMoves ps es s₀ (execPlLostClear i v s) := by
  unfold execPlLostClear
  exact (outMoves_next (State.swWrite_moves hp h₀))

theorem execPacketOriginate_moves {s₀ : State} {who : Requester} {addr : Word} {op : MemOp} {epoch : Option Epoch} {s : State} (hp : Parts [.regs, .mesh, .net, .elog, .outbox] ps) (h₀ : Moves ps es s₀ s) :
    OutMoves ps es s₀ (execPacketOriginate who addr op epoch s) := by
  unfold execPacketOriginate
  exact (need_moves _ _ (need_moves _ _ (outMoves_next (State.originate_moves hp h₀))))

theorem execMgtProbe_moves {s₀ : State} {p : PortId} {received : Bool} {src : BlockId} {s : State} (hp : Parts [.regs, .engines, .mesh, .watches, .net, .elog, .outbox] ps) (ha : ∀ q, es q) (h₀ : Moves ps es s₀ s) :
    OutMoves ps es s₀ (execMgtProbe p received src s) := by
  unfold execMgtProbe
  exact (outMoves_ite (need_moves _ _ (outMoves_next (State.sendMsg_moves (hp.s rfl) h₀))) (need_moves _ _ (by (try dsimp only); split; exact (outMoves_next (State.enqueue_moves (hp.s rfl) h₀)); exact (outMoves_next (State.loseBlock_moves hp ha h₀)))))

theorem execTollRateWrite_moves {s₀ : State} {p : PortId} {v : Word} {s : State} (hp : Parts [.regs] ps) (h₀ : Moves ps es s₀ s) :
    OutMoves ps es s₀ (execTollRateWrite p v s) := by
  unfold execTollRateWrite
  exact (outMoves_next (State.writeTollRate_moves hp h₀))

end Sys2Proof.Machine
end

