-- ==== Sys2Proof/Laws/MovesPower.lean ====
section
/-! SUPPORT. What the operations of Resets, Commits, Power, Clocks, ThermalModel, Thermal can do: each is a move. -/
namespace Sys2Proof.Machine
variable {ps : List Part} {es : EngineId → Prop}

theorem State.recalibrate_moves {s₀ s : State} {e : EngineId} {sweeps : List (BitVec 64)} (hp : Parts [.regs, .taps, .margins, .elog, .drawn] ps) (h₀ : Moves ps es s₀ s) :
    Moves ps es s₀ (State.recalibrate s e sweeps) := by
  unfold State.recalibrate
  exact (State.refreshXw_moves (hp.s rfl) (Moves.foldl _ h₀ fun _ _ h1 => (by (try dsimp only); split; exact (State.calibrate_moves (hp.s rfl) h1); exact (State.calibrateFree_moves hp h1))))

theorem State.putEngBit_moves {s₀ s : State} {r0 r1 : Reg} {e : EngineId} {b : Bool} (hp : Parts [.regs] ps) (h₀ : Moves ps es s₀ s) :
    Moves ps es s₀ (State.putEngBit s r0 r1 e b) := by
  unfold State.putEngBit
  exact (State.setReg_moves hp h₀)

theorem State.engineFailed_moves {s₀ s : State} {e : EngineId} (hp : Parts [.regs, .elog] ps) (h₀ : Moves ps es s₀ s) :
    Moves ps es s₀ (State.engineFailed s e) := by
  unfold State.engineFailed
  exact (State.logEvent_moves hp (State.putEngBit_moves (hp.s rfl) h₀))

theorem State.takeCommitted_moves {s₀ s : State} {u : Nat} (hp : Parts [.regs] ps) (h₀ : Moves ps es s₀ s) :
    Moves ps es s₀ (State.takeCommitted s u) := by
  unfold State.takeCommitted
  exact (State.putApplied_moves hp (State.put_moves hp (State.put_moves hp h₀)))

theorem State.putRst_moves {s₀ s : State} {e : EngineId} {b : Bool} (hp : Parts [.regs] ps) (h₀ : Moves ps es s₀ s) :
    Moves ps es s₀ (State.putRst s e b) := by
  unfold State.putRst
  exact (State.put_moves hp h₀)

theorem State.engineRelease_moves {s₀ s : State} {e : EngineId} (hp : Parts [.regs, .engines] ps) (qe : es e) (h₀ : Moves ps es s₀ s) :
    Moves ps es s₀ (State.engineRelease s e) := by
  unfold State.engineRelease
  exact (State.takeCommitted_moves (hp.s rfl) (State.putRst_moves (hp.s rfl) (State.modEng_moves (hp.s rfl) qe h₀)))

theorem State.layerRelease_moves {s₀ s : State} {sweeps : List (EngineId × List (BitVec 64))} {e : EngineId} (hp : Parts [.regs, .engines, .taps, .margins, .elog, .drawn] ps) (qe : es e) (h₀ : Moves ps es s₀ s) :
    Moves ps es s₀ (State.layerRelease s sweeps e) := by
  unfold State.layerRelease
  exact (moves_then (moves_ite (State.engineFailed_moves (hp.s rfl) (Moves.refl _)) (moves_ite (Moves.refl _) (State.engineRelease_moves (hp.s rfl) qe (Moves.refl _)))) (State.recalibrate_moves (hp.s rfl) h₀))

theorem execLayerResetRelease_moves {s₀ : State} {b : Bool} {sweeps : List (EngineId × List (BitVec 64))} {s : State} (hp : Parts [.regs, .engines, .taps, .margins, .elog, .drawn] ps) (ha : ∀ q, es q) (h₀ : Moves ps es s₀ s) :
    OutMoves ps es s₀ (execLayerResetRelease b sweeps s) := by
  unfold execLayerResetRelease
  exact (outMoves_next (Moves.foldl _ (State.put_moves (hp.s rfl) h₀) fun _ _ h1 => (State.layerRelease_moves hp (ha _) h1)))

theorem State.sayLeaving_moves {s₀ s : State} (hp : Parts [.regs, .net, .elog, .outbox] ps) (h₀ : Moves ps es s₀ s) :
    Moves ps es s₀ (State.sayLeaving s) := by
  unfold State.sayLeaving
  exact (Moves.foldl _ h₀ fun _ _ h1 => (moves_ite (State.sendCtl_moves hp h1) h1))

theorem State.heldEngines_moves {s₀ s : State} (hp : Parts [.regs, .engines] ps) (ha : ∀ q, es q) (h₀ : Moves ps es s₀ s) :
    Moves ps es s₀ (State.heldEngines s) := by
  unfold State.heldEngines
  exact (Moves.foldl _ h₀ fun _ _ h1 => (moves_ite (State.putRst_moves (hp.s rfl) (State.modEng_moves (hp.s rfl) (ha _) h1)) h1))

theorem State.aonAfter_moves {s₀ s : State} {cause : Nat} (hp : Parts [.regs] ps) (h₀ : Moves ps es s₀ s) :
    Moves ps es s₀ (State.aonAfter s cause) := by
  unfold State.aonAfter
  exact (State.refreshPinIn_moves hp (State.resetReg_moves hp (State.put_moves hp (State.resetReg_moves hp (State.put_moves hp (State.put_moves hp (State.put_moves hp (State.put_moves hp (State.put_moves hp (State.put_moves hp (State.put_moves hp (State.put_moves hp (State.put_moves hp (State.put_moves hp (State.bump_moves hp h₀)))))))))))))))

theorem State.mayStart_moves {s₀ s : State} (hp : Parts [.regs] ps) (h₀ : Moves ps es s₀ s) :
    Moves ps es s₀ (State.mayStart s) := by
  unfold State.mayStart
  exact (moves_ite h₀ (State.put_moves hp h₀))

theorem State.wholeReset_moves {s₀ s : State} {cause : Nat} (hp : Parts [.regs, .mem, .clock, .pins, .engines, .hints, .banks, .marks, .landq, .scrubAt, .spareRow, .squares, .mesh, .parked, .bars, .watches, .lateLogged, .taps, .margins, .power, .net, .boot, .front, .thermal, .elog, .gauges, .outbox, .drawn, .mrs, .sec] ps) (ha : ∀ q, es q) (h₀ : Moves ps es s₀ s) :
    Moves ps es s₀ (State.wholeReset s cause) := by
  have h1 := State.sayLeaving_moves (hp.s rfl) h₀
  unfold State.wholeReset
  exact State.mayStart_moves (hp.s rfl) (State.put_moves (hp.s rfl) (State.put_moves (hp.s rfl) (State.heldEngines_moves (hp.s rfl) ha (State.aonAfter_moves (hp.s rfl)
    (Moves.lit (t := s.sayLeaving) rfl h1 ((Edits.refl _).filter _) ((Edits.refl _).filter _) (.clear _) (.clear _) (.clear _) (.clear _) (.clear _)
      (.refl _) (fun _ _ => ⟨Nat.zero_le _, Nat.zero_le _⟩) (List.prefix_refl _) (Nat.le_refl _) (fun p hn => by cases p <;> first | exact absurd (hp.m rfl) hn | (simp only [Part.Same]; done) | exact rfl) (fun q hq => absurd (ha q) hq))))))

theorem State.countUnits_moves {s₀ s : State} (hp : Parts [.regs] ps) (h₀ : Moves ps es s₀ s) :
    Moves ps es s₀ (State.countUnits s) := by
  unfold State.countUnits
  exact (State.put_moves hp (State.put_moves hp h₀))

theorem State.mapOutSquare_moves {s₀ s : State} {k : SquareId} (hp : Parts [.regs, .mem, .squares] ps) (h₀ : Moves ps es s₀ s) :
    Moves ps es s₀ (State.mapOutSquare s k) := by
  unfold State.mapOutSquare
  exact (State.countUnits_moves (hp.s rfl) (State.setSq_moves (hp.s rfl) (State.putApplied_moves (hp.s rfl) (State.put_moves (hp.s rfl) (State.put_moves (hp.s rfl) (State.zeroWindow_moves (hp.s rfl) (State.loseLines_moves hp h₀)))))))

theorem State.setBoot_moves {s₀ s : State} {f : Boot → Boot} (hp : Parts [.boot] ps) (h₀ : Moves ps es s₀ s) :
    Moves ps es s₀ (State.setBoot s f) := by
  unfold State.setBoot
  exact (Moves.litE rfl h₀ (.refl _) (.refl _) (.refl _) (.refl _) (.refl _) (.refl _) (.refl _) (.refl _) (fun _ h => h) (List.prefix_refl _) (Nat.le_refl _) (fun p hn => by cases p <;> first | exact absurd (hp.m rfl) hn | (simp only [Part.Same]; done) | exact rfl))

theorem execTripFire_moves {s₀ : State} {c : Fin 48} {s : State} (hp : Parts [.regs, .mem, .clock, .pins, .engines, .hints, .banks, .marks, .landq, .scrubAt, .spareRow, .squares, .mesh, .parked, .bars, .watches, .lateLogged, .taps, .margins, .power, .net, .boot, .front, .thermal, .elog, .gauges, .outbox, .drawn, .mrs, .sec] ps) (ha : ∀ q, es q) (h₀ : Moves ps es s₀ s) :
    OutMoves ps es s₀ (execTripFire c s) := by
  unfold execTripFire
  exact (outMoves_ite (outMoves_next h₀) (outMoves_next (State.wholeReset_moves hp ha (State.setBoot_moves (hp.s rfl) (Moves.litE rfl (State.setReg_moves (hp.s rfl) (State.count_moves (hp.s rfl) (State.put_moves (hp.s rfl) (State.put_moves (hp.s rfl) h₀)))) (.refl _) (.refl _) (.refl _) (.refl _) (.refl _) (.refl _) (.refl _) (.refl _) (fun _ h => h) (List.prefix_refl _) (Nat.le_refl _) (fun p hn => by cases p <;> first | exact absurd (hp.m rfl) hn | (simp only [Part.Same]; done) | exact rfl))))))

theorem State.writeWdog_moves {s₀ s : State} {v : Nat} (hp : Parts [.regs, .boot] ps) (h₀ : Moves ps es s₀ s) :
    Moves ps es s₀ (State.writeWdog s v) := by
  unfold State.writeWdog
  exact (moves_then (moves_then (moves_ite (State.setBoot_moves (hp.s rfl) (Moves.refl _)) (Moves.refl _)) (moves_ite (State.put_moves (hp.s rfl) (Moves.refl _)) (Moves.refl _))) (moves_ite h₀ (State.put_moves (hp.s rfl) h₀)))

theorem State.resetEngRegs_moves {s₀ s : State} {e : EngineId} (hp : Parts [.regs] ps) (h₀ : Moves ps es s₀ s) :
    Moves ps es s₀ (State.resetEngRegs s e) := by
  unfold State.resetEngRegs
  exact (Moves.foldl _ (Moves.foldl _ h₀ fun _ _ h1 => (State.resetReg_moves hp h1)) fun _ _ h3 => (State.resetReg_moves hp h3))

theorem State.engineReset_moves {s₀ s : State} {e : EngineId} (hp : Parts [.regs, .engines, .hints] ps) (qe : es e) (h₀ : Moves ps es s₀ s) :
    Moves ps es s₀ (State.engineReset s e) := by
  unfold State.engineReset
  exact (State.putApplied_moves (hp.s rfl) (State.putRst_moves (hp.s rfl) (State.leaveRun_moves (hp.s rfl) (State.resetEngRegs_moves (hp.s rfl) (State.setEngBcs_moves (hp.s rfl) qe h₀)))))

theorem execLayerReset_moves {s₀ : State} {b : Bool} {s : State} (hp : Parts [.regs, .engines, .hints] ps) (ha : ∀ q, es q) (h₀ : Moves ps es s₀ s) :
    OutMoves ps es s₀ (execLayerReset b s) := by
  unfold execLayerReset
  exact (outMoves_next (Moves.foldl _ (State.put_moves (hp.s rfl) h₀) fun _ _ h2 => (moves_ite h2 (State.engineReset_moves hp (ha _) h2))))

theorem execEngineReset_moves {s₀ : State} {e : EngineId} {s : State} (hp : Parts [.regs, .engines, .hints] ps) (qe : es e) (h₀ : Moves ps es s₀ s) :
    OutMoves ps es s₀ (execEngineReset e s) := by
  unfold execEngineReset
  exact (outMoves_then (outMoves_ite (outMoves_next (Moves.refl _)) (outMoves_next (State.engineReset_moves hp qe (Moves.refl _)))) (State.putEngBit_moves (hp.s rfl) h₀))

theorem State.setLevel_moves {s₀ s : State} {n : Fin 17} {level : Bool} (hp : Parts [.regs, .pins] ps) (h₀ : Moves ps es s₀ s) :
    Moves ps es s₀ (State.setLevel s n level) := by
  unfold State.setLevel
  exact (State.put_moves (hp.s rfl) (Moves.litE rfl h₀ (.refl _) (.refl _) (.refl _) (.refl _) (.refl _) (.refl _) (.refl _) (.refl _) (fun _ h => h) (List.prefix_refl _) (Nat.le_refl _) (fun p hn => by cases p <;> first | exact absurd (hp.m rfl) hn | (simp only [Part.Same]; done) | exact rfl)))

theorem execResetNDeassert_moves {s₀ s : State} (hp : Parts [.regs, .pins, .boot] ps) (h₀ : Moves ps es s₀ s) :
    OutMoves ps es s₀ (execResetNDeassert s) := by
  unfold execResetNDeassert
  exact (need_moves _ _ (outMoves_next (State.mayStart_moves (hp.s rfl) (State.setBoot_moves (hp.s rfl) (State.setLevel_moves (hp.s rfl) h₀)))))

theorem State.countFail_moves {s₀ s : State} (hp : Parts [.regs] ps) (h₀ : Moves ps es s₀ s) :
    Moves ps es s₀ (State.countFail s) := by
  unfold State.countFail
  exact (moves_ite h₀ (moves_ite (State.put_moves hp (State.put_moves hp h₀)) (State.put_moves hp h₀)))

theorem execWatchdogExpiry_moves {s₀ s : State} (hp : Parts [.regs, .mem, .clock, .pins, .engines, .hints, .banks, .marks, .landq, .scrubAt, .spareRow, .squares, .mesh, .parked, .bars, .watches, .lateLogged, .taps, .margins, .power, .net, .boot, .front, .thermal, .elog, .gauges, .outbox, .drawn, .mrs, .sec] ps) (ha : ∀ q, es q) (h₀ : Moves ps es s₀ s) :
    OutMoves ps es s₀ (execWatchdogExpiry s) := by
  unfold execWatchdogExpiry
  exact (need_moves _ _ (outMoves_next (State.wholeReset_moves hp ha (State.countFail_moves (hp.s rfl) h₀))))

theorem execWatchdogEnable_moves {s₀ : State} {v : Word} {s : State} (hp : Parts [.regs, .boot] ps) (h₀ : Moves ps es s₀ s) :
    OutMoves ps es s₀ (execWatchdogEnable v s) := by
  unfold execWatchdogEnable
  exact (outMoves_next (State.writeWdog_moves hp h₀))

theorem execWatchdogKick_moves {s₀ : State} {v : Word} {s : State} (hp : Parts [.regs, .boot] ps) (h₀ : Moves ps es s₀ s) :
    OutMoves ps es s₀ (execWatchdogKick v s) := by
  unfold execWatchdogKick
  exact (outMoves_next (State.writeWdog_moves hp h₀))

theorem execReferenceRestored_moves {s₀ s : State} (hp : Parts [.regs, .boot] ps) (h₀ : Moves ps es s₀ s) :
    OutMoves ps es s₀ (execReferenceRestored s) := by
  unfold execReferenceRestored
  exact (need_moves _ _ (outMoves_next (State.mayStart_moves (hp.s rfl) (State.setBoot_moves (hp.s rfl) (State.put_moves (hp.s rfl) h₀)))))

theorem powered_moves {s₀ s : State} {k : Out} (_hp : Parts [] ps) (_h₀ : Moves ps es s₀ s) (hk : OutMoves ps es s₀ k) :
    OutMoves ps es s₀ (powered s k) := by
  unfold powered
  exact (outMoves_ite (outMoves_fault _ _) hk)

theorem execAlwaysOnResetExit_moves {s₀ s : State} (hp : Parts [.regs, .boot] ps) (h₀ : Moves ps es s₀ s) :
    OutMoves ps es s₀ (execAlwaysOnResetExit s) := by
  unfold execAlwaysOnResetExit
  exact (powered_moves (hp.s rfl) h₀ (need_moves _ _ (outMoves_next (State.mayStart_moves (hp.s rfl) (State.setBoot_moves (hp.s rfl) h₀)))))

theorem execCrystalLost_moves {s₀ s : State} (hp : Parts [.regs, .elog] ps) (h₀ : Moves ps es s₀ s) :
    OutMoves ps es s₀ (execCrystalLost s) := by
  unfold execCrystalLost
  exact (outMoves_next (State.logEvent_moves hp (State.put_moves (hp.s rfl) h₀)))

theorem State.aonReset_moves {s₀ s : State} {absent : Bool} (hp : Parts [.regs, .mem, .clock, .pins, .engines, .hints, .banks, .marks, .landq, .scrubAt, .spareRow, .squares, .mesh, .parked, .bars, .watches, .lateLogged, .taps, .margins, .power, .net, .boot, .front, .thermal, .elog, .gauges, .outbox, .drawn, .mrs, .sec] ps) (ha : ∀ q, es q) (h₀ : Moves ps es s₀ s) :
    Moves ps es s₀ (State.aonReset s absent) := by
  unfold State.aonReset
  exact Moves.lit (t := s) rfl h₀ (.clear _) ((Edits.refl _).filter _) (.clear _) (.clear _) (.clear _) (.clear _) (.clear _)
      (.refl _) (fun _ _ => ⟨Nat.zero_le _, Nat.zero_le _⟩) (List.prefix_refl _) (Nat.le_refl _) (fun p hn => by cases p <;> first | exact absurd (hp.m rfl) hn | (simp only [Part.Same]; done) | exact rfl) (fun q hq => absurd (ha q) hq)

theorem execVaonOrAuxAbsent_moves {s₀ s : State} (hp : Parts [.regs, .mem, .clock, .pins, .engines, .hints, .banks, .marks, .landq, .scrubAt, .spareRow, .squares, .mesh, .parked, .bars, .watches, .lateLogged, .taps, .margins, .power, .net, .boot, .front, .thermal, .elog, .gauges, .outbox, .drawn, .mrs, .sec] ps) (ha : ∀ q, es q) (h₀ : Moves ps es s₀ s) :
    OutMoves ps es s₀ (execVaonOrAuxAbsent s) := by
  unfold execVaonOrAuxAbsent
  exact (outMoves_next (State.aonReset_moves hp ha h₀))

theorem execAlwaysOnReset_moves {s₀ s : State} (hp : Parts [.regs, .mem, .clock, .pins, .engines, .hints, .banks, .marks, .landq, .scrubAt, .spareRow, .squares, .mesh, .parked, .bars, .watches, .lateLogged, .taps, .margins, .power, .net, .boot, .front, .thermal, .elog, .gauges, .outbox, .drawn, .mrs, .sec] ps) (ha : ∀ q, es q) (h₀ : Moves ps es s₀ s) :
    OutMoves ps es s₀ (execAlwaysOnReset s) := by
  unfold execAlwaysOnReset
  exact (outMoves_next (State.aonReset_moves hp ha h₀))

theorem execVpmPgLost_moves {s₀ s : State} (hp : Parts [.regs, .mem, .clock, .pins, .engines, .hints, .banks, .marks, .landq, .scrubAt, .spareRow, .squares, .mesh, .parked, .bars, .watches, .lateLogged, .taps, .margins, .power, .net, .boot, .front, .thermal, .elog, .gauges, .outbox, .drawn, .mrs, .sec] ps) (ha : ∀ q, es q) (h₀ : Moves ps es s₀ s) :
    OutMoves ps es s₀ (execVpmPgLost s) := by
  unfold execVpmPgLost
  exact (need_moves _ _ (outMoves_next (State.put_moves (hp.s rfl) (State.wholeReset_moves hp ha (State.setLevel_moves (hp.s rfl) h₀)))))

theorem execAonResetBlock_moves {s₀ s : State} (hp : Parts [.regs, .mem, .clock, .pins, .engines, .hints, .banks, .marks, .landq, .scrubAt, .spareRow, .squares, .mesh, .parked, .bars, .watches, .lateLogged, .taps, .margins, .power, .net, .boot, .front, .thermal, .elog, .gauges, .outbox, .drawn, .mrs, .sec] ps) (ha : ∀ q, es q) (h₀ : Moves ps es s₀ s) :
    OutMoves ps es s₀ (execAonResetBlock s) := by
  unfold execAonResetBlock
  exact (outMoves_next (State.wholeReset_moves hp ha h₀))

theorem State.mapOutEngine_moves {s₀ s : State} {e : EngineId} {dram : Bool} (hp : Parts [.regs, .engines] ps) (qe : es e) (h₀ : Moves ps es s₀ s) :
    Moves ps es s₀ (State.mapOutEngine s e dram) := by
  unfold State.mapOutEngine
  exact (moves_then (moves_ite (State.putApplied_moves (hp.s rfl) (Moves.refl _)) (Moves.refl _)) (State.countUnits_moves (hp.s rfl) (State.putApplied_moves (hp.s rfl) (State.modEng_moves (hp.s rfl) qe h₀))))

theorem execResetNAssert_moves {s₀ s : State} (hp : Parts [.regs, .mem, .clock, .pins, .engines, .hints, .banks, .marks, .landq, .scrubAt, .spareRow, .squares, .mesh, .parked, .bars, .watches, .lateLogged, .taps, .margins, .power, .net, .boot, .front, .thermal, .elog, .gauges, .outbox, .drawn, .mrs, .sec] ps) (ha : ∀ q, es q) (h₀ : Moves ps es s₀ s) :
    OutMoves ps es s₀ (execResetNAssert s) := by
  unfold execResetNAssert
  exact (outMoves_next (State.wholeReset_moves hp ha (State.setBoot_moves (hp.s rfl) (State.setLevel_moves (hp.s rfl) h₀))))

theorem execEngineResetRelease_moves {s₀ : State} {e : EngineId} {sweeps : List (BitVec 64)} {s : State} (hp : Parts [.regs, .engines, .taps, .margins, .elog, .drawn] ps) (qe : es e) (h₀ : Moves ps es s₀ s) :
    OutMoves ps es s₀ (execEngineResetRelease e sweeps s) := by
  unfold execEngineResetRelease
  exact (outMoves_then (outMoves_ite (outMoves_next (Moves.refl _)) (outMoves_then (outMoves_ite (outMoves_next (State.engineFailed_moves (hp.s rfl) (Moves.refl _))) (outMoves_next (State.engineRelease_moves (hp.s rfl) qe (Moves.refl _)))) (State.recalibrate_moves (hp.s rfl) (Moves.refl _)))) (State.putEngBit_moves (hp.s rfl) h₀))

theorem execReferenceLost_moves {s₀ s : State} (hp : Parts [.regs, .mem, .clock, .pins, .engines, .hints, .banks, .marks, .landq, .scrubAt, .spareRow, .squares, .mesh, .parked, .bars, .watches, .lateLogged, .taps, .margins, .power, .net, .boot, .front, .thermal, .elog, .gauges, .outbox, .drawn, .mrs, .sec] ps) (ha : ∀ q, es q) (h₀ : Moves ps es s₀ s) :
    OutMoves ps es s₀ (execReferenceLost s) := by
  unfold execReferenceLost
  exact (outMoves_next (State.put_moves (hp.s rfl) (State.wholeReset_moves hp ha (State.setBoot_moves (hp.s rfl) h₀))))

theorem execEpochStaged_moves {s₀ : State} {u : Fin 208} {s : State} (hp : Parts [.regs] ps) (h₀ : Moves ps es s₀ s) :
    OutMoves ps es s₀ (execEpochStaged u s) := by
  unfold execEpochStaged
  exact (outMoves_next (State.put_moves hp h₀))

theorem State.startCommit_moves {s₀ s : State} {epoch : Nat} (hp : Parts [.regs, .lateLogged] ps) (h₀ : Moves ps es s₀ s) :
    Moves ps es s₀ (State.startCommit s epoch) := by
  unfold State.startCommit
  exact (Moves.foldl _ (Moves.litE rfl (State.put_moves (hp.s rfl) h₀) (.refl _) (.refl _) (.refl _) (.refl _) (.refl _) (.refl _) (.refl _) (.refl _) (fun _ h => h) (List.prefix_refl _) (Nat.le_refl _) (fun p hn => by cases p <;> first | exact absurd (hp.m rfl) hn | (simp only [Part.Same]; done) | exact rfl)) fun _ _ h3 => (State.putApplied_moves (hp.s rfl) h3))

theorem State.applyRoute_moves {s₀ s : State} {p : Nat} (hp : Parts [.regs] ps) (h₀ : Moves ps es s₀ s) :
    Moves ps es s₀ (State.applyRoute s p) := by
  unfold State.applyRoute
  exact (moves_ite (State.setReg_moves hp h₀) h₀)

theorem State.applyUnit_moves {s₀ s : State} {u : Nat} (hp : Parts [.regs] ps) (h₀ : Moves ps es s₀ s) :
    OptMoves ps es s₀ (State.applyUnit s u) := by
  unfold State.applyUnit
  exact (by (try dsimp only); split; exact (optMoves_ite (optMoves_some (State.noteApplied_moves hp h₀)) (optMoves_none _)); exact (optMoves_ite (optMoves_some (State.applyBauMode_moves hp h₀)) (optMoves_none _)); exact (optMoves_ite (optMoves_some (State.noteApplied_moves hp (State.put_moves hp h₀))) (optMoves_none _)); exact (optMoves_ite (optMoves_some (State.noteApplied_moves hp (State.applyRoute_moves hp h₀))) (optMoves_none _)))

theorem execEpochApply_moves {s₀ : State} {u : Fin 208} {s : State} (hp : Parts [.regs] ps) (h₀ : Moves ps es s₀ s) :
    OutMoves ps es s₀ (execEpochApply u s) := by
  unfold execEpochApply
  exact (need_moves _ _ (needSome_moves _ _ fun _ q1 => (outMoves_next ((State.applyUnit_moves hp h₀) _ q1))))

theorem State.writeCommit_moves {s₀ s : State} {v : Nat} (hp : Parts [.regs, .lateLogged] ps) (h₀ : Moves ps es s₀ s) :
    Moves ps es s₀ (State.writeCommit s v) := by
  unfold State.writeCommit
  exact (moves_then (moves_ite (Moves.refl _) (moves_ite (State.put_moves (hp.s rfl) (Moves.refl _)) (State.startCommit_moves hp (Moves.refl _)))) (State.put_moves (hp.s rfl) h₀))

theorem execEpochLate_moves {s₀ : State} {u : Fin 208} {s : State} (hp : Parts [.regs, .lateLogged, .elog] ps) (h₀ : Moves ps es s₀ s) :
    OutMoves ps es s₀ (execEpochLate u s) := by
  unfold execEpochLate
  exact (need_moves _ _ (outMoves_then (outMoves_ite (outMoves_next (Moves.refl _)) (outMoves_next (State.logEvent_moves (hp.s rfl) (Moves.litE rfl (Moves.refl _) (.refl _) (.refl _) (.refl _) (.refl _) (.refl _) (.refl _) (.refl _) (.refl _) (fun _ h => h) (List.prefix_refl _) (Nat.le_refl _) (fun p hn => by cases p <;> first | exact absurd (hp.m rfl) hn | (simp only [Part.Same]; done) | exact rfl))))) (State.put_moves (hp.s rfl) h₀)))

theorem execAvEpochCommit_moves {s₀ : State} {v : Word} {s : State} (hp : Parts [.regs, .lateLogged] ps) (h₀ : Moves ps es s₀ s) :
    OutMoves ps es s₀ (execAvEpochCommit v s) := by
  unfold execAvEpochCommit
  exact (outMoves_next (State.writeCommit_moves hp h₀))

theorem State.setPower_moves {s₀ s : State} {f : Power → Power} (hp : Parts [.power] ps) (h₀ : Moves ps es s₀ s) :
    Moves ps es s₀ (State.setPower s f) := by
  unfold State.setPower
  exact (Moves.litE rfl h₀ (.refl _) (.refl _) (.refl _) (.refl _) (.refl _) (.refl _) (.refl _) (.refl _) (fun _ h => h) (List.prefix_refl _) (Nat.le_refl _) (fun p hn => by cases p <;> first | exact absurd (hp.m rfl) hn | (simp only [Part.Same]; done) | exact rfl))

theorem State.noteFaultBits_moves {s₀ s : State} {f : Nat} (hp : Parts [.regs, .power, .elog] ps) (h₀ : Moves ps es s₀ s) :
    Moves ps es s₀ (State.noteFaultBits s f) := by
  unfold State.noteFaultBits
  exact (moves_ite h₀ (State.logEvent_moves (hp.s rfl) (State.setPower_moves (hp.s rfl) h₀)))

theorem State.clampCap_moves {s₀ s : State} {f : Field} {v : Nat} (hp : Parts [.regs] ps) (h₀ : Moves ps es s₀ s) :
    Moves ps es s₀ (State.clampCap s f v) := by
  unfold State.clampCap
  exact (State.put_moves hp h₀)

theorem State.writeCap_moves {s₀ s : State} {v : Nat} (hp : Parts [.regs] ps) (h₀ : Moves ps es s₀ s) :
    Moves ps es s₀ (State.writeCap s v) := by
  unfold State.writeCap
  exact (State.clampCap_moves hp (State.clampCap_moves hp (State.clampCap_moves hp (State.clampCap_moves hp h₀))))

theorem State.writeRgCeil_moves {s₀ s : State} {r : RegionId} {v : Nat} (hp : Parts [.regs] ps) (h₀ : Moves ps es s₀ s) :
    Moves ps es s₀ (State.writeRgCeil s r v) := by
  unfold State.writeRgCeil
  exact (State.put_moves hp h₀)

theorem State.telRetry_moves {s₀ s : State} (hp : Parts [.power] ps) (h₀ : Moves ps es s₀ s) :
    Moves ps es s₀ (State.telRetry s) := by
  unfold State.telRetry
  exact (moves_ite (State.setPower_moves hp h₀) h₀)

theorem State.rearm_moves {s₀ s : State} {r : RegionId} (hp : Parts [.regs, .power] ps) (h₀ : Moves ps es s₀ s) :
    Moves ps es s₀ (State.rearm s r) := by
  unfold State.rearm
  exact (State.setRegion_moves (hp.s rfl) (State.put_moves (hp.s rfl) h₀))

theorem State.dropLandReqs_moves {s₀ s : State} {e : EngineId} (hp : Parts [.regs, .landq, .mesh, .outbox] ps) (h₀ : Moves ps es s₀ s) :
    Moves ps es s₀ (State.dropLandReqs s e) := by
  unfold State.dropLandReqs
  exact (Moves.foldl _ (Moves.litE rfl h₀ (.refl _) (.refl _) (.refl _) (.refl _) (.refl _) (.refl _) (.refl _) (.refl _) (fun _ h => h) (List.prefix_refl _) (Nat.le_refl _) (fun p hn => by cases p <;> first | exact absurd (hp.m rfl) hn | (simp only [Part.Same]; done) | exact rfl)) fun _ _ h1 => (State.answer_moves (hp.s rfl) h1))

theorem State.acceptFrame_moves {s₀ s : State} {f : Nat} (hp : Parts [.regs, .power, .elog] ps) (h₀ : Moves ps es s₀ s) :
    Moves ps es s₀ (State.acceptFrame s f) := by
  unfold State.acceptFrame
  exact (by (try dsimp only); split; exact (State.noteFaultBits_moves hp (State.setPower_moves (hp.s rfl) (State.put_moves (hp.s rfl) h₀))); exact (moves_ite (State.setPower_moves (hp.s rfl) (State.noteFaultBits_moves hp (State.setPower_moves (hp.s rfl) (State.put_moves (hp.s rfl) h₀)))) (State.setPower_moves (hp.s rfl) (State.put_moves (hp.s rfl) (State.noteFaultBits_moves hp (State.setPower_moves (hp.s rfl) (State.put_moves (hp.s rfl) h₀)))))))

theorem execTelemetryFrame_moves {s₀ : State} {f : BitVec 80} {s : State} (hp : Parts [.regs, .power, .elog] ps) (h₀ : Moves ps es s₀ s) :
    OutMoves ps es s₀ (execTelemetryFrame f s) := by
  unfold execTelemetryFrame
  exact (outMoves_ite (outMoves_next (State.acceptFrame_moves hp h₀)) (outMoves_next (State.setPower_moves (hp.s rfl) h₀)))

theorem State.endSheds_moves {s₀ s : State} (hp : Parts [.power] ps) (h₀ : Moves ps es s₀ s) :
    Moves ps es s₀ (State.endSheds s) := by
  unfold State.endSheds
  exact (State.setPower_moves hp h₀)

theorem State.writePwrHint_moves {s₀ s : State} {v : Nat} (hp : Parts [.regs] ps) (h₀ : Moves ps es s₀ s) :
    Moves ps es s₀ (State.writePwrHint s v) := by
  unfold State.writePwrHint
  exact (State.vpmHints_moves hp (State.put_moves hp (State.put_moves hp h₀)))

theorem State.noteStatusWord_moves {s₀ s : State} {page word : Nat} (hp : Parts [.regs, .elog, .outbox] ps) (h₀ : Moves ps es s₀ s) :
    Moves ps es s₀ (State.noteStatusWord s page word) := by
  unfold State.noteStatusWord
  exact (moves_then (moves_ite (Moves.refl _) (State.logEvent_moves (hp.s rfl) (Moves.refl _))) (State.emit_moves (hp.s rfl) h₀))

theorem State.pllLock_moves {s₀ s : State} {e : EngineId} (hp : Parts [.regs] ps) (h₀ : Moves ps es s₀ s) :
    Moves ps es s₀ (State.pllLock s e) := by
  unfold State.pllLock
  exact (State.count_moves hp (State.put_moves hp h₀))

theorem State.writePmb_moves {s₀ s : State} {v : Nat} (hp : Parts [.regs, .power, .outbox] ps) (h₀ : Moves ps es s₀ s) :
    Moves ps es s₀ (State.writePmb s v) := by
  unfold State.writePmb
  exact (moves_then (moves_ite (moves_then (moves_ite (State.emit_moves (hp.s rfl) (State.put_moves (hp.s rfl) (Moves.refl _))) (State.put_moves (hp.s rfl) (Moves.refl _))) (State.setPower_moves (hp.s rfl) (Moves.refl _))) (Moves.refl _)) (State.swFields_moves (hp.s rfl) h₀))

theorem execPwrPmbGo_moves {s₀ : State} {v : Word} {s : State} (hp : Parts [.regs, .power, .outbox] ps) (h₀ : Moves ps es s₀ s) :
    OutMoves ps es s₀ (execPwrPmbGo v s) := by
  unfold execPwrPmbGo
  exact (outMoves_next (State.writePmb_moves hp h₀))

theorem State.dropColumnLines_moves {s₀ s : State} {k : SquareId} (hp : Parts [.regs, .squares, .mesh, .outbox] ps) (h₀ : Moves ps es s₀ s) :
    Moves ps es s₀ (State.dropColumnLines s k) := by
  unfold State.dropColumnLines
  exact (Moves.foldl _ (State.put_moves (hp.s rfl) (State.setSq_moves (hp.s rfl) h₀)) fun _ _ h2 => (State.answer_moves (hp.s rfl) h2))

theorem State.writeRgCtl_moves {s₀ s : State} {r : RegionId} {v : Nat} (hp : Parts [.regs, .power] ps) (h₀ : Moves ps es s₀ s) :
    Moves ps es s₀ (State.writeRgCtl s r v) := by
  unfold State.writeRgCtl
  exact (moves_then (moves_then (moves_then (moves_ite (State.wake_moves hp (Moves.refl _)) (Moves.refl _)) (moves_ite (State.rearm_moves hp (Moves.refl _)) (Moves.refl _))) (moves_ite (Moves.refl _) (State.put_moves (hp.s rfl) (Moves.refl _)))) (State.put_moves (hp.s rfl) (State.put_moves (hp.s rfl) h₀)))

theorem State.capRise_moves {s₀ s : State} {level : Nat} (hp : Parts [.regs, .power, .elog] ps) (h₀ : Moves ps es s₀ s) :
    Moves ps es s₀ (State.capRise s level) := by
  unfold State.capRise
  exact (moves_ite h₀ (moves_then (moves_ite (Moves.refl _) (State.logEvent_moves (hp.s rfl) (State.setPower_moves (hp.s rfl) (Moves.refl _)))) (State.put_moves (hp.s rfl) (State.put_moves (hp.s rfl) h₀))))

theorem execInrushWaitTimeout_moves {s₀ : State} {r : RegionId} {s : State} (hp : Parts [.power] ps) (h₀ : Moves ps es s₀ s) :
    OutMoves ps es s₀ (execInrushWaitTimeout r s) := by
  unfold execInrushWaitTimeout
  exact (need_moves _ _ (outMoves_next (State.closeGates_moves hp h₀)))

theorem State.noteSlice_moves {s₀ s : State} {inst group slice : Nat} {first : Bool} (hp : Parts [.regs, .elog] ps) (h₀ : Moves ps es s₀ s) :
    Moves ps es s₀ (State.noteSlice s inst group slice first) := by
  unfold State.noteSlice
  exact (State.logEvent_moves hp h₀)

theorem State.addEnergy_moves {s₀ s : State} {p : Nat} (hp : Parts [.regs, .power] ps) (h₀ : Moves ps es s₀ s) :
    Moves ps es s₀ (State.addEnergy s p) := by
  unfold State.addEnergy
  exact (State.setPower_moves (hp.s rfl) (State.put_moves (hp.s rfl) h₀))

theorem State.droop_moves {s₀ s : State} {r : RegionId} (hp : Parts [.regs, .power, .elog] ps) (h₀ : Moves ps es s₀ s) :
    Moves ps es s₀ (State.droop s r) := by
  unfold State.droop
  exact (moves_then (moves_ite (Moves.refl _) (State.logEvent_moves (hp.s rfl) (State.setRegion_moves (hp.s rfl) (Moves.refl _)))) (State.setRegion_moves (hp.s rfl) (State.count_moves (hp.s rfl) h₀)))

theorem State.setShed_moves {s₀ s : State} {inst group : Nat} {b : Bool} (hp : Parts [.power] ps) (h₀ : Moves ps es s₀ s) :
    Moves ps es s₀ (State.setShed s inst group b) := by
  unfold State.setShed
  exact (moves_ite (by (try dsimp only); split; exact (State.setPower_moves hp h₀); exact h₀) (moves_dite (fun _ => (State.setRegion_moves hp h₀)) fun _ => h₀))

theorem execPreStage_moves {s₀ : State} {e : EngineId} {s : State} (hp : Parts [.regs, .hints, .power] ps) (h₀ : Moves ps es s₀ s) :
    OutMoves ps es s₀ (execPreStage e s) := by
  unfold execPreStage
  exact (needSome_moves _ _ fun _ _ => (need_moves _ _ (outMoves_then (outMoves_then (outMoves_next (moves_ite (State.setShed_moves (hp.s rfl) (Moves.refl _)) (Moves.refl _))) (moves_ite (State.setShed_moves (hp.s rfl) (State.wake_moves (hp.s rfl) (Moves.refl _))) (Moves.refl _))) (State.setHint_moves (hp.s rfl) h₀))))

theorem State.readVmin_moves {s₀ s : State} {r : RegionId} (hp : Parts [.regs] ps) (h₀ : Moves ps es s₀ s) :
    Moves ps es s₀ (State.readVmin s r) := by
  unfold State.readVmin
  exact (State.setReg_moves hp h₀)

theorem execTelRetry_moves {s₀ s : State} (hp : Parts [.power] ps) (h₀ : Moves ps es s₀ s) :
    OutMoves ps es s₀ (execTelRetry s) := by
  unfold execTelRetry
  exact (outMoves_next (State.telRetry_moves hp h₀))

theorem State.noteVmin_moves {s₀ s : State} {r : RegionId} {mv : Nat} (hp : Parts [.regs, .power] ps) (h₀ : Moves ps es s₀ s) :
    Moves ps es s₀ (State.noteVmin s r mv) := by
  unfold State.noteVmin
  exact (moves_ite (State.setRegion_moves (hp.s rfl) (State.put_moves (hp.s rfl) h₀)) h₀)

theorem execPwrCapWrite_moves {s₀ : State} {v : Word} {s : State} (hp : Parts [.regs] ps) (h₀ : Moves ps es s₀ s) :
    OutMoves ps es s₀ (execPwrCapWrite v s) := by
  unfold execPwrCapWrite
  exact (outMoves_next (State.writeCap_moves hp h₀))

theorem State.loseDram_moves {s₀ s : State} {e : EngineId} (hp : Parts [.mem, .banks, .marks] ps) (h₀ : Moves ps es s₀ s) :
    Moves ps es s₀ (State.loseDram s e) := by
  unfold State.loseDram
  exact (Moves.litE rfl h₀ (.refl _) (Edits.filter (.refl _) _) (Edits.filter (.refl _) _) (Edits.filter (.refl _) _) (.refl _) (.refl _) (.refl _) (.refl _) (fun _ h => h) (List.prefix_refl _) (Nat.le_refl _) (fun p hn => by cases p <;> first | exact absurd (hp.m rfl) hn | (simp only [Part.Same]; done) | exact rfl))

theorem State.engineNoDram_moves {s₀ s : State} {e : EngineId} (hp : Parts [.regs, .mem, .engines, .hints, .banks, .marks, .landq, .mesh, .outbox] ps) (qe : es e) (h₀ : Moves ps es s₀ s) :
    Moves ps es s₀ (State.engineNoDram s e) := by
  unfold State.engineNoDram
  exact (State.mapOutEngine_moves (hp.s rfl) qe (State.loseDram_moves (hp.s rfl) (State.dropLandReqs_moves (hp.s rfl) (State.setEngBcs_moves (hp.s rfl) qe (State.engineReset_moves (hp.s rfl) qe h₀)))))

theorem State.memoryDark_moves {s₀ s : State} {k : SquareId} (hp : Parts [.regs, .mem, .engines, .hints, .banks, .marks, .landq, .squares, .mesh, .outbox] ps) (ha : ∀ q, es q) (h₀ : Moves ps es s₀ s) :
    Moves ps es s₀ (State.memoryDark s k) := by
  unfold State.memoryDark
  exact (State.engineNoDram_moves (hp.s rfl) (ha _) (State.engineNoDram_moves (hp.s rfl) (ha _) (State.dropColumnLines_moves (hp.s rfl) (State.put_moves (hp.s rfl) h₀))))

theorem State.regionSlice_moves {s₀ s : State} {r : RegionId} {slice : Nat} (hp : Parts [.regs] ps) (h₀ : Moves ps es s₀ s) :
    Moves ps es s₀ (State.regionSlice s r slice) := by
  unfold State.regionSlice
  exact (State.put_moves hp (State.put_moves hp h₀))

theorem State.regionDark_moves {s₀ s : State} {r : RegionId} (hp : Parts [.regs, .mem, .engines, .squares, .power] ps) (ha : ∀ q, es q) (h₀ : Moves ps es s₀ s) :
    Moves ps es s₀ (State.regionDark s r) := by
  unfold State.regionDark
  exact (State.segmentFell_moves (hp.s rfl) (State.put_moves (hp.s rfl) (State.pllOff_moves (hp.s rfl) (State.endTurn_moves (hp.s rfl) (State.loseRegion_moves (hp.s rfl) ha h₀)))))

theorem State.engineDark_moves {s₀ s : State} {e : EngineId} (hp : Parts [.regs, .mem, .engines, .hints, .squares, .power] ps) (ha : ∀ q, es q) (h₀ : Moves ps es s₀ s) :
    Moves ps es s₀ (State.engineDark s e) := by
  unfold State.engineDark
  exact (State.mapOutEngine_moves (hp.s rfl) (ha _) (State.regionDark_moves (hp.s rfl) ha (State.engineReset_moves (hp.s rfl) (ha _) h₀)))

theorem State.regionFailure_moves {s₀ s : State} {r : RegionId} {n : Nat} (hp : Parts [.regs, .mem, .engines, .hints, .squares, .power] ps) (ha : ∀ q, es q) (h₀ : Moves ps es s₀ s) :
    Moves ps es s₀ (State.regionFailure s r n) := by
  unfold State.regionFailure
  exact (moves_ite (moves_then (moves_ite (State.put_moves (hp.s rfl) (Moves.refl _)) (Moves.refl _)) (State.put_moves (hp.s rfl) h₀)) (moves_ite (by (try dsimp only); split; exact (State.engineDark_moves hp ha h₀); exact (State.setRegion_moves (hp.s rfl) h₀); exact h₀) h₀))

theorem State.sliceOut_moves {s₀ s : State} {inst group slice : Nat} (hp : Parts [.regs, .mem, .clock, .pins, .engines, .hints, .banks, .marks, .landq, .scrubAt, .spareRow, .squares, .mesh, .parked, .bars, .watches, .lateLogged, .taps, .margins, .power, .net, .boot, .front, .thermal, .elog, .gauges, .outbox, .drawn, .mrs, .sec] ps) (ha : ∀ q, es q) (h₀ : Moves ps es s₀ s) :
    Moves ps es s₀ (State.sliceOut s inst group slice) := by
  unfold State.sliceOut
  exact (moves_ite (by (try dsimp only); split; exact (moves_ite (State.memoryDark_moves (hp.s rfl) ha (State.put_moves (hp.s rfl) h₀)) (State.put_moves (hp.s rfl) h₀)); exact (State.put_moves (hp.s rfl) h₀)) (moves_ite (moves_then (moves_ite (State.wholeReset_moves hp ha (State.setBoot_moves (hp.s rfl) (Moves.refl _))) (Moves.refl _)) (State.put_moves (hp.s rfl) h₀)) (moves_dite (fun _ => (State.regionFailure_moves (hp.s rfl) ha (State.regionSlice_moves (hp.s rfl) h₀))) fun _ => h₀)))

theorem execSliceFail_moves {s₀ : State} {inst group slice : Nat} {s : State} (hp : Parts [.regs, .mem, .clock, .pins, .engines, .hints, .banks, .marks, .landq, .scrubAt, .spareRow, .squares, .mesh, .parked, .bars, .watches, .lateLogged, .taps, .margins, .power, .net, .boot, .front, .thermal, .elog, .gauges, .outbox, .drawn, .mrs, .sec] ps) (ha : ∀ q, es q) (h₀ : Moves ps es s₀ s) :
    OutMoves ps es s₀ (execSliceFail inst group slice s) := by
  unfold execSliceFail
  exact (need_moves _ _ (need_moves _ _ (outMoves_next (State.sliceOut_moves hp ha (State.noteSlice_moves (hp.s rfl) h₀)))))

theorem execSliceShed_moves {s₀ : State} {inst group : Nat} {s : State} (hp : Parts [.power] ps) (h₀ : Moves ps es s₀ s) :
    OutMoves ps es s₀ (execSliceShed inst group s) := by
  unfold execSliceShed
  exact (need_moves _ _ (outMoves_next (State.setShed_moves hp h₀)))

theorem State.serveHeld_moves {s₀ s : State} {r : RegionId} (hp : Parts [.regs, .mem, .marks, .landq, .squares, .mesh, .parked, .power, .elog, .outbox] ps) (h₀ : Moves ps es s₀ s) :
    Moves ps es s₀ (State.serveHeld s r) := by
  unfold State.serveHeld
  exact (by (try dsimp only); split; exact (State.unpark_moves hp h₀); exact (State.unpark_moves hp h₀); exact h₀)

theorem execRegionClearDone_moves {s₀ : State} {r : RegionId} {s : State} (hp : Parts [.regs, .mem, .engines, .marks, .landq, .squares, .mesh, .parked, .power, .elog, .outbox] ps) (ha : ∀ q, es q) (h₀ : Moves ps es s₀ s) :
    OutMoves ps es s₀ (execRegionClearDone r s) := by
  unfold execRegionClearDone
  exact (need_moves _ _ (by (try dsimp only); split; exact (outMoves_next (State.serveHeld_moves (hp.s rfl) (State.zeroCore_moves (hp.s rfl) (State.modEng_moves (hp.s rfl) (ha _) (State.setRegion_moves (hp.s rfl) h₀))))); exact (outMoves_next (State.setRegion_moves (hp.s rfl) h₀))))

theorem execPwrRgCeilWrite_moves {s₀ : State} {r : RegionId} {v : Word} {s : State} (hp : Parts [.regs] ps) (h₀ : Moves ps es s₀ s) :
    OutMoves ps es s₀ (execPwrRgCeilWrite r v s) := by
  unfold execPwrRgCeilWrite
  exact (outMoves_next (State.writeRgCeil_moves hp h₀))

theorem execPwrRgCtlWrite_moves {s₀ : State} {r : RegionId} {v : Word} {s : State} (hp : Parts [.regs, .power] ps) (h₀ : Moves ps es s₀ s) :
    OutMoves ps es s₀ (execPwrRgCtlWrite r v s) := by
  unfold execPwrRgCtlWrite
  exact (outMoves_next (State.writeRgCtl_moves hp h₀))

theorem execPwrRgVminRead_moves {s₀ : State} {r : RegionId} {s : State} (hp : Parts [.regs] ps) (h₀ : Moves ps es s₀ s) :
    OutMoves ps es s₀ (execPwrRgVminRead r s) := by
  unfold execPwrRgVminRead
  exact (outMoves_next (State.readVmin_moves hp h₀))

theorem execRegionOn_moves {s₀ : State} {r : RegionId} {s : State} (hp : Parts [.regs, .mem, .marks, .landq, .squares, .mesh, .parked, .power, .elog, .outbox] ps) (h₀ : Moves ps es s₀ s) :
    OutMoves ps es s₀ (execRegionOn r s) := by
  unfold execRegionOn
  exact (need_moves _ _ (by (try dsimp only); split; exact (outMoves_then (outMoves_next (moves_ite (Moves.refl _) (State.serveHeld_moves hp (Moves.refl _)))) (State.pllLock_moves (hp.s rfl) (State.setRegion_moves (hp.s rfl) (State.put_moves (hp.s rfl) (State.endTurn_moves (hp.s rfl) h₀))))); exact (outMoves_next (State.serveHeld_moves hp (State.put_moves (hp.s rfl) (State.endTurn_moves (hp.s rfl) h₀))))))

theorem State.capLevels_moves {s₀ s : State} {l1 l10 : List PwrSample} (hp : Parts [.regs, .power, .elog] ps) (h₀ : Moves ps es s₀ s) :
    Moves ps es s₀ (State.capLevels s l1 l10) := by
  unfold State.capLevels
  exact (moves_then (moves_ite (State.capRise_moves hp (Moves.refl _)) (moves_ite (State.capRise_moves hp (Moves.refl _)) (moves_ite (State.put_moves (hp.s rfl) (Moves.refl _)) (Moves.refl _)))) (State.setPower_moves (hp.s rfl) h₀))

theorem execCapEvaluate_moves {s₀ : State} {mv : List Nat} {s : State} (hp : Parts [.regs, .power, .elog] ps) (h₀ : Moves ps es s₀ s) :
    OutMoves ps es s₀ (execCapEvaluate mv s) := by
  unfold execCapEvaluate
  exact (outMoves_next (State.capLevels_moves hp (State.put_moves (hp.s rfl) (State.put_moves (hp.s rfl) (State.setPower_moves (hp.s rfl) (State.addEnergy_moves (hp.s rfl) (moves_ite (State.put_moves (hp.s rfl) h₀) h₀)))))))

theorem execRegionSleep_moves {s₀ : State} {r : RegionId} {auto : Bool} {s : State} (hp : Parts [.regs, .mem, .engines, .squares, .power] ps) (ha : ∀ q, es q) (h₀ : Moves ps es s₀ s) :
    OutMoves ps es s₀ (execRegionSleep r auto s) := by
  unfold execRegionSleep
  exact (need_moves _ _ (need_moves _ _ (outMoves_next (State.sleep_moves hp ha h₀))))

theorem execPwrRgDroopRead_moves {s₀ : State} {r : RegionId} {s : State} (hp : Parts [.regs] ps) (h₀ : Moves ps es s₀ s) :
    OutMoves ps es s₀ (execPwrRgDroopRead r s) := by
  unfold execPwrRgDroopRead
  exact (outMoves_next (State.swRead_moves hp h₀))

theorem execDroopSample_moves {s₀ : State} {r : RegionId} {mv : BitVec 10} {s : State} (hp : Parts [.regs, .power, .elog] ps) (h₀ : Moves ps es s₀ s) :
    OutMoves ps es s₀ (execDroopSample r mv s) := by
  unfold execDroopSample
  exact (outMoves_then (outMoves_ite (outMoves_next (State.droop_moves hp (Moves.refl _))) (outMoves_next (Moves.refl _))) (State.noteVmin_moves (hp.s rfl) h₀))

theorem execPmbAlert_moves {s₀ : State} {words : List (BitVec 16)} {s : State} (hp : Parts [.regs, .elog, .outbox] ps) (h₀ : Moves ps es s₀ s) :
    OutMoves ps es s₀ (execPmbAlert words s) := by
  unfold execPmbAlert
  exact (need_moves _ _ (outMoves_next (State.emit_moves (hp.s rfl) (State.put_moves (hp.s rfl) (Moves.foldl _ h₀ fun _ _ h1 => (State.noteStatusWord_moves hp h1))))))

theorem execDroopSkipEnd_moves {s₀ : State} {r : RegionId} {s : State} (hp : Parts [.power] ps) (h₀ : Moves ps es s₀ s) :
    OutMoves ps es s₀ (execDroopSkipEnd r s) := by
  unfold execDroopSkipEnd
  exact (need_moves _ _ (outMoves_next (State.setRegion_moves hp h₀)))

theorem execPwrRgRearm_moves {s₀ : State} {r : RegionId} {s : State} (hp : Parts [.regs, .power] ps) (h₀ : Moves ps es s₀ s) :
    OutMoves ps es s₀ (execPwrRgRearm r s) := by
  unfold execPwrRgRearm
  exact (outMoves_next (State.rearm_moves hp h₀))

theorem State.writePwrCtl_moves {s₀ s : State} {v : Nat} (hp : Parts [.regs, .power] ps) (h₀ : Moves ps es s₀ s) :
    Moves ps es s₀ (State.writePwrCtl s v) := by
  unfold State.writePwrCtl
  exact (moves_then (moves_then (moves_ite (State.telRetry_moves (hp.s rfl) (Moves.refl _)) (Moves.refl _)) (moves_ite (Moves.refl _) (State.endSheds_moves (hp.s rfl) (Moves.refl _)))) (State.put_moves (hp.s rfl) h₀))

theorem execSquareGoesDark_moves {s₀ : State} {k : SquareId} {s : State} (hp : Parts [.regs, .mem, .engines, .marks, .landq, .squares, .mesh, .parked, .power, .elog, .outbox] ps) (ha : ∀ q, es q) (h₀ : Moves ps es s₀ s) :
    OutMoves ps es s₀ (execSquareGoesDark k s) := by
  unfold execSquareGoesDark
  exact (need_moves _ _ (outMoves_next (State.serveHeld_moves (hp.s rfl) (State.mapOutSquare_moves (hp.s rfl) (State.regionDark_moves (hp.s rfl) ha (State.setRegion_moves (hp.s rfl) (State.put_moves (hp.s rfl) (State.put_moves (hp.s rfl) (State.dropLines_moves (hp.s rfl) h₀)))))))))

theorem execGuardDecay_moves {s₀ : State} {r : RegionId} {s : State} (hp : Parts [.regs] ps) (h₀ : Moves ps es s₀ s) :
    OutMoves ps es s₀ (execGuardDecay r s) := by
  unfold execGuardDecay
  exact (need_moves _ _ (outMoves_next (State.put_moves hp h₀)))

theorem execRegionWake_moves {s₀ : State} {r : RegionId} {s : State} (hp : Parts [.regs, .power] ps) (h₀ : Moves ps es s₀ s) :
    OutMoves ps es s₀ (execRegionWake r s) := by
  unfold execRegionWake
  exact (need_moves _ _ (outMoves_next (State.wake_moves hp h₀)))

theorem execCurrentReport_moves {s₀ : State} {r : RegionId} {amps : BitVec 12} {s : State} (hp : Parts [.regs, .power] ps) (h₀ : Moves ps es s₀ s) :
    OutMoves ps es s₀ (execCurrentReport r amps s) := by
  unfold execCurrentReport
  exact (need_moves _ _ (outMoves_then (outMoves_ite (outMoves_next (State.setRegion_moves (hp.s rfl) (Moves.refl _))) (outMoves_ite (outMoves_next (State.setRegion_moves (hp.s rfl) (Moves.refl _))) (outMoves_ite (outMoves_next (State.setRegion_moves (hp.s rfl) (Moves.refl _))) (outMoves_next (State.put_moves (hp.s rfl) (State.setRegion_moves (hp.s rfl) (Moves.refl _))))))) (State.segmentFell_moves (hp.s rfl) (State.put_moves (hp.s rfl) h₀))))

theorem execTelemetryLost_moves {s₀ s : State} (hp : Parts [.regs, .power, .elog] ps) (h₀ : Moves ps es s₀ s) :
    OutMoves ps es s₀ (execTelemetryLost s) := by
  unfold execTelemetryLost
  exact (need_moves _ _ (outMoves_next (State.logEvent_moves (hp.s rfl) (State.setPower_moves (hp.s rfl) (State.put_moves (hp.s rfl) h₀)))))

theorem execPmbTransactionDone_moves {s₀ : State} {answered : Bool} {data : BitVec 16} {s : State} (hp : Parts [.regs] ps) (h₀ : Moves ps es s₀ s) :
    OutMoves ps es s₀ (execPmbTransactionDone answered data s) := by
  unfold execPmbTransactionDone
  exact (need_moves _ _ (outMoves_then (outMoves_ite (outMoves_next (State.put_moves hp (Moves.refl _))) (outMoves_then (outMoves_ite (outMoves_next (State.put_moves hp (Moves.refl _))) (outMoves_next (Moves.refl _))) (State.put_moves hp (Moves.refl _)))) (State.put_moves hp h₀)))

theorem execSliceUnshed_moves {s₀ : State} {inst group : Nat} {s : State} (hp : Parts [.power] ps) (h₀ : Moves ps es s₀ s) :
    OutMoves ps es s₀ (execSliceUnshed inst group s) := by
  unfold execSliceUnshed
  exact (need_moves _ _ (outMoves_next (State.setShed_moves hp h₀)))

theorem execPhaseEnd_moves {s₀ : State} {e : EngineId} {s : State} (hp : Parts [.regs, .hints] ps) (h₀ : Moves ps es s₀ s) :
    OutMoves ps es s₀ (execPhaseEnd e s) := by
  unfold execPhaseEnd
  exact (needSome_moves _ _ fun _ _ => (need_moves _ _ (outMoves_next (State.setHint_moves hp h₀))))

theorem State.recalBundle_moves {s₀ s : State} {step : Nat} {q : Nat × BitVec 64} (hp : Parts [.regs, .taps, .margins, .elog] ps) (h₀ : Moves ps es s₀ s) :
    Moves ps es s₀ (State.recalBundle s step q) := by
  unfold State.recalBundle
  generalize bundleAt q.1 = r
  obtain ⟨k, i, b⟩ := r
  exact moves_ite (State.calibrate_moves hp h₀) h₀

theorem State.writePll_moves {s₀ s : State} {e : EngineId} {v : Nat} (hp : Parts [.regs] ps) (h₀ : Moves ps es s₀ s) :
    Moves ps es s₀ (State.writePll s e v) := by
  unfold State.writePll
  exact (moves_ite (moves_then (moves_ite (State.pllLock_moves hp (Moves.refl _)) (Moves.refl _)) (State.put_moves hp (State.put_moves hp h₀))) h₀)

theorem State.setClock_moves {s₀ s : State} {f : Clock → Clock} (hp : Parts [.clock] ps) (h₀ : Moves ps es s₀ s) :
    Moves ps es s₀ (State.setClock s f) := by
  unfold State.setClock
  exact (Moves.litE rfl h₀ (.refl _) (.refl _) (.refl _) (.refl _) (.refl _) (.refl _) (.refl _) (.refl _) (fun _ h => h) (List.prefix_refl _) (Nat.le_refl _) (fun p hn => by cases p <;> first | exact absurd (hp.m rfl) hn | (simp only [Part.Same]; done) | exact rfl))

theorem State.setSlices_moves {s₀ s : State} {step : Nat} (hp : Parts [.clock] ps) (h₀ : Moves ps es s₀ s) :
    Moves ps es s₀ (State.setSlices s step) := by
  unfold State.setSlices
  exact (State.setClock_moves hp h₀)

theorem State.noteOffset_moves {s₀ s : State} {e : Int} (hp : Parts [.regs, .net] ps) (h₀ : Moves ps es s₀ s) :
    Moves ps es s₀ (State.noteOffset s e) := by
  unfold State.noteOffset
  exact (State.put_moves (hp.s rfl) (Moves.litE rfl (State.put_moves (hp.s rfl) h₀) (.refl _) (.refl _) (.refl _) (.refl _) (.refl _) (.refl _) (.refl _) (.refl _) (fun _ h => h) (List.prefix_refl _) (Nat.le_refl _) (fun p hn => by cases p <;> first | exact absurd (hp.m rfl) hn | (simp only [Part.Same]; done) | exact rfl)))

theorem State.putAdj_moves {s₀ s : State} {x : Int} (hp : Parts [.regs] ps) (h₀ : Moves ps es s₀ s) :
    Moves ps es s₀ (State.putAdj s x) := by
  unfold State.putAdj
  exact (State.put_moves hp h₀)

theorem State.stepBtime_moves {s₀ s : State} {e : Int} (hp : Parts [.regs, .clock, .elog, .gauges] ps) (h₀ : Moves ps es s₀ s) :
    Moves ps es s₀ (State.stepBtime s e) := by
  unfold State.stepBtime
  exact (State.gaugeStep_moves (hp.s rfl) (State.logEvent_moves (hp.s rfl) (State.count_moves (hp.s rfl) (State.setReg_moves (hp.s rfl) (State.putAdj_moves (hp.s rfl) (State.setClock_moves (hp.s rfl) h₀))))))

theorem State.discipline_moves {s₀ s : State} {e : Int} (hp : Parts [.regs, .clock] ps) (h₀ : Moves ps es s₀ s) :
    Moves ps es s₀ (State.discipline s e) := by
  unfold State.discipline
  exact (State.putAdj_moves (hp.s rfl) (State.setClock_moves (hp.s rfl) h₀))

theorem execTimeReply_moves {s₀ : State} {t2 t3 t4 : Word} {replayed : Bool} {s : State} (hp : Parts [.regs, .clock, .net, .elog, .gauges] ps) (h₀ : Moves ps es s₀ s) :
    OutMoves ps es s₀ (execTimeReply t2 t3 t4 replayed s) := by
  unfold execTimeReply
  exact (needSome_moves _ _ fun _ _ => (needSome_moves _ _ fun _ _ => (outMoves_ite (outMoves_next h₀) (outMoves_then (outMoves_ite (outMoves_next (State.stepBtime_moves (hp.s rfl) (Moves.refl _))) (outMoves_next (State.discipline_moves (hp.s rfl) (Moves.refl _)))) (State.noteOffset_moves (hp.s rfl) (Moves.litE rfl h₀ (.refl _) (.refl _) (.refl _) (.refl _) (.refl _) (.refl _) (.refl _) (.refl _) (fun _ h => h) (List.prefix_refl _) (Nat.le_refl _) (fun p hn => by cases p <;> first | exact absurd (hp.m rfl) hn | (simp only [Part.Same]; done) | exact rfl)))))))

theorem State.writeAdj_moves {s₀ s : State} {v : Nat} (hp : Parts [.regs] ps) (h₀ : Moves ps es s₀ s) :
    Moves ps es s₀ (State.writeAdj s v) := by
  unfold State.writeAdj
  exact (moves_ite (State.putAdj_moves hp h₀) h₀)

theorem execClkBtimeAdjWrite_moves {s₀ : State} {v : Word} {s : State} (hp : Parts [.regs] ps) (h₀ : Moves ps es s₀ s) :
    OutMoves ps es s₀ (execClkBtimeAdjWrite v s) := by
  unfold execClkBtimeAdjWrite
  exact (outMoves_next (State.writeAdj_moves hp h₀))

theorem execClkStepRead_moves {s₀ s : State} (hp : Parts [.regs] ps) (h₀ : Moves ps es s₀ s) :
    OutMoves ps es s₀ (execClkStepRead s) := by
  unfold execClkStepRead
  exact (outMoves_next (State.swRead_moves hp h₀))

theorem execVcoreSettleEnd_moves {s₀ s : State} (hp : Parts [.clock] ps) (h₀ : Moves ps es s₀ s) :
    OutMoves ps es s₀ (execVcoreSettleEnd s) := by
  unfold execVcoreSettleEnd
  exact (needSome_moves _ _ fun _ _ => (need_moves _ _ (outMoves_next (State.setClock_moves hp (State.setSlices_moves hp h₀)))))

theorem State.sendTime_moves {s₀ s : State} {p : PortId} {op t1 t2 t3 : Nat} (hp : Parts [.regs, .net, .elog, .outbox] ps) (h₀ : Moves ps es s₀ s) :
    Moves ps es s₀ (State.sendTime s p op t1 t2 t3) := by
  unfold State.sendTime
  exact (State.enqueue_moves hp h₀)

theorem execTimeExchange_moves {s₀ : State} {t1 : Word} {s : State} (hp : Parts [.regs, .net, .elog, .outbox] ps) (h₀ : Moves ps es s₀ s) :
    OutMoves ps es s₀ (execTimeExchange t1 s) := by
  unfold execTimeExchange
  exact (needSome_moves _ _ fun _ _ => (need_moves _ _ (outMoves_next (State.sendTime_moves hp (Moves.litE rfl h₀ (.refl _) (.refl _) (.refl _) (.refl _) (.refl _) (.refl _) (.refl _) (.refl _) (fun _ h => h) (List.prefix_refl _) (Nat.le_refl _) (fun p hn => by cases p <;> first | exact absurd (hp.m rfl) hn | (simp only [Part.Same]; done) | exact rfl))))))

theorem State.writeStepReq_moves {s₀ s : State} {v : Nat} (hp : Parts [.regs] ps) (h₀ : Moves ps es s₀ s) :
    Moves ps es s₀ (State.writeStepReq s v) := by
  unfold State.writeStepReq
  exact (State.put_moves hp h₀)

theorem execClkStepReq_moves {s₀ : State} {v : Word} {s : State} (hp : Parts [.regs] ps) (h₀ : Moves ps es s₀ s) :
    OutMoves ps es s₀ (execClkStepReq v s) := by
  unfold execClkStepReq
  exact (outMoves_next (State.writeStepReq_moves hp h₀))

theorem execClkStatusRead_moves {s₀ s : State} (hp : Parts [.regs] ps) (h₀ : Moves ps es s₀ s) :
    OutMoves ps es s₀ (execClkStatusRead s) := by
  unfold execClkStatusRead
  exact (outMoves_next (State.swRead_moves hp h₀))

theorem execTimeRequest_moves {s₀ : State} {p : PortId} {t1 t2 : Word} {replayed : Bool} {s : State} (hp : Parts [.regs, .net, .elog, .outbox] ps) (h₀ : Moves ps es s₀ s) :
    OutMoves ps es s₀ (execTimeRequest p t1 t2 replayed s) := by
  unfold execTimeRequest
  exact (need_moves _ _ (outMoves_next (moves_ite h₀ (State.sendTime_moves hp h₀))))

theorem State.pllFails_moves {s₀ s : State} {e : EngineId} (hp : Parts [.regs, .engines, .hints, .power, .elog] ps) (qe : es e) (h₀ : Moves ps es s₀ s) :
    Moves ps es s₀ (State.pllFails s e) := by
  unfold State.pllFails
  exact (State.logEvent_moves (hp.s rfl) (State.endTurn_moves (hp.s rfl) (State.put_moves (hp.s rfl) (State.put_moves (hp.s rfl) (State.put_moves (hp.s rfl) (moves_ite h₀ (State.engineReset_moves (hp.s rfl) qe h₀)))))))

theorem execPllLockLost_moves {s₀ : State} {e : EngineId} {s : State} (hp : Parts [.regs, .engines, .hints, .power, .elog] ps) (qe : es e) (h₀ : Moves ps es s₀ s) :
    OutMoves ps es s₀ (execPllLockLost e s) := by
  unfold execPllLockLost
  exact (need_moves _ _ (outMoves_next (State.pllFails_moves hp qe h₀)))

theorem execClkCanaryRead_moves {s₀ : State} {e : EngineId} {s : State} (hp : Parts [.regs] ps) (h₀ : Moves ps es s₀ s) :
    OutMoves ps es s₀ (execClkCanaryRead e s) := by
  unfold execClkCanaryRead
  exact (outMoves_next (State.swRead_moves hp h₀))

theorem State.relockAll_moves {s₀ s : State} (hp : Parts [.regs] ps) (h₀ : Moves ps es s₀ s) :
    Moves ps es s₀ (State.relockAll s) := by
  unfold State.relockAll
  exact (Moves.foldl _ h₀ fun _ _ h1 => (moves_ite (State.pllLock_moves hp h1) h1))

theorem execCanaryWindow_moves {s₀ : State} {e : EngineId} {below5 below10 : BitVec 16} {s : State} (hp : Parts [.regs, .elog] ps) (h₀ : Moves ps es s₀ s) :
    OutMoves ps es s₀ (execCanaryWindow e below5 below10 s) := by
  unfold execCanaryWindow
  exact (outMoves_then (outMoves_ite (outMoves_next (State.logEvent_moves hp (State.put_moves (hp.s rfl) (State.put_moves (hp.s rfl) (Moves.refl _))))) (outMoves_next (Moves.refl _))) (State.put_moves (hp.s rfl) (State.put_moves (hp.s rfl) h₀)))

theorem State.timeTick_moves {s₀ s : State} (hp : Parts [.clock] ps) (h₀ : Moves ps es s₀ s) :
    Moves ps es s₀ (State.timeTick s) := by
  unfold State.timeTick
  exact (State.setClock_moves hp h₀)

theorem State.idle_moves {s₀ s : State} (hp : Parts [.regs, .clock, .hints, .power] ps) (h₀ : Moves ps es s₀ s) :
    Moves ps es s₀ (State.idle s) := by
  unfold State.idle
  exact (moves_ite h₀ (State.windowsDue_moves (hp.s rfl) (State.hintsDue_moves (hp.s rfl) (State.timeTick_moves (hp.s rfl) h₀))))

theorem execClkPllRead_moves {s₀ : State} {e : EngineId} {s : State} (hp : Parts [.regs] ps) (h₀ : Moves ps es s₀ s) :
    OutMoves ps es s₀ (execClkPllRead e s) := by
  unfold execClkPllRead
  exact (outMoves_next (State.swRead_moves hp h₀))

theorem execClkPllFailClear_moves {s₀ : State} {e : EngineId} {v : Word} {s : State} (hp : Parts [.regs] ps) (h₀ : Moves ps es s₀ s) :
    OutMoves ps es s₀ (execClkPllFailClear e v s) := by
  unfold execClkPllFailClear
  exact (outMoves_next (State.writePll_moves hp h₀))

theorem State.commandVcore_moves {s₀ s : State} {step : Nat} (hp : Parts [.clock, .outbox] ps) (h₀ : Moves ps es s₀ s) :
    Moves ps es s₀ (State.commandVcore s step) := by
  unfold State.commandVcore
  exact (State.setClock_moves (hp.s rfl) (State.emit_moves (hp.s rfl) h₀))

theorem execStepPause_moves {s₀ : State} {found : List (Nat × BitVec 64)} {s : State} (hp : Parts [.regs, .clock, .taps, .margins, .elog, .outbox] ps) (h₀ : Moves ps es s₀ s) :
    OutMoves ps es s₀ (execStepPause found s) := by
  unfold execStepPause
  exact (needSome_moves _ _ fun _ _ => (need_moves _ _ (need_moves _ _ (outMoves_then (outMoves_next (State.refreshAllXw_moves (hp.s rfl) (State.put_moves (hp.s rfl) (State.count_moves (hp.s rfl) (moves_ite (State.commandVcore_moves (hp.s rfl) (State.setSlices_moves (hp.s rfl) (Moves.refl _))) (Moves.refl _)))))) (State.setClock_moves (hp.s rfl) (State.relockAll_moves (hp.s rfl) (State.put_moves (hp.s rfl) (State.put_moves (hp.s rfl) (Moves.foldl _ h₀ fun _ _ h1 => (State.recalBundle_moves (hp.s rfl) h1))))))))))

theorem execPllLockTimeout_moves {s₀ : State} {e : EngineId} {s : State} (hp : Parts [.regs, .engines, .hints, .power, .elog] ps) (qe : es e) (h₀ : Moves ps es s₀ s) :
    OutMoves ps es s₀ (execPllLockTimeout e s) := by
  unfold execPllLockTimeout
  exact (need_moves _ _ (outMoves_next (State.pllFails_moves hp qe h₀)))

theorem execStepChange_moves {s₀ s : State} (hp : Parts [.regs, .clock, .outbox] ps) (h₀ : Moves ps es s₀ s) :
    OutMoves ps es s₀ (execStepChange s) := by
  unfold execStepChange
  exact (need_moves _ _ (outMoves_then (outMoves_ite (outMoves_next (State.setClock_moves (hp.s rfl) (State.commandVcore_moves (hp.s rfl) (Moves.refl _)))) (outMoves_next (State.setClock_moves (hp.s rfl) (Moves.refl _)))) (State.put_moves (hp.s rfl) h₀)))

theorem State.limPair_moves {s₀ s : State} {start full : Field} {v : Nat} (hp : Parts [.regs] ps) (h₀ : Moves ps es s₀ s) :
    Moves ps es s₀ (State.limPair s start full v) := by
  unfold State.limPair
  exact (moves_ite (State.put_moves hp (State.put_moves hp h₀)) (State.put_moves hp h₀))

theorem State.markBroken_moves {s₀ s : State} {n : Nat} (hp : Parts [.regs] ps) (h₀ : Moves ps es s₀ s) :
    Moves ps es s₀ (State.markBroken s n) := by
  unfold State.markBroken
  exact (State.setReg_moves hp h₀)

theorem State.setThermal_moves {s₀ s : State} {f : Thermal → Thermal} (hp : Parts [.thermal] ps) (h₀ : Moves ps es s₀ s) :
    Moves ps es s₀ (State.setThermal s f) := by
  unfold State.setThermal
  exact (Moves.litE rfl h₀ (.refl _) (.refl _) (.refl _) (.refl _) (.refl _) (.refl _) (.refl _) (.refl _) (fun _ h => h) (List.prefix_refl _) (Nat.le_refl _) (fun p hn => by cases p <;> first | exact absurd (hp.m rfl) hn | (simp only [Part.Same]; done) | exact rfl))

theorem State.markSuspect_moves {s₀ s : State} {n : Nat} (hp : Parts [.regs] ps) (h₀ : Moves ps es s₀ s) :
    Moves ps es s₀ (State.markSuspect s n) := by
  unfold State.markSuspect
  exact (State.setReg_moves hp h₀)

theorem State.judgeLow_moves {s₀ s : State} {n : Nat} {v : Option Int} {p : Val} (hp : Parts [.regs, .thermal, .elog] ps) (h₀ : Moves ps es s₀ s) :
    Moves ps es s₀ (State.judgeLow s n v p) := by
  unfold State.judgeLow
  exact (moves_ite (State.setThermal_moves (hp.s rfl) h₀) (moves_ite h₀ (by (try dsimp only); split; exact (State.setThermal_moves (hp.s rfl) h₀); exact (moves_ite (moves_then (moves_ite (State.logEvent_moves (hp.s rfl) (State.markSuspect_moves (hp.s rfl) (Moves.refl _))) (Moves.refl _)) (State.setThermal_moves (hp.s rfl) h₀)) (State.setThermal_moves (hp.s rfl) h₀)))))

theorem State.runModel_moves {s₀ s : State} {reads : List (Option Int)} {counts : List (Nat × List Nat)} {inlet outlet : Val} (hp : Parts [.regs, .thermal, .elog] ps) (h₀ : Moves ps es s₀ s) :
    Moves ps es s₀ (State.runModel s reads counts inlet outlet).1 := by
  unfold State.runModel
  extract_lets m start p pa at_ ds u goods t f
  have hu : Moves ps es s₀ u := Moves.foldl _ h₀ fun _ _ h1 => State.judgeLow_moves hp h1
  clear_value u
  exact fstMoves_mk (State.setThermal_moves (hp.s rfl) hu)

theorem State.countSensors_moves {s₀ s : State} (hp : Parts [.regs] ps) (h₀ : Moves ps es s₀ s) :
    Moves ps es s₀ (State.countSensors s) := by
  unfold State.countSensors
  exact (State.put_moves hp (State.put_moves hp h₀))

theorem State.alarm_moves {s₀ s : State} {f : Field} {rounds bit : Nat} (hp : Parts [.regs, .elog] ps) (h₀ : Moves ps es s₀ s) :
    Moves ps es s₀ (State.alarm s f rounds bit) := by
  unfold State.alarm
  exact (moves_ite (State.logEvent_moves hp (State.put_moves (hp.s rfl) h₀)) h₀)

theorem State.coolant_moves {s₀ s : State} {inlet outlet : Val} (hp : Parts [.regs, .thermal, .elog] ps) (h₀ : Moves ps es s₀ s) :
    Moves ps es s₀ (State.coolant s inlet outlet) := by
  unfold State.coolant
  exact (by (try dsimp only); split; exact (State.put_moves (hp.s rfl) (State.put_moves (hp.s rfl) (State.put_moves (hp.s rfl) (State.put_moves (hp.s rfl) (State.alarm_moves (hp.s rfl) (State.alarm_moves (hp.s rfl) (State.alarm_moves (hp.s rfl) (State.setThermal_moves (hp.s rfl) h₀)))))))); exact (State.put_moves (hp.s rfl) (State.put_moves (hp.s rfl) (State.put_moves (hp.s rfl) (State.put_moves (hp.s rfl) (State.alarm_moves (hp.s rfl) (State.alarm_moves (hp.s rfl) (State.alarm_moves (hp.s rfl) (State.setThermal_moves (hp.s rfl) h₀)))))))))

theorem State.showReading_moves {s₀ s : State} {n v : Nat} (hp : Parts [.regs] ps) (h₀ : Moves ps es s₀ s) :
    Moves ps es s₀ (State.showReading s n v) := by
  unfold State.showReading
  exact (moves_ite (State.put_moves hp h₀) (moves_ite (State.put_moves hp h₀) (State.put_moves hp h₀)))

theorem State.publish_moves {s₀ s : State} {reads : List (Option Int)} {r : Round} (hp : Parts [.regs] ps) (h₀ : Moves ps es s₀ s) :
    Moves ps es s₀ (State.publish s reads r) := by
  unfold State.publish
  exact (Moves.foldl _ (Moves.foldl _ h₀ fun _ _ h1 => (State.showReading_moves hp h1)) fun _ _ h3 => (State.put_moves hp h3))

theorem State.refreshRate_moves {s₀ s : State} {reads : List (Option Int)} {k m : Nat} (hp : Parts [.regs] ps) (h₀ : Moves ps es s₀ s) :
    Moves ps es s₀ (State.refreshRate s reads k m) := by
  unfold State.refreshRate
  exact (moves_ite (Moves.foldl _ h₀ fun _ _ h1 => (State.put_moves hp h1)) (moves_ite (Moves.foldl _ h₀ fun _ _ h2 => (State.put_moves hp h2)) h₀))

theorem State.fallbackOne_moves {s₀ s : State} {r : RegionId} {level : Nat} {t : Val} {start : Nat} (hp : Parts [.regs, .thermal, .elog] ps) (h₀ : Moves ps es s₀ s) :
    Moves ps es s₀ (State.fallbackOne s r level t start) := by
  unfold State.fallbackOne
  exact (moves_then (moves_ite (moves_then (moves_ite (State.logEvent_moves (hp.s rfl) (Moves.refl _)) (Moves.refl _)) (State.put_moves (hp.s rfl) (Moves.refl _))) (moves_ite (State.put_moves (hp.s rfl) (Moves.refl _)) (Moves.refl _))) (State.setThermal_moves (hp.s rfl) h₀))

theorem State.fallbacks_moves {s₀ s : State} {r : Round} (hp : Parts [.regs, .thermal, .elog] ps) (h₀ : Moves ps es s₀ s) :
    Moves ps es s₀ (State.fallbacks s r) := by
  unfold State.fallbacks
  exact (State.put_moves (hp.s rfl) (Moves.foldl _ (Moves.foldl _ (Moves.foldl _ h₀ fun _ _ h1 => (State.fallbackOne_moves hp h1)) fun _ _ h3 => (State.fallbackOne_moves hp h3)) fun _ _ h5 => (State.put_moves (hp.s rfl) h5)))

theorem State.stepLimit_moves {s₀ s : State} {floorLevel : Nat} (hp : Parts [.regs, .thermal, .elog] ps) (h₀ : Moves ps es s₀ s) :
    Moves ps es s₀ (State.stepLimit s floorLevel) := by
  unfold State.stepLimit
  exact (moves_ite (State.logEvent_moves (hp.s rfl) (State.count_moves (hp.s rfl) (State.put_moves (hp.s rfl) (State.setThermal_moves (hp.s rfl) h₀)))) (moves_ite (State.put_moves (hp.s rfl) (State.setThermal_moves (hp.s rfl) h₀)) (State.setThermal_moves (hp.s rfl) h₀)))

theorem State.setThermalLevel_moves {s₀ s : State} {e v : Nat} (hp : Parts [.regs] ps) (h₀ : Moves ps es s₀ s) :
    Moves ps es s₀ (State.setThermalLevel s e v) := by
  unfold State.setThermalLevel
  exact (State.put_moves hp h₀)

theorem State.applyLevels_moves {s₀ s : State} {r : Round} (hp : Parts [.regs, .thermal] ps) (h₀ : Moves ps es s₀ s) :
    Moves ps es s₀ (State.applyLevels s r) := by
  unfold State.applyLevels
  exact (State.put_moves (hp.s rfl) (State.setThermal_moves (hp.s rfl) (Moves.foldl _ h₀ fun _ _ h1 => (State.setThermalLevel_moves (hp.s rfl) h1))))

theorem State.actOn_moves {s₀ s : State} {reads : List (Option Int)} {r : Round} {inlet outlet : Val} (hp : Parts [.regs, .thermal, .elog, .drawn] ps) (h₀ : Moves ps es s₀ s) :
    Moves ps es s₀ (State.actOn s reads r inlet outlet) := by
  unfold State.actOn
  extract_lets s1 s2
  have h1 : Moves ps es s₀ s1 := State.countSensors_moves (hp.s rfl) (State.coolant_moves (hp.s rfl) (State.publish_moves (hp.s rfl) h₀))
  clear_value s1
  have h2 : Moves ps es s₀ s2 := by
    refine Moves.foldl _ h1 fun u k hu => ?_
    exact Moves.foldl _ hu fun v m hv => State.refreshRate_moves (hp.s rfl) hv
  clear_value s2
  exact State.draw_moves (hp.s rfl) (State.fallbacks_moves (hp.s rfl) (State.stepLimit_moves (hp.s rfl) (State.applyLevels_moves (hp.s rfl) h2)))

theorem State.thermalRound_moves {s₀ s : State} {reads : List (Option Int)} {counts : List (Nat × List Nat)} (hp : Parts [.regs, .thermal, .elog, .drawn] ps) (h₀ : Moves ps es s₀ s) :
    Moves ps es s₀ (State.thermalRound s reads counts) := by
  unfold State.thermalRound
  exact (State.actOn_moves hp (State.runModel_moves (hp.s rfl) h₀))

theorem execAdcFail_moves {s₀ : State} {counts : List (Nat × List Nat)} {s : State} (hp : Parts [.regs, .thermal, .elog, .drawn] ps) (h₀ : Moves ps es s₀ s) :
    OutMoves ps es s₀ (execAdcFail counts s) := by
  unfold execAdcFail
  exact (outMoves_next (State.thermalRound_moves hp (State.put_moves (hp.s rfl) (Moves.foldl _ h₀ fun _ _ h1 => (State.markBroken_moves (hp.s rfl) h1)))))

theorem execFlowTimeout_moves {s₀ s : State} (hp : Parts [.thermal] ps) (h₀ : Moves ps es s₀ s) :
    OutMoves ps es s₀ (execFlowTimeout s) := by
  unfold execFlowTimeout
  exact (outMoves_next (State.setThermal_moves hp h₀))

theorem State.writeSuspect_moves {s₀ s : State} {i v : Nat} (hp : Parts [.regs, .thermal] ps) (h₀ : Moves ps es s₀ s) :
    Moves ps es s₀ (State.writeSuspect s i v) := by
  unfold State.writeSuspect
  exact (State.countSensors_moves (hp.s rfl) (State.setThermal_moves (hp.s rfl) (State.swWrite_moves (hp.s rfl) h₀)))

theorem execThmSuspectClear_moves {s₀ : State} {i : Fin 12} {v : Word} {s : State} (hp : Parts [.regs, .thermal] ps) (h₀ : Moves ps es s₀ s) :
    OutMoves ps es s₀ (execThmSuspectClear i v s) := by
  unfold execThmSuspectClear
  exact (outMoves_next (State.writeSuspect_moves hp h₀))

theorem State.writeLim_moves {s₀ s : State} {which v : Nat} (hp : Parts [.regs] ps) (h₀ : Moves ps es s₀ s) :
    Moves ps es s₀ (State.writeLim s which v) := by
  unfold State.writeLim
  exact (moves_ite (State.limPair_moves hp h₀) (moves_ite (State.limPair_moves hp h₀) (State.limPair_moves hp (State.limPair_moves hp h₀))))

theorem execThmLimWrite_moves {s₀ : State} {which : Fin 3} {v : Word} {s : State} (hp : Parts [.regs] ps) (h₀ : Moves ps es s₀ s) :
    OutMoves ps es s₀ (execThmLimWrite which v s) := by
  unfold execThmLimWrite
  exact (outMoves_next (State.writeLim_moves hp h₀))

theorem execThmStepRead_moves {s₀ s : State} (hp : Parts [.regs] ps) (h₀ : Moves ps es s₀ s) :
    OutMoves ps es s₀ (execThmStepRead s) := by
  unfold execThmStepRead
  exact (outMoves_next (State.swRead_moves hp h₀))

theorem State.writeBroken_moves {s₀ s : State} {i v : Nat} (hp : Parts [.regs, .thermal] ps) (h₀ : Moves ps es s₀ s) :
    Moves ps es s₀ (State.writeBroken s i v) := by
  unfold State.writeBroken
  exact (State.countSensors_moves (hp.s rfl) (State.setThermal_moves (hp.s rfl) (State.swWrite_moves (hp.s rfl) h₀)))

theorem execThmBrokenClear_moves {s₀ : State} {i : Fin 12} {v : Word} {s : State} (hp : Parts [.regs, .thermal] ps) (h₀ : Moves ps es s₀ s) :
    OutMoves ps es s₀ (execThmBrokenClear i v s) := by
  unfold execThmBrokenClear
  exact (outMoves_next (State.writeBroken_moves hp h₀))

theorem execFlowEdge_moves {s₀ s : State} (hp : Parts [.thermal] ps) (h₀ : Moves ps es s₀ s) :
    OutMoves ps es s₀ (execFlowEdge s) := by
  unfold execFlowEdge
  exact (outMoves_ite (outMoves_next h₀) (outMoves_next (State.setThermal_moves hp h₀)))

theorem State.judgeValid_moves {s₀ s : State} {n : Nat} {v : Option Int} (hp : Parts [.regs, .thermal, .elog] ps) (h₀ : Moves ps es s₀ s) :
    Moves ps es s₀ (State.judgeValid s n v) := by
  unfold State.judgeValid
  exact (moves_ite h₀ (by (try dsimp only); split; exact (State.setThermal_moves (hp.s rfl) h₀); exact (moves_then (moves_ite (State.logEvent_moves (hp.s rfl) (State.markBroken_moves (hp.s rfl) (Moves.refl _))) (Moves.refl _)) (State.setThermal_moves (hp.s rfl) h₀))))

theorem execAdcRoundEnd_moves {s₀ : State} {r : AdcRound} {s : State} (hp : Parts [.regs, .thermal, .elog, .drawn] ps) (h₀ : Moves ps es s₀ s) :
    OutMoves ps es s₀ (execAdcRoundEnd r s) := by
  unfold execAdcRoundEnd
  exact (outMoves_next (State.thermalRound_moves hp (State.put_moves (hp.s rfl) (State.bump_moves (hp.s rfl) (Moves.foldl _ h₀ fun _ _ h1 => (State.judgeValid_moves (hp.s rfl) h1))))))

end Sys2Proof.Machine
end

