-- ==== Sys2Proof/Laws/MovesTrust.lean ====
section
/-! SUPPORT. What the operations of Security, Flash, Frontage, Access, Startup, Sessions, Step can do: each is a move. -/
namespace Sys2Proof.Machine
variable {ps : List Part} {es : EngineId → Prop}

theorem State.secStart_moves {s₀ s : State} {op : Nat} (hp : Parts [.regs, .sec] ps) (h₀ : Moves ps es s₀ s) :
    Moves ps es s₀ (State.secStart s op) := by
  unfold State.secStart
  exact (State.setSec_moves (hp.s rfl) (State.put_moves (hp.s rfl) h₀))

theorem State.secRow_moves {s₀ s : State} {op : Nat} {k : SecReq → State → State} (hp : Parts [.regs, .sec] ps) (h₀ : Moves ps es s₀ s) (hk : ∀ (a0 : SecReq) (a1 : State), Moves ps es s₀ a1 → Moves ps es s₀ (k a0 a1)) :
    OutMoves ps es s₀ (State.secRow s op k) := by
  unfold State.secRow
  exact (by (try dsimp only); split; exact (outMoves_ite (outMoves_next (hk _ _ (moves_ite h₀ (State.secStart_moves hp (State.put_moves (hp.s rfl) h₀))))) (outMoves_next (moves_ite h₀ (State.secStart_moves hp (State.put_moves (hp.s rfl) h₀))))); exact (outMoves_next (moves_ite h₀ (State.secStart_moves hp (State.put_moves (hp.s rfl) h₀)))))

theorem State.blowWords_moves {s₀ s : State} {w : Nat} {l : List Nat} (hp : Parts [.otp] ps) (h₀ : Moves ps es s₀ s) : Moves ps es s₀ (s.blowWords w l) := by
  induction l generalizing s w with
  | nil => exact h₀
  | cons x l ih => exact ih (State.blow_moves hp h₀)

theorem State.refreshOtp_moves {s₀ s : State} (hp : Parts [.regs] ps) (h₀ : Moves ps es s₀ s) :
    Moves ps es s₀ (State.refreshOtp s) := by
  unfold State.refreshOtp
  exact (State.put_moves hp (Moves.foldl _ (State.put_moves hp (State.put_moves hp (State.put_moves hp (State.put_moves hp (State.put_moves hp (State.put_moves hp (State.put_moves hp (State.put_moves hp h₀)))))))) fun _ _ h4 => (State.put_moves hp h4)))

theorem State.takeRecord_moves {s₀ s : State} {b : List Byte} {badFuse : Option Nat} (hp : Parts [.regs, .otp] ps) (h₀ : Moves ps es s₀ s) :
    Moves ps es s₀ (State.takeRecord s b badFuse).1 := by
  unfold State.takeRecord
  exact (fstMoves_then (State.refreshOtp_moves (hp.s rfl) (moves_ite (State.put_moves (hp.s rfl) (Moves.refl _)) (Moves.refl _))) (State.blowWords_moves (hp.s rfl) (State.put_moves (hp.s rfl) h₀)))

theorem State.record_moves {s₀ s : State} {debug : Bool} {b : List Byte} {badFuse : Option Nat} (hp : Parts [.regs, .otp] ps) (h₀ : Moves ps es s₀ s) :
    Moves ps es s₀ (State.record s debug b badFuse).1 := by
  unfold State.record
  exact (fstMoves_ite (State.takeRecord_moves hp h₀) h₀)

theorem State.secJob_moves {s₀ s : State} {c : Code} {len : Nat} (hp : Parts [.sec] ps) (h₀ : Moves ps es s₀ s) :
    Moves ps es s₀ (State.secJob s c len) := by
  unfold State.secJob
  exact (State.setSec_moves hp h₀)

theorem execSecEnroll_moves {s₀ : State} {parity : Bool} {badFuse : Option Nat} {s : State} (hp : Parts [.regs, .otp, .sec] ps) (h₀ : Moves ps es s₀ s) :
    OutMoves ps es s₀ (execSecEnroll parity badFuse s) := by
  unfold execSecEnroll
  exact (State.secRow_moves (hp.s rfl) h₀ (fun _ _ h1 => (by (try dsimp only); split; exact (State.secJob_moves (hp.s rfl) (State.record_moves (hp.s rfl) h1)); exact (State.secJob_moves (hp.s rfl) h1))))

theorem State.blowFuses_moves {s₀ s : State} {w : Nat} {l : List Nat} (hp : Parts [.otp] ps) (h₀ : Moves ps es s₀ s) : Moves ps es s₀ (s.blowFuses w l) := by
  induction l generalizing s with
  | nil => exact h₀
  | cons x l ih => exact ih (State.blow_moves hp h₀)

theorem State.advance_moves {s₀ s : State} {w now most target : Nat} {badFuse : Option Nat} (hp : Parts [.regs, .otp, .sec] ps) (h₀ : Moves ps es s₀ s) :
    Moves ps es s₀ (State.advance s w now most target badFuse) := by
  unfold State.advance
  exact (moves_ite (State.secJob_moves (hp.s rfl) h₀) (State.secJob_moves (hp.s rfl) (State.refreshOtp_moves (hp.s rfl) (State.blowFuses_moves (hp.s rfl) h₀))))

theorem execSecSvnAdv_moves {s₀ : State} {badFuse : Option Nat} {s : State} (hp : Parts [.regs, .otp, .sec] ps) (h₀ : Moves ps es s₀ s) :
    OutMoves ps es s₀ (execSecSvnAdv badFuse s) := by
  unfold execSecSvnAdv
  exact (State.secRow_moves (hp.s rfl) h₀ (fun _ _ h1 => (moves_ite (moves_ite (State.advance_moves hp h1) (State.secJob_moves (hp.s rfl) h1)) (State.advance_moves hp h1))))

theorem execSecNonce_moves {s₀ : State} {fresh : BitVec 256} {s : State} (hp : Parts [.regs, .sec] ps) (h₀ : Moves ps es s₀ s) :
    OutMoves ps es s₀ (execSecNonce fresh s) := by
  unfold execSecNonce
  exact (State.secRow_moves hp h₀ (fun _ _ h1 => (State.secJob_moves (hp.s rfl) (State.put_moves (hp.s rfl) (Moves.foldl _ h1 fun _ _ h2 => (State.setReg_moves (hp.s rfl) h2))))))

theorem State.tapShift_moves {s₀ s : State} {v : Nat} (hp : Parts [.outbox, .sec] ps) (h₀ : Moves ps es s₀ s) :
    Moves ps es s₀ (State.tapShift s v) := by
  unfold State.tapShift
  exact (State.emit_moves (hp.s rfl) (State.setSec_moves (hp.s rfl) h₀))

theorem execTapIdcode_moves {s₀ s : State} (hp : Parts [.outbox, .sec] ps) (h₀ : Moves ps es s₀ s) :
    OutMoves ps es s₀ (execTapIdcode s) := by
  unfold execTapIdcode
  exact (outMoves_next (State.tapShift_moves hp h₀))

theorem execTapNonceRead_moves {s₀ s : State} (hp : Parts [.outbox, .sec] ps) (h₀ : Moves ps es s₀ s) :
    OutMoves ps es s₀ (execTapNonceRead s) := by
  unfold execTapNonceRead
  exact (outMoves_next (State.tapShift_moves hp h₀))

theorem execTapTokenLoad_moves {s₀ : State} {record : List Byte} {s : State} (hp : Parts [.regs, .otp] ps) (h₀ : Moves ps es s₀ s) :
    OutMoves ps es s₀ (execTapTokenLoad record s) := by
  unfold execTapTokenLoad
  exact (need_moves _ _ (outMoves_next (State.record_moves hp h₀)))

theorem execSecDebug_moves {s₀ : State} {parity : Bool} {s : State} (hp : Parts [.regs, .otp, .sec] ps) (h₀ : Moves ps es s₀ s) :
    OutMoves ps es s₀ (execSecDebug parity s) := by
  unfold execSecDebug
  exact (State.secRow_moves (hp.s rfl) h₀ (fun _ _ h1 => (by (try dsimp only); split; exact (State.secJob_moves (hp.s rfl) (State.record_moves (hp.s rfl) h1)); exact (State.secJob_moves (hp.s rfl) h1))))

theorem execSecQuote_moves {s₀ : State} {parity : Bool} {s : State} (hp : Parts [.regs, .mem, .sec] ps) (h₀ : Moves ps es s₀ s) :
    OutMoves ps es s₀ (execSecQuote parity s) := by
  unfold execSecQuote
  exact (State.secRow_moves (hp.s rfl) h₀ (fun _ _ h1 => (by (try dsimp only); split; exact (State.secJob_moves (hp.s rfl) (State.noteSigned_moves (hp.s rfl) (State.writeSram_moves (hp.s rfl) h1))); exact (State.secJob_moves (hp.s rfl) h1))))

theorem execSecurityOperationDone_moves {s₀ s : State} (hp : Parts [.regs, .sec] ps) (h₀ : Moves ps es s₀ s) :
    OutMoves ps es s₀ (execSecurityOperationDone s) := by
  unfold execSecurityOperationDone
  exact (needSome_moves _ _ fun _ _ => (need_moves _ _ (outMoves_next (State.setSec_moves (hp.s rfl) (State.put_moves (hp.s rfl) (State.put_moves (hp.s rfl) (State.put_moves (hp.s rfl) h₀)))))))

theorem execTapBypass_moves {s₀ : State} {ir : BitVec 8} {s : State} (hp : Parts [.regs] ps) (h₀ : Moves ps es s₀ s) :
    OutMoves ps es s₀ (execTapBypass ir s) := by
  unfold execTapBypass
  exact (need_moves _ _ (outMoves_ite (outMoves_next h₀) (outMoves_ite (outMoves_next (State.put_moves hp h₀)) (outMoves_refused _ _))))

theorem execSecCert_moves {s₀ s : State} (hp : Parts [.regs, .mem, .sec] ps) (h₀ : Moves ps es s₀ s) :
    OutMoves ps es s₀ (execSecCert s) := by
  unfold execSecCert
  exact (State.secRow_moves (hp.s rfl) h₀ (fun _ _ h1 => (by (try dsimp only); split; exact (State.secJob_moves (hp.s rfl) (State.writeSram_moves (hp.s rfl) h1)); exact (State.secJob_moves (hp.s rfl) h1))))

theorem State.extendMr_moves {s₀ s : State} {i : Fin 8} {kind : Nat} {d : List Byte} (hp : Parts [.regs, .mem, .mrs] ps) (h₀ : Moves ps es s₀ s) :
    Moves ps es s₀ (State.extendMr s i kind d) := by
  unfold State.extendMr
  have h1 (v : Vector (List Byte) 8) : Moves ps es s₀ (s.setSec fun x => { x with mrs := v }) := by
    unfold State.setSec
    exact Moves.litE rfl h₀ (.refl _) (.refl _) (.refl _) (.refl _) (.refl _) (.refl _) (.refl _) (.refl _) (fun _ h => h) (List.prefix_refl _)
      (Nat.le_refl _) (fun p hn => by cases p <;> first | exact absurd (hp.m rfl) hn | exact rfl)
  exact State.put_moves (hp.s rfl) (State.writeSram_moves (hp.s rfl) (h1 _))

theorem execSecExtend_moves {s₀ : State} {parity : Bool} {s : State} (hp : Parts [.regs, .mem, .mrs, .sec] ps) (h₀ : Moves ps es s₀ s) :
    OutMoves ps es s₀ (execSecExtend parity s) := by
  unfold execSecExtend
  exact (State.secRow_moves (hp.s rfl) h₀ (fun _ _ h1 => (by (try dsimp only); split; exact (moves_ite (State.secJob_moves (hp.s rfl) h1) (State.secJob_moves (hp.s rfl) (State.extendMr_moves (hp.s rfl) h1))); exact (State.secJob_moves (hp.s rfl) h1))))

theorem State.issueAlias_moves {s₀ s : State} (hp : Parts [.regs, .sec] ps) (h₀ : Moves ps es s₀ s) :
    Moves ps es s₀ (State.issueAlias s) := by
  unfold State.issueAlias
  exact (State.put_moves (hp.s rfl) (State.setSec_moves (hp.s rfl) h₀))

theorem State.writeSecCmd_moves {s₀ s : State} {v : Nat} (hp : Parts [.regs, .sec] ps) (h₀ : Moves ps es s₀ s) :
    Moves ps es s₀ (State.writeSecCmd s v) := by
  unfold State.writeSecCmd
  exact (moves_then (moves_ite (moves_then (moves_ite (State.secJob_moves (hp.s rfl) (Moves.refl _)) (Moves.refl _)) (State.secStart_moves hp (Moves.refl _))) (Moves.refl _)) (State.swFields_moves (hp.s rfl) h₀))

theorem execSecSign_moves {s₀ : State} {parity : Bool} {s : State} (hp : Parts [.regs, .mem, .sec] ps) (h₀ : Moves ps es s₀ s) :
    OutMoves ps es s₀ (execSecSign parity s) := by
  unfold execSecSign
  exact (State.secRow_moves (hp.s rfl) h₀ (fun _ _ h1 => (by (try dsimp only); split; exact (State.secJob_moves (hp.s rfl) (State.noteSigned_moves (hp.s rfl) (State.writeSram_moves (hp.s rfl) h1))); exact (State.secJob_moves (hp.s rfl) h1))))

theorem State.writeMemo_moves {s₀ s : State} {v : Nat} (hp : Parts [.regs, .boot] ps) (h₀ : Moves ps es s₀ s) :
    Moves ps es s₀ (State.writeMemo s v) := by
  unfold State.writeMemo
  exact (moves_then (moves_ite (State.setBoot_moves (hp.s rfl) (State.put_moves (hp.s rfl) (Moves.refl _))) (Moves.refl _)) (State.swFields_moves (hp.s rfl) h₀))

theorem execAonMemoGo_moves {s₀ : State} {v : Word} {s : State} (hp : Parts [.regs, .boot] ps) (h₀ : Moves ps es s₀ s) :
    OutMoves ps es s₀ (execAonMemoGo v s) := by
  unfold execAonMemoGo
  exact (outMoves_next (State.writeMemo_moves hp h₀))

theorem State.writeBlockId_moves {s₀ s : State} {v : Nat} (hp : Parts [.regs] ps) (h₀ : Moves ps es s₀ s) :
    Moves ps es s₀ (State.writeBlockId s v) := by
  unfold State.writeBlockId
  exact (State.swWrite_moves hp h₀)

theorem State.writeFlash_moves {s₀ s : State} {at_ : Nat} {b : List Byte} (hp : Parts [.mem] ps) (h₀ : Moves ps es s₀ s) :
    Moves ps es s₀ (State.writeFlash s at_ b) := by
  unfold State.writeFlash
  exact (State.setBytes_moves hp h₀)

theorem State.failFlash_moves {s₀ s : State} {at_ n : Nat} (hp : Parts [.mem, .drawn] ps) (h₀ : Moves ps es s₀ s) :
    Moves ps es s₀ (State.failFlash s at_ n) := by
  unfold State.failFlash
  exact (State.draw_moves (hp.s rfl) (State.writeFlash_moves (hp.s rfl) h₀))

theorem State.memoDone_moves {s₀ s : State} {c : Code} (hp : Parts [.regs] ps) (h₀ : Moves ps es s₀ s) :
    Moves ps es s₀ (State.memoDone s c) := by
  unfold State.memoDone
  exact (State.put_moves hp (State.put_moves hp h₀))

theorem State.eraseFlash_moves {s₀ s : State} {at_ n : Nat} (hp : Parts [.mem] ps) (h₀ : Moves ps es s₀ s) :
    Moves ps es s₀ (State.eraseFlash s at_ n) := by
  unfold State.eraseFlash
  exact (Moves.litE rfl h₀ (.refl _) (Edits.filter (.refl _) _) (.refl _) (.refl _) (.refl _) (.refl _) (.refl _) (.refl _) (fun _ h => h) (List.prefix_refl _) (Nat.le_refl _) (fun p hn => by cases p <;> first | exact absurd (hp.m rfl) hn | (simp only [Part.Same]; done) | exact rfl))

theorem execMemoSealDone_moves {s₀ : State} {readBackOk : Bool} {s : State} (hp : Parts [.regs, .mem, .drawn] ps) (h₀ : Moves ps es s₀ s) :
    OutMoves ps es s₀ (execMemoSealDone readBackOk s) := by
  unfold execMemoSealDone
  exact (need_moves _ _ (outMoves_ite (outMoves_next (State.memoDone_moves (hp.s rfl) h₀)) (outMoves_ite (outMoves_next (State.memoDone_moves (hp.s rfl) h₀)) (outMoves_then (outMoves_ite (outMoves_next (State.memoDone_moves (hp.s rfl) (State.failFlash_moves (hp.s rfl) (Moves.refl _)))) (outMoves_next (State.memoDone_moves (hp.s rfl) (State.writeFlash_moves (hp.s rfl) (Moves.refl _))))) (State.eraseFlash_moves (hp.s rfl) h₀)))))

theorem State.placeEntries_moves {s₀ s : State} {b : Nat} {l : List LedgerEntry} (hp : Parts [.mem] ps) (h₀ : Moves ps es s₀ s) :
    Moves ps es s₀ (State.placeEntries s b l) := by
  unfold State.placeEntries
  exact (Moves.foldl _ h₀ fun _ _ h1 => (by (try dsimp only); split; exact (State.writeFlash_moves hp h1); exact h1))

theorem State.copyBank_moves {s₀ s : State} (hp : Parts [.mem] ps) (h₀ : Moves ps es s₀ s) :
    Moves ps es s₀ (State.copyBank s) := by
  unfold State.copyBank
  exact (moves_ite (State.eraseFlash_moves hp (State.placeEntries_moves hp h₀)) h₀)

theorem execAonBlockIdWrite_moves {s₀ : State} {v : Word} {s : State} (hp : Parts [.regs] ps) (h₀ : Moves ps es s₀ s) :
    OutMoves ps es s₀ (execAonBlockIdWrite v s) := by
  unfold execAonBlockIdWrite
  exact (outMoves_next (State.writeBlockId_moves hp h₀))

theorem State.writeLedger_moves {s₀ s : State} {v : Nat} (hp : Parts [.regs, .boot] ps) (h₀ : Moves ps es s₀ s) :
    Moves ps es s₀ (State.writeLedger s v) := by
  unfold State.writeLedger
  exact (moves_then (moves_ite (Moves.refl _) (moves_ite (State.put_moves (hp.s rfl) (Moves.refl _)) (State.setBoot_moves (hp.s rfl) (State.put_moves (hp.s rfl) (Moves.refl _))))) (State.swFields_moves (hp.s rfl) h₀))

theorem execAonLedgerGo_moves {s₀ : State} {v : Word} {s : State} (hp : Parts [.regs, .boot] ps) (h₀ : Moves ps es s₀ s) :
    OutMoves ps es s₀ (execAonLedgerGo v s) := by
  unfold execAonLedgerGo
  exact (outMoves_next (State.writeLedger_moves hp h₀))

theorem State.appendEntry_moves {s₀ s : State} {kind source action loc : Nat} (hp : Parts [.mem] ps) (h₀ : Moves ps es s₀ s) :
    OptMoves ps es s₀ (State.appendEntry s kind source action loc) := by
  unfold State.appendEntry
  exact optMoves_map fun _ => State.writeFlash_moves hp h₀

theorem State.romEntry_moves {s₀ s : State} {kind source action loc : Nat} (hp : Parts [.mem] ps) (h₀ : Moves ps es s₀ s) :
    Moves ps es s₀ (State.romEntry s kind source action loc) := by
  unfold State.romEntry
  exact (optMoves_getD (State.appendEntry_moves hp h₀) h₀)

theorem State.enterService_moves {s₀ s : State} (hp : Parts [.regs] ps) (h₀ : Moves ps es s₀ s) :
    Moves ps es s₀ (State.enterService s) := by
  unfold State.enterService
  exact (State.put_moves hp (State.put_moves hp (State.put_moves hp (State.put_moves hp h₀))))

theorem execService_moves {s₀ s : State} (hp : Parts [.regs] ps) (h₀ : Moves ps es s₀ s) :
    OutMoves ps es s₀ (execService s) := by
  unfold execService
  exact (need_moves _ _ (outMoves_next (State.enterService_moves hp h₀)))

theorem State.ledgerDone_moves {s₀ s : State} {c : Code} (hp : Parts [.regs] ps) (h₀ : Moves ps es s₀ s) :
    Moves ps es s₀ (State.ledgerDone s c) := by
  unfold State.ledgerDone
  exact (State.put_moves hp (State.put_moves hp h₀))

theorem execLedgerAppendDone_moves {s₀ : State} {ok : Bool} {s : State} (hp : Parts [.regs, .mem, .drawn] ps) (h₀ : Moves ps es s₀ s) :
    OutMoves ps es s₀ (execLedgerAppendDone ok s) := by
  unfold execLedgerAppendDone
  exact (need_moves _ _ (by (try dsimp only); split; exact (outMoves_next (State.ledgerDone_moves (hp.s rfl) h₀)); exact (outMoves_ite (outMoves_next (State.ledgerDone_moves (hp.s rfl) (State.failFlash_moves (hp.s rfl) h₀))) (outMoves_next (State.ledgerDone_moves (hp.s rfl) (State.put_moves (hp.s rfl) (State.writeFlash_moves (hp.s rfl) h₀)))))))

theorem State.writeBoot_moves {s₀ s : State} {v : Nat} (hp : Parts [.regs] ps) (h₀ : Moves ps es s₀ s) :
    Moves ps es s₀ (State.writeBoot s v) := by
  unfold State.writeBoot
  exact (moves_then (moves_ite (State.enterService_moves hp (Moves.refl _)) (Moves.refl _)) (State.swFields_moves hp h₀))

theorem State.setSlotNat_moves {s₀ s : State} {i off n v : Nat} (hp : Parts [.mem] ps) (h₀ : Moves ps es s₀ s) :
    Moves ps es s₀ (State.setSlotNat s i off n v) := by
  unfold State.setSlotNat
  exact (State.writeSram_moves hp h₀)

theorem State.emptyRings_moves {s₀ s : State} {p : FrId} (hp : Parts [.regs] ps) (h₀ : Moves ps es s₀ s) :
    Moves ps es s₀ (State.emptyRings s p) := by
  unfold State.emptyRings
  exact (State.resetReg_moves hp (State.resetReg_moves hp h₀))

theorem State.setFrEnable_moves {s₀ s : State} {p : FrId} {want : Bool} (hp : Parts [.regs] ps) (h₀ : Moves ps es s₀ s) :
    Moves ps es s₀ (State.setFrEnable s p want) := by
  unfold State.setFrEnable
  exact (moves_then (moves_ite (Moves.refl _) (State.emptyRings_moves hp (State.put_moves hp (State.put_moves hp (Moves.refl _))))) (State.put_moves hp h₀))

theorem State.writeFrCtl_moves {s₀ s : State} {p : FrId} {v : Nat} (hp : Parts [.regs] ps) (h₀ : Moves ps es s₀ s) :
    Moves ps es s₀ (State.writeFrCtl s p v) := by
  unfold State.writeFrCtl
  exact (State.setFrEnable_moves hp (State.swWrite_moves hp h₀))

theorem State.writeRxPtr_moves {s₀ s : State} {p : FrId} {v : Nat} (hp : Parts [.regs] ps) (h₀ : Moves ps es s₀ s) :
    Moves ps es s₀ (State.writeRxPtr s p v) := by
  unfold State.writeRxPtr
  exact (moves_ite (State.put_moves hp h₀) h₀)

theorem execFrCountRead_moves {s₀ : State} {p : FrId} {s : State} (hp : Parts [.regs] ps) (h₀ : Moves ps es s₀ s) :
    OutMoves ps es s₀ (execFrCountRead p s) := by
  unfold execFrCountRead
  exact (outMoves_next (State.swRead_moves hp h₀))

theorem State.setSlotKeys_moves {s₀ s : State} {key iv sn i : Nat} {k : RecordKeys} (hp : Parts [.mem] ps) (h₀ : Moves ps es s₀ s) :
    Moves ps es s₀ (State.setSlotKeys s key iv sn i k) := by
  unfold State.setSlotKeys
  exact (State.writeSram_moves hp (State.writeSram_moves hp (State.writeSram_moves hp h₀)))

theorem execFrDropRead_moves {s₀ : State} {p : FrId} {s : State} (hp : Parts [.regs] ps) (h₀ : Moves ps es s₀ s) :
    OutMoves ps es s₀ (execFrDropRead p s) := by
  unfold execFrDropRead
  exact (outMoves_next (State.swRead_moves hp h₀))

theorem State.clampTx_moves {s₀ s : State} {p : FrId} {f : Field} {v : Nat} (hp : Parts [.regs] ps) (h₀ : Moves ps es s₀ s) :
    Moves ps es s₀ (State.clampTx s p f v) := by
  unfold State.clampTx
  exact (State.put_moves hp h₀)

theorem execFrFecRead_moves {s₀ : State} {p : FrId} {s : State} (hp : Parts [.regs] ps) (h₀ : Moves ps es s₀ s) :
    OutMoves ps es s₀ (execFrFecRead p s) := by
  unfold execFrFecRead
  exact (outMoves_next (State.swRead_moves hp h₀))

theorem execTxEntrySend_moves {s₀ : State} {p : FrId} {s : State} (hp : Parts [.regs, .mem, .front, .outbox] ps) (h₀ : Moves ps es s₀ s) :
    OutMoves ps es s₀ (execTxEntrySend p s) := by
  unfold execTxEntrySend
  exact (need_moves _ _ (need_moves _ _ (by (try dsimp only); split; exact (outMoves_next (State.put_moves (hp.s rfl) h₀)); exact (outMoves_then (outMoves_next (State.count_moves (hp.s rfl) (State.put_moves (hp.s rfl) (moves_ite (Moves.refl _) (State.setSlotNat_moves (hp.s rfl) (Moves.refl _)))))) (State.emit_moves (hp.s rfl) (Moves.litE rfl h₀ (.refl _) (.refl _) (.refl _) (.refl _) (.refl _) (.refl _) (.refl _) (.refl _) (fun _ h => h) (List.prefix_refl _) (Nat.le_refl _) (fun p hn => by cases p <;> first | exact absurd (hp.m rfl) hn | (simp only [Part.Same]; done) | exact rfl)))))))

theorem State.ringFull_moves {s₀ s : State} {p : FrId} (hp : Parts [.regs] ps) (h₀ : Moves ps es s₀ s) :
    Moves ps es s₀ (State.ringFull s p) := by
  unfold State.ringFull
  exact (State.put_moves hp (State.count_moves hp h₀))

theorem execFrEnable_moves {s₀ : State} {p : FrId} {on : Bool} {s : State} (hp : Parts [.regs] ps) (h₀ : Moves ps es s₀ s) :
    OutMoves ps es s₀ (execFrEnable p on s) := by
  unfold execFrEnable
  exact (outMoves_next (State.setFrEnable_moves hp h₀))

theorem State.writeRing_moves {s₀ s : State} {r : Reg} {size : Field} {p : FrId} {v : Nat} (hp : Parts [.regs] ps) (h₀ : Moves ps es s₀ s) :
    Moves ps es s₀ (State.writeRing s r size p v) := by
  unfold State.writeRing
  exact (moves_ite h₀ (State.put_moves hp (State.swWrite_moves hp h₀)))

theorem State.writeTxcap_moves {s₀ s : State} {p : FrId} {v : Nat} (hp : Parts [.regs, .front] ps) (h₀ : Moves ps es s₀ s) :
    Moves ps es s₀ (State.writeTxcap s p v) := by
  unfold State.writeTxcap
  exact (State.clampTx_moves (hp.s rfl) (State.clampTx_moves (hp.s rfl) (State.clampTx_moves (hp.s rfl) (State.clampTx_moves (hp.s rfl) (Moves.litE rfl h₀ (.refl _) (.refl _) (.refl _) (.refl _) (.refl _) (.refl _) (.refl _) (.refl _) (fun _ h => h) (List.prefix_refl _) (Nat.le_refl _) (fun p hn => by cases p <;> first | exact absurd (hp.m rfl) hn | (simp only [Part.Same]; done) | exact rfl))))))

theorem execFrTxcapWrite_moves {s₀ : State} {p : FrId} {v : Word} {s : State} (hp : Parts [.regs, .front] ps) (h₀ : Moves ps es s₀ s) :
    OutMoves ps es s₀ (execFrTxcapWrite p v s) := by
  unfold execFrTxcapWrite
  exact (outMoves_next (State.writeTxcap_moves hp h₀))

theorem State.acceptRecord_moves {s₀ s : State} {p : FrId} {i num : Nat} (hp : Parts [.mem] ps) (h₀ : Moves ps es s₀ s) :
    Moves ps es s₀ (State.acceptRecord s p i num) := by
  unfold State.acceptRecord
  exact (moves_then (moves_ite (State.setSlotNat_moves hp (State.setSlotNat_moves hp (Moves.refl _))) (State.setSlotNat_moves hp (Moves.refl _))) (State.setSlotNat_moves hp h₀))

theorem State.toRing_moves {s₀ s : State} {p : FrId} {cls slot : Nat} {data : List Byte} (hp : Parts [.regs, .mem] ps) (h₀ : Moves ps es s₀ s) :
    Moves ps es s₀ (State.toRing s p cls slot data) := by
  unfold State.toRing
  exact (State.count_moves (hp.s rfl) (State.put_moves (hp.s rfl) (State.writeSram_moves (hp.s rfl) (State.writeSram_moves (hp.s rfl) h₀))))

theorem execFrontageLinkChange_moves {s₀ : State} {p : FrId} {up : Bool} {s : State} (hp : Parts [.regs] ps) (h₀ : Moves ps es s₀ s) :
    OutMoves ps es s₀ (execFrontageLinkChange p up s) := by
  unfold execFrontageLinkChange
  exact (need_moves _ _ (outMoves_next (State.put_moves hp (State.put_moves hp h₀))))

theorem State.writeTxPtr_moves {s₀ s : State} {p : FrId} {v : Nat} (hp : Parts [.regs] ps) (h₀ : Moves ps es s₀ s) :
    Moves ps es s₀ (State.writeTxPtr s p v) := by
  unfold State.writeTxPtr
  exact (moves_ite (State.put_moves hp h₀) h₀)

theorem execFrameReceive_moves {s₀ : State} {p : FrId} {f : Frame} {s : State} (hp : Parts [.regs, .mem] ps) (h₀ : Moves ps es s₀ s) :
    OutMoves ps es s₀ (execFrameReceive p f s) := by
  unfold execFrameReceive
  exact (need_moves _ _ (by (try dsimp only); split; exact (outMoves_next (State.count_moves (hp.s rfl) (State.count_moves (hp.s rfl) (State.count_moves (hp.s rfl) h₀)))); exact (outMoves_next (State.count_moves (hp.s rfl) (State.count_moves (hp.s rfl) (State.count_moves (hp.s rfl) h₀)))); exact (outMoves_next (State.count_moves (hp.s rfl) (State.count_moves (hp.s rfl) (State.count_moves (hp.s rfl) h₀)))); exact (outMoves_ite (outMoves_next (State.toRing_moves hp (State.acceptRecord_moves (hp.s rfl) (State.count_moves (hp.s rfl) (State.count_moves (hp.s rfl) h₀))))) (outMoves_next (State.ringFull_moves (hp.s rfl) (State.count_moves (hp.s rfl) (State.count_moves (hp.s rfl) h₀))))); exact (outMoves_ite (outMoves_next (State.toRing_moves hp (State.count_moves (hp.s rfl) (State.count_moves (hp.s rfl) h₀)))) (outMoves_next (State.ringFull_moves (hp.s rfl) (State.count_moves (hp.s rfl) (State.count_moves (hp.s rfl) h₀)))))))

theorem execFrRxptrTail_moves {s₀ : State} {p : FrId} {v : Word} {s : State} (hp : Parts [.regs] ps) (h₀ : Moves ps es s₀ s) :
    OutMoves ps es s₀ (execFrRxptrTail p v s) := by
  unfold execFrRxptrTail
  exact (outMoves_next (State.writeRxPtr_moves hp h₀))

theorem execFrTxptrTail_moves {s₀ : State} {p : FrId} {v : Word} {s : State} (hp : Parts [.regs] ps) (h₀ : Moves ps es s₀ s) :
    OutMoves ps es s₀ (execFrTxptrTail p v s) := by
  unfold execFrTxptrTail
  exact (outMoves_next (State.writeTxPtr_moves hp h₀))

theorem State.ownAccess_moves {s₀ s : State} {c : CoreId} {id a : Nat} {op : MemOp} {parity : Bool} (hp : Parts [.regs, .mem, .outbox] ps) (h₀ : Moves ps es s₀ s) :
    Moves ps es s₀ (State.ownAccess s c id a op parity) := by
  unfold State.ownAccess
  exact (moves_ite (State.complete_moves (hp.s rfl) h₀) (by (try dsimp only); split; exact (moves_ite (State.complete_moves (hp.s rfl) h₀) (State.complete_moves (hp.s rfl) h₀)); exact (moves_ite (State.complete_moves (hp.s rfl) h₀) (State.complete_moves (hp.s rfl) (State.writeSram_moves (hp.s rfl) h₀)))))

theorem State.onFin_moves {s₀ s : State} {n x : Nat} {f : Fin n → State} (_hp : Parts [] ps) (h₀ : Moves ps es s₀ s) (hf : ∀ (a0 : Fin n), Moves ps es s₀ (f a0)) :
    Moves ps es s₀ (State.onFin s x f) := by
  unfold State.onFin
  exact (by (try dsimp only); split; exact (hf _); exact h₀)

theorem State.writeAv_moves {s₀ s : State} {r : Reg} {v inst idx : Nat} (hp : Parts [.regs, .engines, .mesh, .bars, .watches, .lateLogged, .net, .elog, .outbox] ps) (ha : ∀ q, es q) (h₀ : Moves ps es s₀ s) :
    Moves ps es s₀ (State.writeAv s r v inst idx) := by
  unfold State.writeAv
  exact (moves_ite (State.put_moves (hp.s rfl) h₀) (moves_ite (State.onFin_moves (hp.s rfl) h₀ (fun _ => (State.writeBarCfg_moves (hp.s rfl) ha h₀))) (moves_ite (State.setFlags_moves (hp.s rfl) ha h₀) (moves_ite (State.setFlags_moves (hp.s rfl) ha h₀) (moves_ite (State.writeCommit_moves (hp.s rfl) h₀) (State.swWrite_moves (hp.s rfl) h₀))))))

theorem State.writeAonReset_moves {s₀ s : State} {v : Nat} (hp : Parts [.regs, .mem, .clock, .pins, .engines, .hints, .banks, .marks, .landq, .scrubAt, .spareRow, .squares, .mesh, .parked, .bars, .watches, .lateLogged, .taps, .margins, .power, .net, .boot, .front, .thermal, .elog, .gauges, .outbox, .drawn, .mrs, .sec] ps) (ha : ∀ q, es q) (h₀ : Moves ps es s₀ s) :
    Moves ps es s₀ (State.writeAonReset s v) := by
  unfold State.writeAonReset
  exact (moves_then (moves_then (moves_then (moves_ite (State.wholeReset_moves hp ha (Moves.refl _)) (Moves.refl _)) (moves_ite (Moves.foldl _ (Moves.refl _) fun _ _ h4 => (moves_ite h4 (State.engineReset_moves (hp.s rfl) (ha _) h4))) (Moves.refl _))) (moves_ite (Moves.foldl _ (Moves.refl _) fun _ _ h2 => (moves_ite h2 (State.engineReset_moves (hp.s rfl) (ha _) h2))) (Moves.refl _))) (State.swFields_moves (hp.s rfl) h₀))

theorem State.writeEngRst_moves {s₀ s : State} {r : Reg} {base v : Nat} (hp : Parts [.regs, .engines, .hints] ps) (ha : ∀ q, es q) (h₀ : Moves ps es s₀ s) :
    Moves ps es s₀ (State.writeEngRst s r base v) := by
  unfold State.writeEngRst
  exact (Moves.foldl _ (State.swWrite_moves (hp.s rfl) h₀) fun _ _ h2 => (moves_ite (State.engineReset_moves hp (ha _) h2) h2))

theorem State.writeAon_moves {s₀ s : State} {r : Reg} {v idx : Nat} (hp : Parts [.regs, .mem, .clock, .pins, .engines, .hints, .banks, .marks, .landq, .scrubAt, .spareRow, .squares, .mesh, .parked, .bars, .watches, .lateLogged, .taps, .margins, .power, .net, .boot, .front, .thermal, .elog, .gauges, .outbox, .drawn, .mrs, .sec] ps) (ha : ∀ q, es q) (h₀ : Moves ps es s₀ s) :
    Moves ps es s₀ (State.writeAon s r v idx) := by
  unfold State.writeAon
  exact (moves_ite (State.writeBlockId_moves (hp.s rfl) h₀) (moves_ite (State.writeBoot_moves (hp.s rfl) h₀) (moves_ite (State.writeAonReset_moves hp ha h₀) (moves_ite (State.writeEngRst_moves (hp.s rfl) ha h₀) (moves_ite (State.writeEngRst_moves (hp.s rfl) ha h₀) (moves_ite (State.writeWdog_moves (hp.s rfl) h₀) (moves_ite (State.writeMemo_moves (hp.s rfl) h₀) (moves_ite (State.writeLedger_moves (hp.s rfl) h₀) (State.swWrite_moves (hp.s rfl) h₀)))))))))

theorem State.readControl_moves {s₀ s : State} {off : Nat} (hp : Parts [.regs] ps) (h₀ : Moves ps es s₀ s) :
    Moves ps es s₀ (State.readControl s off).1 := by
  unfold State.readControl
  exact (by (try dsimp only); split; exact (fstMoves_ite h₀ (fstMoves_ite (State.onFin_moves (hp.s rfl) h₀ (fun _ => (State.readVmin_moves hp h₀))) (State.swRead_moves hp h₀))); exact h₀)

theorem State.writePwr_moves {s₀ s : State} {r : Reg} {v inst idx : Nat} (hp : Parts [.regs, .power, .outbox] ps) (h₀ : Moves ps es s₀ s) :
    Moves ps es s₀ (State.writePwr s r v inst idx) := by
  unfold State.writePwr
  exact (moves_ite (State.writePwrCtl_moves (hp.s rfl) h₀) (moves_ite (State.writeCap_moves (hp.s rfl) h₀) (moves_ite (State.writePwrHint_moves (hp.s rfl) h₀) (moves_ite (State.writePmb_moves hp h₀) (moves_ite (State.onFin_moves (hp.s rfl) h₀ (fun _ => (State.writeRgCtl_moves (hp.s rfl) h₀))) (moves_ite (State.onFin_moves (hp.s rfl) h₀ (fun _ => (State.writeRgCeil_moves (hp.s rfl) h₀))) (State.swWrite_moves (hp.s rfl) h₀)))))))

theorem State.writeThm_moves {s₀ s : State} {r : Reg} {v idx : Nat} (hp : Parts [.regs, .thermal] ps) (h₀ : Moves ps es s₀ s) :
    Moves ps es s₀ (State.writeThm s r v idx) := by
  unfold State.writeThm
  exact (moves_ite (State.writeLim_moves (hp.s rfl) h₀) (moves_ite (State.writeLim_moves (hp.s rfl) h₀) (moves_ite (State.writeLim_moves (hp.s rfl) h₀) (moves_ite (State.writeSuspect_moves hp h₀) (moves_ite (State.writeBroken_moves hp h₀) (State.swWrite_moves (hp.s rfl) h₀))))))

theorem State.writeClk_moves {s₀ s : State} {r : Reg} {v inst idx : Nat} (hp : Parts [.regs] ps) (h₀ : Moves ps es s₀ s) :
    Moves ps es s₀ (State.writeClk s r v inst idx) := by
  unfold State.writeClk
  exact (moves_ite (State.writeStepReq_moves hp h₀) (moves_ite (State.writeAdj_moves hp h₀) (moves_ite (State.onFin_moves (hp.s rfl) h₀ (fun _ => (State.writePll_moves hp h₀))) (State.swWrite_moves hp h₀))))

theorem State.writeElog_moves {s₀ s : State} {r : Reg} {v idx : Nat} (hp : Parts [.regs, .mem, .elog, .outbox] ps) (h₀ : Moves ps es s₀ s) :
    Moves ps es s₀ (State.writeElog s r v idx) := by
  unfold State.writeElog
  exact (moves_ite (moves_then (moves_ite (State.closeAll_moves hp (Moves.refl _)) (Moves.refl _)) (State.swFields_moves (hp.s rfl) h₀)) (moves_ite (State.writeElogStatus_moves (hp.s rfl) h₀) (State.swWrite_moves (hp.s rfl) h₀)))

theorem State.writePl_moves {s₀ s : State} {r : Reg} {v inst idx : Nat} (hp : Parts [.regs, .engines, .mesh, .watches, .net, .elog, .outbox, .drawn] ps) (ha : ∀ q, es q) (h₀ : Moves ps es s₀ s) :
    Moves ps es s₀ (State.writePl s r v inst idx) := by
  unfold State.writePl
  exact (moves_ite (State.onFin_moves (hp.s rfl) h₀ (fun _ => (State.writePlCtl_moves hp ha h₀))) (moves_ite (State.writeTwinWin_moves (hp.s rfl) h₀) (moves_ite (moves_ite h₀ (State.put_moves (hp.s rfl) h₀)) (State.swWrite_moves (hp.s rfl) h₀))))

theorem State.writeFr_moves {s₀ s : State} {r : Reg} {v inst idx : Nat} (hp : Parts [.regs, .front] ps) (h₀ : Moves ps es s₀ s) :
    Moves ps es s₀ (State.writeFr s r v inst idx) := by
  unfold State.writeFr
  exact (State.onFin_moves (hp.s rfl) h₀ (fun _ => (moves_ite (State.writeFrCtl_moves (hp.s rfl) h₀) (moves_ite (State.writeRing_moves (hp.s rfl) h₀) (moves_ite (State.writeRing_moves (hp.s rfl) h₀) (moves_ite (State.writeRxPtr_moves (hp.s rfl) h₀) (moves_ite (State.writeTxPtr_moves (hp.s rfl) h₀) (moves_ite (State.writeTxcap_moves hp h₀) (State.swWrite_moves (hp.s rfl) h₀)))))))))

theorem State.writeColumnUnit_moves {s₀ s : State} {r : Reg} {v inst idx : Nat} (hp : Parts [.regs, .engines, .hints, .scrubAt, .squares, .power, .outbox] ps) (ha : ∀ q, es q) (h₀ : Moves ps es s₀ s) :
    Moves ps es s₀ (State.writeColumnUnit s r v inst idx) := by
  unfold State.writeColumnUnit
  exact (moves_ite (State.onFin_moves (hp.s rfl) h₀ (fun _ => (State.writeEngCtl_moves (hp.s rfl) (ha _) h₀))) (moves_ite (State.onFin_moves (hp.s rfl) h₀ (fun _ => (State.writePgcmd_moves (hp.s rfl) (ha _) h₀))) (moves_ite (State.onFin_moves (hp.s rfl) h₀ (fun _ => (State.writeSqCtl_moves (hp.s rfl) h₀))) (moves_ite (State.onFin_moves (hp.s rfl) h₀ (fun _ => (State.writeSqFlush_moves (hp.s rfl) h₀))) (moves_ite (State.onFin_moves (hp.s rfl) h₀ (fun _ => (State.writeScrub_moves (hp.s rfl) h₀))) (moves_ite (State.put_moves (hp.s rfl) (moves_ite (State.put_moves (hp.s rfl) h₀) h₀)) (State.swWrite_moves (hp.s rfl) h₀)))))))

theorem State.writeReg_moves {s₀ s : State} {r : Reg} {inst idx v : Nat} (hp : Parts [.regs, .mem, .clock, .pins, .engines, .hints, .banks, .marks, .landq, .scrubAt, .spareRow, .squares, .mesh, .parked, .bars, .watches, .lateLogged, .taps, .margins, .power, .net, .boot, .front, .thermal, .elog, .gauges, .outbox, .drawn, .mrs, .sec] ps) (ha : ∀ q, es q) (h₀ : Moves ps es s₀ s) :
    Moves ps es s₀ (State.writeReg s r inst idx v) := by
  unfold State.writeReg
  exact (by (try dsimp only); split; exact (State.writeAon_moves hp ha h₀); exact (moves_ite (State.writeSecCmd_moves (hp.s rfl) h₀) (State.swWrite_moves (hp.s rfl) h₀)); exact (State.writePwr_moves (hp.s rfl) h₀); exact (State.writeThm_moves (hp.s rfl) h₀); exact (State.writeClk_moves (hp.s rfl) h₀); exact (State.writeElog_moves (hp.s rfl) h₀); exact (moves_ite (State.onFin_moves (hp.s rfl) h₀ (fun _ => (State.writeGaugeCfg_moves (hp.s rfl) h₀))) (moves_ite (State.onFin_moves (hp.s rfl) h₀ (fun _ => (State.writeGaugePeriod_moves (hp.s rfl) h₀))) (State.swWrite_moves (hp.s rfl) h₀))); exact (State.writeAv_moves (hp.s rfl) ha h₀); exact (State.writePl_moves (hp.s rfl) ha h₀); exact (moves_ite (State.onFin_moves (hp.s rfl) h₀ (fun _ => (State.writeTollRate_moves (hp.s rfl) h₀))) (State.swWrite_moves (hp.s rfl) h₀)); exact (State.writeFr_moves (hp.s rfl) h₀); exact (moves_ite (State.writePinFault_moves (hp.s rfl) h₀) (moves_ite (State.writePinGpio_moves (hp.s rfl) h₀) (State.swWrite_moves (hp.s rfl) h₀))); exact (State.writeColumnUnit_moves (hp.s rfl) ha h₀))

theorem State.writeControl_moves {s₀ s : State} {off v : Nat} (hp : Parts [.regs, .mem, .clock, .pins, .engines, .hints, .banks, .marks, .landq, .scrubAt, .spareRow, .squares, .mesh, .parked, .bars, .watches, .lateLogged, .taps, .margins, .power, .net, .boot, .front, .thermal, .elog, .gauges, .outbox, .drawn, .mrs, .sec] ps) (ha : ∀ q, es q) (h₀ : Moves ps es s₀ s) :
    Moves ps es s₀ (State.writeControl s off v) := by
  unfold State.writeControl
  exact (by (try dsimp only); split; exact (State.writeReg_moves hp ha h₀); exact h₀)

theorem State.controlAccess_moves {s₀ s : State} {c : CoreId} {id off : Nat} {op : MemOp} (hp : Parts [.regs, .mem, .clock, .pins, .engines, .hints, .banks, .marks, .landq, .scrubAt, .spareRow, .squares, .mesh, .parked, .bars, .watches, .lateLogged, .taps, .margins, .power, .net, .boot, .front, .thermal, .elog, .gauges, .outbox, .drawn, .mrs, .sec] ps) (ha : ∀ q, es q) (h₀ : Moves ps es s₀ s) :
    Moves ps es s₀ (State.controlAccess s c id off op) := by
  unfold State.controlAccess
  exact (moves_ite (State.complete_moves (hp.s rfl) h₀) (moves_ite (State.complete_moves (hp.s rfl) h₀) (by (try dsimp only); split; exact (State.complete_moves (hp.s rfl) (State.readControl_moves (hp.s rfl) h₀)); exact (State.complete_moves (hp.s rfl) (State.writeControl_moves hp ha h₀)))))

theorem execRegisterWrite_moves {s₀ : State} {offset : BitVec 32} {v : Word} {s : State} (hp : Parts [.regs, .mem, .clock, .pins, .engines, .hints, .banks, .marks, .landq, .scrubAt, .spareRow, .squares, .mesh, .parked, .bars, .watches, .lateLogged, .taps, .margins, .power, .net, .boot, .front, .thermal, .elog, .gauges, .outbox, .drawn, .mrs, .sec] ps) (ha : ∀ q, es q) (h₀ : Moves ps es s₀ s) :
    OutMoves ps es s₀ (execRegisterWrite offset v s) := by
  unfold execRegisterWrite
  exact (outMoves_next (moves_ite (State.writeControl_moves hp ha h₀) h₀))

theorem execControlCoreAccess_moves {s₀ : State} {c : CoreId} {sp : CoreSpace} {addr : Word} {op : MemOp} {s : State} (hp : Parts [.regs, .mem, .clock, .pins, .engines, .hints, .banks, .marks, .landq, .scrubAt, .spareRow, .squares, .mesh, .parked, .bars, .watches, .lateLogged, .taps, .margins, .power, .net, .boot, .front, .thermal, .elog, .gauges, .outbox, .drawn, .mrs, .sec] ps) (ha : ∀ q, es q) (h₀ : Moves ps es s₀ s) :
    OutMoves ps es s₀ (execControlCoreAccess c sp addr op s) := by
  unfold execControlCoreAccess
  refine need_moves _ _ ?_
  have hu (n : Nat) : Moves ps es s₀ { s with net := { s.net with nextAccess := n } } := (Moves.litE rfl h₀ (.refl _) (.refl _) (.refl _) (.refl _) (.refl _) (.refl _) (.refl _) (.refl _) (fun _ h => h) (List.prefix_refl _) (Nat.le_refl _) (fun p hn => by cases p <;> first | exact absurd (hp.m rfl) hn | (simp only [Part.Same]; done) | exact rfl))
  extract_lets id n u
  have hu : Moves ps es s₀ u := hu _
  clear_value u
  split
  · exact outMoves_next (State.ownAccess_moves (hp.s rfl) hu)
  · refine outMoves_ite (execPacketOriginate_moves (hp.s rfl) h₀) ?_
    split
    · exact outMoves_next (State.complete_moves (hp.s rfl) hu)
    · exact outMoves_next (State.controlAccess_moves hp ha hu)
    · refine outMoves_ite (outMoves_next (State.complete_moves (hp.s rfl) hu)) (needSome_moves _ _ fun v hv => outMoves_next ?_)
      obtain ⟨k, -, hk⟩ := Option.bind_eq_some_iff.mp hv
      exact State.deliverRequest_moves (hp.s rfl) hu v hk

theorem State.inStage_moves {s₀ s : State} {n : Nat} {k : Out} (hp : Parts [] ps) (h₀ : Moves ps es s₀ s) (hk : OutMoves ps es s₀ k) :
    OutMoves ps es s₀ (State.inStage s n k) := by
  unfold State.inStage
  exact (powered_moves hp h₀ (need_moves _ _ hk))

theorem State.hold_moves {s₀ s : State} (hp : Parts [.regs, .mesh, .net, .elog, .outbox] ps) (h₀ : Moves ps es s₀ s) :
    Moves ps es s₀ (State.hold s) := by
  unfold State.hold
  exact (Moves.foldl _ (Moves.foldl _ (State.put_moves (hp.s rfl) h₀) fun _ _ h2 => (moves_ite h2 (State.disablePort_moves hp h2))) fun _ _ h4 => (moves_ite (State.setFrEnable_moves (hp.s rfl) h4) h4))

theorem execVpmPgTimeout_moves {s₀ s : State} (hp : Parts [.regs, .pins, .mesh, .net, .elog, .outbox] ps) (h₀ : Moves ps es s₀ s) :
    OutMoves ps es s₀ (execVpmPgTimeout s) := by
  unfold execVpmPgTimeout
  exact (State.inStage_moves (hp.s rfl) h₀ (need_moves _ _ (outMoves_next (State.hold_moves (hp.s rfl) (Moves.litE rfl h₀ (.refl _) (.refl _) (.refl _) (.refl _) (.refl _) (.refl _) (.refl _) (.refl _) (fun _ h => h) (List.prefix_refl _) (Nat.le_refl _) (fun p hn => by cases p <;> first | exact absurd (hp.m rfl) hn | (simp only [Part.Same]; done) | exact rfl))))))

theorem State.onEngine_moves {s₀ s : State} {n : Nat} {f : EngineId → State} (_hp : Parts [] ps) (h₀ : Moves ps es s₀ s) (hf : ∀ (a0 : EngineId), Moves ps es s₀ (f a0)) :
    Moves ps es s₀ (State.onEngine s n f) := by
  unfold State.onEngine
  exact (by (try dsimp only); split; exact (hf _); exact h₀)

theorem State.repairRows_moves {s₀ s : State} {e : EngineId} {bank : Nat} (hp : Parts [.regs, .engines, .spareRow] ps) (qe : es e) (h₀ : Moves ps es s₀ s) :
    Moves ps es s₀ (State.repairRows s e bank) := by
  unfold State.repairRows
  exact (moves_ite (State.mapOutEngine_moves (hp.s rfl) qe h₀) (Moves.foldl _ (Moves.litE rfl h₀ (.refl _) (.refl _) (.refl _) (.refl _) (Edits.filter (.refl _) _) (.refl _) (.refl _) (.refl _) (fun _ h => h) (List.prefix_refl _) (Nat.le_refl _) (fun p hn => by cases p <;> first | exact absurd (hp.m rfl) hn | (simp only [Part.Same]; done) | exact rfl)) fun _ _ h2 => (Moves.litE rfl h2 (.refl _) (.refl _) (.refl _) (.refl _) (Edits.set (.refl _) _ _) (.refl _) (.refl _) (.refl _) (fun _ h => h) (List.prefix_refl _) (Nat.le_refl _) (fun p hn => by cases p <;> first | exact absurd (hp.m rfl) hn | (simp only [Part.Same]; done) | exact rfl))))

theorem State.writePairs_moves {s₀ s : State} {b : List Byte} (hp : Parts [.regs, .mem, .clock, .pins, .engines, .hints, .banks, .marks, .landq, .scrubAt, .spareRow, .squares, .mesh, .parked, .bars, .watches, .lateLogged, .taps, .margins, .power, .net, .boot, .front, .thermal, .elog, .gauges, .outbox, .drawn, .mrs, .sec] ps) (ha : ∀ q, es q) (h₀ : Moves ps es s₀ s) :
    Moves ps es s₀ (State.writePairs s b) := by
  unfold State.writePairs
  exact (Moves.foldl _ h₀ fun _ _ h1 => (moves_ite h1 (moves_ite (State.count_moves (hp.s rfl) h1) (moves_ite (State.writeControl_moves hp ha h1) h1))))

theorem State.writeAllPairs_moves {s₀ s : State} (hp : Parts [.regs, .mem, .clock, .pins, .engines, .hints, .banks, .marks, .landq, .scrubAt, .spareRow, .squares, .mesh, .parked, .bars, .watches, .lateLogged, .taps, .margins, .power, .net, .boot, .front, .thermal, .elog, .gauges, .outbox, .drawn, .mrs, .sec] ps) (ha : ∀ q, es q) (h₀ : Moves ps es s₀ s) :
    Moves ps es s₀ (State.writeAllPairs s) := by
  unfold State.writeAllPairs
  exact (moves_ite (Moves.foldl _ h₀ fun _ _ h1 => (State.writePairs_moves hp ha h1)) h₀)

theorem State.toStage_moves {s₀ s : State} {n : Nat} (hp : Parts [.regs] ps) (h₀ : Moves ps es s₀ s) :
    Moves ps es s₀ (State.toStage s n) := by
  unfold State.toStage
  exact (State.put_moves hp h₀)

theorem execStageRom_moves {s₀ s : State} (hp : Parts [.regs] ps) (h₀ : Moves ps es s₀ s) :
    OutMoves ps es s₀ (execStageRom s) := by
  unfold execStageRom
  exact (State.inStage_moves (hp.s rfl) h₀ (outMoves_next (State.toStage_moves hp h₀)))

theorem State.repairSlice_moves {s₀ s : State} {inst group slice : Nat} (hp : Parts [.regs, .mem, .clock, .pins, .engines, .hints, .banks, .marks, .landq, .scrubAt, .spareRow, .squares, .mesh, .parked, .bars, .watches, .lateLogged, .taps, .margins, .power, .net, .boot, .front, .thermal, .elog, .gauges, .outbox, .drawn, .mrs, .sec] ps) (ha : ∀ q, es q) (h₀ : Moves ps es s₀ s) :
    Moves ps es s₀ (State.repairSlice s inst group slice) := by
  unfold State.repairSlice
  exact (moves_ite h₀ (moves_then (State.onFin_moves (hp.s rfl) (Moves.refl _) (fun _ => (moves_ite (State.mapOutSquare_moves (hp.s rfl) (State.regionDark_moves (hp.s rfl) ha (State.setRegion_moves (hp.s rfl) (Moves.refl _)))) (Moves.refl _)))) (State.sliceOut_moves hp ha h₀)))

theorem State.repairWay_moves {s₀ s : State} {k : SquareId} {way : Nat} (hp : Parts [.regs, .mem, .squares] ps) (h₀ : Moves ps es s₀ s) :
    Moves ps es s₀ (State.repairWay s k way) := by
  unfold State.repairWay
  exact (moves_ite h₀ (moves_then (moves_ite (State.mapOutSquare_moves hp (Moves.refl _)) (Moves.refl _)) (State.put_moves (hp.s rfl) (State.setSq_moves (hp.s rfl) h₀))))

theorem State.sweep_moves {s₀ s : State} {sweeps : List (Nat × BitVec 64)} {step : Nat} {q : SquareId × Nat × Nat} (hp : Parts [.regs, .taps, .margins, .elog, .drawn] ps) (h₀ : Moves ps es s₀ s) :
    Moves ps es s₀ (State.sweep s sweeps step q) := by
  unfold State.sweep
  exact (by (try dsimp only); split; exact (State.calibrate_moves (hp.s rfl) h₀); exact (State.calibrateFree_moves hp h₀))

theorem execVpmPowerGood_moves {s₀ s : State} (hp : Parts [.regs, .pins] ps) (h₀ : Moves ps es s₀ s) :
    OutMoves ps es s₀ (execVpmPowerGood s) := by
  unfold execVpmPowerGood
  exact (State.inStage_moves (hp.s rfl) h₀ (need_moves _ _ (outMoves_next (State.toStage_moves (hp.s rfl) (State.setLevel_moves hp h₀)))))

theorem State.takeSection_moves {s₀ s : State} {x : Nat × Nat × List Byte} (hp : Parts [.regs, .thermal] ps) (h₀ : Moves ps es s₀ s) :
    Moves ps es s₀ (State.takeSection s x) := by
  unfold State.takeSection
  exact (moves_ite (State.put_moves (hp.s rfl) (State.setThermal_moves (hp.s rfl) h₀)) (moves_ite h₀ (State.count_moves (hp.s rfl) h₀)))

theorem State.takeConfig_moves {s₀ s : State} (hp : Parts [.regs, .boot, .thermal] ps) (h₀ : Moves ps es s₀ s) :
    Moves ps es s₀ (State.takeConfig s) := by
  unfold State.takeConfig
  exact (by (try dsimp only); split; exact (Moves.foldl _ (State.setBoot_moves (hp.s rfl) (State.put_moves (hp.s rfl) h₀)) fun _ _ h2 => (State.takeSection_moves (hp.s rfl) h2)); exact h₀)

theorem State.countRepairs_moves {s₀ s : State} (hp : Parts [.regs] ps) (h₀ : Moves ps es s₀ s) :
    Moves ps es s₀ (State.countRepairs s) := by
  unfold State.countRepairs
  exact (State.put_moves hp (State.put_moves hp (State.put_moves hp (State.put_moves hp (State.put_moves hp (State.put_moves hp h₀))))))

theorem State.mapOutBundle_moves {s₀ s : State} {failed : List Nat} {q : SquareId × Nat × Nat} (hp : Parts [.regs, .engines] ps) (ha : ∀ q, es q) (h₀ : Moves ps es s₀ s) :
    Moves ps es s₀ (State.mapOutBundle s failed q) := by
  unfold State.mapOutBundle
  exact (moves_ite h₀ (State.onEngine_moves (hp.s rfl) h₀ (fun _ => (State.mapOutEngine_moves hp (ha _) h₀))))

theorem State.applyDefect_moves {s₀ s : State} {d : Defect} (hp : Parts [.regs, .mem, .clock, .pins, .engines, .hints, .banks, .marks, .landq, .scrubAt, .spareRow, .squares, .mesh, .parked, .bars, .watches, .lateLogged, .taps, .margins, .power, .net, .boot, .front, .thermal, .elog, .gauges, .outbox, .drawn, .mrs, .sec] ps) (ha : ∀ q, es q) (h₀ : Moves ps es s₀ s) :
    Moves ps es s₀ (State.applyDefect s d) := by
  unfold State.applyDefect
  exact (by (try dsimp only); split; exact (State.onEngine_moves (hp.s rfl) h₀ (fun _ => (moves_ite (State.mapOutEngine_moves (hp.s rfl) (ha _) h₀) h₀))); exact (State.onEngine_moves (hp.s rfl) h₀ (fun _ => (State.repairRows_moves (hp.s rfl) (ha _) h₀))); exact (State.setBoot_moves (hp.s rfl) h₀); exact (State.onFin_moves (hp.s rfl) h₀ (fun _ => (State.repairWay_moves (hp.s rfl) h₀))); exact (State.repairSlice_moves hp ha h₀); exact (State.onEngine_moves (hp.s rfl) h₀ (fun _ => (State.modEng_moves (hp.s rfl) (ha _) h₀))); exact (moves_ite h₀ (State.onEngine_moves (hp.s rfl) h₀ (fun _ => (State.mapOutEngine_moves (hp.s rfl) (ha _) h₀)))); exact (State.onEngine_moves (hp.s rfl) h₀ (fun _ => (State.mapOutEngine_moves (hp.s rfl) (ha _) h₀))))

theorem State.applyDefects_moves {s₀ s : State} {l : List Defect} (hp : Parts [.regs, .mem, .clock, .pins, .engines, .hints, .banks, .marks, .landq, .scrubAt, .spareRow, .squares, .mesh, .parked, .bars, .watches, .lateLogged, .taps, .margins, .power, .net, .boot, .front, .thermal, .elog, .gauges, .outbox, .drawn, .mrs, .sec] ps) (ha : ∀ q, es q) (h₀ : Moves ps es s₀ s) :
    Moves ps es s₀ (State.applyDefects s l) := by
  unfold State.applyDefects
  exact (Moves.foldl _ h₀ fun _ _ h1 => (moves_ite h1 (State.applyDefect_moves hp ha (State.setBoot_moves (hp.s rfl) h1))))

theorem State.retest_moves {s₀ s : State} {found : List Defect} {x : LedgerEntry} (hp : Parts [.regs, .mem, .clock, .pins, .engines, .hints, .banks, .marks, .landq, .scrubAt, .spareRow, .squares, .mesh, .parked, .bars, .watches, .lateLogged, .taps, .margins, .power, .net, .boot, .front, .thermal, .elog, .gauges, .outbox, .drawn, .mrs, .sec] ps) (ha : ∀ q, es q) (h₀ : Moves ps es s₀ s) :
    Moves ps es s₀ (State.retest s found x) := by
  unfold State.retest
  exact (moves_ite (moves_then (moves_ite (Moves.refl _) (State.applyDefects_moves hp ha (State.romEntry_moves (hp.s rfl) (Moves.refl _)))) (State.romEntry_moves (hp.s rfl) h₀)) (State.romEntry_moves (hp.s rfl) h₀))

theorem execStageFirmware_moves {s₀ s : State} (hp : Parts [.boot] ps) (h₀ : Moves ps es s₀ s) :
    OutMoves ps es s₀ (execStageFirmware s) := by
  unfold execStageFirmware
  exact (State.inStage_moves (hp.s rfl) h₀ (need_moves _ _ (outMoves_next (State.setBoot_moves hp h₀))))

theorem State.newDefect_moves {s₀ s : State} {d : Defect} (hp : Parts [.regs, .mem, .clock, .pins, .engines, .hints, .banks, .marks, .landq, .scrubAt, .spareRow, .squares, .mesh, .parked, .bars, .watches, .lateLogged, .taps, .margins, .power, .net, .boot, .front, .thermal, .elog, .gauges, .outbox, .drawn, .mrs, .sec] ps) (ha : ∀ q, es q) (h₀ : Moves ps es s₀ s) :
    Moves ps es s₀ (State.newDefect s d) := by
  unfold State.newDefect
  exact (moves_ite h₀ (moves_then (State.applyDefects_moves hp ha (moves_ite (State.noteSlice_moves (hp.s rfl) (Moves.refl _)) (Moves.refl _))) (State.romEntry_moves (hp.s rfl) h₀)))

theorem execStageTripTest_moves {s₀ : State} {failed : List (Fin 48)} {s : State} (hp : Parts [.regs, .mesh, .net, .elog, .outbox] ps) (h₀ : Moves ps es s₀ s) :
    OutMoves ps es s₀ (execStageTripTest failed s) := by
  unfold execStageTripTest
  exact (State.inStage_moves (hp.s rfl) h₀ (outMoves_next (moves_ite (State.toStage_moves (hp.s rfl) (State.put_moves (hp.s rfl) h₀)) (State.hold_moves hp h₀))))

theorem State.warmTap_moves {s₀ s : State} {sweeps : List (Nat × BitVec 64)} {step : Nat} {q : SquareId × Nat × Nat} (hp : Parts [.regs, .taps, .margins, .elog, .drawn] ps) (h₀ : Moves ps es s₀ s) :
    Moves ps es s₀ (State.warmTap s sweeps step q) := by
  unfold State.warmTap
  exact (by (try dsimp only); split; exact (State.draw_moves (hp.s rfl) (State.setTap_moves (hp.s rfl) h₀)); exact (State.sweep_moves hp h₀))

theorem State.measure_moves {s₀ s : State} {slot key : Nat} (hp : Parts [.regs, .mem, .mrs] ps) (h₀ : Moves ps es s₀ s) :
    Moves ps es s₀ (State.measure s slot key) := by
  unfold State.measure
  exact (State.extendMr_moves hp (State.extendMr_moves hp (State.extendMr_moves hp (State.extendMr_moves hp (State.extendMr_moves hp h₀)))))

theorem State.loadImage_moves {s₀ s : State} {slot key : Nat} (hp : Parts [.regs, .mem, .boot] ps) (h₀ : Moves ps es s₀ s) :
    Moves ps es s₀ (State.loadImage s slot key) := by
  unfold State.loadImage
  exact (State.put_moves (hp.s rfl) (State.put_moves (hp.s rfl) (State.setBoot_moves (hp.s rfl) (State.put_moves (hp.s rfl) (moves_ite (State.writeSram_moves (hp.s rfl) h₀) h₀)))))

theorem execStageImages_moves {s₀ s : State} (hp : Parts [.regs, .mem, .mesh, .net, .boot, .thermal, .elog, .outbox, .mrs] ps) (h₀ : Moves ps es s₀ s) :
    OutMoves ps es s₀ (execStageImages s) := by
  unfold execStageImages
  exact (State.inStage_moves (hp.s rfl) h₀ (by (try dsimp only); split; exact (outMoves_next (State.toStage_moves (hp.s rfl) (State.measure_moves (hp.s rfl) (State.takeConfig_moves (hp.s rfl) (State.loadImage_moves (hp.s rfl) h₀))))); exact (outMoves_next (State.toStage_moves (hp.s rfl) (State.measure_moves (hp.s rfl) (State.takeConfig_moves (hp.s rfl) (State.loadImage_moves (hp.s rfl) h₀))))); exact (outMoves_next (State.hold_moves (hp.s rfl) h₀))))

theorem execStageFuses_moves {s₀ : State} {eccOk : Bool} {s : State} (hp : Parts [.regs, .mesh, .net, .boot, .elog, .outbox] ps) (h₀ : Moves ps es s₀ s) :
    OutMoves ps es s₀ (execStageFuses eccOk s) := by
  unfold execStageFuses
  exact (State.inStage_moves (hp.s rfl) h₀ (outMoves_ite (outMoves_next (State.toStage_moves (hp.s rfl) (State.count_moves (hp.s rfl) (State.setBoot_moves (hp.s rfl) (State.refreshOtp_moves (hp.s rfl) (State.put_moves (hp.s rfl) h₀)))))) (outMoves_next (State.hold_moves (hp.s rfl) h₀))))

theorem State.lockEngines_moves {s₀ s : State} (hp : Parts [.regs] ps) (h₀ : Moves ps es s₀ s) :
    Moves ps es s₀ (State.lockEngines s) := by
  unfold State.lockEngines
  exact (Moves.foldl _ h₀ fun _ _ h1 => (moves_ite (State.pllLock_moves hp h1) h1))

theorem execStageCrosswalk_moves {s₀ : State} {sweeps : List (Nat × BitVec 64)} {s : State} (hp : Parts [.regs, .clock, .engines, .mesh, .taps, .margins, .net, .elog, .outbox, .drawn] ps) (ha : ∀ q, es q) (h₀ : Moves ps es s₀ s) :
    OutMoves ps es s₀ (execStageCrosswalk sweeps s) := by
  unfold execStageCrosswalk
  exact (State.inStage_moves (hp.s rfl) h₀ (outMoves_then (outMoves_next (moves_ite (State.hold_moves (hp.s rfl) (Moves.refl _)) (State.toStage_moves (hp.s rfl) (State.countRepairs_moves (hp.s rfl) (Moves.refl _))))) (State.refreshAllXw_moves (hp.s rfl) (State.setClock_moves (hp.s rfl) (Moves.foldl _ (Moves.foldl _ h₀ fun _ _ h1 => (Moves.foldl _ h1 fun _ _ h2 => (State.warmTap_moves (hp.s rfl) h2))) fun _ _ h4 => (State.mapOutBundle_moves (hp.s rfl) ha h4))))))

theorem execStageRepair_moves {s₀ s : State} (hp : Parts [.regs, .mem, .clock, .pins, .engines, .hints, .banks, .marks, .landq, .scrubAt, .spareRow, .squares, .mesh, .parked, .bars, .watches, .lateLogged, .taps, .margins, .power, .net, .boot, .front, .thermal, .elog, .gauges, .outbox, .drawn, .mrs, .sec] ps) (ha : ∀ q, es q) (h₀ : Moves ps es s₀ s) :
    OutMoves ps es s₀ (execStageRepair s) := by
  unfold execStageRepair
  exact (State.inStage_moves (hp.s rfl) h₀ (outMoves_then (outMoves_ite (outMoves_next (State.toStage_moves (hp.s rfl) (State.countRepairs_moves (hp.s rfl) (Moves.refl _)))) (outMoves_next (Moves.refl _))) (State.applyDefects_moves hp ha (State.setBoot_moves (hp.s rfl) (State.copyBank_moves (hp.s rfl) (State.setBoot_moves (hp.s rfl) (State.put_moves (hp.s rfl) (State.count_moves (hp.s rfl) h₀))))))))

theorem execStageSelfTest_moves {s₀ : State} {badCores : List CoreId} {defects : List (BitVec 8 × Word)} {fallback : List EngineId} {s : State} (hp : Parts [.regs, .mem, .clock, .pins, .engines, .hints, .banks, .marks, .landq, .scrubAt, .spareRow, .squares, .mesh, .parked, .bars, .watches, .lateLogged, .taps, .margins, .power, .net, .boot, .front, .thermal, .elog, .gauges, .outbox, .drawn, .mrs, .sec] ps) (ha : ∀ q, es q) (h₀ : Moves ps es s₀ s) :
    OutMoves ps es s₀ (execStageSelfTest badCores defects fallback s) := by
  unfold execStageSelfTest
  exact (State.inStage_moves (hp.s rfl) h₀ (outMoves_ite (outMoves_next (State.hold_moves (hp.s rfl) h₀)) (outMoves_then (outMoves_then (outMoves_next (moves_ite (State.toStage_moves (hp.s rfl) (Moves.refl _)) (Moves.refl _))) (moves_ite (State.writeAllPairs_moves hp ha (State.issueAlias_moves (hp.s rfl) (State.countRepairs_moves (hp.s rfl) (Moves.refl _)))) (Moves.refl _))) (Moves.foldl _ (Moves.foldl _ (Moves.foldl _ (State.setBoot_moves (hp.s rfl) h₀) fun _ _ h2 => (State.retest_moves hp ha h2)) fun _ _ h4 => (State.newDefect_moves hp ha h4)) fun _ _ h6 => (State.modEng_moves (hp.s rfl) (ha _) h6)))))

theorem execStageVpm_moves {s₀ : State} {answers : Bool} {s : State} (hp : Parts [.regs, .clock, .mesh, .net, .elog, .outbox] ps) (h₀ : Moves ps es s₀ s) :
    OutMoves ps es s₀ (execStageVpm answers s) := by
  unfold execStageVpm
  exact (State.inStage_moves (hp.s rfl) h₀ (outMoves_then (outMoves_next (moves_ite (State.toStage_moves (hp.s rfl) (State.lockEngines_moves (hp.s rfl) (State.setSlices_moves (hp.s rfl) (State.commandVcore_moves (hp.s rfl) (Moves.refl _))))) (State.hold_moves (hp.s rfl) (Moves.refl _)))) (Moves.foldl _ h₀ fun _ _ h1 => (State.emit_moves (hp.s rfl) (State.emit_moves (hp.s rfl) h1)))))

theorem execStageMemory_moves {s₀ : State} {failedChannels : List (EngineId × Fin 132)} {s : State} (hp : Parts [.regs, .mem, .clock, .pins, .engines, .hints, .banks, .marks, .landq, .scrubAt, .spareRow, .squares, .mesh, .parked, .bars, .watches, .lateLogged, .taps, .margins, .power, .net, .boot, .front, .thermal, .elog, .gauges, .outbox, .drawn, .mrs, .sec] ps) (ha : ∀ q, es q) (h₀ : Moves ps es s₀ s) :
    OutMoves ps es s₀ (execStageMemory failedChannels s) := by
  unfold execStageMemory
  exact (State.inStage_moves (hp.s rfl) h₀ (outMoves_next (State.toStage_moves (hp.s rfl) (State.countRepairs_moves (hp.s rfl) (State.applyDefects_moves hp ha (Moves.foldl _ h₀ fun _ _ h1 => (State.romEntry_moves (hp.s rfl) h1)))))))

theorem execStageRails_moves {s₀ s : State} (hp : Parts [.regs, .pins] ps) (h₀ : Moves ps es s₀ s) :
    OutMoves ps es s₀ (execStageRails s) := by
  unfold execStageRails
  exact (State.inStage_moves (hp.s rfl) h₀ (outMoves_next (Moves.litE rfl (State.put_moves (hp.s rfl) (State.put_moves (hp.s rfl) h₀)) (.refl _) (.refl _) (.refl _) (.refl _) (.refl _) (.refl _) (.refl _) (.refl _) (fun _ h => h) (List.prefix_refl _) (Nat.le_refl _) (fun p hn => by cases p <;> first | exact absurd (hp.m rfl) hn | (simp only [Part.Same]; done) | exact rfl))))

theorem State.setFront_moves {s₀ s : State} {f : Front → Front} (hp : Parts [.front] ps) (h₀ : Moves ps es s₀ s) :
    Moves ps es s₀ (State.setFront s f) := by
  unfold State.setFront
  exact (Moves.litE rfl h₀ (.refl _) (.refl _) (.refl _) (.refl _) (.refl _) (.refl _) (.refl _) (.refl _) (fun _ h => h) (List.prefix_refl _) (Nat.le_refl _) (fun p hn => by cases p <;> first | exact absurd (hp.m rfl) hn | (simp only [Part.Same]; done) | exact rfl))

theorem State.setOp_moves {s₀ s : State} {o : Operation} (hp : Parts [.front] ps) (h₀ : Moves ps es s₀ s) :
    Moves ps es s₀ (State.setOp s o) := by
  unfold State.setOp
  exact (State.setFront_moves hp h₀)

theorem State.fwEng_moves {s₀ s : State} {e : EngineId} {f : State → State} (_hp : Parts [] ps) (h₀ : Moves ps es s₀ s) (hf : ∀ (a0 : State), Moves ps es s₀ a0 → Moves ps es s₀ (f a0)) :
    Moves ps es s₀ (State.fwEng s e f) := by
  unfold State.fwEng
  exact (moves_ite h₀ (hf _ h₀))

theorem State.readResult_moves {s₀ s : State} {o : Operation} (hp : Parts [.regs, .marks, .squares, .elog, .drawn] ps) (h₀ : Moves ps es s₀ s) :
    Moves ps es s₀ (State.readResult s o).1 := by
  unfold State.readResult
  exact (fstMoves_ite h₀ (fstMoves_ite (State.noteSpan_moves (hp.s rfl) h₀) (State.draw_moves (hp.s rfl) h₀)))

theorem State.setSess_moves {s₀ s : State} {i : SlotId} {x : Session} (hp : Parts [.front] ps) (h₀ : Moves ps es s₀ s) :
    Moves ps es s₀ (State.setSess s i x) := by
  unfold State.setSess
  exact (Moves.litE rfl h₀ (.refl _) (.refl _) (.refl _) (.refl _) (.refl _) (.refl _) (.refl _) (.refl _) (fun _ h => h) (List.prefix_refl _) (Nat.le_refl _) (fun p hn => by cases p <;> first | exact absurd (hp.m rfl) hn | (simp only [Part.Same]; done) | exact rfl))

theorem State.putMsg_moves {s₀ s : State} {i : SlotId} {m : FspMsg} (hp : Parts [.front, .outbox] ps) (h₀ : Moves ps es s₀ s) :
    Moves ps es s₀ (State.putMsg s i m) := by
  unfold State.putMsg
  exact (State.emit_moves (hp.s rfl) (State.setSess_moves (hp.s rfl) h₀))

theorem State.sendFsp_moves {s₀ s : State} {i : SlotId} {t op : Nat} {body : List Byte} (hp : Parts [.front, .outbox] ps) (h₀ : Moves ps es s₀ s) :
    Moves ps es s₀ (State.sendFsp s i t op body) := by
  unfold State.sendFsp
  exact (moves_ite h₀ (moves_ite (State.setSess_moves (hp.s rfl) h₀) (State.putMsg_moves hp (State.setSess_moves (hp.s rfl) h₀))))

theorem State.sendResult_moves {s₀ s : State} {op : Nat} {body : List Byte} (hp : Parts [.front, .outbox] ps) (h₀ : Moves ps es s₀ s) :
    Moves ps es s₀ (State.sendResult s op body) := by
  unfold State.sendResult
  exact (by (try dsimp only); split; exact (State.sendFsp_moves hp h₀); exact (State.setFront_moves (hp.s rfl) h₀))

theorem State.finishOp_moves {s₀ s : State} {o : Operation} {say : State → State} (hp : Parts [.regs, .engines, .hints, .marks, .squares, .power, .front, .elog, .outbox, .drawn] ps) (ha : ∀ q, es q) (h₀ : Moves ps es s₀ s) (hsay : ∀ (a0 : State), Moves ps es s₀ a0 → Moves ps es s₀ (say a0)) :
    Moves ps es s₀ (State.finishOp s o say) := by
  unfold State.finishOp
  exact (State.sendResult_moves (hp.s rfl) (hsay _ (State.setOp_moves (hp.s rfl) (State.readResult_moves (hp.s rfl) (Moves.foldl _ h₀ fun _ _ h1 => (moves_ite (State.fwEng_moves (hp.s rfl) h1 (fun _ h2 => (State.writeEngCtl_moves (hp.s rfl) (ha _) h2))) h1))))))

theorem State.settleOp_moves {s₀ s : State} {o : Operation} {say : State → State} (hp : Parts [.regs, .engines, .hints, .marks, .squares, .power, .front, .elog, .outbox, .drawn] ps) (ha : ∀ q, es q) (h₀ : Moves ps es s₀ s) (hsay : ∀ (a0 : State), Moves ps es s₀ a0 → Moves ps es s₀ (say a0)) :
    Moves ps es s₀ (State.settleOp s o say) := by
  unfold State.settleOp
  exact (moves_ite (hsay _ (State.setOp_moves (hp.s rfl) h₀)) (State.finishOp_moves hp ha h₀ hsay))

theorem State.cancelEngines_moves {s₀ s : State} {o : Operation} (hp : Parts [.regs, .engines, .hints, .power, .outbox] ps) (ha : ∀ q, es q) (h₀ : Moves ps es s₀ s) :
    Moves ps es s₀ (State.cancelEngines s o) := by
  unfold State.cancelEngines
  exact (Moves.foldl _ h₀ fun _ _ h1 => (moves_ite h1 (State.fwEng_moves (hp.s rfl) h1 (fun _ h2 => (State.writeEngCtl_moves hp (ha _) h2)))))

theorem State.endOp_moves {s₀ s : State} {o : Operation} {say : State → State} (hp : Parts [.regs, .engines, .hints, .marks, .squares, .power, .front, .elog, .outbox, .drawn] ps) (ha : ∀ q, es q) (h₀ : Moves ps es s₀ s) (hsay : ∀ (a0 : State), Moves ps es s₀ a0 → Moves ps es s₀ (say a0)) :
    Moves ps es s₀ (State.endOp s o say) := by
  unfold State.endOp
  exact (State.settleOp_moves hp ha (State.cancelEngines_moves (hp.s rfl) ha h₀) hsay)

theorem State.status_moves {s₀ s : State} {i : SlotId} {code reason : Nat} {m : FspMsg} {op : Nat} {cap : Bool} (hp : Parts [.front, .outbox] ps) (h₀ : Moves ps es s₀ s) :
    Moves ps es s₀ (State.status s i code reason m op cap) := by
  unfold State.status
  exact (State.sendFsp_moves hp h₀)

theorem State.refuse_moves {s₀ s : State} {i : SlotId} {reason : Nat} {m : FspMsg} {op : Nat} (hp : Parts [.front, .outbox] ps) (h₀ : Moves ps es s₀ s) :
    Moves ps es s₀ (State.refuse s i reason m op) := by
  unfold State.refuse
  exact (State.status_moves hp h₀)

theorem State.asOwner_moves {s₀ s : State} {i : SlotId} {m : FspMsg} {k : State} (hp : Parts [.front, .outbox] ps) (h₀ : Moves ps es s₀ s) (hk : Moves ps es s₀ k) :
    Moves ps es s₀ (State.asOwner s i m k) := by
  unfold State.asOwner
  exact (by (try dsimp only); split; exact hk; exact (State.refuse_moves hp h₀); exact (State.refuse_moves hp h₀))

theorem State.sendWaiting_moves {s₀ s : State} {i : SlotId} (hp : Parts [.front, .outbox] ps) (h₀ : Moves ps es s₀ s) :
    Moves ps es s₀ (State.sendWaiting s i) := by
  unfold State.sendWaiting
  exact (Moves.foldl _ (State.setSess_moves (hp.s rfl) h₀) fun _ _ h1 => (State.sendFsp_moves hp h1))

theorem State.takeAck_moves {s₀ s : State} {i : SlotId} {ack : Nat} (hp : Parts [.front, .outbox] ps) (h₀ : Moves ps es s₀ s) :
    Moves ps es s₀ (State.takeAck s i ack) := by
  unfold State.takeAck
  exact (moves_ite (State.sendWaiting_moves hp (State.setSess_moves (hp.s rfl) h₀)) h₀)

theorem State.sendAck_moves {s₀ s : State} {i : SlotId} (hp : Parts [.front, .outbox] ps) (h₀ : Moves ps es s₀ s) :
    Moves ps es s₀ (State.sendAck s i) := by
  unfold State.sendAck
  exact (State.putMsg_moves hp h₀)

theorem State.ackIfSilent_moves {s₀ s : State} {i : SlotId} {sent : Nat} (hp : Parts [.front, .outbox] ps) (h₀ : Moves ps es s₀ s) :
    Moves ps es s₀ (State.ackIfSilent s i sent) := by
  unfold State.ackIfSilent
  exact (moves_ite (State.sendAck_moves hp h₀) h₀)

theorem State.fspIn_moves {s₀ s : State} {i : SlotId} {m : FspMsg} {mine : Bool} {act : State → State} (hp : Parts [.front, .outbox] ps) (h₀ : Moves ps es s₀ s) (hact : ∀ (a0 : State), Moves ps es s₀ a0 → Moves ps es s₀ (act a0)) :
    OutMoves ps es s₀ (State.fspIn s i m mine act) := by
  unfold State.fspIn
  exact (need_moves _ _ (need_moves _ _ (outMoves_ite (outMoves_next (State.setFront_moves (hp.s rfl) (State.setSess_moves (hp.s rfl) h₀))) (outMoves_ite (outMoves_next (State.takeAck_moves hp (State.setSess_moves (hp.s rfl) h₀))) (outMoves_ite (outMoves_next (State.sendAck_moves hp (State.takeAck_moves hp (State.setSess_moves (hp.s rfl) h₀)))) (outMoves_ite (outMoves_next (State.takeAck_moves hp (State.setSess_moves (hp.s rfl) h₀))) (outMoves_next (State.ackIfSilent_moves hp (hact _ (State.setSess_moves (hp.s rfl) (State.takeAck_moves hp (State.setSess_moves (hp.s rfl) h₀))))))))))))

theorem State.statusReq_moves {s₀ s : State} {i : SlotId} {m : FspMsg} (hp : Parts [.front, .outbox] ps) (h₀ : Moves ps es s₀ s) :
    Moves ps es s₀ (State.statusReq s i m) := by
  unfold State.statusReq
  exact (moves_ite (State.status_moves hp h₀) (moves_ite (State.status_moves hp h₀) (moves_ite (State.status_moves hp h₀) (State.status_moves hp h₀))))

theorem execFspStatus_moves {s₀ : State} {i : SlotId} {m : FspMsg} {s : State} (hp : Parts [.front, .outbox] ps) (h₀ : Moves ps es s₀ s) :
    OutMoves ps es s₀ (execFspStatus i m s) := by
  unfold execFspStatus
  exact (State.fspIn_moves hp h₀ (fun _ h1 => (State.statusReq_moves hp h1)))

theorem State.tellSuspended_moves {s₀ s : State} {o : Operation} (hp : Parts [.front, .outbox] ps) (h₀ : Moves ps es s₀ s) :
    Moves ps es s₀ (State.tellSuspended s o) := by
  unfold State.tellSuspended
  exact (by (try dsimp only); split; exact (State.sendFsp_moves hp h₀); exact h₀)

theorem State.advanceOp_moves {s₀ s : State} {o : Operation} {say : State → State} (hp : Parts [.regs, .engines, .hints, .marks, .squares, .power, .front, .elog, .outbox, .drawn] ps) (ha : ∀ q, es q) (h₀ : Moves ps es s₀ s) (hsay : ∀ (a0 : State), Moves ps es s₀ a0 → Moves ps es s₀ (say a0)) :
    Moves ps es s₀ (State.advanceOp s o say) := by
  unfold State.advanceOp
  exact (by (try dsimp only); split; exact (moves_ite (State.finishOp_moves hp ha h₀ hsay) (hsay _ (State.setOp_moves (hp.s rfl) h₀))); exact (moves_ite (State.finishOp_moves hp ha h₀ hsay) (moves_ite (State.tellSuspended_moves (hp.s rfl) (hsay _ (State.setOp_moves (hp.s rfl) h₀))) (hsay _ (State.setOp_moves (hp.s rfl) h₀)))); exact (State.settleOp_moves hp ha h₀ hsay); exact (hsay _ (State.setOp_moves (hp.s rfl) h₀)))

theorem State.suspendEngines_moves {s₀ s : State} {o : Operation} (hp : Parts [.regs, .engines, .hints, .power, .outbox] ps) (ha : ∀ q, es q) (h₀ : Moves ps es s₀ s) :
    Moves ps es s₀ (State.suspendEngines s o) := by
  unfold State.suspendEngines
  exact (Moves.foldl _ h₀ fun _ _ h1 => (moves_ite (State.fwEng_moves (hp.s rfl) h1 (fun _ h2 => (State.writeEngCtl_moves hp (ha _) h2))) h1))

theorem State.suspendOp_moves {s₀ s : State} {o : Operation} {say : State → State} (hp : Parts [.regs, .engines, .hints, .marks, .squares, .power, .front, .elog, .outbox, .drawn] ps) (ha : ∀ q, es q) (h₀ : Moves ps es s₀ s) (hsay : ∀ (a0 : State), Moves ps es s₀ a0 → Moves ps es s₀ (say a0)) :
    OptMoves ps es s₀ (State.suspendOp s o say) := by
  unfold State.suspendOp
  exact (by (try dsimp only); split; exact (optMoves_some (State.tellSuspended_moves (hp.s rfl) (hsay _ (State.setOp_moves (hp.s rfl) h₀)))); exact (optMoves_some (hsay _ (State.setOp_moves (hp.s rfl) h₀))); exact (optMoves_some (State.advanceOp_moves hp ha (State.suspendEngines_moves (hp.s rfl) ha h₀) hsay)); exact (optMoves_some (hsay _ h₀)); exact (optMoves_some (hsay _ h₀)); exact (optMoves_none _))

theorem State.startOne_moves {s₀ s : State} {o : Operation} {e : EngineId} (hp : Parts [.regs, .engines, .hints, .power, .outbox] ps) (qe : es e) (h₀ : Moves ps es s₀ s) :
    Moves ps es s₀ (State.startOne s o e) := by
  unfold State.startOne
  exact (State.fwEng_moves (hp.s rfl) h₀ (fun _ h1 => (State.writeEngCtl_moves hp qe (State.swWrite_moves (hp.s rfl) (Moves.foldl _ h1 fun _ _ h2 => (State.setReg_moves (hp.s rfl) h2))))))

theorem State.changeSlot_moves {s₀ s : State} {i : SlotId} {f : State → State} (hp : Parts [.mem] ps) (h₀ : Moves ps es s₀ s) (hf : ∀ (a0 : State), Moves ps es s₀ a0 → Moves ps es s₀ (f a0)) :
    Moves ps es s₀ (State.changeSlot s i f) := by
  unfold State.changeSlot
  exact (State.setSlotNat_moves hp (hf _ (State.setSlotNat_moves hp h₀)))

theorem State.txSlot_moves {s₀ s : State} {i : SlotId} {epoch : Nat} {secret : List Byte} (hp : Parts [.mem] ps) (h₀ : Moves ps es s₀ s) :
    Moves ps es s₀ (State.txSlot s i epoch secret) := by
  unfold State.txSlot
  exact (State.setSlotNat_moves hp (State.setSlotNat_moves hp (State.setSlotKeys_moves hp h₀)))

theorem execKeyUpdateSend_moves {s₀ : State} {i : SlotId} {s : State} (hp : Parts [.mem, .front, .outbox] ps) (h₀ : Moves ps es s₀ s) :
    OutMoves ps es s₀ (execKeyUpdateSend i s) := by
  unfold execKeyUpdateSend
  exact (need_moves _ _ (outMoves_next (State.emit_moves (hp.s rfl) (State.changeSlot_moves (hp.s rfl) (State.setSess_moves (hp.s rfl) h₀) (fun _ h2 => (State.txSlot_moves (hp.s rfl) h2))))))

theorem State.sendHeld_moves {s₀ s : State} {i : SlotId} (hp : Parts [.front, .outbox] ps) (h₀ : Moves ps es s₀ s) :
    Moves ps es s₀ (State.sendHeld s i) := by
  unfold State.sendHeld
  exact (Moves.foldl _ (State.setFront_moves (hp.s rfl) h₀) fun _ _ h1 => (State.sendFsp_moves hp h1))

theorem execFspAck_moves {s₀ : State} {i : SlotId} {m : FspMsg} {s : State} (hp : Parts [.front, .outbox] ps) (h₀ : Moves ps es s₀ s) :
    OutMoves ps es s₀ (execFspAck i m s) := by
  unfold execFspAck
  exact (State.fspIn_moves hp h₀ (fun _ h1 => h1))

theorem State.stopLoads_moves {s₀ s : State} {o : Operation} (hp : Parts [.regs, .engines] ps) (ha : ∀ q, es q) (h₀ : Moves ps es s₀ s) :
    Moves ps es s₀ (State.stopLoads s o) := by
  unfold State.stopLoads
  exact (Moves.foldl _ h₀ fun _ _ h1 => (State.fwEng_moves (hp.s rfl) h1 (fun _ h2 => (by (try dsimp only); split; exact (State.put_moves (hp.s rfl) (State.modEng_moves (hp.s rfl) (ha _) h2)); exact h2))))

theorem State.cancelOp_moves {s₀ s : State} {o : Operation} {say : State → State} (hp : Parts [.regs, .engines, .hints, .marks, .squares, .power, .front, .elog, .outbox, .drawn] ps) (ha : ∀ q, es q) (h₀ : Moves ps es s₀ s) (hsay : ∀ (a0 : State), Moves ps es s₀ a0 → Moves ps es s₀ (say a0)) :
    OptMoves ps es s₀ (State.cancelOp s o say) := by
  unfold State.cancelOp
  exact (by (try dsimp only); split; exact (optMoves_some (State.finishOp_moves hp ha h₀ hsay)); exact (optMoves_some (State.finishOp_moves hp ha (State.stopLoads_moves (hp.s rfl) ha h₀) hsay)); exact (optMoves_some (hsay _ h₀)); exact (optMoves_none _); exact (optMoves_some (moves_ite (State.endOp_moves hp ha h₀ hsay) (State.finishOp_moves hp ha h₀ hsay))))

theorem State.endSession_moves {s₀ s : State} {i : SlotId} {byClose : Bool} (hp : Parts [.regs, .mem, .engines, .hints, .marks, .squares, .power, .front, .elog, .outbox, .drawn] ps) (ha : ∀ q, es q) (h₀ : Moves ps es s₀ s) :
    Moves ps es s₀ (State.endSession s i byClose) := by
  unfold State.endSession
  exact (Moves.foldl _ (State.setSlotNat_moves (hp.s rfl) (State.setSess_moves (hp.s rfl) h₀)) fun _ _ h2 => (moves_then (moves_ite (optMoves_getD (State.cancelOp_moves (hp.s rfl) ha (Moves.refl _) (fun _ h4 => h4)) (Moves.refl _)) (Moves.refl _)) (State.setOp_moves (hp.s rfl) h2)))

theorem execFspRetransmit_moves {s₀ : State} {i : SlotId} {s : State} (hp : Parts [.regs, .mem, .engines, .hints, .marks, .squares, .power, .front, .elog, .outbox, .drawn] ps) (ha : ∀ q, es q) (h₀ : Moves ps es s₀ s) :
    OutMoves ps es s₀ (execFspRetransmit i s) := by
  unfold execFspRetransmit
  exact (need_moves _ _ (outMoves_then (outMoves_next (moves_ite (State.endSession_moves hp ha (Moves.refl _)) (Moves.refl _))) (Moves.foldl _ (State.setSess_moves (hp.s rfl) h₀) fun _ _ h1 => (State.putMsg_moves (hp.s rfl) h1))))

theorem State.opened_moves {s₀ s : State} {i : SlotId} {q : Nat × Nat × Nat} (hp : Parts [.front] ps) (h₀ : Moves ps es s₀ s) :
    Moves ps es s₀ (State.opened s i q) := by
  unfold State.opened
  exact (State.setSess_moves hp h₀)

theorem State.inFirmware_moves {s₀ s : State} {k : Out} (_hp : Parts [] ps) (_h₀ : Moves ps es s₀ s) (hk : OutMoves ps es s₀ k) :
    OutMoves ps es s₀ (State.inFirmware s k) := by
  unfold State.inFirmware
  exact (need_moves _ _ hk)

theorem State.submitReq_moves {s₀ s : State} {i : SlotId} {m : FspMsg} (hp : Parts [.front, .outbox] ps) (h₀ : Moves ps es s₀ s) :
    Moves ps es s₀ (State.submitReq s i m) := by
  unfold State.submitReq
  exact (State.asOwner_moves hp h₀ (moves_ite (State.refuse_moves hp h₀) (moves_ite (State.refuse_moves hp h₀) (moves_ite (State.refuse_moves hp h₀) (moves_ite (State.refuse_moves hp h₀) (State.status_moves hp (State.setFront_moves (hp.s rfl) h₀)))))))

theorem State.peerSlot_moves {s₀ s : State} {i : SlotId} (hp : Parts [.mem] ps) (h₀ : Moves ps es s₀ s) :
    Moves ps es s₀ (State.peerSlot s i) := by
  unfold State.peerSlot
  exact (State.setSlotNat_moves hp (State.setSlotNat_moves hp (State.setSlotNat_moves hp (State.setSlotNat_moves hp h₀))))

theorem State.onOp_moves {s₀ s : State} {i : SlotId} {m : FspMsg} {k : Operation → Option State} (hp : Parts [.front, .outbox] ps) (h₀ : Moves ps es s₀ s) (hk : ∀ (a0 : Operation), OptMoves ps es s₀ (k a0)) :
    Moves ps es s₀ (State.onOp s i m k) := by
  unfold State.onOp
  exact (State.asOwner_moves hp h₀ (by (try dsimp only); split; exact (State.status_moves hp h₀); exact (optMoves_getD (hk _) (State.refuse_moves hp h₀))))

theorem tellOk_moves {s₀ : State} {i : SlotId} {m : FspMsg} {o : Operation} {s : State} (hp : Parts [.front, .outbox] ps) (h₀ : Moves ps es s₀ s) :
    Moves ps es s₀ (tellOk i m o s) := by
  unfold tellOk
  exact (State.status_moves hp h₀)

theorem execFspSubmit_moves {s₀ : State} {i : SlotId} {m : FspMsg} {s : State} (hp : Parts [.front, .outbox] ps) (h₀ : Moves ps es s₀ s) :
    OutMoves ps es s₀ (execFspSubmit i m s) := by
  unfold execFspSubmit
  exact (State.fspIn_moves hp h₀ (fun _ h1 => (State.submitReq_moves hp h1)))

theorem State.loadOp_moves {s₀ s : State} {o : Operation} (hp : Parts [.regs, .mem, .engines, .marks, .squares, .power, .front, .elog, .outbox] ps) (ha : ∀ q, es q) (h₀ : Moves ps es s₀ s) :
    Moves ps es s₀ (State.loadOp s o) := by
  unfold State.loadOp
  exact (Moves.foldl _ (State.setOp_moves (hp.s rfl) (moves_ite (State.emit_moves (hp.s rfl) h₀) (fstMoves_ite h₀ (State.writeSpan_moves (hp.s rfl) h₀)))) fun _ _ h3 => (State.fwEng_moves (hp.s rfl) h3 (fun _ h4 => (State.writePgcmd_moves (hp.s rfl) (ha _) (State.setReg_moves (hp.s rfl) h4)))))

theorem execOperationStart_moves {s₀ : State} {op : Word} {s : State} (hp : Parts [.regs, .mem, .engines, .marks, .squares, .power, .front, .elog, .outbox] ps) (ha : ∀ q, es q) (h₀ : Moves ps es s₀ s) :
    OutMoves ps es s₀ (execOperationStart op s) := by
  unfold execOperationStart
  exact (State.inFirmware_moves (hp.s rfl) h₀ (needSome_moves _ _ fun _ _ => (need_moves _ _ (need_moves _ _ (outMoves_next (State.loadOp_moves hp ha h₀))))))

theorem execDtlsAlert_moves {s₀ : State} {i : SlotId} {s : State} (hp : Parts [.regs, .mem, .engines, .hints, .marks, .squares, .power, .front, .elog, .outbox, .drawn] ps) (ha : ∀ q, es q) (h₀ : Moves ps es s₀ s) :
    OutMoves ps es s₀ (execDtlsAlert i s) := by
  unfold execDtlsAlert
  exact (need_moves _ _ (outMoves_next (State.endSession_moves hp ha h₀)))

theorem State.openReq_moves {s₀ s : State} {i : SlotId} {m : FspMsg} (hp : Parts [.regs, .mem, .engines, .hints, .marks, .squares, .power, .front, .elog, .outbox, .drawn] ps) (ha : ∀ q, es q) (h₀ : Moves ps es s₀ s) :
    Moves ps es s₀ (State.openReq s i m) := by
  unfold State.openReq
  exact (moves_ite (State.status_moves (hp.s rfl) h₀) (by (try dsimp only); split; exact (State.status_moves (hp.s rfl) h₀); exact (moves_ite (State.status_moves (hp.s rfl) (State.opened_moves (hp.s rfl) h₀)) (by (try dsimp only); split; exact (State.sendHeld_moves (hp.s rfl) (State.status_moves (hp.s rfl) (State.opened_moves (hp.s rfl) h₀))); exact (moves_ite (State.sendHeld_moves (hp.s rfl) (State.status_moves (hp.s rfl) (State.opened_moves (hp.s rfl) h₀))) (moves_ite (State.sendHeld_moves (hp.s rfl) (State.status_moves (hp.s rfl) (State.opened_moves (hp.s rfl) (State.endSession_moves hp ha (State.sendFsp_moves (hp.s rfl) h₀))))) (State.status_moves (hp.s rfl) h₀)))))))

theorem State.rxSlot_moves {s₀ s : State} {i : SlotId} {epoch : Nat} {secret : List Byte} (hp : Parts [.mem] ps) (h₀ : Moves ps es s₀ s) :
    Moves ps es s₀ (State.rxSlot s i epoch secret) := by
  unfold State.rxSlot
  exact (State.setSlotNat_moves hp (State.setSlotNat_moves hp (State.setSlotNat_moves hp (State.setSlotKeys_moves hp h₀))))

theorem execDtlsHandshakeDone_moves {s₀ : State} {i : SlotId} {chain : List (List Byte)} {digest sig rx tx : List Byte} {s : State} (hp : Parts [.regs, .mem, .engines, .hints, .marks, .squares, .power, .front, .elog, .outbox, .drawn] ps) (ha : ∀ q, es q) (h₀ : Moves ps es s₀ s) :
    OutMoves ps es s₀ (execDtlsHandshakeDone i chain digest sig rx tx s) := by
  unfold execDtlsHandshakeDone
  exact (State.inFirmware_moves (hp.s rfl) h₀ (need_moves _ _ (outMoves_ite (outMoves_next (State.changeSlot_moves (hp.s rfl) (State.setSess_moves (hp.s rfl) h₀) (fun _ h2 => (State.txSlot_moves (hp.s rfl) (State.rxSlot_moves (hp.s rfl) (State.peerSlot_moves (hp.s rfl) h2)))))) (outMoves_next (State.emit_moves (hp.s rfl) (State.endSession_moves hp ha h₀))))))

theorem State.resumeOp_moves {s₀ s : State} {o : Operation} {say : State → State} (hp : Parts [.regs, .engines, .hints, .power, .front, .outbox] ps) (ha : ∀ q, es q) (h₀ : Moves ps es s₀ s) (hsay : ∀ (a0 : State), Moves ps es s₀ a0 → Moves ps es s₀ (say a0)) :
    OptMoves ps es s₀ (State.resumeOp s o say) := by
  unfold State.resumeOp
  exact (by (try dsimp only); split; exact (optMoves_ite (optMoves_some (hsay _ (State.setOp_moves (hp.s rfl) (Moves.foldl _ h₀ fun _ _ h1 => (moves_ite (State.fwEng_moves (hp.s rfl) h1 (fun _ h2 => (State.writeEngCtl_moves (hp.s rfl) (ha _) h2))) h1))))) (optMoves_some (hsay _ (State.setOp_moves (hp.s rfl) h₀)))); exact (optMoves_none _))

theorem execFspResume_moves {s₀ : State} {i : SlotId} {m : FspMsg} {s : State} (hp : Parts [.regs, .engines, .hints, .power, .front, .outbox] ps) (ha : ∀ q, es q) (h₀ : Moves ps es s₀ s) :
    OutMoves ps es s₀ (execFspResume i m s) := by
  unfold execFspResume
  exact (State.fspIn_moves (hp.s rfl) h₀ (fun _ h1 => (State.onOp_moves (hp.s rfl) h1 (fun _ => (State.resumeOp_moves hp ha h1 (fun _ h2 => (tellOk_moves (hp.s rfl) h2)))))))

theorem execClientHello_moves {s₀ : State} {o : Offer} {cid : Word} {digest : List Byte} {s : State} (hp : Parts [.front, .outbox, .sec] ps) (h₀ : Moves ps es s₀ s) :
    OutMoves ps es s₀ (execClientHello o cid digest s) := by
  unfold execClientHello
  exact (State.inFirmware_moves (hp.s rfl) h₀ (outMoves_ite (outMoves_next (State.emit_moves (hp.s rfl) h₀)) (outMoves_ite (outMoves_next (State.emit_moves (hp.s rfl) h₀)) (by (try dsimp only); split; exact (outMoves_next (State.emit_moves (hp.s rfl) h₀)); exact (need_moves _ _ (outMoves_next (State.emit_moves (hp.s rfl) (State.noteSigned_moves (hp.s rfl) (State.setSess_moves (hp.s rfl) h₀)))))))))

theorem execOperationLoaded_moves {s₀ : State} {op : Word} {code : Code} {s : State} (hp : Parts [.regs, .engines, .hints, .marks, .squares, .power, .front, .elog, .outbox, .drawn] ps) (ha : ∀ q, es q) (h₀ : Moves ps es s₀ s) :
    OutMoves ps es s₀ (execOperationLoaded op code s) := by
  unfold execOperationLoaded
  exact (State.inFirmware_moves (hp.s rfl) h₀ (needSome_moves _ _ fun _ _ => (need_moves _ _ (need_moves _ _ (outMoves_ite (outMoves_next (State.finishOp_moves hp ha h₀ (fun _ h1 => h1))) (outMoves_then (outMoves_ite (outMoves_next (State.advanceOp_moves hp ha (State.suspendEngines_moves (hp.s rfl) ha (Moves.refl _)) (fun _ h4 => h4))) (outMoves_next (State.setOp_moves (hp.s rfl) (Moves.refl _)))) (Moves.foldl _ h₀ fun _ _ h2 => (State.startOne_moves (hp.s rfl) (ha _) h2))))))))

theorem execFspClose_moves {s₀ : State} {i : SlotId} {m : FspMsg} {s : State} (hp : Parts [.regs, .mem, .engines, .hints, .marks, .squares, .power, .front, .elog, .outbox, .drawn] ps) (ha : ∀ q, es q) (h₀ : Moves ps es s₀ s) :
    OutMoves ps es s₀ (execFspClose i m s) := by
  unfold execFspClose
  exact (State.fspIn_moves (hp.s rfl) h₀ (fun _ h1 => (State.endSession_moves hp ha (moves_ite (State.refuse_moves (hp.s rfl) h1) (State.status_moves (hp.s rfl) h1)))))

theorem execFspCancel_moves {s₀ : State} {i : SlotId} {m : FspMsg} {s : State} (hp : Parts [.regs, .engines, .hints, .marks, .squares, .power, .front, .elog, .outbox, .drawn] ps) (ha : ∀ q, es q) (h₀ : Moves ps es s₀ s) :
    OutMoves ps es s₀ (execFspCancel i m s) := by
  unfold execFspCancel
  exact (State.fspIn_moves (hp.s rfl) h₀ (fun _ h1 => (State.onOp_moves (hp.s rfl) h1 (fun _ => (State.cancelOp_moves hp ha h1 (fun _ h2 => (tellOk_moves (hp.s rfl) h2)))))))

theorem execKeepaliveExpiry_moves {s₀ : State} {i : SlotId} {s : State} (hp : Parts [.regs, .mem, .engines, .hints, .marks, .squares, .power, .front, .elog, .outbox, .drawn] ps) (ha : ∀ q, es q) (h₀ : Moves ps es s₀ s) :
    OutMoves ps es s₀ (execKeepaliveExpiry i s) := by
  unfold execKeepaliveExpiry
  exact (need_moves _ _ (outMoves_next (State.endSession_moves hp ha h₀)))

theorem execFspReservedType_moves {s₀ : State} {i : SlotId} {m : FspMsg} {s : State} (hp : Parts [.front, .outbox] ps) (h₀ : Moves ps es s₀ s) :
    OutMoves ps es s₀ (execFspReservedType i m s) := by
  unfold execFspReservedType
  exact (State.fspIn_moves hp h₀ (fun _ h1 => (State.refuse_moves hp h1)))

theorem State.faultOp_moves {s₀ s : State} {o : Operation} {e : EngineId} (hp : Parts [.regs, .engines, .hints, .marks, .squares, .power, .front, .elog, .outbox, .drawn] ps) (ha : ∀ q, es q) (h₀ : Moves ps es s₀ s) :
    Moves ps es s₀ (State.faultOp s o e) := by
  unfold State.faultOp
  exact (moves_ite (State.endOp_moves hp ha h₀ (fun _ h1 => h1)) (State.finishOp_moves hp ha h₀ (fun _ h2 => h2)))

theorem execKeepaliveAck_moves {s₀ : State} {i : SlotId} {s : State} (hp : Parts [.front, .outbox] ps) (h₀ : Moves ps es s₀ s) :
    OutMoves ps es s₀ (execKeepaliveAck i s) := by
  unfold execKeepaliveAck
  exact (need_moves _ _ (outMoves_next (State.sendAck_moves hp h₀)))

theorem execFspOpen_moves {s₀ : State} {i : SlotId} {m : FspMsg} {s : State} (hp : Parts [.regs, .mem, .engines, .hints, .marks, .squares, .power, .front, .elog, .outbox, .drawn] ps) (ha : ∀ q, es q) (h₀ : Moves ps es s₀ s) :
    OutMoves ps es s₀ (execFspOpen i m s) := by
  unfold execFspOpen
  exact (State.fspIn_moves (hp.s rfl) h₀ (fun _ h1 => (State.openReq_moves hp ha h1)))

theorem execOperationEngineEvent_moves {s₀ : State} {e : EngineId} {ev : EngEvent} {s : State} (hp : Parts [.regs, .engines, .hints, .marks, .squares, .power, .front, .elog, .outbox, .drawn] ps) (ha : ∀ q, es q) (h₀ : Moves ps es s₀ s) :
    OutMoves ps es s₀ (execOperationEngineEvent e ev s) := by
  unfold execOperationEngineEvent
  exact (State.inFirmware_moves (hp.s rfl) h₀ (need_moves _ _ (needSome_moves _ _ fun _ _ => (outMoves_next (moves_ite (State.faultOp_moves hp ha h₀) (State.advanceOp_moves hp ha h₀ (fun _ h1 => h1)))))))

theorem execFspSuspend_moves {s₀ : State} {i : SlotId} {m : FspMsg} {s : State} (hp : Parts [.regs, .engines, .hints, .marks, .squares, .power, .front, .elog, .outbox, .drawn] ps) (ha : ∀ q, es q) (h₀ : Moves ps es s₀ s) :
    OutMoves ps es s₀ (execFspSuspend i m s) := by
  unfold execFspSuspend
  exact (State.fspIn_moves (hp.s rfl) h₀ (fun _ h1 => (State.onOp_moves (hp.s rfl) h1 (fun _ => (State.suspendOp_moves hp ha h1 (fun _ h2 => (tellOk_moves (hp.s rfl) h2)))))))

theorem execKeyUpdateReceive_moves {s₀ : State} {i : SlotId} {s : State} (hp : Parts [.mem, .front] ps) (h₀ : Moves ps es s₀ s) :
    OutMoves ps es s₀ (execKeyUpdateReceive i s) := by
  unfold execKeyUpdateReceive
  exact (need_moves _ _ (outMoves_next (State.changeSlot_moves (hp.s rfl) (State.setSess_moves (hp.s rfl) h₀) (fun _ h2 => (State.rxSlot_moves (hp.s rfl) h2)))))

end Sys2Proof.Machine
end

