-- ==== Sys2Proof/Laws/Exec.lean ====
section
/-! SUPPORT. What every command can do, and what every step can do: one lemma for all commands, from the lemma of each meaning. -/
namespace Sys2Proof.Machine

/-- Which engines a command may change. -/
def enginesOf (c : Instr) (q : EngineId) : Prop := (engineOf c).all (· == q) = true

theorem enginesOf_some {c : Instr} {e : EngineId} (h : engineOf c = some e) : enginesOf c e := by simp [enginesOf, h]
theorem enginesOf_none {c : Instr} (h : engineOf c = none) : ∀ q, enginesOf c q := by simp [enginesOf, h]

/-- Every command moves, within the parts and the engines that are its own, to its next state. -/
theorem exec_moves (c : Instr) (s : State) : OutMoves (partsOf c) (enginesOf c) s (exec c s) := by
  cases c with
  | instructionIssue _ _ => exact execInstructionIssue_moves (.refl _) (enginesOf_some rfl) (.refl _)
  | instructionComplete _ _ => exact execInstructionComplete_moves (.refl _) (enginesOf_some rfl) (.refl _)
  | instructionRetire _ => exact execInstructionRetire_moves (.refl _) (enginesOf_some rfl) (.refl _)
  | enterFaulted _ => exact execEnterFaulted_moves (.refl _) (enginesOf_some rfl) (.refl _)
  | ctlNop _ => exact execCtlNop_moves (.refl _) (enginesOf_some rfl) (.refl _)
  | ctlBr _ => exact execCtlBr_moves (.refl _) (enginesOf_some rfl) (.refl _)
  | ctlLoop _ => exact execCtlLoop_moves (.refl _) (enginesOf_some rfl) (.refl _)
  | ctlEndl _ => exact execCtlEndl_moves (.refl _) (enginesOf_some rfl) (.refl _)
  | ctlYield _ => exact execCtlYield_moves (.refl _) (enginesOf_some rfl) (.refl _)
  | ctlPhase _ => exact execCtlPhase_moves (.refl _) (enginesOf_some rfl) (.refl _)
  | ctlPage _ _ => exact execCtlPage_moves (.refl _) (enginesOf_some rfl) (.refl _)
  | ctlHalt _ => exact execCtlHalt_moves (.refl _) (enginesOf_some rfl) (.refl _)
  | ctlSets _ => exact execCtlSets_moves (.refl _) (enginesOf_some rfl) (.refl _)
  | ctlAlu _ => exact execCtlAlu_moves (.refl _) (enginesOf_some rfl) (.refl _)
  | ctlCmp _ => exact execCtlCmp_moves (.refl _) (enginesOf_some rfl) (.refl _)
  | ctlTset _ => exact execCtlTset_moves (.refl _) (enginesOf_some rfl) (.refl _)
  | ctlTadv _ => exact execCtlTadv_moves (.refl _) (enginesOf_some rfl) (.refl _)
  | ctlLds _ _ => exact execCtlLds_moves (.refl _) (enginesOf_some rfl) (.refl _)
  | ctlSts _ _ => exact execCtlSts_moves (.refl _) (enginesOf_some rfl) (.refl _)
  | matMul _ _ => exact execMatMul_moves (.refl _) (enginesOf_some rfl) (.refl _)
  | matCvt _ _ => exact execMatCvt_moves (.refl _) (enginesOf_some rfl) (.refl _)
  | vecBin _ _ => exact execVecBin_moves (.refl _) (enginesOf_some rfl) (.refl _)
  | vecFma _ _ => exact execVecFma_moves (.refl _) (enginesOf_some rfl) (.refl _)
  | vecUn _ _ => exact execVecUn_moves (.refl _) (enginesOf_some rfl) (.refl _)
  | vecRed _ _ => exact execVecRed_moves (.refl _) (enginesOf_some rfl) (.refl _)
  | vecSel _ _ => exact execVecSel_moves (.refl _) (enginesOf_some rfl) (.refl _)
  | sfnEval _ _ => exact execSfnEval_moves (.refl _) (enginesOf_some rfl) (.refl _)
  | sfnLoad _ _ => exact execSfnLoad_moves (.refl _) (enginesOf_some rfl) (.refl _)
  | sfnSwap _ => exact execSfnSwap_moves (.refl _) (enginesOf_some rfl) (.refl _)
  | nrmStat _ _ => exact execNrmStat_moves (.refl _) (enginesOf_some rfl) (.refl _)
  | nrmLn _ _ => exact execNrmLn_moves (.refl _) (enginesOf_some rfl) (.refl _)
  | nrmRms _ _ => exact execNrmRms_moves (.refl _) (enginesOf_some rfl) (.refl _)
  | attRun _ _ => exact execAttRun_moves (.refl _) (enginesOf_some rfl) (.refl _)
  | attMerge _ _ => exact execAttMerge_moves (.refl _) (enginesOf_some rfl) (.refl _)
  | attRing _ => exact execAttRing_moves (.refl _) (enginesOf_some rfl) (.refl _)
  | ringChunkReady _ _ => exact execRingChunkReady_moves (.refl _) (enginesOf_some rfl) (.refl _)
  | ringForwardStart _ => exact execRingForwardStart_moves (.refl _) (enginesOf_some rfl) (.refl _)
  | ringForwardDone _ _ _ => exact execRingForwardDone_moves (.refl _) (enginesOf_some rfl) (.refl _)
  | ringStepEnd _ _ => exact execRingStepEnd_moves (.refl _) (enginesOf_some rfl) (.refl _)
  | ringWaitTimeout _ => exact execRingWaitTimeout_moves (.refl _) (enginesOf_some rfl) (.refl _)
  | movCopy _ _ => exact execMovCopy_moves (.refl _) (enginesOf_some rfl) (.refl _)
  | movMcast _ _ => exact execMovMcast_moves (.refl _) (enginesOf_some rfl) (.refl _)
  | bauAdd _ => exact execBauAdd_moves (.refl _) (enginesOf_some rfl) (.refl _)
  | bauAxpy _ => exact execBauAxpy_moves (.refl _) (enginesOf_some rfl) (.refl _)
  | bauScale _ => exact execBauScale_moves (.refl _) (enginesOf_some rfl) (.refl _)
  | bauFill _ => exact execBauFill_moves (.refl _) (enginesOf_some rfl) (.refl _)
  | bauCopy _ => exact execBauCopy_moves (.refl _) (enginesOf_some rfl) (.refl _)
  | bauQnt _ => exact execBauQnt_moves (.refl _) (enginesOf_some rfl) (.refl _)
  | bauDqt _ => exact execBauDqt_moves (.refl _) (enginesOf_some rfl) (.refl _)
  | bauOpt _ => exact execBauOpt_moves (.refl _) (enginesOf_some rfl) (.refl _)
  | bauSum _ => exact execBauSum_moves (.refl _) (enginesOf_some rfl) (.refl _)
  | bauMaxabs _ => exact execBauMaxabs_moves (.refl _) (enginesOf_some rfl) (.refl _)
  | bauWait _ => exact execBauWait_moves (.refl _) (enginesOf_some rfl) (.refl _)
  | syncFence _ => exact execSyncFence_moves (.refl _) (enginesOf_some rfl) (.refl _)
  | syncBar _ => exact execSyncBar_moves (.refl _) (enginesOf_some rfl) (.refl _)
  | syncFlag _ => exact execSyncFlag_moves (.refl _) (enginesOf_some rfl) (.refl _)
  | syncEpoch _ => exact execSyncEpoch_moves (.refl _) (enginesOf_some rfl) (.refl _)
  | cfgSet _ => exact execCfgSet_moves (.refl _) (enginesOf_some rfl) (.refl _)
  | cfgGet _ => exact execCfgGet_moves (.refl _) (enginesOf_some rfl) (.refl _)
  | engStart _ _ => exact execEngStart_moves (.refl _) (enginesOf_some rfl) (.refl _)
  | engSuspend _ _ => exact execEngSuspend_moves (.refl _) (enginesOf_some rfl) (.refl _)
  | engResume _ _ => exact execEngResume_moves (.refl _) (enginesOf_some rfl) (.refl _)
  | engCancel _ _ => exact execEngCancel_moves (.refl _) (enginesOf_some rfl) (.refl _)
  | engClear _ _ => exact execEngClear_moves (.refl _) (enginesOf_some rfl) (.refl _)
  | yieldSuspend _ => exact execYieldSuspend_moves (.refl _) (enginesOf_some rfl) (.refl _)
  | contextWriteDone _ _ => exact execContextWriteDone_moves (.refl _) (enginesOf_some rfl) (.refl _)
  | contextReadDone _ _ => exact execContextReadDone_moves (.refl _) (enginesOf_some rfl) (.refl _)
  | cancelDrained _ => exact execCancelDrained_moves (.refl _) (enginesOf_some rfl) (.refl _)
  | engPgcmdGo _ _ => exact execEngPgcmdGo_moves (.refl _) (enginesOf_some rfl) (.refl _)
  | pageLoadDone _ _ => exact execPageLoadDone_moves (.refl _) (enginesOf_some rfl) (.refl _)
  | streamGrant _ => exact execStreamGrant_moves (.refl _) (enginesOf_some rfl) (.refl _)
  | resultBufferReserve _ => exact execResultBufferReserve_moves (.refl _) (enginesOf_some rfl) (.refl _)
  | streamReadReturn _ _ _ => exact execStreamReadReturn_moves (.refl _) (enginesOf_some rfl) (.refl _)
  | drainWriteDone _ _ => exact execDrainWriteDone_moves (.refl _) (enginesOf_some rfl) (.refl _)
  | scaleRecordUpdate _ _ => exact execScaleRecordUpdate_moves (.refl _) (enginesOf_some rfl) (.refl _)
  | remoteAccessTimeout _ _ => exact execRemoteAccessTimeout_moves (.refl _) (enginesOf_some rfl) (.refl _)
  | controlCoreAccess _ _ _ _ => exact execControlCoreAccess_moves (.refl _) (enginesOf_none rfl) (.refl _)
  | broadcastAccept _ => exact execBroadcastAccept_moves (.refl _) (enginesOf_some rfl) (.refl _)
  | landingRecallDone _ => exact execLandingRecallDone_moves (.refl _) (enginesOf_some rfl) (.refl _)
  | waveRelease _ => exact execWaveRelease_moves (.refl _) (enginesOf_some rfl) (.refl _)
  | checkPassDone _ => exact execCheckPassDone_moves (.refl _) (enginesOf_some rfl) (.refl _)
  | bauStep _ _ _ => exact execBauStep_moves (.refl _) (enginesOf_some rfl) (.refl _)
  | bauBusTransfer _ _ => exact execBauBusTransfer_moves (.refl _) (enginesOf_some rfl) (.refl _)
  | bauResultWrite _ => exact execBauResultWrite_moves (.refl _) (enginesOf_some rfl) (.refl _)
  | optRecordUpdate _ => exact execOptRecordUpdate_moves (.refl _) (enginesOf_some rfl) (.refl _)
  | bauModeApply _ => exact execBauModeApply_moves (.refl _) (.refl _)
  | verticalChannelRequest e n r b => exact execVerticalChannelRequest_moves (chan := n) (.refl _) (.refl _)
  | bankAccess _ _ _ => exact execBankAccess_moves (.refl _) (.refl _)
  | rowCloseTimeout _ _ => exact execRowCloseTimeout_moves (.refl _) (.refl _)
  | refreshDue _ _ => exact execRefreshDue_moves (.refl _) (.refl _)
  | refresh _ _ => exact execRefresh_moves (.refl _) (.refl _)
  | refreshCatchup _ _ => exact execRefreshCatchup_moves (.refl _) (.refl _)
  | scrubRead _ _ _ => exact execScrubRead_moves (.refl _) (.refl _)
  | squareRequest _ _ _ => exact execSquareRequest_moves (.refl _) (.refl _)
  | plazaFillDone _ _ => exact execPlazaFillDone_moves (.refl _) (.refl _)
  | sqCtlWrite _ _ => exact execSqCtlWrite_moves (.refl _) (.refl _)
  | windowChangeDone _ => exact execWindowChangeDone_moves (.refl _) (.refl _)
  | sqFlushGo _ _ => exact execSqFlushGo_moves (.refl _) (.refl _)
  | sqFlushDone _ => exact execSqFlushDone_moves (.refl _) (.refl _)
  | meshPacket _ _ _ => exact execMeshPacket_moves (.refl _) (.refl _)
  | multicastBranch _ _ _ => exact execMulticastBranch_moves (.refl _) (.refl _)
  | deliveredResetTimeout _ => exact execDeliveredResetTimeout_moves (.refl _) (.refl _)
  | barrierArrival _ => exact execBarrierArrival_moves (.refl _) (enginesOf_none rfl) (.refl _)
  | childArrival _ _ => exact execChildArrival_moves (.refl _) (enginesOf_none rfl) (.refl _)
  | parentRelease b g => exact execParentRelease_moves (_gen := g) (.refl _) (enginesOf_none rfl) (.refl _)
  | flagSet _ _ _ => exact execFlagSet_moves (.refl _) (enginesOf_none rfl) (.refl _)
  | flagClear _ _ _ => exact execFlagClear_moves (.refl _) (enginesOf_none rfl) (.refl _)
  | flagWatch _ _ _ _ => exact execFlagWatch_moves (.refl _) (.refl _)
  | flagAnswer _ _ _ => exact execFlagAnswer_moves (.refl _) (enginesOf_some rfl) (.refl _)
  | watchRetry _ _ => exact execWatchRetry_moves (.refl _) (enginesOf_some rfl) (.refl _)
  | avBarCfgWrite _ _ => exact execAvBarCfgWrite_moves (.refl _) (enginesOf_none rfl) (.refl _)
  | avFlagSetWrite _ _ => exact execAvFlagSetWrite_moves (.refl _) (enginesOf_none rfl) (.refl _)
  | avFlagClrWrite _ _ => exact execAvFlagClrWrite_moves (.refl _) (enginesOf_none rfl) (.refl _)
  | avEpochCommit _ => exact execAvEpochCommit_moves (.refl _) (.refl _)
  | epochStaged _ => exact execEpochStaged_moves (.refl _) (.refl _)
  | epochApply _ => exact execEpochApply_moves (.refl _) (.refl _)
  | epochLate _ => exact execEpochLate_moves (.refl _) (.refl _)
  | xwMarginLow _ _ _ _ => exact execXwMarginLow_moves (.refl _) (.refl _)
  | engineReset _ => exact execEngineReset_moves (.refl _) (enginesOf_some rfl) (.refl _)
  | engineResetRelease _ _ => exact execEngineResetRelease_moves (.refl _) (enginesOf_some rfl) (.refl _)
  | layerReset _ => exact execLayerReset_moves (.refl _) (enginesOf_none rfl) (.refl _)
  | layerResetRelease _ _ => exact execLayerResetRelease_moves (.refl _) (enginesOf_none rfl) (.refl _)
  | aonResetBlock => exact execAonResetBlock_moves (.refl _) (enginesOf_none rfl) (.refl _)
  | alwaysOnReset => exact execAlwaysOnReset_moves (.refl _) (enginesOf_none rfl) (.refl _)
  | alwaysOnResetExit => exact execAlwaysOnResetExit_moves (.refl _) (.refl _)
  | resetNAssert => exact execResetNAssert_moves (.refl _) (enginesOf_none rfl) (.refl _)
  | resetNDeassert => exact execResetNDeassert_moves (.refl _) (.refl _)
  | vpmPgLost => exact execVpmPgLost_moves (.refl _) (enginesOf_none rfl) (.refl _)
  | watchdogExpiry => exact execWatchdogExpiry_moves (.refl _) (enginesOf_none rfl) (.refl _)
  | watchdogKick _ => exact execWatchdogKick_moves (.refl _) (.refl _)
  | watchdogEnable _ => exact execWatchdogEnable_moves (.refl _) (.refl _)
  | stageRails => exact execStageRails_moves (.refl _) (.refl _)
  | vpmPgTimeout => exact execVpmPgTimeout_moves (.refl _) (.refl _)
  | stageRom => exact execStageRom_moves (.refl _) (.refl _)
  | stageTripTest _ => exact execStageTripTest_moves (.refl _) (.refl _)
  | stageVpm _ => exact execStageVpm_moves (.refl _) (.refl _)
  | stageFuses _ => exact execStageFuses_moves (.refl _) (.refl _)
  | stageImages => exact execStageImages_moves (s := s) (.refl _) (.refl _)
  | stageRepair => exact execStageRepair_moves (.refl _) (enginesOf_none rfl) (.refl _)
  | stageCrosswalk _ => exact execStageCrosswalk_moves (.refl _) (enginesOf_none rfl) (.refl _)
  | stageMemory _ => exact execStageMemory_moves (.refl _) (enginesOf_none rfl) (.refl _)
  | stageSelfTest _ _ _ => exact execStageSelfTest_moves (.refl _) (enginesOf_none rfl) (.refl _)
  | stageFirmware => exact execStageFirmware_moves (.refl _) (.refl _)
  | service => exact execService_moves (.refl _) (.refl _)
  | aonBlockIdWrite _ => exact execAonBlockIdWrite_moves (.refl _) (.refl _)
  | aonMemoGo _ => exact execAonMemoGo_moves (.refl _) (.refl _)
  | memoSealDone _ => exact execMemoSealDone_moves (.refl _) (.refl _)
  | aonLedgerGo _ => exact execAonLedgerGo_moves (.refl _) (.refl _)
  | ledgerAppendDone _ => exact execLedgerAppendDone_moves (.refl _) (.refl _)
  | plEnable _ => exact execPlEnable_moves (.refl _) (.refl _)
  | plDisable _ => exact execPlDisable_moves (.refl _) (.refl _)
  | plDown _ => exact execPlDown_moves (.refl _) (enginesOf_none rfl) (.refl _)
  | plRekey _ => exact execPlRekey_moves (.refl _) (.refl _)
  | plTwinWinWrite _ => exact execPlTwinWinWrite_moves (.refl _) (.refl _)
  | electricalDone _ _ _ _ => exact execElectricalDone_moves (.refl _) (enginesOf_none rfl) (.refl _)
  | alignDone _ _ _ => exact execAlignDone_moves (.refl _) (enginesOf_none rfl) (.refl _)
  | hello _ _ => exact execHello_moves (.refl _) (enginesOf_none rfl) (.refl _)
  | finish _ _ => exact execFinish_moves (.refl _) (enginesOf_none rfl) (.refl _)
  | holdoffExpiry _ => exact execHoldoffExpiry_moves (.refl _) (.refl _)
  | flitReceive _ _ => exact execFlitReceive_moves (.refl _) (enginesOf_none rfl) (.refl _)
  | idleFlit _ => exact execIdleFlit_moves (.refl _) (.refl _)
  | keyPhaseAdvance _ => exact execKeyPhaseAdvance_moves (.refl _) (.refl _)
  | rekeyTimer _ => exact execRekeyTimer_moves (.refl _) (.refl _)
  | laneErrorWindow _ => exact execLaneErrorWindow_moves (.refl _) (.refl _)
  | laneSwitch _ => exact execLaneSwitch_moves (.refl _) (.refl _)
  | noFlitTimeout _ => exact execNoFlitTimeout_moves (.refl _) (enginesOf_none rfl) (.refl _)
  | packetOriginate _ _ _ _ => exact execPacketOriginate_moves (.refl _) (.refl _)
  | remoteRequest _ => exact execRemoteRequest_moves (.refl _) (.refl _)
  | remoteCompletion _ => exact execRemoteCompletion_moves (.refl _) (.refl _)
  | creditReturn _ _ _ _ => exact execCreditReturn_moves (.refl _) (.refl _)
  | mgtProbe _ _ _ => exact execMgtProbe_moves (.refl _) (enginesOf_none rfl) (.refl _)
  | probeAnswer _ => exact execProbeAnswer_moves (.refl _) (.refl _)
  | probeTimeout _ => exact execProbeTimeout_moves (.refl _) (enginesOf_none rfl) (.refl _)
  | blockLost _ _ => exact execBlockLost_moves (.refl _) (enginesOf_none rfl) (.refl _)
  | plLostClear _ _ => exact execPlLostClear_moves (.refl _) (.refl _)
  | timeExchange _ => exact execTimeExchange_moves (.refl _) (.refl _)
  | timeRequest _ _ _ _ => exact execTimeRequest_moves (.refl _) (.refl _)
  | timeReply _ _ _ _ => exact execTimeReply_moves (.refl _) (.refl _)
  | frEnable _ _ => exact execFrEnable_moves (.refl _) (.refl _)
  | frameReceive _ _ => exact execFrameReceive_moves (.refl _) (.refl _)
  | frRxptrTail _ _ => exact execFrRxptrTail_moves (.refl _) (.refl _)
  | frTxptrTail _ _ => exact execFrTxptrTail_moves (.refl _) (.refl _)
  | txEntrySend _ => exact execTxEntrySend_moves (.refl _) (.refl _)
  | frTxcapWrite _ _ => exact execFrTxcapWrite_moves (.refl _) (.refl _)
  | clientHello _ _ _ => exact execClientHello_moves (.refl _) (.refl _)
  | dtlsHandshakeDone _ _ _ _ _ _ => exact execDtlsHandshakeDone_moves (.refl _) (enginesOf_none rfl) (.refl _)
  | dtlsAlert _ => exact execDtlsAlert_moves (.refl _) (enginesOf_none rfl) (.refl _)
  | keyUpdateSend _ => exact execKeyUpdateSend_moves (.refl _) (.refl _)
  | keyUpdateReceive _ => exact execKeyUpdateReceive_moves (.refl _) (.refl _)
  | fspOpen _ _ => exact execFspOpen_moves (.refl _) (enginesOf_none rfl) (.refl _)
  | fspSubmit _ _ => exact execFspSubmit_moves (.refl _) (.refl _)
  | fspStatus _ _ => exact execFspStatus_moves (.refl _) (.refl _)
  | fspSuspend _ _ => exact execFspSuspend_moves (.refl _) (enginesOf_none rfl) (.refl _)
  | fspResume _ _ => exact execFspResume_moves (.refl _) (enginesOf_none rfl) (.refl _)
  | fspCancel _ _ => exact execFspCancel_moves (.refl _) (enginesOf_none rfl) (.refl _)
  | fspClose _ _ => exact execFspClose_moves (.refl _) (enginesOf_none rfl) (.refl _)
  | fspAck _ _ => exact execFspAck_moves (.refl _) (.refl _)
  | fspRetransmit _ => exact execFspRetransmit_moves (.refl _) (enginesOf_none rfl) (.refl _)
  | keepaliveExpiry _ => exact execKeepaliveExpiry_moves (.refl _) (enginesOf_none rfl) (.refl _)
  | keepaliveAck _ => exact execKeepaliveAck_moves (.refl _) (.refl _)
  | operationStart _ => exact execOperationStart_moves (.refl _) (enginesOf_none rfl) (.refl _)
  | operationLoaded _ _ => exact execOperationLoaded_moves (.refl _) (enginesOf_none rfl) (.refl _)
  | operationEngineEvent _ _ => exact execOperationEngineEvent_moves (.refl _) (enginesOf_none rfl) (.refl _)
  | telemetryFrame _ => exact execTelemetryFrame_moves (.refl _) (.refl _)
  | telemetryLost => exact execTelemetryLost_moves (.refl _) (.refl _)
  | telRetry => exact execTelRetry_moves (.refl _) (.refl _)
  | pmbAlert _ => exact execPmbAlert_moves (.refl _) (.refl _)
  | pwrPmbGo _ => exact execPwrPmbGo_moves (.refl _) (.refl _)
  | pmbTransactionDone _ _ => exact execPmbTransactionDone_moves (.refl _) (.refl _)
  | sliceFail _ _ _ => exact execSliceFail_moves (.refl _) (enginesOf_none rfl) (.refl _)
  | sliceShed _ _ => exact execSliceShed_moves (.refl _) (.refl _)
  | sliceUnshed _ _ => exact execSliceUnshed_moves (.refl _) (.refl _)
  | regionSleep _ _ => exact execRegionSleep_moves (.refl _) (enginesOf_none rfl) (.refl _)
  | regionWake _ => exact execRegionWake_moves (.refl _) (.refl _)
  | inrushWaitTimeout _ => exact execInrushWaitTimeout_moves (.refl _) (.refl _)
  | regionOn _ => exact execRegionOn_moves (.refl _) (.refl _)
  | regionClearDone _ => exact execRegionClearDone_moves (.refl _) (enginesOf_none rfl) (.refl _)
  | pwrRgCtlWrite _ _ => exact execPwrRgCtlWrite_moves (.refl _) (.refl _)
  | pwrRgRearm _ => exact execPwrRgRearm_moves (.refl _) (.refl _)
  | pwrRgVminRead _ => exact execPwrRgVminRead_moves (.refl _) (.refl _)
  | droopSample _ _ => exact execDroopSample_moves (.refl _) (.refl _)
  | droopSkipEnd _ => exact execDroopSkipEnd_moves (.refl _) (.refl _)
  | currentReport _ _ => exact execCurrentReport_moves (.refl _) (.refl _)
  | guardDecay _ => exact execGuardDecay_moves (.refl _) (.refl _)
  | capEvaluate _ => exact execCapEvaluate_moves (.refl _) (.refl _)
  | preStage _ => exact execPreStage_moves (.refl _) (.refl _)
  | phaseEnd _ => exact execPhaseEnd_moves (.refl _) (.refl _)
  | pwrCapWrite _ => exact execPwrCapWrite_moves (.refl _) (.refl _)
  | pwrRgCeilWrite _ _ => exact execPwrRgCeilWrite_moves (.refl _) (.refl _)
  | adcRoundEnd _ => exact execAdcRoundEnd_moves (.refl _) (.refl _)
  | adcFail _ => exact execAdcFail_moves (.refl _) (.refl _)
  | flowEdge => exact execFlowEdge_moves (.refl _) (.refl _)
  | flowTimeout => exact execFlowTimeout_moves (.refl _) (.refl _)
  | thmLimWrite _ _ => exact execThmLimWrite_moves (.refl _) (.refl _)
  | thmSuspectClear _ _ => exact execThmSuspectClear_moves (.refl _) (.refl _)
  | thmBrokenClear _ _ => exact execThmBrokenClear_moves (.refl _) (.refl _)
  | tripFire _ => exact execTripFire_moves (.refl _) (enginesOf_none rfl) (.refl _)
  | clkStepReq _ => exact execClkStepReq_moves (.refl _) (.refl _)
  | stepChange => exact execStepChange_moves (.refl _) (.refl _)
  | vcoreSettleEnd => exact execVcoreSettleEnd_moves (.refl _) (.refl _)
  | stepPause _ => exact execStepPause_moves (.refl _) (.refl _)
  | referenceLost => exact execReferenceLost_moves (.refl _) (enginesOf_none rfl) (.refl _)
  | referenceRestored => exact execReferenceRestored_moves (.refl _) (.refl _)
  | crystalLost => exact execCrystalLost_moves (.refl _) (.refl _)
  | pllLockTimeout _ => exact execPllLockTimeout_moves (.refl _) (enginesOf_some rfl) (.refl _)
  | pllLockLost _ => exact execPllLockLost_moves (.refl _) (enginesOf_some rfl) (.refl _)
  | canaryWindow _ _ _ => exact execCanaryWindow_moves (.refl _) (.refl _)
  | clkBtimeAdjWrite _ => exact execClkBtimeAdjWrite_moves (.refl _) (.refl _)
  | clkPllFailClear _ _ => exact execClkPllFailClear_moves (.refl _) (.refl _)
  | secEnroll _ _ => exact execSecEnroll_moves (.refl _) (.refl _)
  | secSign _ => exact execSecSign_moves (.refl _) (.refl _)
  | secExtend _ => exact execSecExtend_moves (.refl _) (.refl _)
  | secQuote _ => exact execSecQuote_moves (.refl _) (.refl _)
  | secSvnAdv _ => exact execSecSvnAdv_moves (.refl _) (.refl _)
  | secNonce _ => exact execSecNonce_moves (.refl _) (.refl _)
  | secCert => exact execSecCert_moves (.refl _) (.refl _)
  | secDebug _ => exact execSecDebug_moves (.refl _) (.refl _)
  | tapIdcode => exact execTapIdcode_moves (.refl _) (.refl _)
  | tapNonceRead => exact execTapNonceRead_moves (.refl _) (.refl _)
  | tapTokenLoad _ => exact execTapTokenLoad_moves (.refl _) (.refl _)
  | tapBypass _ => exact execTapBypass_moves (.refl _) (.refl _)
  | errorReport _ => exact execErrorReport_moves (.refl _) (.refl _)
  | entryClose => exact execEntryClose_moves (.refl _) (.refl _)
  | elogFlush => exact execElogFlush_moves (.refl _) (.refl _)
  | stormMaskEnd _ _ _ => exact execStormMaskEnd_moves (.refl _) (.refl _)
  | elogTailWrite _ => exact execElogTailWrite_moves (.refl _) (.refl _)
  | gaugeSample _ _ _ => exact execGaugeSample_moves (.refl _) (.refl _)
  | periodBoundary _ => exact execPeriodBoundary_moves (.refl _) (.refl _)
  | gaugeLatch _ => exact execGaugeLatch_moves (.refl _) (.refl _)
  | gaugeCfgWrite _ _ => exact execGaugeCfgWrite_moves (.refl _) (.refl _)
  | gaugePeriodWrite _ _ => exact execGaugePeriodWrite_moves (.refl _) (.refl _)
  | inputEdge _ _ => exact execInputEdge_moves (.refl _) (.refl _)
  | chatterWindowEnd => exact execChatterWindowEnd_moves (.refl _) (.refl _)
  | inputStuck _ => exact execInputStuck_moves (.refl _) (.refl _)
  | pinFaultClear _ => exact execPinFaultClear_moves (.refl _) (.refl _)
  | tollRateWrite _ _ => exact execTollRateWrite_moves (.refl _) (.refl _)
  | lndCeCountRead _ => exact execLndCeCountRead_moves (.refl _) (.refl _)
  | lndUeCountRead _ => exact execLndUeCountRead_moves (.refl _) (.refl _)
  | lndPoisonRead _ => exact execLndPoisonRead_moves (.refl _) (.refl _)
  | lndRefreshRead _ => exact execLndRefreshRead_moves (.refl _) (.refl _)
  | sqRefetchRead _ => exact execSqRefetchRead_moves (.refl _) (.refl _)
  | sqPoisonRead _ => exact execSqPoisonRead_moves (.refl _) (.refl _)
  | bauCountsRead _ => exact execBauCountsRead_moves (.refl _) (.refl _)
  | avDiscardRead _ => exact execAvDiscardRead_moves (.refl _) (.refl _)
  | plFecCountRead _ => exact execPlFecCountRead_moves (.refl _) (.refl _)
  | plRetryRead _ => exact execPlRetryRead_moves (.refl _) (.refl _)
  | tollCountRead _ => exact execTollCountRead_moves (.refl _) (.refl _)
  | frCountRead _ => exact execFrCountRead_moves (.refl _) (.refl _)
  | frDropRead _ => exact execFrDropRead_moves (.refl _) (.refl _)
  | frFecRead _ => exact execFrFecRead_moves (.refl _) (.refl _)
  | pwrRgDroopRead _ => exact execPwrRgDroopRead_moves (.refl _) (.refl _)
  | thmStepRead => exact execThmStepRead_moves (.refl _) (.refl _)
  | clkStatusRead => exact execClkStatusRead_moves (.refl _) (.refl _)
  | clkStepRead => exact execClkStepRead_moves (.refl _) (.refl _)
  | clkPllRead _ => exact execClkPllRead_moves (.refl _) (.refl _)
  | clkCanaryRead _ => exact execClkCanaryRead_moves (.refl _) (.refl _)
  | elogCountsRead => exact execElogCountsRead_moves (.refl _) (.refl _)
  | elogSumRead _ => exact execElogSumRead_moves (.refl _) (.refl _)
  | registerWrite _ _ => exact execRegisterWrite_moves (.refl _) (enginesOf_none rfl) (.refl _)
  | vpmPowerGood => exact execVpmPowerGood_moves (.refl _) (.refl _)
  | frontageLinkChange _ _ => exact execFrontageLinkChange_moves (.refl _) (.refl _)
  | securityOperationDone => exact execSecurityOperationDone_moves (.refl _) (.refl _)
  | squareGoesDark _ => exact execSquareGoesDark_moves (.refl _) (enginesOf_none rfl) (.refl _)
  | vaonOrAuxAbsent => exact execVaonOrAuxAbsent_moves (.refl _) (enginesOf_none rfl) (.refl _)
  | fspReservedType _ _ => exact execFspReservedType_moves (.refl _) (.refl _)

/-- A step takes the command at the front of the queue, or lets the time clock run one cycle. -/
theorem step_cases {s t : State} (h : step s = .next t) :
    (s.pending = [] ∧ t = s.idle) ∨ ∃ c rest, s.pending = c :: rest ∧ exec c { s with pending := rest } = .next t := by
  unfold step at h
  split at h
  · rename_i hp; cases h; exact .inl ⟨hp, rfl⟩
  · rename_i c rest hp; exact .inr ⟨c, rest, hp, h⟩

/-- Every part. -/
def Part.every : List Part :=
  [.regs, .mem, .clock, .pins, .engines, .hints, .banks, .marks, .landq, .scrubAt, .spareRow, .squares, .mesh, .parked, .bars, .watches, .lateLogged, .taps,
    .margins, .power, .net, .boot, .front, .thermal, .elog, .gauges, .outbox, .drawn, .otp, .mrs, .sec]

theorem Part.mem_every (p : Part) : p ∈ Part.every := by cases p <;> decide

/-- A larger set of parts and engines allows no less. -/
theorem Moves.widen {ps : List Part} {es : EngineId → Prop} {s t : State} (h : Moves ps es s t) : Moves Part.every (fun _ => True) s t :=
  { h with parts := fun p hp => absurd (Part.mem_every p) hp, engines := fun _ hq => absurd trivial hq }

/-- A step moves from the state without its command to its next state. -/
theorem step_moves {s t : State} (h : step s = .next t) : Moves Part.every (fun _ => True) { s with pending := s.pending.tail } t := by
  rcases step_cases h with ⟨hp, rfl⟩ | ⟨c, rest, hp, hc⟩
  · have e : { s with pending := s.pending.tail } = s := by rw [hp]; cases s; simp_all
    rw [e]
    exact (State.idle_moves (es := fun _ => True) (Parts.refl _) (.refl s)).widen
  · rw [hp]
    exact (exec_moves c _ t hc).widen

end Sys2Proof.Machine
end

