-- ==== Sys2Proof/Laws/Fields.lean ====
section
/-! SUPPORT. Which fields of registers an update of the state changes: each update that a meaning makes, as a step of `FieldsBecome`. -/
namespace Sys2Proof.Machine

/-- A put leaves every field that shares no bit with the field put. -/
theorem State.get_put_of_apart (s : State) {f g : Field} (hg : g.fits) (v : Nat) {i j i' j' : Nat} (h : Apart g i' j' f i j) :
    (s.put f v i j).get g i' j' = s.get g i' j' := by
  by_cases hk : g.reg.key i' j' = f.reg.key i j
  · have hb : g.lo + g.w ≤ f.lo ∨ f.lo + f.w ≤ g.lo := h.resolve_left fun hn => hn hk
    simp only [State.get, State.put, hk, State.rd_wr_same, getBits_mod64 _ _ _ hg, getBits_putBits_apart _ _ _ _ _ _ hb]
  · exact State.get_put_other s f g v i j i' j' hk

theorem Apart.symm {g f : Field} {i j i' j' : Nat} (h : Apart g i j f i' j') : Apart f i' j' g i j := by
  unfold Apart at *; rcases h with h | h | h
  · exact .inl (Ne.symm h)
  · exact .inr (.inr h)
  · exact .inr (.inl h)

theorem FieldsBecome.refl (s : State) : FieldsBecome [] s s := ⟨by simp, fun _ _ _ _ _ => rfl⟩

/-- A change that touches no register. -/
theorem FieldsBecome.same {l : List Holds} {s t u : State} (h : FieldsBecome l s t) (e : u.regs = t.regs) : FieldsBecome l s u := by
  have hr : ∀ f i j, u.get f i j = t.get f i j := fun f i j => by simp only [State.get, State.rd, e]
  exact ⟨fun q hq => (hr ..).trans (h.1 q hq), fun g i j hg ha => (hr ..).trans (h.2 g i j hg ha)⟩

/-- A put of a field that shares no bit with those before. -/
theorem FieldsBecome.put {l : List Holds} {s t : State} (h : FieldsBecome l s t) {f : Field} {v i j : Nat} (hf : f.fits) (hv : v < 2 ^ f.w)
    (ha : ∀ q ∈ l, q.field.fits ∧ Apart q.field q.inst q.idx f i j) : FieldsBecome (⟨f, i, j, v⟩ :: l) s (t.put f v i j) := by
  constructor
  · intro q hq
    rcases List.mem_cons.mp hq with rfl | hq
    · exact (State.get_put_same t f hf v i j).trans (Nat.mod_eq_of_lt hv)
    · exact (State.get_put_of_apart t (ha q hq).1 v (ha q hq).2).trans (h.1 q hq)
  · intro g i' j' hg hap
    exact (State.get_put_of_apart t hg v (hap _ (List.mem_cons_self ..))).trans (h.2 g i' j' hg fun q hq => hap q (List.mem_cons_of_mem _ hq))

/-- A put of the field that was put last. -/
theorem FieldsBecome.again {l : List Holds} {s t : State} {f : Field} {v w i j : Nat} (h : FieldsBecome (⟨f, i, j, w⟩ :: l) s t) (hf : f.fits)
    (hv : v < 2 ^ f.w) (ha : ∀ q ∈ l, q.field.fits ∧ Apart q.field q.inst q.idx f i j) : FieldsBecome (⟨f, i, j, v⟩ :: l) s (t.put f v i j) := by
  constructor
  · intro q hq
    rcases List.mem_cons.mp hq with rfl | hq
    · exact (State.get_put_same t f hf v i j).trans (Nat.mod_eq_of_lt hv)
    · exact (State.get_put_of_apart t (ha q hq).1 v (ha q hq).2).trans (h.1 q (List.mem_cons_of_mem _ hq))
  · intro g i' j' hg hap
    refine (State.get_put_of_apart t hg v (hap _ (List.mem_cons_self ..))).trans (h.2 g i' j' hg fun q hq => ?_)
    rcases List.mem_cons.mp hq with rfl | hq
    · exact hap ⟨f, i, j, v⟩ (List.mem_cons_self ..)
    · exact hap q (List.mem_cons_of_mem _ hq)

/-- The order in which the fields are named, and what says so, do not matter. -/
theorem FieldsBecome.congr {l m : List Holds} {s t : State} (h : FieldsBecome l s t) (e : l = m) : FieldsBecome m s t := e ▸ h

theorem FieldsBecome.perm {l m : List Holds} {s t : State} (h : FieldsBecome l s t) (e : l.Perm m) : FieldsBecome m s t :=
  ⟨fun q hq => h.1 q (e.mem_iff.mpr hq), fun g i j hg ha => h.2 g i j hg fun q hq => ha q (e.mem_iff.mp hq)⟩

/-- More fields may be named, with what they hold after. -/
theorem FieldsBecome.more {l : List Holds} {s t : State} (h : FieldsBecome l s t) (f : Field) (i j : Nat) : FieldsBecome (⟨f, i, j, t.get f i j⟩ :: l) s t :=
  ⟨fun q hq => by
    rcases List.mem_cons.mp hq with rfl | hq
    · rfl
    · exact h.1 q hq, fun g i' j' hg ha => h.2 g i' j' hg fun q hq => ha q (List.mem_cons_of_mem _ hq)⟩

/-- A report changes no register but the counter of lost reports. -/
theorem State.sendReport_fields (s : State) (r : Report) : FieldsBecome [lostAfter s] s (s.sendReport r) := by
  unfold lostAfter State.sendReport
  split
  · exact ((FieldsBecome.refl s).more F.ELOG_COUNTS.dropped 0 0).same rfl
  · exact (FieldsBecome.refl s).put (by decide) (by show min _ _ < 2 ^ 8; omega) (by simp)

theorem State.log_fields (s : State) (typ cls inst sev : Nat) (code : Code) (detail sub : Nat) :
    FieldsBecome [lostAfter s] s (s.log typ cls inst sev code detail sub) := State.sendReport_fields s _

theorem State.sendReport_elog (s : State) (r : Report) : (s.sendReport r).elog = logAfter s r := by
  unfold State.sendReport logAfter
  split
  · rfl
  · simp only [State.count, State.put_elog]

theorem State.log_elog (s : State) (typ cls inst sev : Nat) (code : Code) (detail sub : Nat) :
    (s.log typ cls inst sev code detail sub).elog = logAfter s (reportOf s typ cls inst sev code detail sub) := State.sendReport_elog s _

end Sys2Proof.Machine
end

