-- ==== Sys2Proof/Tests/Slice0.lean ====
section
/-! SUPPORT. Tests of the model: each command once or twice on a small state, with values worked out from the spec's text and tables, and for every statement of the
certificates with hypotheses a state and operands that meet them. -/
namespace Sys2Proof.Tests
open Sys2Proof Sys2Proof.Machine
set_option Elab.async false

/-- A command answers a next state of which `p` holds. -/
def goes (o : Out) (p : State → Bool) : Bool :=
  match o with
  | .next t => p t
  | _ => false

/-- A command has no effect in a state. -/
def stops (o : Out) : Bool :=
  match o with
  | .refused (.notEnabled _) => true
  | _ => false

/-- An instruction in flight at index 5 of an engine: its unit and its word. -/
def ent (u : Unt) (w : Nat) : Entry :=
  { id := 0, eng := 0, idx := 5, word := BitVec.ofNat 128 w, unit := u, sr := Vector.replicate 32 0#64, tr := Vector.replicate 64 0#256, epoch := 0, granted := false
    reserved := false, operands := [], raw := [], done := false, code := .ok, detail := 0, writes := [], cap := none, wrote := false, completed := false
    gen := none, sent := false }

/-- The bundles of column 0, calibrated to tap 31 at step 7, the step after reset. -/
def tapped (s : State) : State := { s with taps := (List.range 112).map fun n => (8 * n + 7, 32) }

/-- The block in service with column 0 calibrated, engine 0 in RUN and these instructions in flight. -/
def inRun (l : List Entry) : State :=
  let s := ((tapped State.reset).put F.ENG_STATUS.state 1 0).put F.AON_STATUS.stage 12
  s.setEng 0 { Engine.fresh with inflight := l }

/-! ## The sequencer (R113, R122-R124, R127-R131, R136, R140, R143) -/

/-- S registers of an entry: S1 = 5, S2 = 2^32, S4 = -8. -/
def sr : Vector Word 32 := ((((Vector.replicate 32 0#64).set 1 5#64).set 2 0x100000000#64).set 4 0xFFFFFFFFFFFFFFF8#64)

/-- An instruction of the sequencer in flight, with those registers copied. -/
def seqE (w : Nat) : Entry := { ent .seq w with sr := sr }

/-- S3 := S1 + 7; S3 := S4 shifted right by 1 with its sign; P2 := S4 < S1, signed and unsigned. -/
def alu : Entry := seqE (0x09 + 3 * 2 ^ 20 + 1 * 2 ^ 25 + 1 * 2 ^ 35 + 7 * 2 ^ 36)
def sar : Entry := seqE (0x09 + 8 * 2 ^ 16 + 3 * 2 ^ 20 + 4 * 2 ^ 25 + 1 * 2 ^ 35 + 1 * 2 ^ 36)
def cmp (cond : Nat) : Entry := seqE (0x0A + 2 * 2 ^ 16 + cond * 2 ^ 19 + 4 * 2 ^ 22 + 1 * 2 ^ 27)

theorem test_scalar_hypotheses : Executes (inRun [seqE 0x00]) 0 0x00 (seqE 0x00) ∧ Executes (inRun [seqE 0x08]) 0 0x08 (seqE 0x08) ∧ Executes (inRun [alu]) 0 0x09 alu ∧
    Executes (inRun [cmp 2]) 0 0x0A (cmp 2) ∧ Executes (inRun [seqE 0x0B]) 0 0x0B (seqE 0x0B) ∧ Executes (inRun [seqE 0x0C]) 0 0x0C (seqE 0x0C) ∧
    Executes (inRun [seqE 0x91]) 0 0x91 (seqE 0x91) := by
  refine ⟨?_, ?_, ?_, ?_, ?_, ?_, ?_⟩ <;> exact ⟨by decide +kernel, by decide +kernel⟩

theorem test_ctlNop : goes (exec (.ctlNop 0) (inRun [seqE 0x00])) (fun t => ((t.eng 0).inflight.map Entry.completed) == [true]) = true := by decide +kernel
theorem test_ctlSets : goes (exec (.ctlSets 0) (inRun [seqE (0x08 + 31 * 2 ^ 16 + 0xFEDCBA9876543210 * 2 ^ 21)])) (fun t => sGet (t.eng 0).s 31 == 0xFEDCBA9876543210#64) = true := by decide +kernel
theorem test_ctlAlu_add : goes (exec (.ctlAlu 0) (inRun [alu])) (fun t => sGet (t.eng 0).s 3 == 12#64) = true := by decide +kernel
theorem test_ctlAlu_sar : goes (exec (.ctlAlu 0) (inRun [sar])) (fun t => sGet (t.eng 0).s 3 == 0xFFFFFFFFFFFFFFFC#64) = true := by decide +kernel
theorem test_ctlCmp_signed : goes (exec (.ctlCmp 0) (inRun [cmp 2])) (fun t => pGet (t.eng 0).p 2) = true := by decide +kernel
theorem test_ctlCmp_unsigned : goes (exec (.ctlCmp 0) (inRun [cmp 4])) (fun t => !pGet (t.eng 0).p 2) = true := by decide +kernel
theorem test_ctlTset : goes (exec (.ctlTset 0) (inRun [seqE (0x0B + 9 * 2 ^ 16 + 3 * 2 ^ 22 + 1 * 2 ^ 24)])) (fun t => (tGet (t.eng 0).t 9).toNat == 5 * 2 ^ 192) = true := by decide +kernel
theorem test_ctlTadv : goes (exec (.ctlTadv 0) (inRun [seqE (0x0C + 9 * 2 ^ 16 + 1 * 2 ^ 27 + 0xFFFFFFFF * 2 ^ 28)])) (fun t => (tGet (t.eng 0).t 9).toNat == 2 ^ 64 - 1) = true := by decide +kernel
theorem test_cfgGet : goes (exec (.cfgGet 0) (inRun [seqE (0x91 + 1 * 2 ^ 16 + 6 * 2 ^ 19)])) (fun t => sGet (t.eng 0).s 6 == 1000#64) = true := by decide +kernel

/-- A loop of three from S-free counts, of no iteration, of S2 = 2^32, and its end at index 5. -/
def loopE (n : Nat) : Entry := seqE (0x02 + 1 * 2 ^ 16 + 5 * 2 ^ 18 + n * 2 ^ 38)
def loopS : Entry := seqE (0x02 + 1 * 2 ^ 16 + 5 * 2 ^ 18 + 2 * 2 ^ 32 + 1 * 2 ^ 37)
def inLoop (n stop : Nat) : State :=
  let s := inRun [seqE (0x03 + 1 * 2 ^ 16)]
  s.setEng 0 { s.eng 0 with l := (s.eng 0).l.set 1 ⟨n, 2, stop⟩ }

theorem test_control_hypotheses : Executes (inRun [seqE 0x01]) 0 0x01 (seqE 0x01) ∧ Executes (inRun [loopE 3]) 0 0x02 (loopE 3) ∧ Executes (inRun [loopS]) 0 0x02 loopS ∧
    Executes (inLoop 2 5) 0 0x03 (seqE (0x03 + 1 * 2 ^ 16)) ∧ Executes (inRun [seqE 0x04]) 0 0x04 (seqE 0x04) ∧ Executes (inRun [seqE 0x05]) 0 0x05 (seqE 0x05) ∧
    Executes (inRun [seqE 0x90]) 0 0x90 (seqE 0x90) ∧ Executes (inRun [seqE 0x07]) 0 0x07 (seqE 0x07) := by
  refine ⟨?_, ?_, ?_, ?_, ?_, ?_, ?_, ?_⟩ <;> exact ⟨by decide +kernel, by decide +kernel⟩

theorem test_ctlBr : goes (exec (.ctlBr 0) (inRun [seqE (0x01 + 16383 * 2 ^ 16)])) (fun t => t.get F.ENG_STATUS.pc 0 == 16383 && !(t.eng 0).beyond) = true := by decide +kernel
theorem test_ctlLoop_enters : goes (exec (.ctlLoop 0) (inRun [loopE 3])) (fun t => (t.eng 0).l[1] == ⟨3, 6, 5⟩ && t.get F.ENG_STATUS.pc 0 == 6) = true := by decide +kernel
theorem test_ctlLoop_denies : goes (exec (.ctlLoop 0) (inRun [loopS])) (fun t => ((t.eng 0).inflight.map Entry.code) == [.accessDenied] && t.get F.ENG_STATUS.pc 0 == 6) = true := by decide +kernel
theorem test_ctlEndl_returns : goes (exec (.ctlEndl 0) (inLoop 2 5)) (fun t => t.get F.ENG_STATUS.pc 0 == 2 && (t.eng 0).l[1].count == 1) = true := by decide +kernel
theorem test_ctlEndl_other_end : goes (exec (.ctlEndl 0) (inLoop 2 7)) (fun t => ((t.eng 0).inflight.map Entry.code) == [.accessDenied]) = true := by decide +kernel
theorem test_ctlYield : goes (exec (.ctlYield 0) (inRun [seqE (0x04 + 77 * 2 ^ 16)])) (fun t => (t.eng 0).yieldAt == none) = true := by decide +kernel
theorem test_ctlPhase : goes (exec (.ctlPhase 0) (inRun [seqE (0x05 + 3 * 2 ^ 16 + 10 * 2 ^ 18 + 9 * 2 ^ 26)])) (fun t => t.hints[0] == ⟨none, some ⟨3, 10, 9, 0⟩⟩) = true := by decide +kernel
theorem test_cfgSet_zero_is_thousand : goes (exec (.cfgSet 0) (inRun [seqE (0x90 + 1 * 2 ^ 16)])) (fun t => (t.eng 0).cfg[1] == 1000#64) = true := by decide +kernel
theorem test_cfgSet_denies : goes (exec (.cfgSet 0) (inRun [seqE (0x90 + 1 * 2 ^ 16 + 2 * 2 ^ 19)])) (fun t => ((t.eng 0).inflight.map Entry.code) == [.accessDenied]) = true := by decide +kernel
theorem test_ctlHalt : goes (exec (.ctlHalt 0) (inRun [seqE 0x07])) (fun t => t.engState 0 == 6 && t.outbox == [.engineSignal 0 6]) = true := by decide +kernel
theorem test_ctlHalt_failure : goes (exec (.ctlHalt 0) (let s := inRun [seqE 0x07]; s.setEng 0 { s.eng 0 with fails := [.unmapped] })) (fun t => ((t.eng 0).inflight.map Entry.code) == [.unmapped] && (t.eng 0).fails == []) = true := by decide +kernel

/-! ## Issue, completion, retirement -/

/-- Engine 0 in RUN at index `pc` with a word of its instruction memory there. -/
def toIssue (pc w : Nat) : State :=
  let s := (inRun []).put F.ENG_STATUS.pc pc 0
  s.setEng 0 { s.eng 0 with imem := [(pc, BitVec.ofNat 128 w)] }

theorem test_mayIssue : MayIssue (toIssue 16383 0x00) 0 :=
  ⟨by decide +kernel, by decide +kernel, by decide +kernel, by decide +kernel, by decide +kernel, by decide +kernel, by decide +kernel, by decide +kernel⟩
theorem test_issue_last_index : goes (exec (.instructionIssue 0 false) (toIssue 16383 0x00)) (fun t => (t.eng 0).beyond && t.get F.ENG_STATUS.pc 0 == 16383 && (t.eng 0).inflight.length == 1) = true := by decide +kernel
theorem test_issue_beyond : goes (exec (.instructionIssue 0 false) (let s := toIssue 5 0; s.setEng 0 { s.eng 0 with beyond := true })) (fun t => (t.eng 0).bound.isSome && (t.eng 0).boundFetch) = true := by decide +kernel
theorem test_issue_parity : goes (exec (.instructionIssue 0 true) (toIssue 5 0x1000)) (fun t => (t.eng 0).bound.isSome) = true := by decide +kernel
/-- Predicate 0 reads 1: negated, the instruction is skipped. -/
theorem test_issue_skips : goes (exec (.instructionIssue 0 false) (toIssue 5 (0x01 + 2 ^ 11))) (fun t => ((t.eng 0).inflight.map Entry.completed) == [true] && t.get F.ENG_STATUS.pc 0 == 6) = true := by decide +kernel
/-- Reserved bit 127 of a CTL.NOP. -/
theorem test_issue_refuses : goes (exec (.instructionIssue 0 false) (toIssue 5 (2 ^ 127))) (fun t => ((t.eng 0).inflight.map Entry.code) == [.accessDenied]) = true := by decide +kernel
/-- A load of pages 15 and 16, of no page, and of the page of the load itself are refused as they issue; one of page 15 issues. -/
theorem test_issue_pages : [(15, 2), (1, 0), (0, 1)].all (fun p => goes (exec (.instructionIssue 0 false) (toIssue 5 (0x06 + p.1 * 2 ^ 21 + p.2 * 2 ^ 25))) (fun t => ((t.eng 0).inflight.map Entry.code) == [.accessDenied])) &&
    goes (exec (.instructionIssue 0 false) (toIssue 5 (0x06 + 15 * 2 ^ 21 + 1 * 2 ^ 25))) (fun t => ((t.eng 0).inflight.map Entry.code) == [.ok]) = true := by decide +kernel

/-- A vector instruction that is done, with a result of one byte at address 64. -/
def doneE (c : Code) (catch_ : Nat) : Entry := { ent .vector (0x20 + catch_ * 2 ^ 12) with done := true, code := c, writes := [(64, [1#8])] }

theorem test_complete_releases : goes (exec (.instructionComplete 0 0) (inRun [doneE .ok 0])) (fun t => (t.eng 0).drains.length == 1 && ((t.eng 0).inflight.map Entry.completed) == [true]) = true := by decide +kernel
theorem test_complete_discards : goes (exec (.instructionComplete 0 0) (inRun [doneE .dataErr 0])) (fun t => (t.eng 0).drains == [] && ((t.eng 0).inflight.map Entry.writes) == [[]]) = true := by decide +kernel
theorem test_retire_ok_catch : goes (exec (.instructionRetire 0) (inRun [{ doneE .ok 1 with completed := true }])) (fun t => (t.eng 0).inflight == [] && !pGet (t.eng 0).p 7) = true := by decide +kernel
theorem test_retire_catches : goes (exec (.instructionRetire 0) (inRun [{ doneE .dataErr 1 with completed := true }])) (fun t => pGet (t.eng 0).p 7 && (sGet (t.eng 0).s 31).toNat % 16 == 1) = true := by decide +kernel
theorem test_retire_faults : goes (exec (.instructionRetire 0) (inRun [{ doneE .dataErr 0 with completed := true }])) (fun t => (t.eng 0).bound.isSome) = true := by decide +kernel
theorem test_retire_cancelling : goes (exec (.instructionRetire 0) ((inRun [{ doneE .dataErr 0 with completed := true }]).put F.ENG_STATUS.state 4 0)) (fun t => (t.eng 0).bound == none && (t.eng 0).inflight == []) = true := by decide +kernel
theorem test_enterFaulted : goes (exec (.enterFaulted 0) (let s := inRun []; s.setEng 0 { s.eng 0 with bound := some 0x51#64 })) (fun t => t.engState 0 == 5 && t.reg R.ENG_FAULT 0 == 0x51 && t.get F.ENG_STATUS.last_code 0 == 1 && t.outbox == [.engineSignal 0 5]) = true := by decide +kernel

/-! ## The units of an engine -/

/-- A byte address in the core store of engine 0 (R31, R32). -/
def cst (n : Nat) : Nat := 3 * 2 ^ 48 + n

/-- A descriptor of rank 0 (R115): base, format, elements. -/
def vecD (base fmt n : Nat) : TDesc := BitVec.ofNat 256 (base + fmt * 2 ^ 64 + (n - 1) * 2 ^ 80)

/-- A descriptor of rank 1 with rows `stride` bytes apart. -/
def matD (base fmt n m stride : Nat) : TDesc := BitVec.ofNat 256 (base + fmt * 2 ^ 64 + 2 ^ 68 + (n - 1) * 2 ^ 80 + (m - 1) * 2 ^ 100 + stride * 2 ^ 160)

/-- An instruction of a unit with T1 at 0, T2 at 64, T3 at 128, T4 at 192 of the core store, each of two FP32 values. -/
def unitE (u : Unt) (w : Nat) : Entry :=
  { ent u w with tr := ((((Vector.replicate 64 0#256).set 1 (vecD (cst 0) 0 2)).set 2 (vecD (cst 64) 0 2)).set 3 (vecD (cst 128) 0 2)).set 4 (vecD (cst 192) 0 2) }

/-- FP32 values 1.5 and -2 at 0, 2.25 and 4 at 64, 0.5 and 1 at 192. -/
def inUnit (x : Entry) : State :=
  (((inRun [x]).setBytes (spCore + 0) (leBytes 4 0x3FC00000 ++ leBytes 4 0xC0000000)).setBytes (spCore + 64) (leBytes 4 0x40100000 ++ leBytes 4 0x40800000)).setBytes (spCore + 192)
    (leBytes 4 0x3F000000 ++ leBytes 4 0x3F800000)

/-- What the one instruction in flight leaves in the result buffer. -/
def wrote (t : State) : Writes := (t.eng 0).inflight.flatMap Entry.writes
/-- The codes of the instructions in flight. -/
def codes (t : State) : List Code := (t.eng 0).inflight.map Entry.code

def abc : Nat := 3 * 2 ^ 16 + 1 * 2 ^ 22 + 2 * 2 ^ 28 + 4 * 2 ^ 34
def add : Entry := unitE .vector (0x20 + (abc - 4 * 2 ^ 34))
def fma : Entry := unitE .vector (0x21 + abc)
def neg : Entry := unitE .vector (0x22 + 3 * 2 ^ 16 + 1 * 2 ^ 22 + 2 * 2 ^ 40)
def maxabs : Entry := { unitE .vector (0x23 + 3 * 2 ^ 16 + 1 * 2 ^ 22 + 3 * 2 ^ 40) with tr := ((Vector.replicate 64 0#256).set 1 (vecD (cst 0) 0 2)).set 3 (vecD (cst 128) 0 1) }
def sel : Entry := unitE .vector (0x24 + abc)

/-- What a witness of an instruction that starts needs, but for its opcode. -/
def mayStart (s : State) (u : Unt) (op : Nat) (x : Entry) : Bool :=
  (s.eng 0).front u == some x && opOf x.word == op && (s.eng 0).granted x && (s.eng 0).roomFor x && !(s.eng 0).fenced x && s.regionOn 0 && !(s.eng 0).inReset

/-- The same, of one that also waits for none of its reads. -/
def mayRun (s : State) (u : Unt) (op : Nat) (x : Entry) : Bool := mayStart s u op x && !s.awaitsReply x.running && !s.readsWait x.running x.running.ownReads

theorem runs_of_start (s : State) (u : Unt) (op : Nat) (x : Entry) (h : mayStart s u op x = true) : Runs s 0 u op x := by
  simp only [mayStart, Bool.and_eq_true, beq_iff_eq, Bool.not_eq_true'] at h
  obtain ⟨⟨⟨⟨⟨⟨a, b⟩, c⟩, d⟩, f⟩, g⟩, i⟩ := h
  exact ⟨a, b, c, d, fun _ => f, g, i⟩

theorem runs_of (s : State) (u : Unt) (op : Nat) (x : Entry) (h : mayRun s u op x = true) : Runs s 0 u op x :=
  runs_of_start s u op x (Bool.and_eq_true_iff.1 (Bool.and_eq_true_iff.1 h).1).1

theorem test_vector_hypotheses : mayRun (inUnit add) .vector 0x20 add && mayRun (inUnit fma) .vector 0x21 fma && mayRun (inUnit neg) .vector 0x22 neg &&
    mayRun (inUnit maxabs) .vector 0x23 maxabs && mayRun (inUnit sel) .vector 0x24 sel = true := by decide +kernel

theorem test_vecBin : goes (exec (.vecBin 0 none) (inUnit add)) (fun t => wrote t == [(cst 128, leBytes 4 0x40700000 ++ leBytes 4 0x40000000)]) = true := by decide +kernel
theorem test_vecFma : goes (exec (.vecFma 0 none) (inUnit fma)) (fun t => wrote t == [(cst 128, leBytes 4 0x40780000 ++ leBytes 4 0xC0E00000)]) = true := by decide +kernel
theorem test_vecUn : goes (exec (.vecUn 0 none) (inUnit neg)) (fun t => wrote t == [(cst 128, leBytes 4 0xBFC00000 ++ leBytes 4 0x40000000)]) = true := by decide +kernel
theorem test_vecRed : goes (exec (.vecRed 0 none) (inUnit maxabs)) (fun t => wrote t == [(cst 128, leBytes 4 0x40000000)]) = true := by decide +kernel
theorem test_vecSel : goes (exec (.vecSel 0 none) (inUnit { sel with tr := sel.tr.set 4 (vecD (cst 196) 0 2) })) (fun t => wrote t == [(cst 128, leBytes 4 0x3FC00000 ++ leBytes 4 0x40800000)]) = true := by decide +kernel
theorem test_vecBin_parity : goes (exec (.vecBin 0 (some ⟨.unit, some 5⟩)) (inUnit add)) (fun t => codes t == [.dataErr] && wrote t == [] && t.elog.queue.length == 1) = true := by decide +kernel
theorem test_vecBin_unmapped : goes (exec (.vecBin 0 none) (inUnit { add with tr := add.tr.set 1 (vecD (5 * 2 ^ 48) 0 2) })) (fun t => codes t == [.unmapped]) = true := by decide +kernel


/-- The exact sum of R186: 2^24 + 1 - 2^24 in FP32. -/
theorem test_vecRed_exact : goes (exec (.vecRed 0 none) ((inRun [{ unitE .vector (0x23 + 3 * 2 ^ 16 + 1 * 2 ^ 22) with
    tr := ((Vector.replicate 64 0#256).set 1 (vecD (cst 0) 0 3)).set 3 (vecD (cst 128) 0 1) }]).setBytes spCore (leBytes 4 0x4B800000 ++ leBytes 4 0x3F800000 ++ leBytes 4 0xCB800000)))
    (fun t => wrote t == [(cst 128, leBytes 4 0x3F800000)]) = true := by decide +kernel

/-- The example of R189: exp of 1 in BF16 and in E4M3. -/
def expE (fmt : Nat) : Entry := { ent .sfn (0x30 + 3 * 2 ^ 16 + 1 * 2 ^ 22) with tr := ((Vector.replicate 64 0#256).set 1 (vecD (cst 0) 0 1)).set 3 (vecD (cst 128) fmt 1) }
def inExp (fmt : Nat) : State := (inRun [expE fmt]).setBytes spCore (leBytes 4 0x3F800000)
theorem test_sfnEval_bf16 : goes (exec (.sfnEval 0 none) (inExp 2)) (fun t => wrote t == [(cst 128, leBytes 2 0x402E)]) = true := by decide +kernel
theorem test_sfnEval_e4m3 : goes (exec (.sfnEval 0 none) (inExp 3)) (fun t => wrote t == [(cst 128, leBytes 1 0x43)]) = true := by decide +kernel
/-- User function 0 of an empty bank (R190). -/
theorem test_sfnEval_no_slot : (Engine.fresh.slotMissing 16 && goes (exec (.sfnEval 0 none) (inRun [{ expE 2 with word := BitVec.ofNat 128 (0x30 + 3 * 2 ^ 16 + 1 * 2 ^ 22 + 16 * 2 ^ 28) }]))
    (fun t => codes t == [.accessDenied])) = true := by decide +kernel

/-- MAT.MUL: a row 1.5, -2 of A times a column 2.25, 4 of B. -/
def matE (f : Nat) : Entry :=
  { ent .array (0x10 + 3 * 2 ^ 16 + 1 * 2 ^ 22 + 2 * 2 ^ 28 + f) with tr := (((Vector.replicate 64 0#256).set 1 (matD (cst 0) 0 2 1 8)).set 2 (matD (cst 64) 0 1 2 4)).set 3 (matD (cst 128) 0 1 1 4) }
def contE : Entry := matE (1 * 2 ^ 34 + 1 * 2 ^ 36)
def withAcc (s : State) (a : AccState) : State := s.setEng 0 { s.eng 0 with acc := some a }
def accOf (x : Entry) (os ok : Bool) : AccState := { x.accState ok with os := os }

theorem test_matMul : goes (exec (.matMul 0 none) (inUnit (matE 0))) (fun t => wrote t == [(cst 128, leBytes 4 0xC0940000)]) = true := by decide +kernel
theorem test_matMul_parity : goes (exec (.matMul 0 (some ⟨.sideStreet, none⟩)) (inUnit (matE 0))) (fun t => codes t == [.dataErr] && (t.eng 0).acc.any fun a => !a.ok) = true := by decide +kernel
theorem test_matMul_hypotheses : mayRun (inUnit (matE 0)) .array 0x10 (matE 0) && mayRun (inUnit contE) .array 0x10 contE &&
    ((inUnit (matE 0)).eng 0).contStart (matE 0) matches .ok _ := by decide +kernel
theorem test_matMul_continues : goes (exec (.matMul 0 none) (inUnit (matE (1 * 2 ^ 34)))) (fun t =>
    goes (exec (.matMul 0 none) (t.setEng 0 { t.eng 0 with inflight := [contE] })) (fun u => wrote u == [(cst 128, leBytes 4 0xC1140000)])) = true := by decide +kernel
theorem test_matMul_no_accumulators : goes (exec (.matMul 0 none) (inUnit contE)) (fun t => codes t == [.accessDenied]) = true := by decide +kernel
theorem test_matMul_failed_accumulators : goes (exec (.matMul 0 none) (withAcc (inUnit contE) (accOf contE true false))) (fun t => codes t == [.cancelled]) = true := by decide +kernel
theorem test_matMul_unmapped : goes (exec (.matMul 0 none) (inUnit { matE 0 with tr := (matE 0).tr.set 1 (matD (5 * 2 ^ 48) 0 2 1 8) })) (fun t => codes t == [.unmapped] && (t.eng 0).acc.any fun a => !a.ok) = true := by decide +kernel
theorem test_matMul_bias_unmapped : goes (exec (.matMul 0 none) (inUnit { matE (1 * 2 ^ 39 + 5 * 2 ^ 40) with tr := (matE 0).tr.set 5 (vecD (5 * 2 ^ 48) 0 1) })) (fun t => codes t == [.unmapped]) = true := by decide +kernel

def cvt : Entry := { unitE .array (0x11 + 3 * 2 ^ 16 + 1 * 2 ^ 22) with tr := ((Vector.replicate 64 0#256).set 1 (vecD (cst 0) 0 2)).set 3 (vecD (cst 128) 3 2) }
theorem test_matCvt : goes (exec (.matCvt 0 none) (inUnit cvt)) (fun t => wrote t == [(cst 128, [0x3C#8, 0xC0#8])]) = true := by decide +kernel

/-- Mean -0.25 and variance 3.0625 of 1.5, -2 (R203). -/
def stat : Entry := unitE .nrm (0x40 + 3 * 2 ^ 16 + 1 * 2 ^ 22)
theorem test_nrmStat : goes (exec (.nrmStat 0 none) (inUnit stat)) (fun t => wrote t == [(cst 128, leBytes 4 0xBE800000 ++ leBytes 4 0x40440000)]) = true := by decide +kernel
/-- With epsilon 0: (1.5 + 0.25)/1.75 = 1 and -1. -/
def ln : Entry := unitE .nrm (0x41 + 3 * 2 ^ 16 + 1 * 2 ^ 22)
theorem test_nrmLn : goes (exec (.nrmLn 0 none) (inUnit ln)) (fun t => wrote t == [(cst 128, leBytes 4 0x3F800000 ++ leBytes 4 0xBF800000)]) = true := by decide +kernel
def rms : Entry := unitE .nrm (0x42 + 3 * 2 ^ 16 + 1 * 2 ^ 22)
theorem test_nrmRms : goes (exec (.nrmRms 0 none) ((inRun [rms]).setBytes spCore (leBytes 4 0x40000000 ++ leBytes 4 0xC0000000))) (fun t => wrote t == [(cst 128, leBytes 4 0x3F800000 ++ leBytes 4 0xBF800000)]) = true := by decide +kernel

/-! ## Attention (R222-R229, R238, R239) -/

/-- One query 1, two keys 0, values 2 and 4, in BF16: both keys weigh the same, so the output is 3, with maximum 0 and sum 2. -/
def att : Entry :=
  { ent .array (0x50 + 1 * 2 ^ 16 + 2 * 2 ^ 22 + 3 * 2 ^ 28 + 4 * 2 ^ 34 + 5 * 2 ^ 52 + 2 ^ 61) with
    tr := (((((Vector.replicate 64 0#256).set 1 (matD (cst 0) 2 1 1 2)).set 2 (matD (cst 64) 2 1 2 2)).set 3 (matD (cst 128) 2 1 2 2)).set 4 (matD (cst 192) 0 1 1 4)).set 5 (matD (cst 256) 0 2 1 8) }
def inAtt : State := ((inRun [att]).setBytes spCore (leBytes 2 0x3F80)).setBytes (spCore + 128) (leBytes 2 0x4000 ++ leBytes 2 0x4080)
theorem test_attRun : (mayRun inAtt .array 0x50 att && goes (exec (.attRun 0 none) inAtt) (fun t =>
    wrote t == [(cst 192, leBytes 4 0x40400000), (cst 256, leBytes 4 0 ++ leBytes 4 0x40000000)])) = true := by decide +kernel

/-- Outputs 2 and 4 of two ranges with equal statistics merge to 3. -/
def merge : Entry :=
  { ent .array (0x51 + 1 * 2 ^ 16 + 2 * 2 ^ 22 + 3 * 2 ^ 28 + 4 * 2 ^ 34 + 5 * 2 ^ 40 + 6 * 2 ^ 46) with
    tr := ((((((Vector.replicate 64 0#256).set 1 (matD (cst 0) 0 1 1 4)).set 2 (matD (cst 64) 0 1 1 4)).set 3 (matD (cst 128) 0 1 1 4)).set 4 (matD (cst 192) 0 2 1 8)).set 5 (matD (cst 192) 0 2 1 8)).set 6
      (matD (cst 256) 0 2 1 8) }
def inMerge : State := (((inRun [merge]).setBytes (spCore + 64) (leBytes 4 0x40000000)).setBytes (spCore + 128) (leBytes 4 0x40800000)).setBytes (spCore + 196) (leBytes 4 0x3F800000)
theorem test_attMerge : (mayRun inMerge .array 0x51 merge && goes (exec (.attMerge 0 none) inMerge) (fun t =>
    wrote t == [(cst 0, leBytes 4 0x40400000), (cst 256, leBytes 4 0 ++ leBytes 4 0x40000000)])) = true := by decide +kernel

/-! ## Function images (R190-R196) -/

def sfnLoad : Entry := { ent .sfn (0x31 + 1 * 2 ^ 22) with tr := (Vector.replicate 64 0#256).set 1 (vecD (cst 0) 11 32896) }
/-- A header that is marked valid with a reserved byte that is not zero. -/
def badImage : State := (inRun [sfnLoad]).setBytes spCore (leBytes 4 1 ++ leBytes 4 1)
theorem test_sfnLoad_bad_header : mayStart badImage .sfn 0x31 sfnLoad = true := by decide +kernel
theorem image_in_core_store : ((sfnReads (cst 0)).all fun p => (sectorsOf p.1 p.2).all fun q => decide (badImage.target q.1 q.2 = some (.core 0))) = true := by decide +kernel
theorem core_store_serves : (!(badImage.eng 0).mappedOut && !badImage.resetOf 0 && !badImage.regionOn 0) = false := by decide +kernel
/-- No read of the image waits at its unit. -/
theorem test_sfnLoad_held : badImage.heldReads 0 (sfnReads (cst 0)) = false := by
  refine List.any_eq_false.2 fun p hp h => ?_
  obtain ⟨q, hq, hh⟩ := List.any_eq_true.1 (Bool.and_eq_true_iff.1 h).2
  have ht := of_decide_eq_true (List.all_eq_true.1 (List.all_eq_true.1 image_in_core_store p hp) q hq)
  rw [State.heldAccess, ht] at hh
  exact Bool.false_ne_true (core_store_serves.symm.trans hh)
theorem test_sfnLoad_checks : (badImage.sfnLoad 0 (cst 0) ⟨0, []⟩ none == (⟨0, []⟩, .accessDenied)) = true := by decide +kernel
theorem test_sfnLoad_unmapped : goes (exec (.sfnLoad 0 none) (inRun [{ sfnLoad with tr := (Vector.replicate 64 0#256).set 1 (vecD (5 * 2 ^ 48) 11 32896) }])) (fun t => codes t == [.unmapped]) = true := by decide +kernel
/-- An image of empty slots has good headers. -/
theorem test_sfnLoad_headers : ((inRun [sfnLoad]).readSpan (.engine 0) (cst 0) 512).1 = .ok ∧ (List.range 8).all (headerOk (List.replicate 512 0#8)) = true := ⟨by decide +kernel, by decide +kernel⟩
def swap : Entry := ent .sfn 0x32
theorem test_sfnSwap : (mayRun (inRun [swap]) .sfn 0x32 swap && goes (exec (.sfnSwap 0) (let s := inRun [swap]; s.setEng 0 { s.eng 0 with sfnShadow := ⟨3, []⟩ })) (fun t => (t.eng 0).sfnActive == ⟨3, []⟩ && (t.eng 0).sfnShadow == ⟨0, []⟩)) = true := by decide +kernel

/-! ## The address map (R29, R31-R35, R258) -/

def b0 : State := inRun []
/-- The block with a valid ID, 5. -/
def b5 : State := (b0.put F.AON_BLOCK_ID.id 5).put F.AON_BLOCK_ID.valid 1

theorem test_map : b0.target (cst 0x3FFFC) 4 = some (.core 0) ∧ b0.target (cst 0x3FFFC) 5 = none ∧ b0.target 0x3BFFFFFFFF 1 = some (.dram 79) ∧ b0.target (2 ^ 48 + 79 * 2 ^ 32 + 1535 * 1024 + 1020) 4 = some (.dram 79) ∧
    b0.target (2 ^ 48 + 1536 * 1024) 1 = none ∧ b0.target (15 * 2 ^ 48 + 0x10) 8 = some (.control 0x10) ∧ b0.target (4 * 2 ^ 48) 1 = none := by
  refine ⟨?_, ?_, ?_, ?_, ?_, ?_, ?_⟩ <;> decide +kernel
theorem test_access_refusals : b0.targetCode false (b0.target (15 * 2 ^ 48) 8) = .accessDenied ∧ (b0.setEng 7 { Engine.fresh with inReset := true }).targetCode false (some (.core 7)) = .targetReset ∧
    (b0.setEng 7 { Engine.fresh with dramOut := true }).targetCode false (some (.dram 7)) = .unmapped ∧ b0.targetCode false none = .unmapped := by
  refine ⟨?_, ?_, ?_, ?_⟩ <;> decide +kernel
theorem test_write_reads_back : ((b0.writeLocal (cst 62) [7#8, 9#8]).1.readLocal (cst 62) 2) = (.ok, [7#8, 9#8]) := by decide +kernel
/-- Both views of one byte of DRAM (R258). -/
theorem test_writes_to_dram : ((b0.writeLocal (2 ^ 48 + 64) [7#8]).1.byte 64 == 7#8) = true := by decide +kernel
theorem test_drain_leaves : (b5.isLocal (cst 0) = false) ∧ (b5.drainWrite 0 (some 4) (cst 0) [1#8] .ok).1.outbox = [.remoteWrite (cst 0) [1#8] (some 4)] ∧ (b0.drainWrite 0 none (2 ^ 52) [1#8] .ok).2 = .unmapped := by
  refine ⟨?_, ?_, ?_⟩ <;> decide +kernel

/-! ## Scalar and page transfers (R111, R129, R133) -/

/-- S1 = `a`; S2 = 0x1122334455667788. -/
def strE (w a : Nat) : Entry := { ent .stream w with sr := ((Vector.replicate 32 0#64).set 1 (BitVec.ofNat 64 a)).set 2 0x1122334455667788#64 }
def lds (a : Nat) : Entry := strE (0x0D + 3 * 2 ^ 16 + 1 * 2 ^ 21) a
def sts (a : Nat) : Entry := strE (0x0E + 2 * 2 ^ 16 + 1 * 2 ^ 21) a
def page (a count : Nat) : Entry := strE (0x06 + 1 * 2 ^ 16 + 15 * 2 ^ 21 + count * 2 ^ 25) a
def noReply : Reply := { code := .ok, data := [] }

theorem test_scalar_transfers : mayRun (inRun [lds (cst 8)]) .stream 0x0D (lds (cst 8)) && mayRun (inRun [sts (cst 8)]) .stream 0x0E (sts (cst 8)) && mayRun (inRun [page (cst 0) 1]) .stream 0x06 (page (cst 0) 1) = true := by decide +kernel
theorem test_ctlLds : goes (exec (.ctlLds 0 noReply) ((inRun [lds (cst 8)]).setBytes (spCore + 8) (leBytes 8 0x8877665544332211))) (fun t => sGet (t.eng 0).s 3 == 0x8877665544332211#64) = true := by decide +kernel
theorem test_ctlLds_misaligned : goes (exec (.ctlLds 0 noReply) (inRun [lds (cst 12)])) (fun t => codes t == [.accessDenied]) = true := by decide +kernel
theorem test_ctlLds_unmapped : goes (exec (.ctlLds 0 noReply) (inRun [lds (5 * 2 ^ 48)])) (fun t => codes t == [.unmapped]) = true := by decide +kernel
theorem test_ctlSts : goes (exec (.ctlSts 0 noReply) (inRun [sts (cst 8)])) (fun t => t.bytes (spCore + 8) 8 == leBytes 8 0x1122334455667788 && codes t == [.ok]) = true := by decide +kernel
theorem test_ctlSts_control_space : goes (exec (.ctlSts 0 noReply) (inRun [sts (15 * 2 ^ 48)])) (fun t => codes t == [.accessDenied] && t.mem == []) = true := by decide +kernel
theorem test_ctlPage_fails : goes (exec (.ctlPage 0 noReply) (inRun [page (5 * 2 ^ 48) 1])) (fun t => codes t == [.unmapped] && (t.eng 0).pageBad[15]) = true := by decide +kernel
theorem test_ctlPage_reads : ((inRun [page (cst 0) 1]).readVia 0 (cst 0) 16384 noReply).1 = .ok := by decide +kernel

/-! ## Copies (R154, R164, R172-R174) -/

/-- T1 = two FP32 values at `src`, T3 = two at `dst`; S4 = the destinations, S5 = 0. -/
def mov (op src dst : Nat) : Entry :=
  { ent .stream (op + 3 * 2 ^ 16 + 1 * 2 ^ 22 + 4 * 2 ^ 28 + 5 * 2 ^ 33) with
    tr := ((Vector.replicate 64 0#256).set 1 (vecD src 0 2)).set 3 (vecD dst 0 2), sr := (Vector.replicate 32 0#64).set 4 6#64 }
def inMov (x : Entry) : State := (inRun [x]).setBytes spCore (leBytes 8 0x4000000040400000)
/-- The hypotheses of the two statements: the instruction runs, no place waits for an epoch or a window, and no reply is due. -/
def freeMov (s : State) (x₀ : Entry) (op : Nat) (dests : List Nat) : Bool :=
  let x := x₀.running
  let places := x.readList (fld x.word 21 16) false
  let l := x.readList (fld x.word 27 22) false ++ if op = 0x60 then places else dests.flatMap fun n => places.map fun p => (retarget p.1 n (bitOf x.word 38), p.2)
  mayRun s .stream op x₀ && !s.readsWait x l && s.replyFits (x.readList (fld x.word 27 22) false) noReply && (s.epochRefusal 0 x.epoch l).isNone
theorem test_movCopy : (freeMov (inMov (mov 0x60 (cst 0) (cst 128))) (mov 0x60 (cst 0) (cst 128)) 0x60 [] && goes (exec (.movCopy 0 noReply) (inMov (mov 0x60 (cst 0) (cst 128)))) (fun t =>
    codes t == [.ok] && t.bytes (spCore + 128) 8 == leBytes 8 0x4000000040400000)) = true := by decide +kernel
theorem test_movCopy_unmapped : (freeMov (inMov (mov 0x60 (5 * 2 ^ 48) (cst 128))) (mov 0x60 (5 * 2 ^ 48) (cst 128)) 0x60 [] &&
    goes (exec (.movCopy 0 noReply) (inMov (mov 0x60 (5 * 2 ^ 48) (cst 128)))) (fun t => codes t == [.unmapped])) = true := by decide +kernel
/-- Squares 1 and 2 and, as region 3, engines 1 and 2. -/
theorem test_movMcast : (freeMov (inMov (mov 0x61 (cst 0) (cst 128))) (mov 0x61 (cst 0) (cst 128)) 0x61 [1, 2] && !(inMov (mov 0x61 (cst 0) (cst 128))).mcastDenied (mov 0x61 (cst 0) (cst 128)).running &&
    goes (exec (.movMcast 0 noReply) (inMov (mov 0x61 (cst 0) (cst 128)))) (fun t =>
    codes t == [.ok] && t.readLocal (cst (2 ^ 25 + 128)) 8 == (.ok, leBytes 8 0x4000000040400000)
    && t.readLocal (cst (2 * 2 ^ 25 + 128)) 8 == (.ok, leBytes 8 0x4000000040400000) && t.readLocal (cst (3 * 2 ^ 25 + 128)) 8 == (.ok, leBytes 8 0))) = true := by decide +kernel
theorem test_movMcast_denied : goes (exec (.movMcast 0 noReply) (inMov (mov 0x61 (cst 0) 128))) (fun t => codes t == [.accessDenied]) = true := by decide +kernel

/-! ## Grants, returns, drains and the limit (R142, R150-R153, R162, R165, R166, R214-R219) -/

theorem test_streamGrant : ((inUnit add).eng 0).nextGrant = some add ∧ ((inUnit add).eng 0).streamsUsed + streamsOf add.word ≤ 8 ∧
    goes (exec (.streamGrant 0) (inUnit add)) (fun t => (t.eng 0).inflight == [{ add with granted := true }]) = true := by
  refine ⟨?_, ?_, ?_⟩ <;> decide +kernel
theorem test_resultBufferReserve : ((inUnit add).eng 0).nextReserve = some add ∧ ((inUnit add).eng 0).bufferUsed + add.reserve ≤ 8 * 2 ^ 20 ∧
    goes (exec (.resultBufferReserve 0) (inUnit add)) (fun t => (t.eng 0).inflight == [{ add with reserved := true }]) = true := by
  refine ⟨?_, ?_, ?_⟩ <;> decide +kernel
theorem test_streamReadReturn : goes (exec (.streamReadReturn 0 0 noReply) (inUnit { add with granted := true })) (fun t =>
    (t.eng 0).inflight.map (fun x => x.operands.map Prod.fst) == [[1]] && codes t == [.ok]) = true := by decide +kernel
theorem test_streamReadReturn_unmapped : goes (exec (.streamReadReturn 0 0 noReply) (inUnit { add with granted := true, tr := add.tr.set 1 (vecD (5 * 2 ^ 48) 0 2) })) (fun t => codes t == [.unmapped]) = true := by decide +kernel
/-- A sparse product, whose outlier list returns first: of 264 zero bytes, it is empty. -/
def sparse : Entry := { matE (2 ^ 68 + 6 * 2 ^ 81) with granted := true, sr := (Vector.replicate 32 0#64).set 6 (BitVec.ofNat 64 (cst 1024)) }
theorem test_outlier_list : (sparse.listUnread && goes (exec (.streamReadReturn 0 0 noReply) (inRun [sparse])) (fun t => codes t == [.ok] && (t.eng 0).inflight.map (fun x => x.raw.length) == [1])) = true := by decide +kernel

def withDrain (d : Drain) : State := let s := b0; s.setEng 0 { s.eng 0 with drains := [d] }
theorem test_drainWriteDone : goes (exec (.drainWriteDone 0 .ok) (withDrain ⟨0, 5, [(cst 0, [7#8])], none, false, [], none⟩)) (fun t => t.byte spCore == 7#8 && (t.eng 0).drains == []) = true := by decide +kernel
/-- A write of an unmapped address: the failure is kept and logged. -/
theorem test_drainWriteDone_fails : goes (exec (.drainWriteDone 0 .ok) (withDrain ⟨0, 5, [(5 * 2 ^ 48, [7#8])], none, false, [], none⟩)) (fun t => (t.eng 0).fails == [.unmapped] && t.elog.queue.length == 1) = true := by decide +kernel
/-- A record of zeros for format 1 with flags 0; a capture of magnitude 1. -/
def recordDrain : State := withDrain ⟨0, 5, [], some ⟨cst 0, 0, ⟨.fin (Q.ofNat 1), false, false⟩⟩, false, [], none⟩
theorem test_scaleRecordUpdate_parity : goes (exec (.scaleRecordUpdate 0 true) recordDrain) (fun t => (t.eng 0).fails == [.dataErr] && (t.eng 0).drains == [] && t.mem == []) = true := by decide +kernel
theorem test_scaleRecordUpdate : goes (exec (.scaleRecordUpdate 0 false) recordDrain) (fun t => (t.eng 0).fails == [] && (t.eng 0).drains == [] && t.bytes (spCore + 0x40) 4 == leBytes 4 0x3F800000) = true := by decide +kernel
/-- A record whose reserved byte is set. -/
theorem test_scaleRecordUpdate_denied : goes (exec (.scaleRecordUpdate 0 false) (recordDrain.setBytes (spCore + 0x4F) [1#8])) (fun t => (t.eng 0).fails == [.accessDenied]) = true := by decide +kernel

/-- A load from block 5 of block 3 with no link to it. -/
def far : Entry := lds (5 * 2 ^ 52 + cst 0)
def farState : State := ((inRun [far]).put F.AON_BLOCK_ID.id 3).put F.AON_BLOCK_ID.valid 1
theorem test_remoteAccessTimeout : (farState.net.outs == [] && farState.timed far && !(farState.eng 0).fenced far && goes (exec (.remoteAccessTimeout 0 0) farState) (fun t =>
    (t.eng 0).inflight == [{ far.fail .timeout 5 with completed := true }])) = true := by decide +kernel

/-! ## The Ring Road (R240-R245) -/

/-- The record at 1024 of the core store of engine 0, in S6: its previous and next blocks are 7 and 9. -/
def ringE : Entry :=
  { ent .array (0x52 + 1 * 2 ^ 16 + 2 * 2 ^ 22 + 3 * 2 ^ 28 + 4 * 2 ^ 34 + 5 * 2 ^ 52 + 2 ^ 61 + 6 * 2 ^ 73) with
    tr := (((((Vector.replicate 64 0#256).set 1 (matD (cst 0) 2 1 1 2)).set 2 (matD (cst 64) 2 1 2 2)).set 3 (matD (cst 128) 2 1 2 2)).set 4 (matD (cst 192) 0 1 1 4)).set 5 (matD (cst 256) 0 2 1 8)
    sr := (Vector.replicate 32 0#64).set 6 (BitVec.ofNat 64 (cst 1024)) }
/-- Query 1, keys 0, values 2 and 4 in BF16. -/
def inRing (rec_ : List Byte) : State := (((inRun [ringE]).setBytes spCore (leBytes 2 0x3F80)).setBytes (spCore + 128) (leBytes 2 0x4000 ++ leBytes 2 0x4080)).setBytes (spCore + 1024) rec_
def ringRec (len pos : Nat) : List Byte := leBytes 8 7 ++ leBytes 8 9 ++ leBytes 4 len ++ leBytes 4 pos ++ leBytes 8 512
def theRing (len : Nat) : Ring :=
  { id := 0, record := cst 1024, prev := 7, next := 9, length := len, position := 0, stride := 512, step := 0, attended := false, fwd := .none, running := [] }
/-- Block 0, with a ring of `len` blocks running. -/
def running (len : Nat) (f : Ring → Ring) : State :=
  let s := (inRing (ringRec len 0)).put F.AON_BLOCK_ID.valid 1
  s.setEng 0 { s.eng 0 with ring := some (f (theRing len)) }

theorem test_attRing : (mayRun (inRing (ringRec 2 0)) .array 0x52 ringE && goes (exec (.attRing 0) (inRing (ringRec 2 0))) (fun t => (t.eng 0).ring == some (theRing 2))) = true := by decide +kernel
/-- A position that is not below the length. -/
theorem test_attRing_denied : goes (exec (.attRing 0) (inRing (ringRec 2 2))) (fun t => (t.eng 0).ring == none && codes t == [.accessDenied]) = true := by decide +kernel
theorem test_ringRuns : (((running 2 id).eng 0).ring = some (theRing 2)) ∧ (((running 2 id).eng 0).inflight.find? fun y => y.id == 0) = some ringE ∧ (running 2 id).ringHeld ringE (theRing 2) = false ∧
    (running 2 id).ringWord (theRing 2) 0x20 = 0 ∧ (-1 : Int) ≤ (running 2 id).ringWord (theRing 2) 0x38 := by
  refine ⟨?_, ?_, ?_, ?_, ?_⟩ <;> decide +kernel
/-- Both keys weigh the same: the output is 3, with maximum 0 and sum 2. -/
theorem test_ringChunkReady : goes (exec (.ringChunkReady 0 none) (running 1 id)) (fun t => ((t.eng 0).ring.map fun r => (r.attended, r.running.map fun a => (toF32 a.m, toF32 a.l, a.o.map toF32))) ==
    some (true, [(0, 0x40000000, [0x40400000])])) = true := by decide +kernel
theorem test_ringChunkReady_parity : goes (exec (.ringChunkReady 0 (some ⟨.unit, some 5⟩)) (running 1 id)) (fun t => (t.eng 0).ring == none && codes t == [.dataErr] && t.elog.queue.length == 1) = true := by decide +kernel
theorem test_ringForwardStart : goes (exec (.ringForwardStart 0) (running 2 id)) (fun t => (t.eng 0).ring.map Ring.fwd == some .started && t.outbox.length == 4) = true := by decide +kernel
theorem test_ringForwardDone : goes (exec (.ringForwardDone 0 false noReply) (running 2 fun r => { r with fwd := .started })) (fun t =>
    (t.eng 0).ring.map Ring.fwd == some .done && t.outbox == [.remoteWrite (9 * 2 ^ 52 + cst (1024 + 0x28)) (leBytes 8 1) (some 0)]) = true := by decide +kernel
theorem test_ringForwardDone_fails : goes (exec (.ringForwardDone 0 false { code := .timeout, data := [] }) (running 2 fun r => { r with fwd := .started })) (fun t => (t.eng 0).ring == none && codes t == [.timeout]) = true := by decide +kernel
theorem test_ringStepEnd_next : goes (exec (.ringStepEnd 0 noReply) (running 2 fun r => { r with attended := true, fwd := .done })) (fun t =>
    (t.eng 0).ring.map (fun r => (r.step, r.attended, r.fwd)) == some (1, false, .none) && t.outbox == [.remoteWrite (7 * 2 ^ 52 + cst (1024 + 0x30)) (leBytes 8 0) (some 0)]) = true := by decide +kernel
theorem test_ringStepEnd_result : goes (exec (.ringStepEnd 0 noReply) (running 1 fun r => { r with attended := true, running := [⟨Val.zero, .fin (Q.ofNat 2), [.fin (Q.ofNat 3)]⟩] })) (fun t =>
    (t.eng 0).ring == none && wrote t == [(cst 192, leBytes 4 0x40400000), (cst 256, leBytes 4 0 ++ leBytes 4 0x40000000)]) = true := by decide +kernel
/-- The next block has not freed its other slot. -/
theorem test_ringWaitTimeout : goes (exec (.ringWaitTimeout 0) (running 2 fun r => { r with step := 1, attended := true })) (fun _ => true) = false ∧
    goes (exec (.ringWaitTimeout 0) (running 3 fun r => { r with step := 1 })) (fun t => (t.eng 0).ring == none && codes t == [.timeout]) = true := by
  refine ⟨?_, ?_⟩ <;> decide +kernel

/-! ## The sync unit (R142, R167, R168, R176, R322-R325, R333) -/

def syncE (w : Nat) : Entry := ent .sync w
def fenceE : Entry := syncE 0x80
/-- Of barrier 3: arrive and wait, arrive, wait. -/
def barAW : Entry := syncE (0x81 + 3 * 2 ^ 16)
def barA : Entry := syncE (0x81 + 3 * 2 ^ 16 + 1 * 2 ^ 22)
def barW : Entry := syncE (0x81 + 3 * 2 ^ 16 + 2 * 2 ^ 22)
/-- Of flag 70: set, clear, wait for set, wait for clear. -/
def flagE (kind : Nat) : Entry := syncE (0x82 + 70 * 2 ^ 16 + kind * 2 ^ 24)
def sentE (x : Entry) : Entry := { x with sent := true }
def withFails (s : State) (l : List Code) : State := s.setEng 0 { s.eng 0 with fails := l }
/-- The group of flags 64-79 has its home in block 9. -/
def awayFlag (s : State) : State := (b5.setReg R.AV_FLAG_HOME (2 ^ 15 + 9) 19 1).setEng 0 (s.eng 0)

theorem test_Syncs : Syncs (inRun [fenceE]) 0 0x80 fenceE ∧ (inRun [fenceE]).fenceClear 0 fenceE 0 = true := ⟨⟨by decide +kernel, by decide +kernel, by decide +kernel, by decide +kernel⟩, by decide +kernel⟩
theorem test_syncFence : goes (exec (.syncFence 0) (inRun [fenceE])) (fun t => codes t == [.ok] && (t.eng 0).inflight.all Entry.completed) = true := by decide +kernel
theorem test_syncFence_fails : goes (exec (.syncFence 0) (withFails (inRun [fenceE]) [.unmapped, .dataErr])) (fun t => codes t == [.unmapped] && (t.eng 0).fails == []) = true := by decide +kernel
/-- A fence of scope 0 waits for the copy before it. -/
theorem test_syncFence_waits : stops (exec (.syncFence 0) (inRun [{ mov 0x60 (cst 0) (cst 128) with id := 1 }, fenceE])) = true := by decide +kernel
theorem test_syncBar_arrives : goes (exec (.syncBar 0) (inRun [barAW])) (fun t => (t.eng 0).inflight == [sentE barAW]) = true := by decide +kernel
theorem test_syncBar_fails : goes (exec (.syncBar 0) (withFails (inRun [barAW]) [.dataErr])) (fun t => codes t == [.dataErr] && (t.eng 0).fails == []) = true := by decide +kernel
theorem test_syncBar_wait : goes (exec (.syncBar 0) (inRun [barW])) (fun t => codes t == [.ok] && (t.eng 0).inflight.all Entry.completed) &&
    goes (exec (.syncBar 0) (let s := inRun [barW]; s.setEng 0 { s.eng 0 with arrivals := [(3, 0)] })) (fun t => (t.eng 0).inflight == [{ barW with sent := true, gen := some 0 }]) = true := by decide +kernel
theorem test_syncFlag_set : (inRun [flagE 0]).flagRemote 70 = false ∧ goes (exec (.syncFlag 0) (inRun [flagE 0])) (fun t => (t.eng 0).inflight == [sentE (flagE 0)]) = true := by
  refine ⟨?_, ?_⟩ <;> decide +kernel
/-- There is no way to the home block. -/
theorem test_syncFlag_remote : (awayFlag (inRun [flagE 0])).flagRemote 70 = true ∧ goes (exec (.syncFlag 0) (awayFlag (inRun [flagE 0]))) (fun t =>
    (t.eng 0).inflight == [{ (flagE 0).fail .linkDown 9 with completed := true }]) = true := by
  refine ⟨?_, ?_⟩ <;> decide +kernel
theorem test_syncFlag_waits : goes (exec (.syncFlag 0) (inRun [flagE 2])) (fun t => (t.eng 0).inflight == [sentE (flagE 2)]) && goes (exec (.syncFlag 0) (inRun [flagE 3])) (fun t => codes t == [.ok] && (t.eng 0).inflight.all Entry.completed) &&
    goes (exec (.syncFlag 0) (awayFlag (inRun [flagE 2]))) (fun t => codes t == [.linkDown]) = true := by decide +kernel

/-- Epoch 0 applied: epoch 2^32 - 1 is older and is reached, epoch 1 is not. -/
def epochE (n : Nat) : Entry := syncE (0x83 + n * 2 ^ 16)
theorem test_syncEpoch : goes (exec (.syncEpoch 0) (inRun [epochE 0])) (fun t => (t.eng 0).inflight == [(epochE 0).finish .ok]) && goes (exec (.syncEpoch 0) (inRun [epochE (2 ^ 32 - 1)])) (fun t => codes t == [.ok]) &&
    stops (exec (.syncEpoch 0) (inRun [epochE 1])) && stops (exec (.syncEpoch 0) (inRun [epochE (2 ^ 31)])) = true := by decide +kernel
theorem test_syncEpoch_timeout : Syncs (inRun [epochE 1]) 0 0x83 (epochE 1) ∧ goes (exec (.remoteAccessTimeout 0 0) (inRun [epochE 1])) (fun t => codes t == [.timeout] && (t.eng 0).inflight.all Entry.completed) = true :=
  ⟨⟨by decide +kernel, by decide +kernel, by decide +kernel, by decide +kernel⟩, by decide +kernel⟩

/-- Epoch 5 applied and 6 staged at router 19, and instructions of epochs 4, 5 and 6. -/
def atEpoch (x : Entry) (n : Nat) : State := ((inRun [{ x with epoch := n }]).put F.AV_EPOCH.applied 5 19).put F.AV_EPOCH.staged 6 19
theorem test_epoch_skew : goes (exec (.barrierArrival 0) (atEpoch (sentE barAW) 4)) (fun t => (t.eng 0).inflight == [{ Entry.fail { sentE barAW with epoch := 4 } .epochSkew 5 with completed := true }]) &&
    stops (exec (.barrierArrival 0) (atEpoch (sentE barAW) 6)) = true := by decide +kernel
theorem test_epoch_skew_flag : goes (exec (.flagSet 70 (.engine 0) {}) (atEpoch (sentE (flagE 0)) 4)) (fun t => codes t == [.epochSkew] && !t.flag 70) && stops (exec (.flagSet 70 (.engine 0) {}) (atEpoch (sentE (flagE 0)) 6)) = true := by decide +kernel
theorem test_epoch_skew_wait : goes (exec (.syncBar 0) (let s := atEpoch barW 7; s.setEng 0 { s.eng 0 with arrivals := [(3, 0)] })) (fun t => codes t == [.epochSkew]) = true := by decide +kernel

/-! ## Flags and watches (R324, R325, R338) -/

def watched : State := { inRun [sentE (flagE 2)] with watches := [⟨70, 9, true, 4⟩, ⟨70, 9, false, 4⟩] }
theorem test_flagSet : goes (exec (.flagSet 70 (.remote 9) {}) watched) (fun t => t.flag 70 && !t.flag 69 && !t.flag 71 && t.reg R.AV_FLAG_CLR 19 1 == 64 && t.watches == [⟨70, 9, false, 4⟩] && (t.eng 0).inflight == [(sentE (flagE 2)).finish .ok]) = true := by decide +kernel
theorem test_flagClear : goes (exec (.flagClear 70 (.engine 0) {}) ((inRun [sentE (flagE 1)]).setReg R.AV_FLAG_SET (2 ^ 64 - 1) 19 1)) (fun t => !t.flag 70 && t.flag 69 && codes t == [.ok]) = true := by decide +kernel
theorem test_avFlagSetWrite : goes (exec (.avFlagSetWrite 1 3) b0) (fun t => t.flag 64 && t.flag 65 && !t.flag 66 && !t.flag 0) && goes (exec (.avFlagClrWrite 1 1) (b0.setReg R.AV_FLAG_SET 3 19 1)) (fun t => !t.flag 64 && t.flag 65) = true := by decide +kernel
theorem test_flagWatch : goes (exec (.flagWatch 70 9 false { tag := 4#16 }) b0) (fun t => t.watches == []) && goes (exec (.flagWatch 70 9 true { tag := 4#16 }) b0) (fun t => t.watches == [⟨70, 9, true, 4⟩]) &&
    goes (exec (.flagWatch 70 9 true { tag := 4#16 }) { b0 with watches := List.replicate 256 ⟨1, 1, true, 0⟩ }) (fun t => t.outbox == [.watchRefused 9 70 4]) = true := by decide +kernel
theorem test_flagAnswer : goes (exec (.flagAnswer 70 0 .done) (awayFlag (inRun [sentE (flagE 2)]))) (fun t => (t.eng 0).inflight == [(sentE (flagE 2)).finish .ok]) &&
    goes (exec (.flagAnswer 70 0 .refused) (awayFlag (inRun [sentE (flagE 2)]))) (fun t => (t.eng 0).inflight == [{ sentE (flagE 2) with gen := some 0 }]) &&
    goes (exec (.watchRetry 70 0) (awayFlag (inRun [{ sentE (flagE 2) with gen := some 0 }]))) (fun t => codes t == [.linkDown]) = true := by decide +kernel

/-! ## Barriers (R321-R323) -/

/-- Barrier 3 with 2 local arrivals and `kids` children, of which `n` have arrived. -/
def barrier (x : Entry) (kids n : Nat) : State :=
  ((((inRun [x]).barPut F.AV_BAR_CFG.local 3 2).barPut F.AV_BAR_CFG.children 3 kids).barPut F.AV_BAR_CFG.enable 3 1).barPut F.AV_BAR_CFG.arrived 3 n
theorem test_barrierArrival : goes (exec (.barrierArrival 0) (barrier (sentE barAW) 0 0)) (fun t => t.barGet F.AV_BAR_CFG.arrived 3 == 1 && t.barGet F.AV_BAR_CFG.gen 3 == 0 && (t.eng 0).inflight == [{ sentE barAW with gen := some 0 }] && (t.eng 0).arrivals == [(3, 0)]) = true := by decide +kernel
/-- The last arrival releases the generation. -/
theorem test_barrierArrival_releases : goes (exec (.barrierArrival 0) (barrier (sentE barAW) 0 1)) (fun t => t.barGet F.AV_BAR_CFG.arrived 3 == 0 && t.barGet F.AV_BAR_CFG.gen 3 == 1 && codes t == [.ok] && (t.eng 0).inflight.all Entry.completed) = true := by decide +kernel
theorem test_barrierArrival_next : goes (exec (.barrierArrival 0) (barrier (sentE barAW) 1 2)) (fun t => (t.bar 3).next == 1 && (t.eng 0).inflight == [{ sentE barAW with gen := some 1 }]) = true := by decide +kernel
/-- An arrival that a reset of its engine overtook is counted, and the engine holds nothing in flight. -/
def overtaken : State := let s := barrier (sentE barA) 0 0; s.setEng 0 (s.eng 0).toReset
theorem test_overtaken : ((overtaken.eng 0).orphans.find? arriving).map (fun x => (x.id, x.epoch == overtaken.get F.AV_EPOCH.applied 19)) = some (barA.id, true) ∧ overtaken.barGet F.AV_BAR_CFG.broken 3 = 0 ∧
    overtaken.barGet F.AV_BAR_CFG.arrived 3 + 1 < overtaken.barGet F.AV_BAR_CFG.local 3 := by refine ⟨?_, ?_, ?_⟩ <;> decide +kernel
theorem test_barrierArrival_overtaken : goes (exec (.barrierArrival 0) overtaken) (fun t => t.barGet F.AV_BAR_CFG.arrived 3 == 1 && (t.eng 0).orphans == [] && (t.eng 0).inflight == [] && t.get F.AV_DISCARD.eng_a 0 == 1) = true := by decide +kernel
theorem test_barrierArrival_denied : goes (exec (.barrierArrival 0) (let s := barrier (sentE barAW) 1 2; { s with bars := vset s.bars 3 ⟨2, [], false⟩ })) (fun t => codes t == [.accessDenied]) &&
    goes (exec (.barrierArrival 0) ((barrier (sentE barAW) 1 0).barPut F.AV_BAR_CFG.broken 3 1)) (fun t => codes t == [.linkDown]) = true := by decide +kernel
theorem test_childArrival : goes (exec (.childArrival 3 9) (barrier barAW 2 0)) (fun t => t.barGet F.AV_BAR_CFG.child_arrived 3 == 1 && (t.bar 3).children == [9]) &&
    goes (exec (.childArrival 3 9) (((barrier barAW 1 2).barPut F.AV_BAR_CFG.has_parent 3 1).barPut F.AV_BAR_CFG.parent 3 7)) (fun t => (t.bar 3).parentSent && t.barGet F.AV_BAR_CFG.gen 3 == 0) = true := by decide +kernel
theorem test_parentRelease : goes (exec (.parentRelease 3 0) (let s := ((barrier { sentE barAW with gen := some 0 } 0 2).barPut F.AV_BAR_CFG.has_parent 3 1); { s with bars := vset s.bars 3 ⟨1, [], true⟩ })) (fun t =>
    t.barGet F.AV_BAR_CFG.gen 3 == 1 && t.barGet F.AV_BAR_CFG.arrived 3 == 1 && t.bar 3 == ⟨0, [], false⟩ && codes t == [.ok]) = true := by decide +kernel
theorem test_avBarCfgWrite : goes (exec (.avBarCfgWrite 3 (BitVec.ofNat 64 (2 ^ 51 + 100 * 2 ^ 19 + 4 * 2 ^ 26))) b0) (fun t => t.barGet F.AV_BAR_CFG.local 3 == 80 && t.barGet F.AV_BAR_CFG.children 3 == 4 && t.barGet F.AV_BAR_CFG.enable 3 == 1) &&
    goes (exec (.avBarCfgWrite 3 (BitVec.ofNat 64 (2 ^ 51))) b0) (fun t => t.barGet F.AV_BAR_CFG.enable 3 == 0) &&
    goes (exec (.avBarCfgWrite 3 0) (barrier barAW 1 1)) (fun t => t.barGet F.AV_BAR_CFG.enable 3 == 0 && t.barGet F.AV_BAR_CFG.local 3 == 2 && t.barGet F.AV_BAR_CFG.arrived 3 == 0) = true := by decide +kernel

/-! ## Bank arithmetic (R281-R308) -/

/-- A broadcast in the BAU queue that writes row S4 from S3 on in the banks of layer 1. -/
def bauE (op : Nat) (sent : Bool) : Entry :=
  { ent .bau (op + 1 * 2 ^ 16 + 3 * 2 ^ 26 + 4 * 2 ^ 31 + 1 * 2 ^ 36 + 1 * 2 ^ 38) with
    sent := sent, sr := (((Vector.replicate 32 0#64).set 1 (BitVec.ofNat 64 (2 ^ 42))).set 3 0x3F800000#64).set 4 3#64 }
theorem test_present : ∀ p ∈ ([(0x70, .bauAdd 0), (0x71, .bauAxpy 0), (0x72, .bauScale 0), (0x73, .bauFill 0), (0x74, .bauCopy 0), (0x75, .bauQnt 0), (0x76, .bauDqt 0), (0x77, .bauOpt 0), (0x78, .bauSum 0), (0x79, .bauMaxabs 0)] : List (Nat × Instr)),
    goes (exec p.2 (inRun [bauE p.1 false])) (fun t => (t.eng 0).inflight == [bauE p.1 true]) = true := by decide +kernel
theorem test_broadcastAccept : goes (exec (.broadcastAccept 0) (inRun [bauE 0x73 true])) (fun t => ((t.eng 0).bcs.map fun x => (x.op, x.banks.length, x.n)) == [(0x73, 512, 2)] && t.get F.BAU_STATUS.inflight 0 == 1 && t.get F.LND_STATUS.recall 0 == 1) = true := by decide +kernel
/-- A fill of no layer whose S fields name no count denies; another epoch. -/
theorem test_broadcastAccept_denied : goes (exec (.broadcastAccept 0) (inRun [{ bauE 0x73 true with word := BitVec.ofNat 128 (0x73 + 3 * 2 ^ 26 + 4 * 2 ^ 31) }])) (fun t => codes t == [.accessDenied]) &&
    goes (exec (.broadcastAccept 0) (inRun [{ bauE 0x73 true with epoch := 9 }])) (fun t => codes t == [.epochSkew] && t.get F.BAU_COUNTS.epoch_skew 0 == 1) = true := by decide +kernel
/-- A mask at S5 of 256 zero bytes: the scope is empty; at an address of region 0x4 the operands are broken. -/
def maskE (a : Nat) : Entry := { bauE 0x73 true with word := BitVec.ofNat 128 (0x73 + 1 * 2 ^ 16 + 3 * 2 ^ 26 + 4 * 2 ^ 31 + 2 * 2 ^ 36 + 5 * 2 ^ 40), sr := (bauE 0x73 true).sr.set 5 (BitVec.ofNat 64 a) }
theorem test_broadcastAccept_empty : goes (exec (.broadcastAccept 0) (inRun [maskE (cst 0)])) (fun t => codes t == [.ok] && (t.eng 0).inflight.all Entry.completed && (t.eng 0).bcs.isEmpty) &&
    goes (exec (.broadcastAccept 0) (inRun [maskE (80 * 2 ^ 25 + cst 0)])) (fun t => codes t == [.unmapped]) = true := by decide +kernel

/-- Two banks of a fill with 1.0 from row 3 on; two values. -/
def fill (p : BcPhase) (rel : List Nat) : Broadcast :=
  { id := 0, idx := 5, op := 0x73, a := 2 ^ 42, b := 0, c := 0x3F800000, d := 3, src := none, banks := [0, 5], opt := [], phase := p, released := rel, seqs := [], skews := [], bads := [], sent := [], gathered := []
    srcPos := 0, bus := none, busGone := false, complete := false, orphan := false }
def holding (x : Broadcast) : State := let s := inRun [{ bauE 0x73 true with done := true }]; s.setEng 0 { s.eng 0 with bcs := [x] }
theorem test_landingRecallDone : (holding (fill .recall [])).ownWrites 0 0 = false ∧ goes (exec (.landingRecallDone 0) (holding (fill .recall []))) (fun t => (t.eng 0).bcs == [fill .main []] && t.get F.LND_STATUS.recall 0 == 0) = true := by
  refine ⟨?_, ?_⟩ <;> decide +kernel
theorem test_waveRelease : goes (exec (.waveRelease 0) (holding (fill .main []))) (fun t => (t.eng 0).bcs == [fill .main [0]]) &&
    goes (exec (.waveRelease 0) (holding (fill .main [0, 1, 2]))) (fun t => (t.eng 0).bcs == [{ fill .main [0, 1, 2, 3] with complete := true }] && codes t == [.ok] && t.get F.BAU_COUNTS.done 0 == 0) = true := by decide +kernel
def endedSeq : BankSeq := { BankSeq.start with fin := true }
theorem test_waveRelease_ends : goes (exec (.waveRelease 0) (holding { fill .main [0, 1, 2] with seqs := [(0, endedSeq), (5, endedSeq)] })) (fun t => (t.eng 0).bcs == [] && t.get F.BAU_COUNTS.done 0 == 1) = true := by decide +kernel
theorem test_checkPassDone : goes (exec (.checkPassDone 0) (holding { fill .check [0, 1, 2, 3] with seqs := [(0, endedSeq), (5, endedSeq)] })) (fun t => (t.eng 0).bcs == [fill .main []]) &&
    goes (exec (.checkPassDone 0) (holding { fill .check [0, 1, 2, 3] with seqs := [(0, endedSeq), (5, endedSeq)], bads := [5] })) (fun t => codes t == [.dataErr] && (t.eng 0).inflight.map Entry.detail == [1]) &&
    goes (exec (.checkPassDone 0) (holding { fill .check [0, 1, 2, 3] with seqs := [(0, endedSeq), (5, endedSeq)], bads := [5], skews := [(5, 1, 2, 3), (0, 1, 7, 4)] })) (fun t => codes t == [.scaleSkew] && (t.eng 0).inflight.map Entry.detail == [2 ^ 35 + 4 * 2 ^ 31 + 7]) = true := by decide +kernel

/-- Bank 0 of the fill runs its one step: row 3 holds 1.0 twice. -/
theorem test_bauStep : goes (exec (.bauStep 0 0 false) (holding (fill .main [0]))) (fun t => t.bytes (rowKey 0 0 3) 8 == leBytes 4 0x3F800000 ++ leBytes 4 0x3F800000 && (t.bank 0 0).openRow == some 3 && t.byte (rowKey 0 0 3 + 8) == 0#8) = true := by decide +kernel
theorem test_bauStep_error : goes (exec (.bauStep 0 0 true) (holding (fill .main [0]))) (fun t => t.mem == [] && (t.eng 0).bauErrs == [(0, 0, .dataErr, 0)] && t.reg R.BAU_ERR 0 == 2 ^ 63 + Code.dataErr.toNat * 2 ^ 59 + 3 * 2 ^ 33 + 5 * 2 ^ 19 + 0x73) = true := by decide +kernel
theorem test_Steps : Steps (holding (fill .main [0])) 0 0 (fill .main [0]) := ⟨by decide +kernel, by decide +kernel, by decide +kernel, by decide +kernel, by decide +kernel⟩
/-- A copy of row 0 of bank 512 to row 3 of bank 513. -/
def copyX : Broadcast := { fill .main [0, 1, 2, 3] with op := 0x74, c := 0, src := some 512, banks := [513] }
theorem test_bauStep_source : goes (exec (.bauStep 0 512 false) ((holding copyX).setBytes (rowKey 0 512 0) [7#8, 8#8])) (fun t => ((t.eng 0).bcs.map fun x => (x.srcPos, x.busGone, x.bus.map fun b => b.take 3)) == [(0, false, some [7#8, 8#8, 0#8])]) = true := by decide +kernel
theorem test_bauBusTransfer : goes (exec (.bauBusTransfer 0 1) (holding { copyX with bus := some [7#8, 8#8] })) (fun t => ((t.eng 0).bcs.map Broadcast.busGone) == [true]) &&
    goes (exec (.bauBusTransfer 0 0) (holding { fill .main [0] with op := 0x77 })) (fun t => ((t.eng 0).bcs.map Broadcast.sent) == [[0]]) &&
    goes (exec (.bauBusTransfer 0 0) (holding { fill .main [0, 1, 2, 3] with op := 0x78, seqs := [(0, endedSeq), (5, endedSeq)] })) (fun t => ((t.eng 0).bcs.map Broadcast.gathered) == [[0]]) = true := by decide +kernel
theorem test_bauStep_takes : goes (exec (.bauStep 0 513 false) (holding { copyX with bus := some (leBytes 8 0x1122334455667788), busGone := true })) (fun t => t.bytes (rowKey 0 513 3) 8 == leBytes 8 0x1122334455667788) = true := by decide +kernel

/-- A sum of lanes 1 and 2 in two banks, to 0 of the core store. -/
def sumX (d : Nat) : Broadcast :=
  let q : BankSeq := { endedSeq with lanes := .fin (Q.ofNat 1) :: List.replicate 15 Val.zero }
  { fill .main [0, 1, 2, 3] with op := 0x78, c := 0, d := d, seqs := [(0, q), (5, q)], gathered := [0], complete := true }
theorem test_bauResultWrite : goes (exec (.bauResultWrite 0) (holding (sumX (cst 0)))) (fun t => t.bytes spCore 4 == leBytes 4 0x40000000 && (t.eng 0).bcs == [] && t.get F.BAU_COUNTS.done 0 == 1) &&
    goes (exec (.bauResultWrite 0) (holding (sumX (80 * 2 ^ 25 + cst 0)))) (fun t => t.mem == [] && (t.eng 0).bauErrs == [(0, 0x7FF, .unmapped, 0x7F)] && (t.eng 0).bcs == []) = true := by decide +kernel
/-- An optimiser step whose first moment is E4M3: its record is at 0 of the core store. -/
def optX (c : Nat) : Broadcast := { sumX 0 with op := 0x77, c := c, d := 0, sent := [0], opt := List.replicate 0x2B 0#8 ++ [3#8] ++ List.replicate 212 0#8 }
theorem test_optRecordUpdate : goes (exec (.optRecordUpdate 0) (holding (optX (cst 0)))) (fun t => (t.eng 0).bcs == [] && (t.eng 0).bauErrs == [] && t.get F.BAU_COUNTS.done 0 == 1) &&
    goes (exec (.optRecordUpdate 0) (holding (optX (80 * 2 ^ 25 + cst 0)))) (fun t => (t.eng 0).bcs == [] && (t.eng 0).bauErrs == [(0, 0x7FF, .unmapped, 0x7F)]) = true := by decide +kernel

def waitE : Entry := ent .bau 0x7F
theorem test_bauWait : goes (exec (.bauWait 0) (inRun [waitE])) (fun t => (t.eng 0).inflight == [waitE.finish .ok]) &&
    goes (exec (.bauWait 0) (let s := inRun [waitE]; s.setEng 0 { s.eng 0 with bauErrs := [(0, 5, .dataErr, 1), (0, 6, .dataErr, 1)] })) (fun t => (t.eng 0).inflight == [waitE.finish .dataErr 1] && (t.eng 0).bauErrs == []) = true := by decide +kernel
theorem test_bauModeApply : goes (exec (.bauModeApply 0) ((b0.put F.BAU_EPOCH.staged 1 0).put F.BAU_MODE_NEXT.wave_mode 1 0)) (fun t => t.get F.BAU_MODE.wave_mode 0 == 1 && t.get F.BAU_EPOCH.applied 0 == 1) = true := by decide +kernel

/-! ## Commands of an engine (R114, R134-R139, R145-R149) -/

/-- The block in service with engine 0 in a state. -/
def inState (st : Nat) (l : List Entry) : State := (inRun l).put F.ENG_STATUS.state st 0
def engWord (n : Nat) : Word := BitVec.ofNat 64 n

theorem test_engStart : goes (exec (.engStart 0 (engWord (1 + 7 * 2 ^ 8))) (((inState 0 []).setReg R.ENG_ARG 77 0 2).modEng 0 fun g => { g with s := sSet g.s 9 5 })) (fun t =>
    t.engState 0 == 1 && t.get F.ENG_STATUS.pc 0 == 7 && sGet (t.eng 0).s 3 == 77#64 && sGet (t.eng 0).s 9 == 0#64 && t.get F.ENG_STATUS.bad_cmd 0 == 0) = true := by decide +kernel
/-- Start and suspend in one write: the suspend goes first, and in IDLE nothing takes effect. -/
theorem test_engSuspend : goes (exec (.engSuspend 0 (engWord 3)) (inState 1 [])) (fun t => t.engState 0 == 2 && t.get F.ENG_STATUS.bad_cmd 0 == 1) &&
    goes (exec (.engSuspend 0 (engWord 3)) (inState 0 [])) (fun t => t.engState 0 == 0 && t.get F.ENG_STATUS.bad_cmd 0 == 1) = true := by decide +kernel
theorem test_engResume : goes (exec (.engResume 0 (engWord 4)) ((inState 3 []).modEng 0 fun g => { g with yieldAt := some 5 })) (fun t => t.engState 0 == 1 && (t.eng 0).yieldAt == none) &&
    goes (exec (.engResume 0 (engWord 0x24)) ((inState 3 []).modEng 0 fun g => { g with yieldAt := some 5 })) (fun t => t.engState 0 == 1 && (t.eng 0).ctx == some .read) = true := by decide +kernel
theorem test_engClear : goes (exec (.engClear 0 (engWord 64)) ((inState 5 []).setReg R.ENG_FAULT 77 0)) (fun t => t.engState 0 == 0 && t.reg R.ENG_FAULT 0 == 0) = true := by decide +kernel
theorem test_engCancel : goes (exec (.engCancel 0 (engWord 8)) (inState 3 [])) (fun t => t.engState 0 == 0 && t.get F.ENG_STATUS.last_code 0 == 9 && t.outbox == [.engineSignal 0 0]) &&
    goes (exec (.engCancel 0 (engWord 8)) (inState 1 [add])) (fun t => t.engState 0 == 4) = true := by decide +kernel
/-- An engine in reset, and one that is bound for FAULTED. -/
theorem test_engCommands_held : goes (exec (.engCancel 0 (engWord 8)) ((inState 1 []).modEng 0 fun g => { g with inReset := true })) (fun t => t.engState 0 == 1) &&
    goes (exec (.engCancel 0 (engWord 8)) ((inState 1 []).modEng 0 fun g => { g with bound := some 1#64 })) (fun t => t.engState 0 == 1 && t.get F.ENG_STATUS.bad_cmd 0 == 1) = true := by decide +kernel
theorem test_cancelDrained : goes (exec (.cancelDrained 0) (inState 4 [])) (fun t => t.engState 0 == 0 && t.get F.ENG_STATUS.last_code 0 == 9 && t.outbox == [.engineSignal 0 0]) = true := by decide +kernel

/-- A yield with tag 0x1234 at index 5. -/
def yieldE (catch_ : Bool) : Entry := { ent .seq (4 + 0x1234 * 2 ^ 16 + b2n catch_ * 2 ^ 12) with done := true }
def yielding (c : Bool) : State := (inState 2 [yieldE c]).modEng 0 fun g => { g with yieldAt := some 5 }
theorem test_yieldSuspend : goes (exec (.yieldSuspend 0) (yielding false)) (fun t => t.engState 0 == 3 && t.get F.ENG_STATUS.yield_tag 0 == 0x1234 && (t.eng 0).inflight == [] && t.outbox == [.engineSignal 0 3]) &&
    goes (exec (.yieldSuspend 0) ((yielding false).put F.ENG_CTL.save_ctx 1 0)) (fun t => t.engState 0 == 2 && (t.eng 0).ctx == some .write) = true := by decide +kernel
theorem test_yieldSuspend_fails : goes (exec (.yieldSuspend 0) (withFails (yielding false) [.unmapped])) (fun t => t.engState 0 == 2 && t.get F.ENG_STATUS.yield_tag 0 == 0 && (t.eng 0).bound != none) &&
    goes (exec (.yieldSuspend 0) (withFails (yielding true) [.unmapped])) (fun t => t.engState 0 == 3 && (t.eng 0).bound == none) = true := by decide +kernel

/-- A context record to or from an address (in units of 64). -/
def context (j : CtxJob) (a : Nat) : State := ((inState 2 []).put F.ENG_CTX_ADDR.addr (a / 64) 0).modEng 0 fun g => { g with ctx := some j, yieldAt := some 5, s := sSet g.s 3 0x1122#64 }
theorem test_ctxRecord : (((context .write (cst 0)).ctxRecord 0).drop 24).take 2 = [0x22#8, 0x11#8] := by decide +kernel
theorem test_contextWriteDone : goes (exec (.contextWriteDone 0 noReply) (context .write (cst 0))) (fun t => t.engState 0 == 3) &&
    goes (exec (.contextWriteDone 0 noReply) (context .write (5 * 2 ^ 48))) (fun t => t.engState 0 == 5 && t.get F.ENG_STATUS.ctx_err 0 == 1 && t.get F.ENG_STATUS.last_code 0 == Code.unmapped.toNat) = true := by decide +kernel
theorem test_contextReadDone : goes (exec (.contextReadDone 0 noReply) ((context .read (cst 0)).setBytes (spCore + 24) (leBytes 2 0x3344) |>.setBytes (spCore + 0x948) (leBytes 2 0x55))) (fun t =>
    t.engState 0 == 2 && sGet (t.eng 0).s 3 == 0x3344#64 && t.get F.ENG_STATUS.pc 0 == 0x55) &&
    goes (exec (.contextReadDone 0 noReply) (context .read (5 * 2 ^ 48))) (fun t => t.engState 0 == 5 && t.get F.ENG_STATUS.ctx_err 0 == 1) = true := by decide +kernel

theorem test_engPgcmdGo : goes (exec (.engPgcmdGo 0 (engWord (15 + 1 * 16 + 2 ^ 9))) (inState 0 [])) (fun t => (t.eng 0).pgLoad == some (0, 15, 1) && t.get F.ENG_PGCMD.busy 0 == 1) &&
    goes (exec (.engPgcmdGo 0 (engWord (15 + 2 * 16 + 2 ^ 9))) (inState 0 [])) (fun t => (t.eng 0).pgLoad == none && t.get F.ENG_PGCMD.code 0 == 5) &&
    goes (exec (.engPgcmdGo 0 (engWord (15 + 1 * 16 + 2 ^ 9))) (inState 1 [])) (fun t => t.get F.ENG_PGCMD.code 0 == 5) = true := by decide +kernel
theorem test_pageLoadDone : goes (exec (.pageLoadDone 0 noReply) ((inState 0 []).modEng 0 fun g => { g with pgLoad := some (5 * 2 ^ 48, 15, 1) })) (fun t =>
    (t.eng 0).pgLoad == none && t.get F.ENG_PGCMD.code 0 == Code.unmapped.toNat && (t.eng 0).pageBad[15]) = true := by decide +kernel

/-! ## Landings, banks and scrub (R155, R254-R262, R269-R275) -/

/-- Byte `o` of row 0 of bank 0 of engine 0, by the bank-linear view. -/
def own (o : Nat) : Word := BitVec.ofNat 64 (2 ^ 48 + o)
def rd (w : Requester) (a : Word) (n : Nat) : MemReq := ⟨w, 7, a, .read n, none⟩
def wrq (w : Requester) (a : Word) (b : List Byte) : MemReq := ⟨w, 7, a, .write b, none⟩
def lineAt (sector : Nat) (dirty : Bool) : Line := ⟨sector, 0, .normal, dirty, false, 0⟩
def withLine (s : State) (l : Line) : State := s.setSq 0 { s.sq 0 with lines := [l] }

theorem test_verticalChannel : goes (exec (.verticalChannelRequest 0 0 (rd (.engine 0) (own 4) 4) false) b0) (fun t => t.landq == [⟨0, rd (.engine 0) (own 4) 4, 0, false⟩]) &&
    goes (exec (.verticalChannelRequest 0 0 (rd (.engine 0) (own 4) 4) false) (b0.modEng 0 fun g => { g with dramOut := true })) (fun t => t.outbox == [.reply (.engine 0) 7 .unmapped 0 []]) = true := by decide +kernel
/-- A line of the home square; the row is flagged. -/
theorem test_verticalChannel_hit : (withLine b0 (lineAt 0 false)).rowFlagged 0 0 0 = true ∧
    goes (exec (.verticalChannelRequest 0 0 (rd (.engine 0) (own 4) 2) false) ((withLine b0 (lineAt 0 false)).setBytes 4 [7#8, 8#8])) (fun t => t.landq == [] && t.outbox == [.reply (.engine 0) 7 .ok 0 [7#8, 8#8]]) = true := by
  refine ⟨?_, ?_⟩ <;> decide +kernel
theorem test_verticalChannel_badFlag : goes (exec (.verticalChannelRequest 0 0 (rd (.engine 0) (own 4) 4) true) b0) (fun t => t.landq.length == 1 && t.elog.queue.length == 1) = true := by decide +kernel
def queuedAt (r : MemReq) (owed : Nat) : State := ({ b0 with landq := [⟨0, r, 3, false⟩] }).setBank 0 0 ⟨none, owed, 0, 0⟩
theorem test_bankAccess : goes (exec (.bankAccess 0 0 []) (queuedAt (wrq (.engine 0) (own 4) [7#8]) 4)) (fun t => t.landq == [] && t.bank 0 0 == ⟨some 0, 4, 0, 4⟩ && t.byte 4 == 7#8 && t.outbox == [.reply (.engine 0) 7 .ok 0 []]) &&
    stops (exec (.bankAccess 0 0 []) (queuedAt (wrq (.engine 0) (own 4) [7#8]) 5)) = true := by decide +kernel
/-- A read that meets an uncorrectable word. -/
theorem test_bankAccess_upset : goes (exec (.bankAccess 0 0 [⟨0, .uncorrectable⟩]) (queuedAt (rd (.engine 0) (own 4) 4) 0)) (fun t => t.outbox == [.reply (.engine 0) 7 .dataErr 0 []] && t.markOf 0 == 2) = true := by decide +kernel
theorem test_rowClose : goes (exec (.rowCloseTimeout 0 0) (b0.setBank 0 0 ⟨some 5, 1, 2, 0⟩)) (fun t => t.bank 0 0 == ⟨none, 1, 2, 0⟩) = true := by decide +kernel
theorem test_refreshDue : goes (exec (.refreshDue 0 0) (b0.setBank 0 0 ⟨some 5, 4, 2, 0⟩)) (fun t => t.bank 0 0 == ⟨some 5, 5, 2, 0⟩ && t.get F.LND_REFRESH.max_owed 0 == 4) && stops (exec (.refreshDue 0 0) (b0.setBank 0 0 ⟨none, 5, 2, 0⟩)) = true := by decide +kernel
theorem test_refresh : goes (exec (.refresh 0 0) (b0.setBank 0 0 ⟨some 5, 1, 1567, 0⟩)) (fun t => t.bank 0 0 == ⟨none, 0, 0, 0⟩) && stops (exec (.refresh 0 0) (b0.setBank 0 0 ⟨none, 0, 0, 0⟩)) = true := by decide +kernel
theorem test_refreshCatchup : goes (exec (.refreshCatchup 0 0) (b0.setBank 0 0 ⟨some 5, 5, 1565, 0⟩)) (fun t => t.bank 0 0 == ⟨none, 0, 2, 0⟩ && t.get F.LND_REFRESH.catchups 0 == 1) = true := by decide +kernel

def scrubbing (bank row : Nat) : State := { (b0.put F.LND_SCRUB.enable 1 0).put F.LND_SCRUB.row row 0 with scrubAt := vset b0.scrubAt 0 ⟨bank, 0⟩ }
theorem test_scrubRead : goes (exec (.scrubRead 0 5 [⟨3, .single⟩]) (scrubbing 5 9)) (fun t => (vget t.scrubAt 0).bank == 6 && t.marks == [] && t.mem == [] && t.get (F.LND_CE_COUNT.m 0) 0 == 1) = true := by decide +kernel
/-- The last bank of the last row: the next pass begins; no spare stands there. -/
theorem test_scrubRead_wraps : goes (exec (.scrubRead 0 2047 []) (scrubbing 2047 1567)) (fun t => (vget t.scrubAt 0).bank == 0 && t.get F.LND_SCRUB.row 0 == 0 && t.get F.LND_SCRUB.passes 0 == 1) = true := by decide +kernel

/-! ## Squares (R169, R263-R272, R279) -/

def win (o : Nat) : Word := BitVec.ofNat 64 (2 * 2 ^ 48 + o)
def r3 : Requester := .remote 3
/-- Square 0 with one window way. -/
def windowed : State := b0.put F.SQ_CTL.ways 1 0
theorem test_window : windowed.target (win 4).toNat 2 = some (.window 0) ∧ b0.target (win 4).toNat 2 = none ∧ windowed.squareOn 0 = true := by refine ⟨?_, ?_, ?_⟩ <;> decide +kernel
theorem test_squareRequest_window : goes (exec (.squareRequest 0 (rd r3 (win 4) 2) []) (windowed.setBytes (spWin + 4) [7#8, 8#8])) (fun t => t.mesh.map MeshPkt.body == [.completion r3 7 .ok 0 [7#8, 8#8]]) &&
    goes (exec (.squareRequest 0 (rd r3 (win 4) 2) [4]) windowed) (fun t => t.mesh.map MeshPkt.body == [.completion r3 7 .dataErr 0 []] && (t.sq 0).badBytes == [4]) &&
    goes (exec (.squareRequest 0 (rd r3 (win 4) 2) []) (windowed.put F.SQ_STATUS.mapped_out 1 0)) (fun t => t.mesh.map MeshPkt.body == [.completion r3 7 .unmapped 0 []]) = true := by decide +kernel
theorem test_squareRequest_line : goes (exec (.squareRequest 0 (rd r3 (own 4) 2) []) ((withLine b0 (lineAt 0 false)).setBytes 4 [7#8, 8#8])) (fun t => t.mesh.map MeshPkt.body == [.completion r3 7 .ok 0 [7#8, 8#8]]) &&
    goes (exec (.squareRequest 0 (rd r3 (own 4) 2) [4]) (withLine b0 (lineAt 0 true))) (fun t => t.mesh.map MeshPkt.body == [.completion r3 7 .dataErr 0 []] && (t.sq 0).lines.map Line.poison == [true]) = true := by decide +kernel
theorem test_squareRequest_fill : goes (exec (.squareRequest 0 (rd r3 (own 4) 2) []) b0) (fun t => (t.sq 0).fills == [⟨rd r3 (own 4) 2, 0, .normal⟩] && t.landq == [⟨0, rd r3 (own 4) 2, 128, true⟩]) &&
    goes (exec (.squareRequest 0 (wrq r3 (own 0) (List.replicate 64 7#8)) []) b0) (fun t => (t.sq 0).lines.map (fun l => (l.sector, l.dirty)) == [(0, true)] && t.byte 63 == 7#8) &&
    goes (exec (.squareRequest 0 (rd r3 (own 4) 2) []) (b0.put F.SQ_CTL.ext_no_alloc 1 0)) (fun t => t.landq == [⟨0, rd r3 (own 4) 2, 128, false⟩]) &&
    goes (exec (.squareRequest 0 (rd r3 (own 4) 2) []) (b0.modEng 0 fun g => { g with dramOut := true })) (fun t => t.mesh.map MeshPkt.body == [.completion r3 7 .unmapped 0 []]) = true := by decide +kernel
def filling (r : MemReq) : State := { b0.setSq 0 { b0.sq 0 with fills := [⟨r, 0, .normal⟩] } with landq := [⟨0, r, 128, true⟩] }
theorem test_plazaFillDone : goes (exec (.plazaFillDone 0 false) (filling (rd r3 (own 4) 2))) (fun t => (t.sq 0).fills == [] && (t.sq 0).lines.map (fun l => (l.sector, l.dirty)) == [(0, false)] && t.mesh.map MeshPkt.body == [.completion r3 7 .ok 0 [0#8, 0#8]]) &&
    goes (exec (.plazaFillDone 0 true) (filling (rd r3 (own 4) 2))) (fun t => (t.sq 0).lines == [] && t.mesh.map MeshPkt.body == [.completion r3 7 .dataErr 0 []]) &&
    goes (exec (.plazaFillDone 0 true) (filling (wrq r3 (own 4) [7#8]))) (fun t => t.landq == [⟨0, wrq r3 (own 4) [7#8], 128, false⟩]) &&
    goes (exec (.plazaFillDone 0 false) ((filling (rd r3 (own 4) 2)).put F.SQ_CTL.ways 16 0)) (fun t => t.landq == [⟨0, rd r3 (own 4) 2, 128, false⟩]) = true := by decide +kernel

/-- Sixteen ways in service; the lines of ways 14 and 15 join a window of 2. -/
theorem test_sqCtlWrite : goes (exec (.sqCtlWrite 0 2#64) (b0.put F.SQ_STATUS.ways_ok 16 0)) (fun t => t.get F.SQ_CTL.ways 0 == 2 && t.on F.SQ_CTL.busy 0 && (t.sq 0).oldWays == 0) &&
    goes (exec (.sqCtlWrite 0 17#64) (b0.put F.SQ_STATUS.ways_ok 16 0)) (fun t => t.get F.SQ_CTL.ways 0 == 0 && t.on F.SQ_STATUS.bad_cfg 0) &&
    goes (exec (.sqCtlWrite 0 0x200#64) b0) (fun t => t.on F.SQ_CTL.ext_no_alloc 0 && !t.on F.SQ_CTL.busy 0) = true := by decide +kernel
theorem test_windowChangeDone : goes (exec (.windowChangeDone 0) (((b0.put F.SQ_CTL.ways 2 0).put F.SQ_CTL.busy 1 0).setSq 0 { b0.sq 0 with lines := [{ lineAt 0 true with way := 14 }, lineAt 1 true] })) (fun t =>
    (t.sq 0).lines.map Line.way == [0] && !t.on F.SQ_CTL.busy 0) = true := by decide +kernel
theorem test_sqFlush : goes (exec (.sqFlushGo 0 3#64) (withLine b0 (lineAt 0 true))) (fun t => t.on F.SQ_STATUS.flush_busy 0 && (t.sq 0).flushing == [0] && (t.sq 0).flushInv) &&
    goes (exec (.sqFlushDone 0) ((withLine b0 (lineAt 0 true)).put F.SQ_STATUS.flush_busy 1 0 |>.setSq 0 { (withLine b0 (lineAt 0 true)).sq 0 with flushing := [0], flushInv := false })) (fun t =>
      !t.on F.SQ_STATUS.flush_busy 0 && (t.sq 0).lines.map Line.dirty == [false]) = true := by decide +kernel

/-! ## Commands that no sender may give are refused as ill formed: one for each check of `Instr.wf` -/

def badReq : MemReq := ⟨.engine 0, 0, 60, .read 5, none⟩
def report (cls sev : Nat) : Report := ⟨cls, 1, 0, 0x0201, sev, .ok, 0, 0⟩
theorem test_illFormed_accesses : [Instr.controlCoreAccess 0 .global 0 (.read 0), .packetOriginate (.core 0) 0 (.write []) none, .verticalChannelRequest 0 0 badReq false, .squareRequest 0 badReq []].all (fun c => !c.wf) = true := by decide
theorem test_illFormed_reports : [Instr.stormMaskEnd 256 0 0, .stormMaskEnd 0 4096 0, .stormMaskEnd 0 0 256, .errorReport (some (report 256 1)), .errorReport (some (report 1 4))].all (fun c => !c.wf) = true := by decide
theorem test_illFormed_power : [Instr.sliceFail 0 0 0, .sliceFail 121 40 0, .sliceFail 122 4 0, .sliceFail 80 0 16, .sliceFail 81 0 8, .sliceShed 123 0, .sliceUnshed 1 1, .pmbAlert [0, 0, 0]].all (fun c => !c.wf) = true := by decide
theorem test_illFormed_lists : [Instr.tapTokenLoad [], .adcRoundEnd ⟨[(752, none)], [], []⟩, .adcRoundEnd ⟨[], [(6, none)], []⟩, .adcRoundEnd ⟨[], [], [(960, [])]⟩, .adcFail [(960, [])], .stageCrosswalk [(35840, 0)], .stepPause [(4480, 0)]].all (fun c => !c.wf) = true := by
  decide
def bytes0 (n : Nat) : List Byte := List.replicate n 0#8
def anOffer : Offer := ⟨[0x1302], [0x0018], [0x0503], true, false, false, false, none, 0, 0, 0⟩
theorem test_illFormed_lists2 : [Instr.engineResetRelease 0 [], .layerResetRelease true [(40, [])], .hello 0 ⟨5, 1, [], bytes0 97, [], [], 0⟩, .hello 0 ⟨5, 1, bytes0 32, [], [], [], 0⟩, .finish 0 (bytes0 95)].all (fun c => !c.wf) = true := by decide
theorem test_illFormed_lists3 : [Instr.flitReceive 0 [(34, [])], .flitReceive 0 [(3, []), (3, [])], .clientHello anOffer 0 (bytes0 47), .dtlsHandshakeDone 0 [] (bytes0 47) (bytes0 96) (bytes0 48) (bytes0 48),
    .dtlsHandshakeDone 0 [] (bytes0 48) (bytes0 95) (bytes0 48) (bytes0 48), .dtlsHandshakeDone 0 [] (bytes0 48) (bytes0 96) [] (bytes0 48), .dtlsHandshakeDone 0 [] (bytes0 48) (bytes0 96) (bytes0 48) []].all (fun c => !c.wf) = true := by decide
theorem test_wellFormed : [Instr.sliceFail 121 39 15, .sliceFail 81 0 7, .stormMaskEnd 255 4095 255, .errorReport (some (report 0x13 3)), .controlCoreAccess 0 .global 0 (.read 1), .adcFail [(959, [])]].all Instr.wf = true := by decide

/-! ## The machine and its registers -/

/-- Reset with a command in front. -/
def queued (c : Instr) : State := { State.reset with pending := [c] }
/-- The power of the always-on domain ends the whole-block reset: stage 1, and the queue is empty. -/
theorem test_step : goes (step (queued .telRetry)) (fun t => t.pending == []) = true := by decide +kernel
theorem test_step_hypotheses : State.reset.Canon ∧ State.reset.elog.Bounded := by refine ⟨⟨?_, ?_, ?_, ?_, ?_, ?_, ?_, ?_⟩, ⟨?_, ?_⟩⟩ <;> decide +kernel
theorem test_reset : State.reset.get F.AON_STATUS.stage = 0 ∧ State.reset.get F.CLK_STEP.eff = 7 ∧ State.reset.get F.GAUGE_PERIOD.length 63 = 1000000000 ∧ State.reset.get F.PWR_PMB.read = 1 := by refine ⟨?_, ?_, ?_, ?_⟩ <;> decide +kernel
/-- A fuse is blown by a command that may (`test_secSvnAdv` shows one that ends). -/
theorem test_onlyRecords : (({ State.reset with pending := [] } : State).blow 0x234 1).sec.otp ≠ State.reset.sec.otp := by decide +kernel
theorem test_engineOf : engineOf (.vecBin 7 none) = some 7 := by decide

/-- PIN_IRQ_EN is plain, PL_ROUTE is locked with the block ID, and AON_BOOT acts. -/
def irqEn : BitVec 32 := BitVec.ofNat 32 (R.PIN_IRQ_EN.key 0 0)
theorem test_storing_hypotheses : assigned irqEn.toNat = some (R.PIN_IRQ_EN, 0, 0) ∧ R.PIN_IRQ_EN ∉ actingRegs ∧ b0.unitCode irqEn.toNat = .ok ∧ irqEn.toNat % 8 = 0 := by refine ⟨?_, ?_, ?_, ?_⟩ <;> decide +kernel
theorem test_registerWrite : goes (exec (.registerWrite irqEn 0xFFFFFFFFFFFFFFFF#64) b0) (fun t => t.reg R.PIN_IRQ_EN == 0x7FFF) && goes (exec (.registerWrite (irqEn + 1#32) 5#64) b0) (fun t => t.reg R.PIN_IRQ_EN == 0) &&
    goes (exec (.registerWrite irqEn 5#64) (b0.put F.AON_STATUS.stage 0)) (fun t => t.reg R.PIN_IRQ_EN == 0) = true := by decide +kernel
theorem test_noRegister : unitExists 0x07000000 = false ∧ unitExists 0x10050000 = false ∧ assigned 0x10000F00 = none ∧ (b0.modEng 3 fun g => { g with inReset := true }).unitCode (R.ENG_CTL.key 3 0) = .targetReset := by refine ⟨?_, ?_, ?_, ?_⟩ <;> decide +kernel
/-- A register's command, by its row and by its offset. -/
theorem test_registerRow : registerRow (.clkStepReq 3#64) = some (R.CLK_STEP, 0, 0, 3#64) ∧ (BitVec.ofNat 32 (R.CLK_STEP.key 0 0)).toNat = R.CLK_STEP.key 0 0 ∧ b0.unitCode (R.CLK_STEP.key 0 0) = .ok := by refine ⟨?_, ?_, ?_⟩ <;> decide +kernel
theorem test_registerRow_acts : goes (exec (.registerWrite (BitVec.ofNat 32 (R.CLK_STEP.key 0 0)) 0xB#64) b0) (fun t => t.get F.CLK_STEP.req == 3) && goes (exec (.clkStepReq 0xB#64) b0) (fun t => t.get F.CLK_STEP.req == 3) = true := by decide +kernel
/-- A read clears the count, and not the rate beside it. -/
theorem test_clearingRead : clearingRead .clkStepRead = some (R.CLK_STEP, 0, 0) ∧ goes (exec .clkStepRead ((b0.put F.CLK_STEP.changes 9).put F.CLK_STEP.req 3)) (fun t => t.get F.CLK_STEP.changes == 0 && t.get F.CLK_STEP.req == 3) = true := by refine ⟨?_, ?_⟩ <;> decide +kernel

/-! ## Writes with limits and commands (R30, R376, R382, R428, R448, R470, R494, R528, R537) -/

theorem test_caps : goes (exec (.pwrCapWrite 0xFFFFFFFFFFFFFFFF#64) b0) (fun t => t.reg R.PWR_CAP == t.reg R.PWR_CEIL) && goes (exec (.pwrRgCeilWrite 0 1023#64) (b0.put F.PWR_RG_STATUS.in_service 15 1)) (fun t => t.get F.PWR_RG_CEIL.limit 1 == 450) &&
    goes (exec (.pwrRgCeilWrite 0 9#64) b0) (fun t => t.get F.PWR_RG_CEIL.limit 1 == 9) = true := by decide +kernel
def lim (start full : Nat) : Word := BitVec.ofNat 64 (start * 2 ^ F.THM_LIM_COMP.start.lo + full * 2 ^ F.THM_LIM_COMP.full.lo)
/-- A lower pair is stored, a higher one is stored as the default, and a start at its full is ignored. -/
theorem test_thmLim : goes (exec (.thmLimWrite 0 (lim 50 60)) b0) (fun t => t.get F.THM_LIM_COMP.start == 50 && t.get F.THM_LIM_COMP.full == 60) && goes (exec (.thmLimWrite 0 (lim 127 127)) b0) (fun t => t.reg R.THM_LIM_COMP == b0.reg R.THM_LIM_COMP && !t.on F.THM_STATUS.bad_cfg) &&
    goes (exec (.thmLimWrite 0 (lim 60 60)) b0) (fun t => t.reg R.THM_LIM_COMP == b0.reg R.THM_LIM_COMP && t.on F.THM_STATUS.bad_cfg) = true := by decide +kernel
theorem test_rates : goes (exec (.clkBtimeAdjWrite 0x7FFFFFFF#64) (b0.put F.PL_TIME.parent 14)) (fun t => t.get F.CLK_BTIME_ADJ.adj == 219902326) && goes (exec (.clkBtimeAdjWrite 5#64) (b0.put F.PL_TIME.parent 3)) (fun t => t.get F.CLK_BTIME_ADJ.adj == 0) &&
    goes (exec (.gaugePeriodWrite 5 9999#64) b0) (fun t => t.get F.GAUGE_PERIOD.length 5 == 10000) && goes (exec (.tollRateWrite 0 0#64) b0) (fun t => t.reg R.TOLL_RATE 0 == 0) && goes (exec (.frTxcapWrite 0 0#64) b0) (fun t => t.reg R.FR_TXCAP 0 == 0) = true := by decide +kernel
theorem test_locks : goes (exec (.aonBlockIdWrite 0x3005#64) b0) (fun t => t.get F.AON_BLOCK_ID.id == 5 && t.on F.AON_BLOCK_ID.valid && t.on F.AON_BLOCK_ID.lock) && goes (exec (.aonBlockIdWrite 0x3005#64) (b0.put F.AON_BLOCK_ID.lock 1)) (fun t => t.get F.AON_BLOCK_ID.id == 0) &&
    goes (exec (.plTwinWinWrite (BitVec.ofNat 64 (5 + 2 ^ 34))) b0) (fun t => t.get F.PL_TWIN_WIN.base 6 == 5 && t.on F.PL_TWIN_WIN.lock 6) && goes (exec (.plTwinWinWrite 5#64) (b0.put F.PL_TWIN_WIN.lock 1 6)) (fun t => t.get F.PL_TWIN_WIN.base 6 == 0) = true := by decide +kernel
theorem test_watchdogWrites : goes (exec (.watchdogEnable (BitVec.ofNat 64 (7 + 2 ^ 32))) b0) (fun t => t.on F.AON_WDOG.enable && t.get F.AON_WDOG.timeout_ms == 7) && goes (exec (.watchdogKick (BitVec.ofNat 64 (7 + 2 ^ 33))) ((b0.put F.AON_WDOG.enable 1).put F.AON_WDOG.timeout_ms 9)) (fun t => t.get F.AON_WDOG.timeout_ms == 9) = true := by
  decide +kernel
theorem test_goBits : goes (exec (.aonLedgerGo 0x91#64) b0) (fun t => t.on F.AON_LEDGER.busy && t.get F.AON_LEDGER.kind == 9) && goes (exec (.aonLedgerGo 0xA1#64) b0) (fun t => t.get F.AON_LEDGER.code == 5) && goes (exec (.aonMemoGo (BitVec.ofNat 64 (1 + 7 * 2 ^ 32))) b0) (fun t => t.on F.AON_MEMO.busy && t.get F.AON_MEMO.src == 7) &&
    goes (exec (.pwrPmbGo 0x1403#64) b0) (fun t => t.on F.PWR_PMB.busy && t.outbox.length == 1) && goes (exec (.pwrPmbGo 0x1004#64) b0) (fun t => t.get F.PWR_PMB.code == 5 && t.outbox == []) = true := by decide +kernel
theorem test_pointers : goes (exec (.elogTailWrite 5#64) (b0.put F.ELOG_STATUS.head 9)) (fun t => t.get F.ELOG_STATUS.tail == 5) && goes (exec (.elogTailWrite 10#64) (b0.put F.ELOG_STATUS.head 9)) (fun t => t.get F.ELOG_STATUS.tail == 0) &&
    goes (exec (.plLostClear 0 6#64) (b0.setReg R.PL_LOST 7 0 0)) (fun t => t.reg R.PL_LOST 0 0 == 1) && goes (exec (.pinFaultClear 1#64) (b0.put F.PIN_FAULT.chatter 3)) (fun t => t.get F.PIN_FAULT.chatter == 2) &&
    goes (exec (.thmSuspectClear 0 1#64) (b0.setReg R.THM_SUSPECT 3 0 0)) (fun t => t.reg R.THM_SUSPECT 0 0 == 2) && goes (exec (.thmBrokenClear 0 1#64) (b0.setReg R.THM_BROKEN 3 0 0)) (fun t => t.reg R.THM_BROKEN 0 0 == 2) = true := by decide +kernel
/-- A ring of 64 entries that holds two, from 3 to 5: its tail may move up to 67. -/
theorem test_ringTails : let s := ((b0.put F.FR_RXPTR.head 3 0).put F.FR_RXPTR.tail 5 0).put F.FR_RXRING.size 0 0
    goes (exec (.frRxptrTail 0 (BitVec.ofNat 64 (67 * 2 ^ 32))) s) (fun t => t.get F.FR_RXPTR.tail 0 == 67) && goes (exec (.frRxptrTail 0 (BitVec.ofNat 64 (68 * 2 ^ 32))) s) (fun t => t.get F.FR_RXPTR.tail 0 == 5) &&
      goes (exec (.frRxptrTail 0 (BitVec.ofNat 64 (4 * 2 ^ 32))) s) (fun t => t.get F.FR_RXPTR.tail 0 == 5) && goes (exec (.frTxptrTail 0 (BitVec.ofNat 64 (1 * 2 ^ 32))) s) (fun t => t.get F.FR_TXPTR.tail 0 == 1) = true := by decide +kernel

/-! ## The mesh (R313-R320, R329, R333, R419) -/

theorem test_nextHop : nextHop 0 10 = 1 ∧ nextHop 2 10 = 10 ∧ nextHop 39 0 = 38 ∧ nextHop 32 0 = 24 ∧ meshDist 0 39 = 11 := by refine ⟨?_, ?_, ?_, ?_, ?_⟩ <;> decide +kernel

def pkt (k d : SquareId) (b : MeshBody) : MeshPkt := ⟨k, .floor, d, 0, b⟩
def inMesh (l : List MeshPkt) : State := { b0 with mesh := l }
def c1 : Requester := .core 1
theorem test_meshPacket_enters : goes (exec (.meshPacket 0 0 (some (pkt 0 1 (.request (rd c1 (BitVec.ofNat 64 (cst (2 ^ 25))) 4))))) b0) (fun t => t.mesh.length == 1) &&
    stops (exec (.meshPacket 0 0 (some (pkt 0 2 (.request (rd c1 (BitVec.ofNat 64 (cst (2 ^ 25))) 4))))) b0) = true := by decide +kernel
/-- The synchronisation packet goes before the request that came first, and moves one hop. -/
theorem test_meshPacket_moves : goes (exec (.meshPacket 5 0 none) (inMesh [pkt 5 5 (.request (rd c1 0 4)), pkt 5 19 (.sync 8 none)])) (fun t => t.mesh == [pkt 5 5 (.request (rd c1 0 4)), { pkt 4 19 (.sync 8 none) with inp := .east }]) &&
    goes (exec (.meshPacket 19 0 none) (inMesh [pkt 19 19 (.sync 8 none)])) (fun t => t.mesh == [] && t.outbox == [.syncDelivered 8]) = true := by decide +kernel
theorem test_meshPacket_completion : goes (exec (.meshPacket 0 0 none) (inMesh [pkt 0 0 (.completion (.engine 0) 7 .ok 0 [1#8])])) (fun t => t.outbox == [.reply (.engine 0) 7 .ok 0 [1#8]]) &&
    goes (exec (.meshPacket 0 0 none) ((inMesh [pkt 0 0 (.completion (.engine 0) 7 .ok 0 [1#8])]).modEng 0 fun g => { g with inReset := true })) (fun t => t.outbox == [] && t.get F.AV_DISCARD.eng_a 0 == 1) = true := by decide +kernel
def toCore (ep : Option Epoch) : MeshPkt := pkt 0 0 (.request { rd c1 (BitVec.ofNat 64 (cst 4)) 2 with epoch := ep })
theorem test_meshPacket_core : goes (exec (.meshPacket 0 0 none) ((inMesh [toCore none]).setBytes (spCore + 4) [7#8, 8#8])) (fun t => t.outbox == [.reply c1 7 .ok 0 [7#8, 8#8]]) &&
    goes (exec (.meshPacket 0 0 none) ((inMesh [toCore none]).modEng 0 fun g => { g with mappedOut := true })) (fun t => t.outbox == [.reply c1 7 .unmapped 0 []]) &&
    goes (exec (.meshPacket 0 0 none) ((inMesh [toCore none]).modEng 0 fun g => { g with inReset := true })) (fun t => t.outbox == [.reply c1 7 .targetReset 0 []]) &&
    goes (exec (.meshPacket 0 0 none) ((inMesh [toCore (some 4)]).put F.ENG_EPOCH.applied 5 0)) (fun t => t.outbox == [.reply c1 7 .epochSkew 5 []]) = true := by decide +kernel
/-- The region of the engine is in RETAIN: the request waits while it wakes. -/
theorem test_meshPacket_wakes : goes (exec (.meshPacket 0 0 none) ((inMesh [toCore none]).put F.PWR_RG_STATUS.state 1 1)) (fun t => t.parked == [toCore none] && t.get F.PWR_RG_STATUS.waking 1 == 1) = true := by decide +kernel
theorem test_meshPacket_window : goes (exec (.meshPacket 0 0 none) (((inMesh [pkt 0 0 (.request (rd c1 (win 4) 2))]).put F.SQ_CTL.ways 1 0).setBytes (spWin + 4) [7#8, 8#8])) (fun t => t.outbox == [.reply c1 7 .ok 0 [7#8, 8#8]]) &&
    goes (exec (.meshPacket 0 0 none) (inMesh [pkt 0 0 (.request (rd c1 0xF000000000000 8))])) (fun t => t.outbox == [.reply c1 7 .accessDenied 0 []]) &&
    goes (exec (.meshPacket 0 0 none) (inMesh [pkt 0 0 (.request (rd c1 0x5000000000000 8))])) (fun t => t.outbox == [.reply c1 7 .unmapped 0 []]) = true := by decide +kernel

/-- A multicast from engine 0 at router 0 to the core stores of engines 0, 1 and 8. -/
def mc (k : SquareId) (ds : List Nat) : MeshPkt := ⟨k, .engineA, k, 0, .multicast (.engine 0) 7 (BitVec.ofNat 64 (cst 4)) [7#8] false ds none⟩
theorem test_multicast_enters : goes (exec (.multicastBranch 0 0 (some (mc 0 [0, 1, 8]))) b0) (fun t => t.mesh == [mc 0 [0, 1, 8]]) = true := by decide +kernel
theorem test_multicast_branches : goes (exec (.multicastBranch 0 0 none) (inMesh [mc 0 [0, 1, 8]])) (fun t => t.mesh == [mc 0 [0, 8], { mc 0 [1] with at_ := 1, inp := .west }]) &&
    goes (exec (.multicastBranch 0 0 none) (inMesh [mc 0 [0, 8]])) (fun t => t.mesh == [mc 0 [0], { mc 0 [8] with at_ := 8, inp := .south }]) = true := by decide +kernel
theorem test_multicast_here : goes (exec (.multicastBranch 0 0 none) (inMesh [mc 0 [0]])) (fun t => t.mesh == [] && t.byte (spCore + 4) == 7#8 && t.outbox == [.reply (.engine 0) 7 .ok 0 []]) = true := by decide +kernel
theorem test_deliveredResetTimeout : goes (exec (.deliveredResetTimeout 0) ({ b0 with parked := [toCore none, { toCore none with body := .request (rd c1 (BitVec.ofNat 64 (cst (2 ^ 25))) 2) }] }.modEng 0 fun g => { g with inReset := true })) (fun t =>
    t.parked.length == 1 && t.outbox == [.reply c1 7 .targetReset 0 []]) = true := by decide +kernel
theorem test_xwMarginLow : goes (exec (.xwMarginLow 0 2 3 3) (b0.setTap (xwKey 0 2 3 7) 9 20)) (fun t => t.marginOf (xwKey 0 2 3 7) == 3 && t.tapOf (xwKey 0 2 3 7) == 10 && t.elog.queue.length == 1) &&
    stops (exec (.xwMarginLow 0 2 3 4) (b0.setTap (xwKey 0 2 3 7) 9 20)) = true := by decide +kernel

/-! ## Epochs (R141, R331-R335, R353) -/

/-- Every unit has applied epoch 5, the committed one. -/
def allApplied : State :=
  (((((b0.put F.AV_EPOCH_STATUS.committed 5 19).put F.AV_EPOCH_STATUS.all 1 19).setReg R.AV_APPLIED (2 ^ 64 - 1) 19 0).setReg R.AV_APPLIED (2 ^ 64 - 1) 19 1).setReg R.AV_APPLIED (2 ^ 64 - 1) 19 2).setReg R.AV_APPLIED (2 ^ 16 - 1) 19 3
theorem test_avEpochCommit : goes (exec (.avEpochCommit (BitVec.ofNat 64 (2 ^ 32 + 6))) (allApplied.put F.ENG_EPOCH.applied 6 3)) (fun t => t.get F.AV_EPOCH_STATUS.committed 19 == 6 && !t.unitApplied 0 && t.unitApplied 3 && !t.on F.AV_EPOCH_STATUS.all 19) &&
    goes (exec (.avEpochCommit (BitVec.ofNat 64 (2 ^ 32 + 5))) allApplied) (fun t => t.get F.AV_EPOCH_STATUS.committed 19 == 5 && t.on F.AV_EPOCH_STATUS.bad_commit 19) &&
    goes (exec (.avEpochCommit (BitVec.ofNat 64 (2 ^ 32 + 6))) (allApplied.put F.AV_EPOCH_STATUS.all 0 19)) (fun t => t.on F.AV_EPOCH_STATUS.bad_commit 19) &&
    goes (exec (.avEpochCommit 6) allApplied) (fun t => t.get F.AV_EPOCH_COMMIT.epoch 19 == 6 && t.get F.AV_EPOCH_STATUS.committed 19 == 5) = true := by decide +kernel
theorem test_epochStaged : goes (exec (.epochStaged 203) allApplied) (fun t => t.get F.PL_EPOCH.staged 3 == 5) && goes (exec (.epochStaged 81) allApplied) (fun t => t.get F.BAU_EPOCH.staged 1 == 5) = true := by decide +kernel
def ready6 (f : Field) (u : Nat) : State := (allApplied.put F.AV_EPOCH_STATUS.committed 6 19).put f 6 u
theorem test_epochApply_engine : (ready6 F.ENG_EPOCH.staged 0).engineBoundary 0 = true ∧ goes (exec (.epochApply 0) (ready6 F.ENG_EPOCH.staged 0)) (fun t => t.get F.ENG_EPOCH.applied 0 == 6 && t.unitApplied 0) = true := by
  refine ⟨?_, ?_⟩ <;> decide +kernel
theorem test_epochApply_router : (ready6 F.AV_EPOCH.staged 7).routerBoundary 7 = true ∧ goes (exec (.epochApply 167) ((ready6 F.AV_EPOCH.staged 7).put F.AV_MODE_NEXT.floor_weight 3 7)) (fun t => t.get F.AV_EPOCH.applied 7 == 6 && t.get F.AV_MODE.floor_weight 7 == 3) = true := by
  refine ⟨?_, ?_⟩ <;> decide +kernel
theorem test_epochApply_port : (ready6 F.PL_EPOCH.staged 2).portBoundary 2 = true ∧ goes (exec (.epochApply 202) ((ready6 F.PL_EPOCH.staged 2).setReg R.PL_ROUTE_NEXT 7 2)) (fun t => t.get F.PL_EPOCH.applied 2 == 6 && t.reg R.PL_ROUTE 2 == 7) = true := by
  refine ⟨?_, ?_⟩ <;> decide +kernel
theorem test_epochLate : goes (exec (.epochLate 9) (((b0.put F.AV_EPOCH_STATUS.limit 1 19).setReg R.AV_APPLIED 0 19 0))) (fun t => t.on F.AV_EPOCH_STATUS.late 19 && t.lateLogged == [9] && t.elog.queue.length == 1) &&
    goes (exec (.epochLate 9) ({ b0 with lateLogged := [9] }.put F.AV_EPOCH_STATUS.limit 1 19 |>.setReg R.AV_APPLIED 0 19 0)) (fun t => t.on F.AV_EPOCH_STATUS.late 19 && t.elog.queue == []) = true := by decide +kernel

/-! ## Resets (R328-R330, R335, R460, R474-R476, R483, R497, R499, R552-R554) -/

theorem test_engineReset : goes (exec (.engineReset 65) ((inRun [add]).put F.ENG_STATUS.state 1 65)) (fun t => (t.eng 65).inReset && t.engState 65 == 0 && t.reg R.AON_ENG_RST1 == 2 && t.get F.AV_STATUS.rst_b 25 == 1 && t.unitApplied 65 && !(t.eng 0).inReset) &&
    goes (exec (.engineReset 0) (inRun [add])) (fun t => (t.eng 0).inflight == []) = true := by decide +kernel
def resetE (e : EngineId) : State := (b0.modEng e fun g => { g with inReset := true }).putEngBit R.AON_ENG_RST0 R.AON_ENG_RST1 e true
/-- Eight sweeps: taps `lo` to `lo + n - 1` pass in the first, taps 8 to 40 in the others. -/
def mask (lo n : Nat) : BitVec 64 := BitVec.ofNat 64 ((2 ^ n - 1) * 2 ^ lo)
def eight (lo n : Nat) : List (BitVec 64) := mask lo n :: List.replicate 7 (mask 8 33)
theorem test_engineResetRelease : goes (exec (.engineResetRelease 0 (eight 20 16)) (resetE 0)) (fun t => !(t.eng 0).inReset) = true := by decide +kernel
theorem test_engineResetRelease_fails : goes (exec (.engineResetRelease 0 (eight 20 15)) (resetE 0)) (fun t => (t.eng 0).inReset && t.tapOf (xwKey 0 0 8 7) == 0 && t.reg R.AON_ENG_FAIL0 == 1) &&
    goes (exec (.engineResetRelease 0 (eight 20 16)) ((resetE 0).put F.AON_RESET.layer_a 1)) (fun t => (t.eng 0).inReset && t.reg R.AON_ENG_RST0 == 0) = true := by decide +kernel
theorem test_layerReset : goes (exec (.layerReset true) b0) (fun t => (t.eng 79).inReset && !(t.eng 39).inReset) = true := by decide +kernel
/-- An engine of the layer: one that fails, one that is released, and one held by its own bit. -/
def layerA (e : EngineId) : State := b0.modEng e fun g => { g with inReset := true }
theorem test_layerRelease_fails : (((layerA 1).layerRelease [(1, eight 20 15)] 1).eng 1).inReset = true := by decide +kernel
theorem test_layerRelease : (((layerA 2).layerRelease [(2, eight 20 16)] 2).eng 2).inReset = false := by decide +kernel
theorem test_layerRelease_held : (((resetE 0).layerRelease [(0, eight 20 16)] 0).eng 0).inReset = true := by decide +kernel
theorem test_layerResetRelease : goes (exec (.layerResetRelease false []) (b0.put F.AON_RESET.layer_a 1)) (fun t => t.get F.AON_RESET.layer_a == 0) = true := by decide +kernel

/-- Memory with a byte of flash and one of DRAM. -/
def filled : State := (b0.setBytes (4 * 2 ^ 48 + 5) [7#8]).setBytes 64 [9#8]
theorem test_aonResetBlock : goes (exec .aonResetBlock (filled.setBoot fun b => { b with aonReset := false })) (fun t => t.get F.AON_STATUS.cause == 2 && t.get F.AON_STATUS.stage == 1 && t.get F.AON_STATUS.boots == 1 && t.byte (4 * 2 ^ 48 + 5) == 7#8 && t.byte 64 == 0#8) = true := by decide +kernel
theorem test_resetN : goes (exec .resetNAssert b0) (fun t => t.get F.AON_STATUS.cause == 1 && t.get F.AON_STATUS.stage == 0 && t.boot.holdN && t.get F.PIN_STATUS.reset_n == 0) &&
    goes (exec .resetNDeassert (b0.setBoot fun b => { b with holdN := true, aonReset := false })) (fun t => !t.boot.holdN && t.get F.AON_STATUS.stage == 1) = true := by decide +kernel
theorem test_vpmPgLost : goes (exec .vpmPgLost b0) (fun t => t.get F.AON_STATUS.cause == 7 && t.get F.PIN_STATUS.pg_lost == 1) = true := by decide +kernel
theorem test_watchdog : goes (exec .watchdogExpiry ((b0.put F.AON_WDOG.enable 1).put F.AON_STATUS.stage 8)) (fun t => t.get F.AON_STATUS.cause == 3 && t.get F.AON_BOOT.fails == 1 && t.get F.AON_BOOT.slot == 0) &&
    goes (exec .watchdogExpiry (((b0.put F.AON_WDOG.enable 1).put F.AON_STATUS.stage 8).put F.AON_BOOT.fails 1)) (fun t => t.get F.AON_BOOT.fails == 0 && t.get F.AON_BOOT.slot == 1) &&
    goes (exec .watchdogExpiry ((b0.put F.AON_WDOG.enable 1).put F.AON_BOOT.fails 1)) (fun t => t.get F.AON_BOOT.fails == 1 && t.get F.AON_BOOT.slot == 0) = true := by decide +kernel
theorem test_service : goes (exec .service (((b0.put F.AON_STATUS.stage 11).put F.AON_BOOT.fails 1).setBoot fun b => { b with firmware := true })) (fun t => t.get F.AON_STATUS.stage == 12 && t.get F.AON_BOOT.fails == 0) = true := by decide +kernel
theorem test_tripFire : goes (exec (.tripFire 5) b0) (fun t => t.get F.AON_STATUS.cause == 5 && t.get F.THM_TRIP.comp == 5 && t.boot.holdAon && t.pins.thermtrip) = true := by decide +kernel
theorem test_reference : goes (exec .referenceLost b0) (fun t => t.get F.AON_STATUS.cause == 4 && t.boot.holdRef && t.get F.CLK_STATUS.ref_ok == 0) &&
    goes (exec .referenceRestored (b0.setBoot fun b => { b with holdRef := true, aonReset := false })) (fun t => t.get F.CLK_STATUS.ref_ok == 1 && t.get F.AON_STATUS.stage == 1) = true := by decide +kernel
theorem test_crystalLost : goes (exec .crystalLost b0) (fun t => t.get F.CLK_STATUS.xtal_ok == 0 && t.elog.queue.length == 1) = true := by decide +kernel
theorem test_alwaysOn : goes (exec .alwaysOnResetExit State.reset) (fun t => t.get F.AON_STATUS.stage == 1 && !t.boot.aonReset) && goes (exec .alwaysOnReset filled) (fun t => t.byte (4 * 2 ^ 48 + 5) == 7#8 && t.byte 64 == 0#8 && t.get F.AON_STATUS.stage == 0) &&
    goes (exec .vaonOrAuxAbsent filled) (fun t => t.pins.absent && t.byte (4 * 2 ^ 48 + 5) == 7#8) = true := by decide +kernel
theorem test_no_power : ∀ c ∈ [Instr.alwaysOnResetExit, .stageRails, .vpmPowerGood, .stageRom], exec c { State.reset with pins := { Pins.fresh with absent := true } } = .fault .noPower := by
  simp only [List.mem_cons, List.not_mem_nil, or_false]
  rintro c (rfl | rfl | rfl | rfl) <;> rfl

/-! ## Start-up (R268, R327, R409, R456, R468, R477-R493, R500, R552, R554, R563) -/

/-- The block in a stage of its start. -/
def stage (n : Nat) : State := State.reset.put F.AON_STATUS.stage n
theorem inStage_stage : InStage 4 (stage 4) ∧ InStage 10 (stage 10) := ⟨⟨by decide +kernel, by decide +kernel, by decide +kernel⟩, by decide +kernel, by decide +kernel, by decide +kernel⟩
def vpmOn : State := { stage 1 with pins := { Pins.fresh with vpmEn := true } }
theorem test_stageRails : goes (exec .stageRails (stage 1)) (fun t => t.pins.vpmEn && t.get F.CLK_STATUS.floor_lock == 1 && t.get F.AON_STATUS.stage == 1) &&
    goes (exec .vpmPowerGood vpmOn) (fun t => t.get F.AON_STATUS.stage == 2 && t.get F.PIN_STATUS.vpm_pg == 1) &&
    goes (exec .vpmPgTimeout vpmOn) (fun t => t.get F.AON_STATUS.held == 1 && !t.pins.vpmEn) = true := by decide +kernel
theorem test_stageTripTest : goes (exec .stageRom (stage 2)) (fun t => t.get F.AON_STATUS.stage == 3) && goes (exec (.stageTripTest []) (stage 3)) (fun t => t.get F.THM_STATUS.trip_armed == 1 && t.get F.AON_STATUS.stage == 4) &&
    goes (exec (.stageTripTest [3]) (stage 3)) (fun t => t.get F.AON_STATUS.held == 1 && t.get F.THM_STATUS.trip_armed == 0) = true := by decide +kernel
/-- Step 7 needs 0.75 V (R463). -/
theorem test_stageVpm : goes (exec (.stageVpm true) { stage 4 with power := { Power.fresh with lastSeq := some 1 } }) (fun t => t.get F.AON_STATUS.stage == 5 && t.outbox.length == 9 && t.clock.vcoreMv == setPoint 7) &&
    goes (exec (.stageVpm true) (stage 4)) (fun t => t.get F.AON_STATUS.held == 1 && t.outbox.length == 8) = true := by decide +kernel
theorem test_stageFuses : goes (exec (.stageFuses false) (stage 5)) (fun t => t.get F.AON_STATUS.held == 1 && t.get F.AON_STATUS.stage == 5) = true := by decide +kernel
theorem test_fuseEntries : fuseEntries [0x10000000 + 5 * 2 ^ 21 + 130 * 2 ^ 13, 0xFFFFFFFF, 0x20000000 + 79 * 2 ^ 21 + 2047 * 2 ^ 10, 1567, 0x20000000, 1568, 0xF0000000, 0x10000000] =
    ([⟨1, 5 + 130 * 2 ^ 8⟩, ⟨2, 79 + 2047 * 2 ^ 8 + 1567 * 2 ^ 20⟩], 1) := by decide +kernel
/-- Flash that holds no image. -/
theorem test_stageImages : goes (exec .stageImages (stage 6)) (fun t => t.get F.AON_STATUS.held == 1 && t.get F.AON_STATUS.stage == 6) = true := by decide +kernel
def defect (d : Defect) : State := (stage 7).setBoot fun b => { b with defects := [d] }
theorem test_stageRepair_none : (stage 7).repairs = [] ∧ ledgerSlots - ((stage 7).usedSlots (stage 7).activeBank).length ≥ 1024 ∧
    goes (exec .stageRepair (stage 7)) (fun t => t.get F.AON_STATUS.stage == 8 && t.get F.AON_STATUS.cold == 1) = true := by refine ⟨?_, ?_, ?_⟩ <;> decide +kernel
theorem test_stageRepair : goes (exec .stageRepair (defect ⟨2, 5 + 7 * 2 ^ 8 + 9 * 2 ^ 20⟩)) (fun t => Tbl.get (fun _ => 0) t.spareRow (5 * 2 ^ 22 + 7 * 2 ^ 11 + 9) == 1536 && t.get F.AON_STATUS.stage == 8) &&
    goes (exec .stageRepair (defect ⟨3, 1 + 2 ^ 8 + 4 * 2 ^ 16⟩)) (fun t => t.boot.lanes == [(1, true, 4)]) &&
    goes (exec .stageRepair (defect ⟨4, 3 + 5 * 2 ^ 8⟩)) (fun t => (t.sq 3).ways.length == 15 && !(t.sq 3).ways.contains 5) &&
    goes (exec .stageRepair (defect ⟨6, 5⟩)) (fun t => (t.eng 5).fallback && !(t.eng 5).mappedOut) &&
    goes (exec .stageRepair (defect ⟨7, 5⟩)) (fun t => (t.eng 5).mappedOut && !(t.eng 5).dramOut) = true := by decide +kernel
/-- A cold start, with a bundle of column 0 that finds tap 9 at step 3. -/
def coldStart : State := (stage 8).put F.AON_STATUS.cold 1
theorem test_stageCrosswalk_hypotheses : InStage 8 coldStart ∧ coldStart.on F.AON_STATUS.cold = true ∧ xwPresent 2 3 = true ∧ coldStart.laneHolds [] = false ∧ coldStart.laneHolds [xwKey 0 2 3 3] = true := by
  refine ⟨⟨?_, ?_, ?_⟩, ?_, ?_, ?_, ?_⟩ <;> decide +kernel
theorem test_stageMemory : goes (exec (.stageMemory [(5, 3)]) (stage 9)) (fun t => t.boot.defects == [⟨1, 5 + 3 * 2 ^ 8⟩] && t.get F.AON_STATUS.stage == 10) && goes (exec (.stageMemory []) (stage 9)) (fun t => t.get F.AON_STATUS.stage == 10) = true := by decide +kernel
theorem test_stageSelfTest : (stage 10).candidates = [] ∧ goes (exec (.stageSelfTest [0] [] []) (stage 10)) (fun t => t.get F.AON_STATUS.held == 1 && t.get F.AON_STATUS.stage == 10) = true := by refine ⟨?_, ?_⟩ <;> decide +kernel
theorem test_stageFirmware : goes (exec .stageFirmware (stage 11)) (fun t => t.boot.firmware) && stops (exec .stageFirmware ((stage 11).setBoot fun b => { b with firmware := true })) = true := by decide +kernel

/-! ## Accesses of control cores (R11-R14, R28, R33, R35, R38) -/

/-- An offset of control space as an address. -/
def ctl (off : Nat) : Word := BitVec.ofNat 64 (15 * 2 ^ 48 + off)
def fits (t : State) (c : Code) (b : List Byte) : Bool := t.outbox == [.reply (.core 0) (2 ^ 32) c 0 b]
theorem test_core_register : goes (exec (.controlCoreAccess 0 .global (ctl (R.ENG_STATUS.key 0 0)) (.read 8)) b0) (fun t => fits t .ok (leBytes 8 (b0.reg R.ENG_STATUS 0))) &&
    goes (exec (.controlCoreAccess 0 .global (ctl (R.ENG_ARG.key 0 2)) (.write (leBytes 8 77))) b0) (fun t => fits t .ok [] && t.reg R.ENG_ARG 0 2 == 77) &&
    goes (exec (.controlCoreAccess 0 .global (ctl (R.CLK_BTIME.key 0 0)) (.read 8)) b0) (fun t => fits t .ok (leBytes 8 0)) = true := by decide +kernel
/-- A misaligned access; half a register; an access that crosses two; a unit that does not exist; a place without a register. -/
theorem test_core_refused : goes (exec (.controlCoreAccess 0 .global (ctl (R.ENG_ARG.key 0 2 + 4)) (.read 4)) b0) (fun t => fits t .accessDenied []) &&
    goes (exec (.controlCoreAccess 0 .global (ctl (R.ENG_ARG.key 80 2 + 4)) (.read 4)) b0) (fun t => fits t .accessDenied []) &&
    goes (exec (.controlCoreAccess 0 .global (ctl (R.ENG_ARG.key 80 2)) (.read 8)) b0) (fun t => fits t .unmapped []) &&
    goes (exec (.controlCoreAccess 0 .global (ctl 0xF8) (.read 8)) b0) (fun t => fits t .ok (List.replicate 8 0#8)) && (assigned 0xF8).isNone = true := by decide +kernel
theorem test_core_memory : goes (exec (.controlCoreAccess 0 .global (BitVec.ofNat 64 (cst 4)) (.write [7#8])) b0) (fun t => fits t .ok [] && t.byte (spCore + 4) == 7#8) &&
    goes (exec (.controlCoreAccess 0 .global (BitVec.ofNat 64 (5 * 2 ^ 48)) (.read 4)) b0) (fun t => fits t .unmapped []) &&
    goes (exec (.controlCoreAccess 0 .global (BitVec.ofNat 64 (cst 4)) (.read 1)) (b0.modEng 0 fun g => { g with inReset := true })) (fun t => fits t .targetReset []) &&
    goes (exec (.controlCoreAccess 0 .global (BitVec.ofNat 64 (cst 4)) (.read 1)) (b0.modEng 0 fun g => { g with mappedOut := true })) (fun t => fits t .unmapped []) &&
    goes (exec (.controlCoreAccess 0 .global (BitVec.ofNat 64 (cst 4)) (.read 1)) (b0.put F.AON_STATUS.stage 0)) (fun t => fits t .targetReset []) = true := by decide +kernel

theorem packets_in_sram (n : Nat) (h : n ≤ 0x1000000) : inSram pktBuf n = true := by
  have h : inWindow pktBuf n pktBuf 0x1000000 = true := by simp [inWindow, h]
  simp [inSram, h]
/-- A core's own accesses to the packet buffers and to the measurement log (R380, R509, R521). -/
theorem test_core_own : inSram pktBuf 1 = true ∧ sramReadOnly pktBuf 1 = false ∧ inSram mlog 1 = true ∧ sramReadOnly mlog 1 = true :=
  ⟨packets_in_sram 1 (by decide), by decide, by simp [inSram, show sramReadOnly mlog 1 = true by decide], by decide⟩
theorem test_core_own_write : goes (exec (.controlCoreAccess 0 (.own false) (BitVec.ofNat 64 mlog) (.write [7#8])) b0) (fun t => fits t .accessDenied []) &&
    goes (exec (.controlCoreAccess 0 (.own false) (BitVec.ofNat 64 mlog) (.read 1)) b0) (fun t => fits t .ok [0#8]) &&
    goes (exec (.controlCoreAccess 0 (.own true) (BitVec.ofNat 64 mlog) (.read 1)) b0) (fun t => fits t .dataErr []) &&
    goes (exec (.controlCoreAccess 0 (.own false) (BitVec.ofNat 64 pktBuf) (.write [7#8])) b0) (fun t => fits t .ok [] && t.readSram pktBuf 1 == [7#8]) = true := by decide +kernel

/-! ## The memo and the ledger (R487, R488, R492-R494) -/

/-- The packet buffers lie in Floor SRAM: a body at their start. -/
def sealing (magic : Nat) : State := ((b0.put F.AON_MEMO.busy 1).setBoot fun b => { b with memoSrc := pktBuf }).setBytes (spSram + pktBuf) (leBytes 4 magic ++ leBytes 4 1)
theorem memo_in_sram : inSram pktBuf memoBody = true := by
  have h : inWindow pktBuf memoBody pktBuf 0x1000000 = true := by decide +kernel
  simp [inSram, h]
theorem test_memoSeal_hypotheses : (sealing 0x4F4D454D).on F.AON_MEMO.busy = true ∧ (sealing 0x4F4D454D).boot.memoSrc = pktBuf ∧ (sealing 0x4F4D454D).newestMemo = none := by refine ⟨?_, ?_, ?_⟩ <;> decide +kernel
theorem test_ledgerAppend : (b0.put F.AON_LEDGER.busy 1).erasedSlot 0 = some 0 ∧ goes (exec (.ledgerAppendDone false) (b0.put F.AON_LEDGER.busy 1)) (fun t => t.get F.AON_LEDGER.code == 1 && t.get F.AON_LEDGER.busy == 0) = true := by
  refine ⟨?_, ?_⟩ <;> decide +kernel

/-! ## The links (R29, R323-R325, R341-R376, R419, R470, R471) -/

/-- Block 5 of a ring of 16 along x; port 0, to block 6, in a state. -/
def torus (st : Nat) : State := ((((b5.put F.AON_BLOCK_ID.lock 1).put F.PL_TOPO.xs_m1 15).put F.PL_CTL.enable 1 0).put F.PL_STATUS.state st 0).put F.TOLL_CFG.regions 15 0
def portIs (s : State) (f : Port → Port) : State := s.setPort 0 (f (s.port 0))
/-- Port 0 is ACTIVE, with credits both ways and no keys. -/
def active : State := ((portIs (torus 4) fun x => { x with txCred := Vector.replicate 10 100, rxCred := Vector.replicate 10 100, rxFree := Vector.replicate 10 100 }).put F.PL_STATUS.partner 6 0).put F.PL_STATUS.partner_valid 1 0
def lostWith (cause : Nat) (t : State) : Bool := t.portState 0 == 5 && t.get F.PL_STATUS.cause 0 == cause && t.elog.queue.length == 1

theorem test_plEnable : goes (exec (.plEnable 0) ((torus 0).put F.PL_CTL.enable 0 0)) (fun t => t.portState 0 == 1 && t.on F.PL_CTL.enable 0 && t.get F.PL_STATUS.trains 0 == 1) &&
    goes (exec (.plEnable 2) (torus 0)) (fun t => t.portState 2 == 0 && t.on F.PL_CTL.enable 2) && goes (exec (.plEnable 0) active) (fun t => t.portState 0 == 4) &&
    goes (exec (.plEnable 0) (((torus 0).put F.PL_CTL.enable 0 0).put F.AON_STATUS.held 1)) (fun t => t.portState 0 == 0) = true := by decide +kernel
theorem test_plDisable : goes (exec (.plDisable 0) active) (fun t => t.portState 0 == 0 && !t.on F.PL_CTL.enable 0 && !t.on F.PL_STATUS.partner_valid 0) = true := by decide +kernel
theorem test_holdoffExpiry : goes (exec (.holdoffExpiry 0) (torus 5)) (fun t => t.portState 0 == 1) && stops (exec (.holdoffExpiry 0) (portIs (torus 5) fun x => { x with failed := true })) = true := by decide +kernel
theorem test_electricalDone : goes (exec (.electricalDone 0 [3, 7] [] false) (torus 1)) (fun t => t.portState 0 == 2 && t.get F.PL_LANES.rx_out0 0 == 3 && t.get F.PL_LANES.rx_out1 0 == 7 && !(t.port 0).narrow) &&
    goes (exec (.electricalDone 0 [3, 7, 9] [] false) (torus 1)) (fun t => t.portState 0 == 2 && (t.port 0).narrow && (t.port 0).rxOut == [3, 7, 9] && (lanesIn (t.port 0).rxOut true).take 4 == [0, 1, 2, 4]) &&
    goes (exec (.electricalDone 0 [3, 7, 9] [] false) ((torus 1).put F.PL_CTL.allow_half 0 0)) (fun t => lostWith 7 t && (t.port 0).failed) &&
    goes (exec (.electricalDone 0 (List.range 19 |>.map (Fin.ofNat 34)) [] false) (torus 1)) (lostWith 7) = true := by decide +kernel
/-- A memo at offset 0x2400000 whose record of port 0 is valid, or not, with 5 for an equaliser setting. -/
def warmPort (v : Nat) : State := (((portIs (torus 1) fun x => { x with warm := true }).setBoot fun b => { b with memo := some 0x2400000 }).setBytes (spFlash + 0x2400000 + 0x10440 + 0x33) [BitVec.ofNat 8 v]).setBytes (spFlash + 0x2400000 + 0x10440 + 0x40) [5#8]
theorem test_electricalDone_warm : goes (exec (.electricalDone 0 [] [] true) (warmPort 1)) (fun t => t.portState 0 == 2 && (t.port 0).eq.take 1 == [5#8]) && goes (exec (.electricalDone 0 [] [] true) (warmPort 0)) (fun t => t.portState 0 == 1 && !(t.port 0).warm) = true := by decide +kernel
theorem test_alignDone : goes (exec (.alignDone 0 true (-3)) (torus 2)) (fun t => t.portState 0 == 3 && (t.port 0).asym == -3 && t.outbox.length == 1) && goes (exec (.alignDone 0 false 0) (torus 2)) (lostWith 5) &&
    goes (exec (.alignDone 0 true 0) ((torus 2).put F.AON_BLOCK_ID.lock 0)) (lostWith 9) = true := by decide +kernel
def helloOf (id role : Nat) : Hello := ⟨BitVec.ofNat 12 id, BitVec.ofNat 3 role, [], [], [], [], 0⟩
/-- The port keeps its own HELLO, and its ephemeral private key is 1. -/
def saying (st : Nat) : State := portIs (torus st) fun x => { x with keys := { x.keys with mine := some (helloOf 5 0), scalar := 1 } }
theorem test_hello : (torus 3).expectedId 0 = some 6 ∧ (torus 3).expectedId 1 = some 4 ∧ goes (exec (.hello 0 (helloOf 6 1)) (saying 3)) (fun t => (t.port 0).hello == some (helloOf 6 1) && t.outbox.length == 1) &&
    goes (exec (.hello 0 (helloOf 6 0)) (torus 3)) (lostWith 6) && goes (exec (.hello 0 (helloOf 7 1)) (torus 3)) (lostWith 6) = true := by refine ⟨?_, ?_, ?_⟩ <;> decide +kernel
/-- Beside traffic: one that this block began, and one that the partner begins (R358). -/
theorem test_hello_rekey : goes (exec (.hello 0 (helloOf 6 1)) (portIs (saying 4) fun x => { x with rekeying := true })) (fun t => (t.port 0).hello == some (helloOf 6 1) && t.outbox.length == 1) &&
    goes (exec (.hello 0 (helloOf 6 1)) (torus 4)) (fun t => (t.port 0).rekeying && (t.port 0).hello == some (helloOf 6 1) && t.outbox.length == 2) = true := by decide +kernel
/-- The partner's ephemeral key is the generator, so the shared secret is its abscissa; or it names no point. -/
def greeted (st : Nat) (pub : List Byte) : State := portIs (saying st) fun x => { x with hello := some { helloOf 6 1 with pubKey := pub }, txSeq := 9 }
def generator : List Byte := beBytes 97 0x4aa87ca22be8b05378eb1c71ef320ad746e1d3b628ba79b9859f741e082542a385502f25dbf55296c3a545e3872760ab73617de4a96262c6f5d9e98bf9292dc29f8f41dbd289a147ce9da3113b5f0b8c00a60b1ce1d7e819d7a431d7c90ea0e5f
theorem test_sharedSecret : sharedSecret 1 generator = some (sliceOf generator 1 48) := by decide +kernel
theorem test_finish_fails : goes (exec (.finish 0 []) (greeted 3 [])) (lostWith 5) && goes (exec (.finish 0 []) (greeted 4 [])) (lostWith 5) = true := by decide +kernel
/-- A key, and a signature under it over the digest of no bytes, by another implementation. -/
def aliasPub : List Byte := beBytes 97 0x4ba2eae184d4fcd09acbf5436104d5a5a96426f75021790fdce6b2d574476d6b997ba2e3829a57f1896663ebdd6129c38746b4361316516f6f5da2baf1e675da1a0b9dceb0df6591a6d24dd9f4477f48975c74746a7e278729708c75a80effb9a
def aliasSig : List Byte := beBytes 48 0xe2c1829d46b258e13364c9fac6c78da887f6dc4452f81d0d30331efd8fdb87689d3b7aff9dbd97ef546b4bc52262e56c ++ beBytes 48 0x38b060a751ac96384cd9327eb1b1e36a21fdb71114be07434c0cc7bf63f6e1da274edebfe76f65fbd51ad2f14898b95b
theorem alias_signed : ecdsaOk aliasPub (sha384 []) aliasSig = true := by decide +kernel
/-- Where the certificates are in form and hold that key, and the two HELLOs have no bytes, the FINISH verifies: what a certificate and a HELLO look like is not modelled. -/
theorem test_finishOk (s : State) (m h : Hello) (f : ∀ c, Config.certFormed c = true) (g : ∀ c k, Config.certSigned c k = true) (d : ∀ c, Config.certDebug c = false) (k : ∀ c, Config.certKey c = aliasPub)
    (b : ∀ x y, Config.helloBytes x y = []) : s.finishOk m h aliasSig = true := by
  simp only [State.finishOk, State.chainOk, f, g, d, k, b, alias_signed, Bool.not_false, Bool.and_self]
theorem test_plDown : goes (exec (.plDown 0) active) (fun t => lostWith 8 t && t.net.suspects == [6] && t.outbox.length == 2) && goes (exec (.plDown 0) (torus 5)) (fun t => t.outbox == []) && goes (exec (.noFlitTimeout 0) active) (lostWith 1) = true := by decide +kernel
theorem test_rekey : goes (exec (.plRekey 0) active) (fun t => (t.port 0).rekeying && t.outbox.length == 1) && goes (exec (.rekeyTimer 0) active) (fun t => (t.port 0).rekeying) && goes (exec (.plRekey 0) (torus 1)) (fun t => !(t.port 0).rekeying) &&
    goes (exec (.keyPhaseAdvance 0) (portIs active fun x => { x with txSeq := 2 ^ 36 })) (fun t => (t.port 0).kphaseTx && (t.port 0).phaseStart == 2 ^ 36) = true := by decide +kernel
/-- Symbols corrected in this millisecond on logical lane `i`. -/
def erring (s : State) (i n : Nat) : State := portIs s fun x => { x with laneErrs := [(i, n)] }
theorem test_laneErrorWindow : goes (exec (.laneErrorWindow 0) (erring active 4 0x2001)) (fun t => (t.port 0).repair == some ⟨4, some 32, 256⟩ && t.get F.PL_LANES.swap 0 == 32 && (t.port 0).laneErrs == [] && t.outbox.length == 1) &&
    goes (exec (.laneErrorWindow 0) (erring active 4 0x2000)) (fun t => (t.port 0).repair == none) &&
    goes (exec (.laneErrorWindow 0) (erring (portIs active fun x => { x with rxOut := [1, 2] }) 4 0x2001)) (fun t => (t.port 0).repair == some ⟨6, none, 256⟩) &&
    goes (exec (.laneErrorWindow 0) ((erring (portIs active fun x => { x with rxOut := [1, 2] }) 4 0x2001).put F.PL_CTL.allow_half 0 0)) (fun t => (t.port 0).repair == none) = true := by decide +kernel
def switching (spare : Option Nat) : State := portIs active fun x => { x with repair := some ⟨4, spare, 7⟩, rxPair := 7 }
theorem test_laneSwitch : goes (exec (.laneSwitch 0) (switching (some 32))) (fun t => t.get F.PL_LANES.rx_out0 0 == 4 && (t.port 0).rxOut == [4] && t.get F.PL_LANES.swap 0 == 0x3F && (t.port 0).repair == none && t.elog.queue.length == 1) &&
    goes (exec (.laneSwitch 0) (switching none)) (fun t => t.on F.PL_STATUS.half 0 && (t.port 0).narrow) && stops (exec (.laneSwitch 0) (portIs (switching none) fun x => { x with rxPair := 6 })) = true := by decide +kernel

/-! ### Codewords and flits (R341-R348, R357, R376) -/

theorem clean_syn : rsSyndromes (List.replicate 272 0) = (List.range 15).map fun _ => 0 := by
  have z (x : Nat) : gfEval (List.replicate 272 0) x = 0 := by
    have m : gfMul 0 x = 0 := by
      have h (l : List Nat) : l.foldl (fun (r : Nat × Nat) i => (if nbit x i then r.1 ^^^ r.2 else r.1, gfAlpha r.2)) (0, 0) = (0, 0) := by
        induction l with
        | nil => rfl
        | cons a l ih => simpa [gfAlpha] using ih
      simp [gfMul, h]
    have h (n : Nat) : gfEval (List.replicate n 0) x = 0 := by
      induction n with
      | zero => rfl
      | succ n ih => simpa [gfEval, List.replicate_succ, m] using ih
    exact h 272
  simp only [rsSyndromes, z]
theorem clean_all : ((rsSyndromes (List.replicate 272 0)).all fun y => y == 0) = true := by rw [clean_syn]; decide
theorem test_rsDecode_clean : rsDecode (fromLanes false (lanesIn [] false) [] 0) = some (List.replicate 272 0, []) := by
  have w : fromLanes false (lanesIn [] false) [] 0 = List.replicate 272 0 := by decide +kernel
  rw [w, rsDecode]
  exact if_pos clean_all
/-- Words in which no symbol is 0x155 but those of the first lane, which brings two of them, or seventeen; and their syndromes. -/
def twoWrong : List Nat := ((List.replicate 272 0).set 0 0x155).set 16 0x155
def manyWrong : List Nat := (List.range 272).map fun i => if i % 16 = 0 then 0x155 else 0
def twoSyn : List Nat := [0, 544, 809, 228, 236, 963, 194, 229, 234, 360, 522, 746, 78, 16, 583]
theorem two_word : fromLanes false (lanesIn [] false) [(0, List.replicate 10 1#2)] 0 = twoWrong := by decide +kernel
set_option maxRecDepth 100000 in
theorem two_syn : rsSyndromes twoWrong = twoSyn := by decide +kernel
theorem two_loc : (rsLocator twoSyn).c = [1, 340, 346] ∧ (rsLocator twoSyn).len = 2 := by decide +kernel
theorem two_places : (Locator.mk [1, 340, 346] [] 0 0 0).places = [0, 16] := by decide +kernel
def manySyn : List Nat := [341, 255, 201, 600, 229, 350, 819, 979, 583, 682, 510, 970, 610, 19, 682]
theorem many_word : fromLanes false (lanesIn [] false) [(0, List.replicate 85 1#2)] 0 = manyWrong := by decide +kernel
set_option maxRecDepth 100000 in
theorem many_syn : rsSyndromes manyWrong = manySyn := by decide +kernel
theorem many_loc : (rsLocator manySyn).c = [1, 483, 182, 889, 439, 150, 970, 234] ∧ (rsLocator manySyn).len = 7 := by decide +kernel
theorem many_places : (Locator.mk [1, 483, 182, 889, 439, 150, 970, 234] [] 0 0 0).places = [] := by decide +kernel
theorem two_fix : ([0, 16].foldl (fun w j => w.set j (w.getD j 0 ^^^ (Locator.mk [1, 340, 346] [] 0 0 0).error twoSyn j)) twoWrong) = List.replicate 272 0 := by decide +kernel
/-- A locator finds its errors, and their values, from its polynomial alone. -/
theorem places_c (x : Locator) : x.places = (Locator.mk x.c [] 0 0 0).places := rfl
theorem error_c (syn : List Nat) (x : Locator) : x.error syn = (Locator.mk x.c [] 0 0 0).error syn := rfl
theorem test_rsDecode_corrects : rsDecode (fromLanes false (lanesIn [] false) [(0, List.replicate 10 1#2)] 0) = some (List.replicate 272 0, [0, 16]) := by
  have n : ¬ (twoSyn.all fun x => x == 0) = true := by decide
  simp only [two_word, rsDecode, two_syn, places_c (rsLocator twoSyn), error_c twoSyn (rsLocator twoSyn), two_loc.1, two_loc.2, two_places, two_fix]
  rw [if_neg n, if_pos ⟨by decide, by decide, clean_all⟩]
theorem test_rsDecode_fails : rsDecode (fromLanes false (lanesIn [] false) [(0, List.replicate 85 1#2)] 0) = none := by
  have n : ¬ (manySyn.all fun x => x == 0) = true := by decide
  simp only [many_word, rsDecode, many_syn, places_c (rsLocator manySyn), many_loc.1, many_loc.2, many_places]
  rw [if_neg n, if_neg fun h => absurd h.2.1 (by decide)]

/-- The key of both directions of a port, whose bytes are zero. -/
def zeroKey : LinkKey := ⟨List.replicate 32 0#8, List.replicate 4 0#8⟩
def linked (f : Port → Port) : State := portIs active fun x => f { x with keys := { x.keys with tx := zeroKey, rx := zeroKey } }
/-- The header of the first flit, and that flit. -/
def hdr (t : Nat) : FlitHdr := ⟨0, 0xFFFFFFFF, false, BitVec.ofNat 2 t, false, 0, true, 7⟩
def wire (h : FlitHdr) (area : List Byte) : List Byte := flitBytes zeroKey h (areaOf area)
theorem xorBytes_twice (a b : List Byte) (h : a.length ≤ b.length) : xorBytes (xorBytes a b) b = a := by
  induction a generalizing b with
  | nil => rfl
  | cons x a ih =>
    cases b with
    | nil => simp at h
    | cons y b => simpa [xorBytes, BitVec.xor_assoc] using ih b (by simpa using h)
theorem stream_length : (gcmStream (roundKeys zeroKey.key) (zeroKey.iv 0#64) 288).length = 288 := by decide +kernel
theorem areaOf_length (l : List Byte) : (areaOf l).length = 288 := by simp [areaOf]; omega
/-- A flit with sequence number 0 opens with its area. -/
theorem opens_wire (h : FlitHdr) (l : List Byte) (hb : h.bytes.length = 16) (hs : h.seq = 0#64) (ho : FlitHdr.of (wire h l) = h) : openFlit zeroKey (wire h l) = some (areaOf l) := by
  have n : (zeroKey = LinkKey.none) = False := by simp [zeroKey, LinkKey.none]
  have s : (xorBytes (areaOf l) (gcmStream (roundKeys zeroKey.key) (zeroKey.iv 0#64) 288)).length = 288 := by simp [xorBytes, areaOf_length, stream_length]
  rw [openFlit, ho]
  simp only [wire, flitBytes, n, if_false, gcmSeal, hs, areaOf_length]
  rw [List.append_assoc, List.take_left' hb, List.drop_left' hb, List.take_left' s, show 304 = 16 + 288 by rfl, ← List.drop_drop, List.drop_left' hb, List.drop_left' s]
  simp only [gcmOpen, if_true, s, Option.some.injEq]
  exact xorBytes_twice _ _ (by simp [areaOf_length, stream_length])
/-- It is accepted where it is the next one. -/
theorem takes (s : State) (h : FlitHdr) (l : List Byte) (hb : h.bytes.length = 16) (hs : h.seq = 0#64) (ho : FlitHdr.of (wire h l) = h) (hk : h.kphase = (s.port 0).kphaseRx) (hr : (s.port 0).rxNext = 0)
    (hx : (s.port 0).keys.rx = zeroKey) (ha : s.portActive 0 = true) : s.takeFlit 0 (wire h l) = s.acceptFlit 0 (s.port 0) h (areaOf l) ∧ Opens (s.port 0) (wire h l) (areaOf l) (s.port 0) := by
  have o := opens_wire h l hb hs ho
  have n : h.seq.toNat = (s.port 0).rxNext := by rw [hs, hr]; rfl
  have w : (s.port 0).openWith h (wire h l) = .accept (areaOf l) (s.port 0) := by
    simp only [Port.openWith, if_pos hk, hx, o, if_pos n]
  refine ⟨?_, .inl ⟨by rw [ho, hk], by rw [hx, o], by rw [ho, n], rfl⟩⟩
  simp only [State.takeFlit, ho, w, if_pos ha]
/-- What port 0 of a state that accepts a flit of these contents then is. -/
def taken (f : Port → Port) (h : FlitHdr) (l : List Byte) : State := (linked f).acceptFlit 0 ((linked f).port 0) h (areaOf l)
theorem test_flit_opens : (linked id).takeFlit 0 (wire (hdr 1) []) = taken id (hdr 1) [] ∧ Opens ((linked id).port 0) (wire (hdr 1) []) (areaOf []) ((linked id).port 0) := by
  refine takes (linked id) (hdr 1) [] ?_ ?_ ?_ ?_ ?_ ?_ ?_ <;> decide +kernel
theorem test_flit_idle : ((taken id (hdr 1) []).port 0).rxNext = 1 ∧ vget ((taken id (hdr 1) []).port 0).txCred 1 = 107 ∧ vget ((taken id (hdr 1) []).port 0).txCred 0 = 100 := by refine ⟨?_, ?_, ?_⟩ <;> decide +kernel
def sent0 (n : Nat) (x : Port) : Port := { x with replay := [⟨hdr 1, areaOf [], zeroKey, n⟩] }
def nak : FlitHdr := { hdr 1 with nak := true }
theorem test_flit_nak_opens : (linked (sent0 15)).takeFlit 0 (wire nak []) = taken (sent0 15) nak [] ∧ Opens ((linked (sent0 15)).port 0) (wire nak []) (areaOf []) ((linked (sent0 15)).port 0) := by
  refine takes (linked (sent0 15)) nak [] ?_ ?_ ?_ ?_ ?_ ?_ ?_ <;> decide +kernel
theorem test_flit_nak : (((taken (sent0 15) nak []).port 0).replay.map SentFlit.replays == [16] && (taken (sent0 15) nak []).outbox.length == 1 && lostWith 10 (taken (sent0 16) nak []) &&
    ((taken (sent0 0) { hdr 1 with ack := 0 } []).port 0).replay == []) = true := by decide +kernel
theorem test_flit_down_opens : (linked id).takeFlit 0 (wire (hdr 2) []) = taken id (hdr 2) [] ∧ Opens ((linked id).port 0) (wire (hdr 2) []) (areaOf []) ((linked id).port 0) := by
  refine takes (linked id) (hdr 2) [] ?_ ?_ ?_ ?_ ?_ ?_ ?_ <;> decide +kernel
theorem test_takeCtl : (lostWith 2 (active.takeCtl 0 (.down false)) && (active.takeCtl 0 (.down true)).get F.PL_STATUS.cause 0 == 3 && (active.takeCtl 0 (.down true)).isLost 6 &&
    ((active.takeCtl 0 (.lane 3 9)).port 0).follow == some (3, 9)) = true := by decide +kernel
/-- A tag that does not verify, since the port has no key; the eighth in a millisecond; and a flit that is not the next one. -/
theorem test_flit_bad (f : List Byte) (h : FlitHdr) (k : h.kphase = false) : (active.port 0).openWith h f = .bad := by
  have x : (active.port 0).kphaseRx = false := by decide +kernel
  have r : (active.port 0).keys.rx = LinkKey.none := by decide +kernel
  simp [Port.openWith, k, x, r, openFlit]
theorem test_flit_late : ((linked fun x => { x with rxNext := 3 }).port 0).openWith (FlitHdr.of (wire (hdr 1) [])) (wire (hdr 1) []) = .late := by
  have ho : FlitHdr.of (wire (hdr 1) []) = hdr 1 := by decide +kernel
  have o := opens_wire (hdr 1) [] (by decide +kernel) rfl ho
  have k : ((linked fun x => { x with rxNext := 3 }).port 0).kphaseRx = (hdr 1).kphase := by decide +kernel
  have x : ((linked fun x => { x with rxNext := 3 }).port 0).keys.rx = zeroKey := by decide +kernel
  have r : ((linked fun x => { x with rxNext := 3 }).port 0).rxNext = 3 := by decide +kernel
  have n : ¬ (hdr 1).seq.toNat = ((linked fun x => { x with rxNext := 3 }).port 0).rxNext := by rw [r]; decide
  rw [ho]
  simp only [Port.openWith, if_pos k.symm, x, o, if_neg n]
theorem test_flit_discarded : (((active.discardFlit 0 false).port 0).nakSent && ((active.discardFlit 0 false).port 0).rxNext == 0 && (active.discardFlit 0 false).outbox.length == 1 && (active.discardFlit 0 false).get F.PL_RETRY.replays 0 == 1 &&
    ((active.discardFlit 0 true).port 0).tagFails == [0] && (active.discardFlit 0 true).get F.PL_RETRY.tag_fail 0 == 1 &&
    lostWith 4 ((portIs active fun x => { x with tagFails := List.replicate 7 0 }).discardFlit 0 true)) = true := by decide +kernel

/-- A read of 4 bytes of this block's core store 0 by block 6, and other packets. -/
def rdPkt (src dst : Nat) (addr : Nat) : Pkt :=
  { ptype := 1, code := 0, len := 3, src := BitVec.ofNat 12 src, dst := BitVec.ofNat 12 dst, tag := 9, spur := false, rev := 0, vc := false, hasData := false, resv := false, addr := BitVec.ofNat 52 addr
    epoch := 0, epochValid := false, hops := 0, aux := 0, data := [] }
theorem test_flit_request_opens : (linked id).takeFlit 0 (wire (hdr 0) (pktBytes (rdPkt 6 5 (cst 4)))) = taken id (hdr 0) (pktBytes (rdPkt 6 5 (cst 4))) ∧ Opens ((linked id).port 0) (wire (hdr 0) (pktBytes (rdPkt 6 5 (cst 4)))) (areaOf (pktBytes (rdPkt 6 5 (cst 4)))) ((linked id).port 0) := by
  refine takes (linked id) (hdr 0) _ ?_ ?_ ?_ ?_ ?_ ?_ ?_ <;> decide +kernel
theorem test_flit_request : ((taken id (hdr 0) (pktBytes (rdPkt 6 5 (cst 4)))).port 0).inq = [rdPkt 6 5 (cst 4)] ∧ vget ((taken id (hdr 0) (pktBytes (rdPkt 6 5 (cst 4)))).port 0).rxCred 0 = 98 ∧
    nextPkt (areaOf (pktBytes (rdPkt 6 5 (cst 4)))) = .pkt (rdPkt 6 5 (cst 4)) 2 ∧ nextPkt ((areaOf (pktBytes (rdPkt 6 5 (cst 4)))).drop 32) = .done true := by refine ⟨?_, ?_, ?_, ?_⟩ <;> decide +kernel
/-- A wrong source, control space, a reserved bit. -/
theorem test_flit_refused : active.toll 0 (rdPkt 7 5 (cst 4)) = .drop 0 ∧ active.toll 0 (rdPkt 6 5 (15 * 2 ^ 48)) = .deny 4 ∧ framed { rdPkt 6 5 (cst 4) with resv := true } = false ∧
    (((taken id (hdr 0) (pktBytes (rdPkt 7 5 (cst 4)))).port 0).inq == [] && (taken id (hdr 0) (pktBytes (rdPkt 7 5 (cst 4)))).get F.TOLL_COUNT.source 0 == 1) &&
    (((taken id (hdr 0) (pktBytes (rdPkt 6 5 (15 * 2 ^ 48)))).port 0).inq == [] && (taken id (hdr 0) (pktBytes (rdPkt 6 5 (15 * 2 ^ 48)))).get F.TOLL_COUNT.denied 0 == 1) &&
    (((taken id (hdr 0) ((pktBytes (rdPkt 6 5 (cst 4))).set 7 0x80#8)).port 0).inq == [] && (taken id (hdr 0) ((pktBytes (rdPkt 6 5 (cst 4))).set 7 0x80#8)).get F.TOLL_COUNT.framing 0 == 1) = true := by refine ⟨?_, ?_, ?_, ?_⟩ <;> decide +kernel
def cplPkt (c : Nat) : Pkt := { rdPkt 6 5 0 with ptype := 3, code := BitVec.ofNat 4 c, hasData := decide (c = 0), data := if c = 0 then [1#8, 2#8, 3#8, 4#8] else [] }
theorem test_flit_completion : ((taken id (hdr 0) (pktBytes (cplPkt 0))).port 0).compq = [cplPkt 0] := by decide +kernel
/-- A packet for block 4 leaves through port 1. -/
def twoPorts : State := let s := linked id |>.put F.PL_STATUS.state 4 1; s.setPort 1 { s.port 1 with txCred := Vector.replicate 10 100 }
theorem test_flit_forwarded : sendsNow twoPorts 1 { rdPkt 6 4 0 with hops := 1 } ∧ (let t := twoPorts.acceptFlit 0 (twoPorts.port 0) (hdr 0) (areaOf (pktBytes (rdPkt 6 4 0))); t.outbox.length == 1 && (t.port 1).txSeq == 1 && (t.port 0).inq == []) = true :=
  ⟨⟨by decide +kernel, by decide +kernel, by decide +kernel, by decide +kernel, by decide +kernel⟩, by decide +kernel⟩
theorem test_idleFlit : goes (exec (.idleFlit 0) active) (fun t => (t.port 0).txSeq == 1 && t.outbox.length == 1) &&
    goes (exec (.idleFlit 0) (portIs active fun x => { x with keys := { x.keys with nextTx := some (zeroKey, 0) } })) (fun t => (t.port 0).txSeq == 1 && (t.port 0).kphaseTx && (t.port 0).keys.tx == zeroKey && (t.port 0).keys.nextTx == none) &&
    goes (exec (.creditReturn 0 0 false 5) { active with clock := { active.clock with acc := 1000 * 2 ^ 40 } }) (fun t => vget (t.port 0).rxFree 0 == 95 && vget (t.port 0).rxCred 0 == 105) && stops (exec (.creditReturn 0 0 false 5) active) = true := by decide +kernel

/-! ### Accesses, probes and time (R350-R355, R369-R373) -/

/-- 600 bytes from byte 200 on. -/
theorem test_pieces : pieces 200 600 = [(200, 56), (256, 256), (512, 256), (768, 32)] := by decide +kernel
def far6 : Word := BitVec.ofNat 64 (6 * 2 ^ 52 + cst 4)
theorem test_packetOriginate : active.freeTag = some 0 ∧ goes (exec (.packetOriginate (.core 0) far6 (.read 4) none) active) (fun t => t.net.outs == [⟨0, .core 0, 2 ^ 32, none, 2 ^ 32, some 0, 6, none⟩] && t.outbox.length == 1) &&
    goes (exec (.packetOriginate (.core 0) far6 (.read 4) none) (torus 5)) (fun t => t.net.outs == [] && t.outbox == [.reply (.core 0) (2 ^ 32) .linkDown 6 []]) &&
    goes (exec (.packetOriginate (.core 0) far6 (.read 4) none) (active.put F.AON_BLOCK_ID.valid 0)) (fun t => t.outbox == [.reply (.core 0) (2 ^ 32) .unmapped 0 []]) = true := by refine ⟨?_, ?_⟩ <;> decide +kernel
def asked (a : Nat) : State := portIs active fun x => { x with inq := [rdPkt 6 5 a] }
theorem test_remoteRequest : goes (exec (.remoteRequest 0) ((asked (cst 4)).setBytes (spCore + 4) (leBytes 4 0x04030201))) (fun t => (t.port 0).inq == [] && t.outbox.length == 1) &&
    goes (exec (.remoteRequest 0) (asked (4 * 2 ^ 48))) (fun t => (t.port 0).inq == [] && t.outbox.length == 1) &&
    goes (exec (.remoteRequest 0) ((asked (cst 4)).put F.PWR_RG_STATUS.state 1 1)) (fun t => (t.port 0).inq == [] && t.parked.length == 1 && t.get F.PWR_RG_STATUS.waking 1 == 1) = true := by decide +kernel
/-- The request of a packet that a port holds enters at router 0, which serves it at once. -/
def serving : State := { (asked (cst 4)).dequeue 0 (rdPkt 6 5 (cst 4)) [] with mesh := [⟨0, .floor, 0, 1, .request ((asked (cst 4)).requestOf (rdPkt 6 5 (cst 4)))⟩] }
theorem test_remoteRequest_served : ((asked (cst 4)).port 0).inq = [rdPkt 6 5 (cst 4)] ∧ (unitPort ((asked (cst 4)).requestOf (rdPkt 6 5 (cst 4))).addr.toNat).map Prod.fst = some 0 ∧ (asked (cst 4)).carries 0 (throughLanes 0 ++ throughLanes 1) = true ∧
    (asked (cst 4)).mesh = [] ∧ (asked (cst 4)).isLocal ((asked (cst 4)).requestOf (rdPkt 6 5 (cst 4))).addr.toNat = true ∧ (serving.routerMove 0 1).map (fun q => some q.1 == serving.mesh.head? && q.2.mesh.length == 1) = some true := by
  refine ⟨?_, ?_, ?_, ?_, ?_, ?_⟩ <;> decide +kernel
/-- A flag of block 9, to which port 0 leads (R325). -/
def farFlag : State := let s := (active.setReg R.AV_FLAG_HOME (2 ^ 15 + 9) 19 1); s.setEng 0 { s.eng 0 with inflight := [flagFar] }
where flagFar : Entry := ent .sync (0x82 + 70 * 2 ^ 16)
theorem test_syncFlag_far : Syncs farFlag 0 0x82 farFlag.flagFar ∧ farFlag.flagRemote 70 = true ∧ farFlag.route none (farFlag.flagMessage 0 farFlag.flagFar) ≠ .none ∧
    goes (exec (.syncFlag 0) farFlag) (fun t => (t.eng 0).inflight.map Entry.sent == [true] && t.outbox.length == 1) = true :=
  ⟨⟨by decide +kernel, by decide +kernel, by decide +kernel, by decide +kernel⟩, by decide +kernel, by decide +kernel, by decide +kernel⟩
def answered (c : Nat) : State := let s := portIs active fun x => { x with compq := [cplPkt c] }; { s with net := { s.net with outs := [⟨9, .core 0, 2 ^ 32, none, 2 ^ 32, some 0, 6, none⟩] } }
theorem test_remoteCompletion : goes (exec (.remoteCompletion 0) (answered 0)) (fun t => t.net.outs == [] && t.outbox == [.reply (.core 0) (2 ^ 32) .ok 0 [1#8, 2#8, 3#8, 4#8]]) &&
    goes (exec (.remoteCompletion 0) (answered 6)) (fun t => t.outbox == [.reply (.core 0) (2 ^ 32) .unmapped 6 []]) &&
    goes (exec (.remoteCompletion 0) (let s := answered 0; { s with net := { s.net with outs := [⟨8, .core 0, 2 ^ 32, none, 2 ^ 32, some 0, 7, none⟩] } })) (fun t => t.net.outs.length == 1 && t.outbox == []) = true := by decide +kernel

def suspecting (s : State) : State := { s with net := { s.net with suspects := [6] } }
theorem test_mgtProbe : goes (exec (.mgtProbe 0 true 7) active) (fun t => t.outbox.length == 1) && goes (exec (.mgtProbe 0 false 6) (suspecting ((torus 5).put F.PL_STATUS.partner 6 0))) (fun t => t.isLost 6 && t.net.suspects == []) = true := by decide +kernel
theorem test_probeAnswer : goes (exec (.probeAnswer 6) (suspecting active)) (fun t => t.net.suspects == [] && !t.isLost 6) && goes (exec (.probeTimeout 6) (suspecting active)) (fun t => t.isLost 6) = true := by decide +kernel
theorem test_blockLost : goes (exec (.blockLost 9 none) { active with watches := [⟨1, 9, true, 0⟩, ⟨1, 8, true, 0⟩] }) (fun t => t.isLost 9 && t.watches == [⟨1, 8, true, 0⟩] && t.elog.queue.length == 1) && goes (exec (.blockLost 9 none) (active.setReg R.PL_LOST 512)) (fun t => t.elog.queue == []) = true := by decide +kernel

/-- Port 0 leads to the parent; the request left at 1000 ns. -/
def child (t1 : Option Nat) (timed : Bool) : State := let s := active.put F.PL_TIME.parent 0; { s with net := { s.net with t1 := t1, timed := timed } }
theorem test_timeExchange : goes (exec (.timeExchange 1000) (child none false)) (fun t => t.net.t1 == some 1000 && t.outbox.length == 1) && goes (exec (.timeRequest 0 1000 1100 false) active) (fun t => t.outbox.length == 1) = true := by decide +kernel
/-- The parent is 100 ns ahead: from 1000 to 1150, and from 1200 back to 1150. -/
theorem test_timeReply : timeOffset 1000 1150 1200 1150 0 = 3200 ∧ goes (exec (.timeReply 1150 1200 1150 false) (child (some 1000) false)) (fun t => t.clock.acc == 100 * 2 ^ 40 && t.net.timed && t.net.t1 == none && t.reg R.CLK_BTIME_STEP == 100) &&
    goes (exec (.timeReply 1150 1200 1150 false) (child (some 1000) true)) (fun t => t.clock.acc == 0 && t.get F.PL_TIME.err == 1600 && t.get F.CLK_BTIME_ADJ.adj != 0) &&
    goes (exec (.timeReply 1150 1200 1150 true) (child (some 1000) true)) (fun t => t.net.t1 == some 1000) = true := by refine ⟨?_, ?_⟩ <;> decide +kernel

/-! ## The Frontage ports (R378-R383, R402, R404) -/

/-- Port 0 is enabled with UDP port 5, and hardware owns one entry of its receive ring and one of its transmit ring, both at 0x1000 of the packet buffer; the receive entry's area is at 0x4000. -/
def fr : State :=
  (((((((b0.put F.FR_CTL.enable 1 0).put F.FR_UDP.port 5 0).put F.FR_RXPTR.tail 1 0).put F.FR_TXPTR.tail 1 0).put F.FR_RXRING.base 0x100 0).put F.FR_TXRING.base 0x100 0).writeSram (pktBuf + 0x1008) (leBytes 3 0x4000))
def frame : Frame :=
  { size := 100, fcsOk := true, pause := false, vlan := none, dstMac := 0x010000003333, ipv6 := true, plain := true, ipLen := 60, nextHeader := 17, dstIp := 0, srcIp := 0x33, srcMac := 0x44, srcPort := 0x1122, dstPort := 5
    sumOk := true, sumZero := false, payload := [7#8], corrected := 3, uncorrected := 1 }
/-- Slot 2 is valid with connection ID 77 and has accepted record 9. -/
def slotted : State := ((fr.setSlotNat 2 0 1 1).setSlotNat 2 8 8 77).setSlotNat 2 0x30 8 9 |>.setSlotNat 2 0x38 8 1 |>.setSlotNat 2 2 2 3
/-- Record 12 of epoch 3 under keys of zeros: the plaintext is one byte of 7 (checked with another implementation). -/
def recordBytes : List Byte :=
  [0x3f#8, 0x4d#8, 0x00#8, 0x00#8, 0x00#8, 0x00#8, 0x00#8, 0x00#8, 0x00#8, 0x7c#8, 0xd5#8, 0x00#8, 0x12#8, 0xab#8, 0xf4#8, 0x22#8, 0x06#8, 0xc1#8, 0x2e#8, 0xd8#8, 0xa4#8, 0x2e#8, 0xcc#8, 0xf7#8, 0x0e#8, 0x26#8, 0x0a#8, 0xe7#8, 0xa3#8, 0x1d#8, 0x9c#8]
/-- The first byte names connection 77; the record is too short. -/
def shortRecord : List Byte := recordBytes.take 20
theorem test_classify : fr.classify 0 { frame with fcsOk := false } = .frame ∧ fr.classify 0 { frame with size := 63 } = .frame ∧ fr.classify 0 { frame with dstPort := 6 } = .filter ∧ fr.classify 0 frame = .raw 1 ∧
    slotted.classify 0 { frame with payload := shortRecord } = .auth ∧ fr.classify 0 { frame with payload := shortRecord } = .raw 1 := by
  refine ⟨?_, ?_, ?_, ?_, ?_, ?_⟩ <;> decide +kernel
theorem test_frameReceive_drops : goes (exec (.frameReceive 0 { frame with fcsOk := false }) fr) (fun t => t.get F.FR_DROP.frame 0 == 1 && t.get F.FR_FEC.corrected 0 == 3 && t.get F.FR_FEC.uncorrectable 0 == 1) &&
    goes (exec (.frameReceive 0 { frame with dstPort := 6 }) fr) (fun t => t.get F.FR_DROP.filter 0 == 1) && goes (exec (.frameReceive 0 { frame with payload := shortRecord }) slotted) (fun t => t.get F.FR_DROP.auth 0 == 1) &&
    goes (exec (.frameReceive 0 frame) (fr.put F.FR_RXPTR.tail 0 0)) (fun t => t.get F.FR_DROP.ring_full 0 == 1 && t.on F.FR_STATUS.rx_full 0) = true := by decide +kernel
theorem test_frameReceive_raw : goes (exec (.frameReceive 0 frame) fr) (fun t => t.get F.FR_RXPTR.head 0 == 1 && leNat (t.readSram (pktBuf + 0x1000) 8) == 25 + 2 ^ 21 && t.readSram (pktBuf + 0x4000) 25 == leBytes 16 0x33 ++ leBytes 6 0x44 ++ leBytes 2 0x1122 ++ [7#8]) = true := by decide +kernel
theorem test_classify_record : slotted.classify 0 { frame with payload := recordBytes } = .record 2 12 [7#8] ∧ slotted.rxRoom 0 = true := by refine ⟨?_, ?_⟩ <;> decide +kernel
theorem test_frameReceive_record : goes (exec (.frameReceive 0 { frame with payload := recordBytes }) slotted) (fun t => t.get F.FR_RXPTR.head 0 == 1 && t.readSram (pktBuf + 0x4000) 1 == [7#8] && t.slotNat 2 0x30 8 == 12 && t.slotNat 2 0x38 8 == 9 &&
    leNat (t.readSram (pktBuf + 0x1000) 8) == 1 + 2 * 2 ^ 14) = true := by decide +kernel
/-- An entry of two bytes of slot 2 leaves: 32 bytes on the wire, 128 quarters. -/
def sending : State := (fr.writeSram (pktBuf + 0x1000) (leBytes 8 (2 + 2 * 2 ^ 14))).writeSram (pktBuf + 0x4000) [7#8, 8#8]
theorem test_txEntrySend : goes (exec (.txEntrySend 0) sending) (fun t => t.outbox.length == 1 && t.get F.FR_TXPTR.head 0 == 1 && (vget t.front.buckets 0).bytes == 262144 - 128 && t.slotNat 2 0x28 8 == 1) &&
    goes (exec (.txEntrySend 0) { sending with front := { sending.front with buckets := vset sending.front.buckets 0 ⟨127, 6400000, 262144, 6400000, 0⟩ } }) (fun t => t.outbox == [] && t.on F.FR_STATUS.cap_hit 0) = true := by decide +kernel
/-- A raw entry of one byte: UDP from port 5 to port 0x1122, the checksum and the frame check sequence computed with another implementation (R378, R382, R383). -/
def sendingRaw : State := (fr.writeSram (pktBuf + 0x1000) (leBytes 8 (25 + 2 ^ 21))).writeSram (pktBuf + 0x4000) (leBytes 16 0x33 ++ leBytes 6 0x44 ++ leBytes 2 0x1122 ++ [7#8])
theorem test_txEntrySend_raw : goes (exec (.txEntrySend 0) sendingRaw) (fun t => t.outbox == [.frame 0 (leBytes 67 0x5fbec7d007b5b409002211050000000000000000000000000000000033000000000000000000000000000000004011090000000060dd86000000000000000000000044)] && (vget t.front.buckets 0).rawBytes == 262144 - 4) = true := by decide +kernel
theorem test_frEnable : goes (exec (.frEnable 0 false) (fr.put F.FR_STATUS.link 1 0)) (fun t => !t.on F.FR_CTL.enable 0 && !t.on F.FR_STATUS.link 0 && t.reg R.FR_RXPTR 0 == 0) && goes (exec (.frEnable 1 true) fr) (fun t => t.on F.FR_CTL.enable 1) &&
    goes (exec (.frontageLinkChange 0 true) fr) (fun t => t.on F.FR_STATUS.link 0 && t.on F.FR_STATUS.pcs_lock 0) = true := by decide +kernel

/-! ## Sessions and messages (R384-R394) -/

def fw : State := b0.setBoot fun b => { b with firmware := true }
/-- A ClientHello of the profile, and one that returns its cookie. -/
def offer : Offer := ⟨[0x1302], [0x0018], [0x0503], true, false, false, false, none, 5, 6, 7⟩
def returned : Offer := { offer with cookie := some (Config.cookie offer.ip offer.port) }
/-- A session in slot 3. -/
def sess (p : SessPhase) (f : Session → Session) : State := fw.setSess 3 (f { Session.none with phase := p, cid := 77 })
theorem test_clientHello : goes (exec (.clientHello { offer with suites := [0x1301] } 77 []) fw) (fun t => t.outbox == [.alert false]) && goes (exec (.clientHello { offer with early := true } 77 []) fw) (fun t => t.outbox == [.alert false]) = true := by decide +kernel
theorem test_clientHello_first : offerOk offer = true ∧ offer.cookie ≠ some (Config.cookie offer.ip offer.port) := by
  refine ⟨?_, ?_⟩ <;> simp [offer, offerOk]
theorem test_clientHello_cookie : offerOk returned = true ∧ returned.cookie = some (Config.cookie returned.ip returned.port) ∧ (fw.sess 0).phase = .free ∧ ((List.finRange 64).all fun j => (fw.sess j).phase == .free) = true ∧
    ((List.finRange 64).all fun j => (({ fw with front := { fw.front with sessions := Vector.replicate 64 { Session.none with phase := .owner } } } : State).sess j).phase != .free) = true := by
  refine ⟨by decide +kernel, rfl, by decide +kernel, by decide +kernel, by decide +kernel⟩
/-- Twice the generator of P-384, and a signature under it: the sum of the key and the generator has this abscissa, which is r, s and the digest alike. -/
def peerKey : List Byte := beBytes 97 0x408d999057ba3d2d969260045c55b97f089025959a6f434d651d207d19fb96e9e4fe0e86ebe0e64f85b96a9c75295df618e80f1fa5b1b3cedb7bfe8dffd6dba74b275d875bc6cc43e904e505f256ab4255ffd43e94d39e22d61501e700a940e80
def peerR : List Byte := beBytes 48 0x77a41d4606ffa1464793c7e5fdc7d98cb9d3910202dcd06bea4f240d3566da6b408bbae5026580d02d7e5c70500c831
theorem test_peerSigned : ecdsaOk peerKey peerR (peerR ++ peerR) = true := by decide +kernel
/-- A block with no owner whose device CA key this is. -/
def anchored : State := (sess .handshake id).blowWords 0x260 (wordsLe (peerKey ++ List.replicate 3 0#8))
theorem anchored_facts : anchored.activeOwner = none ∧ anchored.deviceCa = peerKey ∧ (anchored.sess 3).phase = .handshake := by refine ⟨?_, ?_, ?_⟩ <;> decide +kernel
/-- Where one certificate is well formed and holds this key, it and the signature are accepted: what a certificate holds is not modelled. -/
theorem test_clientChainOk (h : Config.certFormed [] = true) (k : Config.certKey [] = peerKey) : anchored.clientChainOk [[]] = true ∧ ecdsaOk (Config.certKey []) peerR (peerR ++ peerR) = true := by
  refine ⟨?_, k ▸ test_peerSigned⟩
  simp [State.clientChainOk, anchored_facts.1, anchored_facts.2.1, h, k]
theorem test_dtlsHandshakeDone : goes (exec (.dtlsHandshakeDone 3 [] [] [] [] []) (sess .handshake id)) (fun t => t.sess 3 == Session.none && t.outbox == [.alert false]) = true := by decide +kernel
theorem test_sessionEnds : goes (exec (.dtlsAlert 3) ((sess .owner id).setSlotNat 3 0 1 1)) (fun t => t.sess 3 == Session.none && t.slotNat 3 0 1 == 0) && goes (exec (.keepaliveExpiry 3) (sess .owner id)) (fun t => t.sess 3 == Session.none) = true := by decide +kernel
theorem test_keyUpdate : goes (exec (.keyUpdateSend 3) (sess .owner fun x => { x with sent := 2 ^ 24 })) (fun t => (t.sess 3).sent == 0 && t.slotNat 3 0xBC 2 == 1 && t.outbox == [.keyUpdate 3]) && stops (exec (.keyUpdateSend 3) (sess .owner fun x => { x with sent := 2 ^ 24 - 1 })) &&
    goes (exec (.keyUpdateReceive 3) (sess .owner fun x => { x with received := 5 })) (fun t => (t.sess 3).received == 0 && t.slotNat 3 2 2 == 1) = true := by decide +kernel
def m0 : FspMsg := ⟨1, 2, 0, 0, 4, 0, 0, []⟩
theorem test_fspRetransmit : goes (exec (.fspRetransmit 3) (sess .owner fun x => { x with unacked := [(m0, 6)] })) (fun t => (t.sess 3).unacked == [(m0, 7)] && (t.sess 3).rto == 4000 && t.outbox == [.fsp 3 m0]) &&
    goes (exec (.fspRetransmit 3) (sess .owner fun x => { x with unacked := [(m0, 7)] })) (fun t => t.sess 3 == Session.none && t.outbox == [.fsp 3 m0]) && goes (exec (.keepaliveAck 3) (sess .owner id)) (fun t => t.outbox.length == 1) = true := by decide +kernel

/-- The next message of a session that has acted on none: type, operation and body. -/
def msg (t op : Nat) (b : List Byte) : FspMsg := ⟨1, BitVec.ofNat 8 t, 0, BitVec.ofNat 32 b.length, 1, 0, BitVec.ofNat 64 op, b⟩
/-- The code, reason and state of the answer. -/
def answer (t : State) (l : List Nat) : Bool := match t.outbox with
  | .fsp _ r :: _ => r.mtype == 3 && (r.body.take 3).map BitVec.toNat == l
  | _ => false
theorem test_messages : goes (exec (.fspStatus 3 { msg 3 0 [] with version := 2 }) (sess .owner id)) (fun t => t.front.discarded == 1 && (t.sess 3).rxSeq == 0) && goes (exec (.fspStatus 3 { msg 3 0 [] with seq := 2 }) (sess .owner id)) (fun t => t.outbox == [] && (t.sess 3).rxSeq == 0) &&
    goes (exec (.fspStatus 3 (msg 3 0 [])) (sess .owner fun x => { x with rxSeq := 5 })) (fun t => t.outbox.length == 1 && (t.sess 3).rxSeq == 5) &&
    goes (exec (.fspAck 3 { msg 9 0 [] with seq := 0, ack := 4 }) (sess .owner fun x => { x with unacked := [(m0, 3)], rto := 8000 })) (fun t => (t.sess 3).unacked == [] && (t.sess 3).rto == 2000) = true := by decide +kernel
theorem test_fspReserved : goes (exec (.fspReservedType 3 (msg 7 0 [])) (sess .owner id)) (fun t => answer t [5, 1, 0]) && goes (exec (.fspReservedType 3 { msg 3 0 [] with reserved := 1 }) (sess .owner id)) (fun t => answer t [5, 1, 0]) = true := by decide +kernel
def openB (role ka : Nat) : List Byte := leBytes 4 role ++ leBytes 4 ka ++ leBytes 8 0
theorem test_fspOpen : goes (exec (.fspOpen 3 (msg 1 0 (openB 1 500))) (sess .established id)) (fun t => answer t [0, 0, 0] && (t.sess 3).phase == .owner && (t.sess 3).keepalive == 500 && (t.sess 3).rto == 2000) &&
    goes (exec (.fspOpen 3 (msg 1 0 (openB 2 0))) (sess .established id)) (fun t => (t.sess 3).phase == .observer) && goes (exec (.fspOpen 3 (msg 1 0 (openB 1 99))) (sess .established id)) (fun t => answer t [5, 7, 0]) &&
    goes (exec (.fspOpen 3 (msg 1 0 (openB 1 0))) (sess .observer id)) (fun t => answer t [5, 2, 0]) = true := by decide +kernel
/-- Slot 8 holds the owner, with the same key or another. -/
theorem test_fspOpen_takes_over : goes (exec (.fspOpen 3 (msg 1 0 (openB 1 0))) ((sess .established id).setSess 8 { Session.none with phase := .owner })) (fun t => (t.sess 3).phase == .owner && t.sess 8 == Session.none) &&
    goes (exec (.fspOpen 3 (msg 1 0 (openB 1 0))) ((sess .established id).setSess 8 { Session.none with phase := .owner, key := [1#8] })) (fun t => answer t [5, 2, 0] && (t.sess 8).phase == .owner) = true := by decide +kernel

/-- An operation of engine 7 with ID 4. -/
def opn (p : OpPhase) : Operation :=
  { id := 4, engines := [7], pgSrc := 0, page := 2, count := 1, entry := 9, flags := 0, args := [11, 12, 13, 14], ctxBase := 0, inAddr := 0, outAddr := 0, inline := [], outLen := 0, tag := 99, phase := p, slot := none, started := p == .running
    tStart := 0, suspendAsked := false, code := none, faulted := [] }
def hasOp (p : SessPhase) (o : Operation) (st : Nat) : State := let s := (sess p id).put F.ENG_STATUS.state st 7; { s with front := { s.front with ops := [o], nextOp := 5 } }
theorem test_fspStatus : goes (exec (.fspStatus 3 (msg 3 4 [])) (hasOp .observer (opn .queued) 0)) (fun t => answer t [0, 0, 1]) && goes (exec (.fspStatus 3 (msg 3 5 [])) (hasOp .observer (opn .queued) 0)) (fun t => answer t [6, 5, 0]) &&
    goes (exec (.fspStatus 3 (msg 3 0 [])) (sess .observer id)) (fun t => answer t [0, 0, 0]) && goes (exec (.fspStatus 3 (msg 3 0 [])) (sess .established id)) (fun t => answer t [5, 4, 0]) = true := by decide +kernel
theorem test_fspClose : goes (exec (.fspClose 3 (msg 8 0 [])) (sess .owner id)) (fun t => answer t [0, 0, 0] && t.sess 3 == Session.none) = true := by decide +kernel
/-- A SUBMIT of one page into page 2 of engine 7. -/
def submitB (mask count : Nat) : List Byte := leBytes 16 mask ++ leBytes 8 0 ++ leBytes 1 2 ++ leBytes 1 count ++ leBytes 2 9 ++ leBytes 4 0 ++ List.replicate 64 0#8 ++ leBytes 8 99
theorem test_fspSubmit : goes (exec (.fspSubmit 3 (msg 2 0 (submitB 128 1))) (sess .owner id)) (fun t => answer t [0, 0, 1] && t.front.ops.map (fun o => (o.id, o.engines, o.tag)) == [(1, [7], 99)] && t.front.nextOp == 2) &&
    goes (exec (.fspSubmit 3 (msg 2 0 (submitB 128 0))) (sess .owner id)) (fun t => answer t [5, 7, 0]) && goes (exec (.fspSubmit 3 (msg 2 0 (submitB 0 1))) (sess .owner id)) (fun t => answer t [5, 7, 0]) &&
    goes (exec (.fspSubmit 3 (msg 2 1 (submitB 128 1))) (sess .owner id)) (fun t => answer t [5, 1, 0]) && goes (exec (.fspSubmit 3 (msg 2 0 (submitB 128 1))) (sess .observer id)) (fun t => answer t [5, 2, 0]) &&
    goes (exec (.fspSubmit 3 (msg 2 0 (submitB 128 1))) ((sess .owner id).modEng 7 fun g => { g with mappedOut := true })) (fun t => answer t [5, 6, 0]) = true := by decide +kernel
theorem test_fspSubmit_full : goes (exec (.fspSubmit 3 (msg 2 0 (submitB 128 1))) (let s := hasOp .owner (opn .queued) 0; { s with front := { s.front with ops := List.replicate 64 (opn .queued) } })) (fun t => answer t [5, 3, 0]) = true := by decide +kernel
theorem test_fspSuspend : goes (exec (.fspSuspend 3 (msg 4 4 [])) (hasOp .owner (opn .running) 1)) (fun t => answer t [0, 0, 4] && t.engState 7 == 2) && goes (exec (.fspSuspend 3 (msg 4 4 [])) (hasOp .owner (opn .loading) 0)) (fun t => t.front.ops.map Operation.suspendAsked == [true]) &&
    goes (exec (.fspSuspend 3 (msg 4 4 [])) (hasOp .owner (opn .done) 0)) (fun t => answer t [5, 4, 7]) && goes (exec (.fspSuspend 3 (msg 4 4 [])) (hasOp .owner (opn .queued) 0)) (fun t => t.front.ops.map Operation.phase == [.suspended]) = true := by decide +kernel
theorem test_fspResume : goes (exec (.fspResume 3 (msg 5 4 [])) (hasOp .owner { opn .suspended with started := true } 3)) (fun t => answer t [0, 0, 3] && t.engState 7 == 1) && goes (exec (.fspResume 3 (msg 5 4 [])) (hasOp .owner (opn .suspended) 0)) (fun t => answer t [0, 0, 1]) &&
    goes (exec (.fspResume 3 (msg 5 4 [])) (hasOp .owner (opn .running) 1)) (fun t => answer t [5, 4, 3]) = true := by decide +kernel
theorem test_fspCancel : goes (exec (.fspCancel 3 (msg 6 4 [])) (hasOp .owner (opn .running) 1)) (fun t => answer t [0, 0, 6] && t.engState 7 == 4) && goes (exec (.fspCancel 3 (msg 6 4 [])) (hasOp .owner (opn .done) 1)) (fun t => answer t [5, 4, 7]) &&
    goes (exec (.fspCancel 3 (msg 6 4 [])) (hasOp .owner (opn .cancelling) 4)) (fun t => answer t [0, 0, 6]) = true := by decide +kernel

/-! ## Operations under way (R396-R398) -/

theorem test_operationStart : goes (exec (.operationStart 4) (hasOp .owner (opn .queued) 0)) (fun t => t.front.ops.map Operation.phase == [.loading] && t.on F.ENG_PGCMD.busy 7 && (t.eng 7).pgLoad == some (0, 2, 1)) = true := by decide +kernel
theorem test_operationLoaded : goes (exec (.operationLoaded 4 .ok) (hasOp .owner (opn .loading) 0)) (fun t => t.front.ops.map Operation.phase == [.running] && t.engState 7 == 1 && t.get F.ENG_STATUS.pc 7 == 9 && sGet (t.eng 7).s 4 == 14#64) &&
    goes (exec (.operationLoaded 4 .ok) ((hasOp .owner (opn .loading) 0).put F.ENG_PGCMD.code 6 7)) (fun t => t.front.ops.map Operation.phase == [.done] && t.outbox.length == 1) = true := by decide +kernel
theorem test_operationEngineEvent : goes (exec (.operationEngineEvent 7 .halted) (hasOp .owner (opn .running) 6)) (fun t => t.front.ops.map Operation.phase == [.done] && t.engState 7 == 0) &&
    goes (exec (.operationEngineEvent 7 .faulted) ((hasOp .observer (opn .running) 5).setReg R.ENG_FAULT 6 7)) (fun t => t.front.held.map (fun q => (q.1, q.2.take 1)) == [(4, [6#8])]) &&
    goes (exec (.operationEngineEvent 7 .suspended) (hasOp .owner (opn .running) 3)) (fun t => t.front.ops == [opn .running]) = true := by decide +kernel

/-! ## Power (R405-R433) -/

/-- Frames 5, of a VCORE current of 100 A, and 6, with f_mem, by R410; their CRC was computed by hand. -/
def frame5 : BitVec 80 := 0xc90000000000003e85a5#80
def frame6 : BitVec 80 := 0x040080000000000006a5#80
def reg0 (f : Region → Region) : State := b0.setRegion 0 (f (b0.region 0))
def reg80 (f : Region → Region) : State := b0.setRegion 80 (f (b0.region 80))
theorem test_telemetryFrame : goes (exec (.telemetryFrame frame5) b0) (fun t => t.get F.PWR_TEL.frame == 5 + 1000 * 2 ^ 4 && t.power.lastSeq == some 5) &&
    goes (exec (.telemetryFrame frame6) { b0 with power := { b0.power with lastSeq := some 5, retry := some 15 } }) (fun t => t.power.lastSeq == some 6 && t.power.retry == none && t.elog.queue.length == 1) = true := by decide +kernel
theorem test_telemetryFrame_discarded : goes (exec (.telemetryFrame (frame5 ^^^ 0x1000#80)) { b0 with power := { b0.power with retry := some 9 } }) (fun t => t.power.lastSeq == none && t.power.retry == some 0) &&
    goes (exec (.telemetryFrame frame5) { b0 with power := { b0.power with lastSeq := some 5 } }) (fun t => t.get F.PWR_TEL.frame == 0) = true := by decide +kernel
theorem test_telemetryLost : goes (exec .telemetryLost (b0.put F.PWR_STATUS.tel_lost 0)) (fun t => t.on F.PWR_STATUS.tel_lost && t.elog.queue.length == 1) && stops (exec .telemetryLost (b0.put F.PWR_STATUS.tel_lost 1)) &&
    goes (exec .telRetry (b0.put F.PWR_STATUS.tel_lost 1)) (fun t => t.power.retry == some 0) = true := by decide +kernel
theorem test_mailbox : goes (exec (.pmbAlert [0, 5, 0, 0]) b0) (fun t => t.on F.PWR_STATUS.pmb_alert && t.outbox.length == 5 && t.elog.queue.length == 1) &&
    goes (exec (.pmbTransactionDone true 0x1234) ((b0.put F.PWR_PMB.busy 1).setPower fun p => { p with pmb := (true, true) })) (fun t => !t.on F.PWR_PMB.busy && t.get F.PWR_PMB.data == 0x1234) &&
    goes (exec (.pmbTransactionDone false 0x1234) (b0.put F.PWR_PMB.busy 1)) (fun t => t.get F.PWR_PMB.code == 8) = true := by decide +kernel

/-- A slice of engine 0's group, of square 0's, of column 0's VMEM and of the Floor's group 0. -/
theorem test_sliceFail_first : goes (exec (.sliceFail 1 0 3) b0) (fun t => t.get F.PWR_RG_STATUS.failed 1 == 8 && t.get F.PWR_RG_STATUS.in_service 1 == 15 && t.on F.PWR_RG_STATUS.stepdown 1) &&
    goes (exec (.sliceFail 81 0 3) b0) (fun t => t.get F.PWR_RG_STATUS.in_service 81 == 7 && t.on F.PWR_RG_STATUS.degraded 81) && goes (exec (.sliceFail 121 0 3) b0) (fun t => t.get (F.PWR_VM_FAIL.col 0) 121 0 == 8) &&
    goes (exec (.sliceFail 122 0 3) b0) (fun t => t.get (F.PWR_FL_FAIL.grp 0) 122 == 8) = true := by decide +kernel
def failed1 (f : Field) (i : Nat) : State := b0.put f 1 i
theorem test_sliceFail_second : goes (exec (.sliceFail 1 0 3) (failed1 F.PWR_RG_STATUS.failed 1)) (fun t => (t.eng 0).mappedOut && t.regState 0 == 3) && goes (exec (.sliceFail 81 0 3) (failed1 F.PWR_RG_STATUS.failed 81)) (fun t => (t.region 80).dying) &&
    goes (exec (.sliceFail 1 0 3) (b0.put F.PWR_RG_STATUS.failed 3 1)) (fun t => t.get F.PWR_RG_STATUS.failed 1 == 11 && !(t.eng 0).mappedOut) && stops (exec (.sliceFail 1 0 3) (b0.put F.PWR_RG_STATUS.failed 8 1)) = true := by decide +kernel
theorem test_sliceFail_memory : goes (exec (.sliceFail 121 0 3) ((failed1 (F.PWR_VM_FAIL.col 0) 121).setBytes 64 [7#8])) (fun t => t.get F.PWR_VM_STATE.dark 121 == 1 && (t.eng 0).dramOut && (t.eng 40).dramOut && t.mem == []) &&
    goes (exec (.sliceFail 122 0 3) (failed1 (F.PWR_FL_FAIL.grp 0) 122)) (fun t => t.boot.holdAon) = true := by decide +kernel
theorem test_squareGoesDark : goes (exec (.squareGoesDark 0) ((reg80 fun x => { x with dying := true }).setSq 0 { b0.sq 0 with lines := [lineAt 0 true] })) (fun t => t.regState 80 == 3 && (t.sq 0).lines == [] && t.get F.SQ_STATUS.mapped_out 0 == 1) &&
    stops (exec (.squareGoesDark 0) b0) = true := by decide +kernel
theorem test_shed : goes (exec (.sliceShed 1 0) (b0.put F.PWR_CTL.shed_en 1)) (fun t => (t.region 0).shed) && stops (exec (.sliceShed 1 0) (b0.put F.PWR_CTL.shed_en 0)) && goes (exec (.sliceUnshed 1 0) (reg0 fun x => { x with shed := true })) (fun t => !(t.region 0).shed) &&
    goes (exec (.sliceShed 121 5) (b0.put F.PWR_CTL.shed_en 1)) (fun t => vget t.power.vmShed 5) && goes (exec (.sliceUnshed 121 5) { b0 with power := { b0.power with vmShed := Vector.replicate 40 true } }) (fun t => !vget t.power.vmShed 5) = true := by decide +kernel

theorem test_regionSleep : goes (exec (.regionSleep 0 false) (((b0.put F.ENG_STATUS.state 0 0).put F.PWR_RG_CTL.target 2 1).setBytes spCore [7#8])) (fun t => t.regState 0 == 2 && t.mem == []) &&
    goes (exec (.regionSleep 0 true) (((b0.put F.ENG_STATUS.state 0 0).put F.PWR_RG_CTL.auto_sleep 1 1).setBytes spCore [7#8])) (fun t => t.regState 0 == 1 && t.byte spCore == 7#8) &&
    goes (exec (.regionSleep 80 false) (b0.put F.PWR_RG_CTL.target 1 81)) (fun t => t.regState 80 == 1) && stops (exec (.regionSleep 0 false) (b0.put F.PWR_RG_CTL.target 2 1)) = true := by decide +kernel
def asleep (st : Nat) : State := b0.put F.PWR_RG_STATUS.state st 1
def turning (p : WakePhase) (st : Nat) : State := (asleep st).setRegion 0 { (asleep st).region 0 with phase := p }
theorem test_regionWake : goes (exec (.regionWake 0) (asleep 2)) (fun t => (t.region 0).phase == .closing false (t.clock.ticks + 2000) && t.on F.PWR_RG_STATUS.waking 1) && goes (exec (.regionWake 0) ((asleep 2).put F.PWR_RG_STATUS.current 612 41)) (fun t => (t.region 0).phase == .waiting) &&
    goes (exec (.regionWake 0) ((asleep 2).setRegion 80 { b0.region 80 with phase := .waiting })) (fun t => (t.region 0).phase == .queued) &&
    stops (exec (.regionWake 0) ((asleep 2).put F.CLK_PLL.fail 1 1)) = true := by decide +kernel
theorem test_inrushWait : goes (exec (.inrushWaitTimeout 0) ((turning .waiting 1).put F.PWR_RG_STATUS.current 612 41)) (fun t => (t.region 0).phase == .closing true (t.clock.ticks + 2000) && (t.region 40).inrush) && stops (exec (.inrushWaitTimeout 0) (turning (.closing false 9) 1)) = true := by
  decide +kernel
theorem test_regionOn : goes (exec (.regionOn 0) ((turning (.closing true 9) 2).setRegion 40 { b0.region 40 with phase := .queued })) (fun t => t.regState 0 == 0 && (t.region 0).clearing && (t.region 40).phase == .closing false (t.clock.ticks + 2000) && t.get F.CLK_PLL.state 1 == 2) &&
    goes (exec (.regionOn 0) (turning .starting 1)) (fun t => t.regState 0 == 0 && !(t.region 0).clearing) && stops (exec (.regionOn 0) (turning .none 1)) = true := by decide +kernel
/-- A read of the core store that waits for its region (R419). -/
def held : MeshPkt := ⟨0, .floor, 0, 0, .request (rd (.core 1) (BitVec.ofNat 64 (cst 4)) 2)⟩
def turningHeld : State := { turning .starting 1 with parked := [held] }
theorem test_regionOn_held : turningHeld.target (cst 4) 2 = some (.core 0) ∧ turningHeld.engineLinked 0 = true ∧ turningHeld.deliverCheck 0 (rd (.core 1) (BitVec.ofNat 64 (cst 4)) 2) (.core 0) = .proceed ∧
    goes (exec (.regionOn 0) turningHeld) (fun t => t.regState 0 == 0 && t.parked == [] && t.outbox == [.reply (.core 1) 7 .ok 0 [0#8, 0#8]]) = true := by
  refine ⟨?_, ?_, ?_, ?_⟩ <;> decide +kernel
/-- A current report ends a wait for the segment, and the inrush window ends at its tick (R420). -/
theorem test_waitGoesOn : goes (exec (.currentReport 40 611) ((turning .waiting 1).put F.PWR_RG_STATUS.current 700 41)) (fun t => (t.region 0).phase == .closing false (t.clock.ticks + 2000)) &&
    goes (exec (.currentReport 40 612) ((turning .waiting 1).put F.PWR_RG_STATUS.current 700 41)) (fun t => (t.region 0).phase == .waiting) &&
    goes (step (turning (.closing true 1) 1)) (fun t => (t.region 0).phase == .starting && t.get F.CLK_PLL.state 1 == 1) = true := by decide +kernel
theorem test_regionClearDone : goes (exec (.regionClearDone 0) ((reg0 fun x => { x with clearing := true }).setBytes spCore [7#8])) (fun t => t.mem == [] && (t.eng 0).imem == [] && !(t.region 0).clearing) = true := by decide +kernel
theorem test_regionRegisters : goes (exec (.pwrRgCtlWrite 0 0x1000501#64) (b0.put F.PWR_RG_VMIN.vmin 700 1)) (fun t => t.get F.PWR_RG_CTL.idle_us 1 == 5 && t.get F.PWR_RG_CTL.target 1 == 1 && t.get F.PWR_RG_VMIN.vmin 1 == 0x3FF) &&
    goes (exec (.pwrRgCtlWrite 0 0#64) (asleep 1)) (fun t => (t.region 0).phase == .closing false (t.clock.ticks + 2000)) && goes (exec (.pwrRgRearm 0) (reg0 fun x => { x with vminT := 9 })) (fun t => (t.region 0).vminT == 0) &&
    goes (exec (.pwrRgVminRead 0) (reg0 fun x => { x with vminT := 9 })) (fun t => t.reg R.PWR_RG_VMIN_T 1 == 9) = true := by decide +kernel

theorem test_droop : goes (exec (.droopSample 0 700) ((b0.put F.PWR_RG_VMIN.vmin 800 1).put F.PWR_RG_DROOP.thresh 701 1)) (fun t => t.get F.PWR_RG_VMIN.vmin 1 == 700 && (t.region 0).droopSkip && t.get F.PWR_RG_DROOP.count 1 == 1 && t.elog.queue.length == 1) &&
    goes (exec (.droopSample 0 700) ((b0.put F.PWR_RG_VMIN.vmin 700 1).put F.PWR_RG_DROOP.thresh 700 1)) (fun t => !(t.region 0).droopSkip && (t.region 0).vminT == 0) &&
    goes (exec (.droopSkipEnd 0) (reg0 fun x => { x with droopSkip := true })) (fun t => !(t.region 0).droopSkip) = true := by decide +kernel
/-- A ceiling of 10 A. -/
def ceil10 : State := (b0.put F.PWR_RG_CEIL.limit 100 1).put F.PWR_RG_CEIL.limit 100 81
theorem test_currentReport : goes (exec (.currentReport 0 101) ceil10) (fun t => (t.region 0).overs == 1 && t.get F.PWR_RG_STATUS.guard 1 == 0) && goes (exec (.currentReport 0 101) (ceil10.setRegion 0 { b0.region 0 with overs := 1 })) (fun t => t.get F.PWR_RG_STATUS.guard 1 == 1) &&
    goes (exec (.currentReport 0 100) (ceil10.setRegion 0 { b0.region 0 with overs := 1 })) (fun t => (t.region 0).overs == 0) && goes (exec (.currentReport 80 101) ceil10) (fun t => (t.region 80).halfRate) &&
    goes (exec (.currentReport 80 90) (ceil10.setRegion 80 { b0.region 80 with halfRate := true })) (fun t => (t.region 80).halfRate) && goes (exec (.currentReport 80 89) (ceil10.setRegion 80 { b0.region 80 with halfRate := true })) (fun t => !(t.region 80).halfRate) = true := by decide +kernel
theorem test_guardDecay : goes (exec (.guardDecay 0) ((ceil10.put F.PWR_RG_STATUS.guard 3 1).put F.PWR_RG_STATUS.current 89 1)) (fun t => t.get F.PWR_RG_STATUS.guard 1 == 2) && stops (exec (.guardDecay 0) ((ceil10.put F.PWR_RG_STATUS.guard 3 1).put F.PWR_RG_STATUS.current 90 1)) = true := by
  decide +kernel

/-- 50 A of VCORE at 800 mV: 40 W. -/
def amps50 : State := (((b0.put F.PWR_STATUS.tel_lost 0).put F.PWR_TEL.frame (500 * 2 ^ 4)).put F.PWR_CAP.fast_w 1000).put F.PWR_CAP.sust_w 1000
theorem test_capEvaluate : goes (exec (.capEvaluate [800, 0, 0, 0]) amps50) (fun t => t.get F.PWR_STATUS.p1ms == 40 && t.get F.PWR_ENERGY.uj == 40 && t.get F.PWR_STATUS.cap_level == 0) &&
    goes (exec (.capEvaluate [800, 0, 0, 0]) (amps50.put F.PWR_CAP.fast_w 40)) (fun t => t.get F.PWR_STATUS.cap_level == 7 && t.on F.PWR_STATUS.cap_hit && t.elog.queue.length == 1) &&
    goes (exec (.capEvaluate [800, 0, 0, 0]) ((amps50.put F.PWR_CAP.sust_w 39).setPower fun p => { p with ups := 9 })) (fun t => t.get F.PWR_STATUS.cap_level == 1) &&
    goes (exec (.capEvaluate [800, 0, 0, 0]) ((amps50.put F.PWR_STATUS.cap_level 3).setPower fun p => { p with under := 99 })) (fun t => t.get F.PWR_STATUS.cap_level == 2) &&
    goes (exec (.capEvaluate [800, 0, 0, 0]) (b0.put F.PWR_STATUS.tel_lost 1)) (fun t => t.on F.PWR_STATUS.est) = true := by decide +kernel
def hinted (h : Hint) : State := let s := (asleep 1).put F.PWR_HINT.core_n 1; { s with hints := vset s.hints 0 ⟨some h, none⟩ }
theorem test_hints : goes (exec (.preStage 0) (hinted ⟨1, 5, 9, 0, false, false⟩)) (fun t => t.on F.PWR_STATUS.hint_core && t.on F.PWR_RG_STATUS.waking 1) && goes (exec (.preStage 0) (hinted ⟨2, 5, 9, 0, false, false⟩)) (fun t => !t.on F.PWR_RG_STATUS.waking 1) &&
    goes (exec (.phaseEnd 0) (hinted ⟨1, 5, 9, 0, true, true⟩)) (fun t => vget t.hints 0 == ⟨none, none⟩ && !t.on F.PWR_STATUS.hint_core) = true := by decide +kernel

/-! ## Temperature (R434-R458): what a round is made of; no statement about a round has a hypothesis on the state -/

/-- R442, R458: a listed reading, one out of range, one of the round before, and one that has none. -/
theorem test_roundReading : let r : AdcRound := ⟨[(0, some 800), (1, some 2401), (2, none)], [(0, some (-640))], []⟩
    let s := b0.put (F.THM_DIODE.reading 3) 0xFFF0 0 0
    s.roundReading r 0 = some 800 ∧ s.roundReading r 1 = some 2401 ∧ validReading (some 2401) = none ∧ s.roundReading r 2 = none ∧ s.roundReading r 752 = some (-640) ∧ s.roundReading r 3 = some (-16) := by
  refine ⟨?_, ?_, ?_, ?_, ?_, ?_⟩ <;> decide +kernel
theorem test_judgeValid : ((b0.judgeValid 5 none).judgeValid 5 none).isBroken 5 = true ∧ (((b0.judgeValid 5 none).judgeValid 5 (some 3)).judgeValid 5 none).isBroken 5 = false := by refine ⟨?_, ?_⟩ <;> decide +kernel
/-- R448: below the start, at it, one seventh of the way, just below and at the full. -/
theorem test_levelOf : [1, 0, 2, 7, 7].zip [levelOf (natVal 95) 95 105, levelOf (.fin ⟨189, 2⟩) 95 105, levelOf (.fin (Q.norm 677 7)) 95 105, levelOf (natVal 105) 95 105, levelOf (natVal 104) 95 105] =
    [(1, 1), (0, 0), (2, 2), (7, 7), (7, 7)] := by decide +kernel
theorem test_nextLevel : nextLevel 7 2 = 6 ∧ nextLevel 2 7 = 7 ∧ nextLevel 3 3 = 3 := by decide
/-- R446: 2 to the power 0.8 is 1.7411011. -/
theorem test_pow08 : (pow08 (natVal 2)).f32 = ofF32 0x3FDEDC67 := by decide +kernel
/-- R437: an interval of 10 ms with k of 600 is 10 L/min. -/
theorem test_flow : ((b0.put F.THM_COOL_CFG.k 600).setThermal fun t => { t with edges := [30000, 20000] }).flow = some (Q.ofNat 10) ∧ b0.flow = none ∧
    goes (exec .flowEdge b0) (fun t => t.thermal.edges == [t.btime / 1000]) && goes (exec .flowEdge (b0.put F.PIN_FAULT.stuck 1)) (fun t => t.thermal.edges == []) && goes (exec .flowTimeout b0) (fun t => t.thermal.flowStopped) = true := by
  refine ⟨?_, ?_, ?_⟩ <;> decide +kernel
/-- R440: the third round in a row. -/
theorem test_alarm : (let s := (b0.setThermal fun t => { t with inletRounds := 2, outletRounds := 1 }).coolant (natVal 41) (natVal 50); s.on F.THM_STATUS.inlet_alarm && !s.on F.THM_STATUS.outlet_alarm && s.elog.queue.length == 1 && s.thermal.outletRounds == 0 &&
    s.get F.THM_COOLANT.inlet == 656 && s.on F.THM_STATUS.flow_unknown) = true := by decide +kernel
/-- R444: diodes 402 and 403 lie in column 1, layer 0. -/
theorem test_refreshRate : let reads (a b : Int) : List (Option Int) := List.replicate 402 none ++ [some a, some b]
    let fast (old : Nat) (a b : Int) (e : Nat) : Bool := nbit (((b0.put F.LND_STATUS.fast_ref old 1).put F.LND_STATUS.fast_ref old 41).refreshRate (reads a b) 1 0 |>.get F.LND_STATUS.fast_ref e) 0
    fast 0 1361 0 41 = true ∧ fast 0 1360 0 1 = false ∧ fast 1 1360 0 1 = true ∧ fast 1 1312 1312 1 = false ∧ fast 1 1313 1312 1 = true := by
  refine ⟨?_, ?_, ?_, ?_, ?_⟩ <;> decide +kernel
/-- R451: the fourth round of a warm Floor lowers the limit once; the 64th calm round raises it. -/
theorem test_stepLimit : ((let s := (b0.setThermal fun t => { t with hotFloor := 3, sinceLow := 3 }).stepLimit 1; s.get F.THM_STEP.limit == 1 && s.get F.THM_STEP.lowerings == 1 && s.thermal.sinceLow == 0 && s.elog.queue.length == 1) &&
    ((b0.setThermal fun t => { t with hotFloor := 3, sinceLow := 2 }).stepLimit 1).get F.THM_STEP.limit == 0 && (((b0.put F.THM_STEP.limit 3).setThermal fun t => { t with cool := 63 }).stepLimit 0).get F.THM_STEP.limit == 2) = true := by decide +kernel
/-- R452: the third round at level 7, warmer than two rounds before; the fourth below the start. -/
def fell (x : FallbackCount) (cut : Nat) : State := (b0.put F.PWR_RG_CEIL.thermal cut 1).setThermal fun t => { t with fallback := vset t.fallback 0 x }
theorem test_fallback : ((let s := (fell ⟨[natVal 99, natVal 98], 2, 0⟩ 0).fallbackOne 0 7 (natVal 99) 95; s.get F.PWR_RG_CEIL.thermal 1 == 1 && s.elog.queue.length == 1) && ((fell ⟨[natVal 98, natVal 99], 2, 0⟩ 0).fallbackOne 0 7 (natVal 99) 95).get F.PWR_RG_CEIL.thermal 1 == 0 &&
    ((fell ⟨[natVal 99, natVal 98], 2, 0⟩ 12).fallbackOne 0 7 (natVal 99) 95).get F.PWR_RG_CEIL.thermal 1 == 12 && ((fell ⟨[], 0, 3⟩ 5).fallbackOne 0 0 (natVal 94) 95).get F.PWR_RG_CEIL.thermal 1 == 4) = true := by decide +kernel

/-! ## Clocks (R409, R463-R473) -/

def stepping (ph : StepPhase) (target : Nat) : State := b0.setClock fun c => { c with change := some ⟨target, ph⟩ }
/-- From step 7 to step 0 and from step 0 to step 3 (R409, R463). -/
theorem test_stepChange : goes (exec .stepChange ((b0.put F.CLK_STEP.eff 7).put F.CLK_STEP.req 0)) (fun t => t.on F.CLK_STEP.busy && t.clock.vcoreMv == 800 && t.clock.change == some ⟨0, .settle⟩) &&
    goes (exec .stepChange ((b0.put F.CLK_STEP.eff 0).put F.CLK_STEP.req 3)) (fun t => t.clock.change == some ⟨3, .pause⟩ && t.outbox == []) && stops (exec .stepChange ((b0.put F.CLK_STEP.eff 0).put F.CLK_STEP.req 0)) &&
    goes (exec .vcoreSettleEnd (stepping .settle 2)) (fun t => t.clock.regionMv == 690 && t.clock.change == some ⟨2, .pause⟩) = true := by decide +kernel
/-- `n` taps from `lo` pass. -/
def mask16 (lo n : Nat) : BitVec 64 := BitVec.ofNat 64 ((2 ^ n - 1) * 2 ^ lo)
/-- A bundle is found, one fails, and nothing is done at a verified step. -/
theorem test_stepPause : goes (exec (.stepPause [(0, mask16 2 16), (1, mask16 1 15)]) ((stepping .pause 2).put F.CLK_STEP.eff 0)) (fun t => t.tapOf 2 == 10 && t.tapOf 10 == 0 && t.clock.verified == [2] && t.clock.vcoreMv == 730 && t.clock.change == none) &&
    stops (exec (.stepPause [(0, mask16 2 16)]) ((stepping .pause 2).setClock fun c => { c with verified := [2] })) = true := by decide +kernel
theorem test_stepPause_verified : goes (exec (.stepPause []) ((stepping .pause 2).setClock fun c => { c with verified := [2] })) (fun t => t.clock.verified == [2] && t.taps == b0.taps) = true := by decide +kernel
theorem test_pllFails : goes (exec (.pllLockTimeout 0) (b0.setRegion 0 { b0.region 0 with phase := .starting })) (fun t => t.on F.CLK_PLL.fail 1 && (t.eng 0).inReset && (t.region 0).phase == .none && t.elog.queue.length == 1) &&
    goes (exec (.pllLockLost 0) (b0.put F.CLK_PLL.state 2 1)) (fun t => t.get F.CLK_PLL.state 1 == 3 && (t.eng 0).inReset) && goes (exec (.clkPllFailClear 0 4#64) (b0.put F.CLK_PLL.fail 1 1)) (fun t => !t.on F.CLK_PLL.fail 1) = true := by decide +kernel
theorem test_canary : goes (exec (.canaryWindow 0 5 9) (b0.put F.CLK_CANARY.limit 5 1)) (fun t => t.on F.CLK_CANARY.warn 1 && t.on F.CLK_STATUS.canary_warn && t.elog.queue.length == 1) &&
    goes (exec (.canaryWindow 0 4 9) (b0.put F.CLK_CANARY.limit 5 1)) (fun t => !t.on F.CLK_CANARY.warn 1 && t.get F.CLK_CANARY.below10 1 == 9) && goes (exec (.canaryWindow 0 4 9) (b0.put F.CLK_CANARY.limit 0 1)) (fun t => !t.on F.CLK_CANARY.warn 1) = true := by
  decide +kernel
/-- R470: a cycle at an adj of -1, and a block in its whole-block reset. -/
theorem test_idle : goes (step ((b0.put F.CLK_BTIME_ADJ.adj 0xFFFFFFFF).setClock fun c => { c with acc := 0 })) (fun t => t.clock.acc == 2 ^ 40 - 1) && goes (step (State.reset.put F.AON_STATUS.stage 0)) (fun t => t.clock.acc == 0) = true := by decide +kernel

/-! ## The security unit and the TAP (R499-R519) -/

/-- SHA-384 of "abc" (FIPS 180-4). -/
theorem test_sha384 : sha384 [0x61#8, 0x62#8, 0x63#8] = (leBytes 48 0xcb00753f45a35e8bb5a03d699ac65007272c32ab0eded1631a8b605a43ff5bed8086072ba1e7cc2358baeca134c825a7).reverse := by decide +kernel

/-- Operation `op` was started with this source and destination. -/
def secP (op param src dst : Nat) : State := { b0.put F.SEC_CMD.busy 1 with sec := { b0.sec with req := some ⟨op, param, src, dst⟩ } }
def sec (op src dst : Nat) : State := secP op 0 src dst
theorem test_started : Started 2 ⟨2, 0, pktBuf, pktBuf + 64⟩ (sec 2 pktBuf (pktBuf + 64)) (sec 2 pktBuf (pktBuf + 64)) ∧ Started 7 ⟨7, 0, 0, pktBuf⟩ (sec 7 0 pktBuf) (sec 7 0 pktBuf) ∧
    Started 6 ⟨6, 0, 0, 0⟩ b0 { (b0.put F.SEC_CMD.op 6).put F.SEC_CMD.busy 1 with sec := { b0.sec with req := some ⟨6, 0, 0, 0⟩, job := none } } := by
  refine ⟨.inl ⟨?_, rfl, rfl, rfl, rfl⟩, .inl ⟨?_, rfl, rfl, rfl, rfl⟩, .inr ⟨?_, ?_, rfl⟩⟩ <;> decide +kernel
def jobIs (t : State) (c : Code) (n : Nat) : Bool := t.sec.job == some ⟨c, n⟩
/-- Another operation, a destination that may not be written, one that is not aligned, and a parity error. -/
theorem test_secChecks : goes (exec (.secSign false) (sec 4 pktBuf pktBuf)) (fun t => t.sec.job == none) && goes (exec (.secSign false) (sec 2 pktBuf mlog)) (fun t => jobIs t .accessDenied 0) && goes (exec (.secSign false) (sec 2 (pktBuf + 8) pktBuf)) (fun t => jobIs t .accessDenied 0) &&
    goes (exec (.secSign true) (sec 2 pktBuf pktBuf)) (fun t => jobIs t .dataErr 0) && goes (exec .securityOperationDone ((sec 2 0 0).secJob .dataErr 5)) (fun t => t.get F.SEC_CMD.code == Code.dataErr.toNat && t.get F.SEC_CMD.len == 5 && !t.on F.SEC_CMD.busy) = true := by decide +kernel
theorem test_secSign : goes (exec (.secSign false) (sec 2 pktBuf (pktBuf + 64))) (fun t => jobIs t .ok 96 && t.sec.signed == 1) && goes (exec (.secNonce 7) (sec 6 0 0)) (fun t => t.reg R.SEC_NONCE 0 0 == 7 && t.on F.SEC_STATUS.nonce_valid && jobIs t .ok 0) &&
    goes (exec .secCert (sec 7 0 pktBuf)) (fun t => jobIs t .ok 0) = true := by decide +kernel
theorem test_secQuote_hypothesis : (SecReq.mk 4 0 pktBuf (pktBuf + 640)).addr 32 608 false = .ok ∧ ((sec 4 pktBuf (pktBuf + 640)).quoteBody (List.replicate 32 0#8)).length = 512 ∧ (SecReq.mk 1 0 pktBuf 0).addr 4096 0 false = .ok := by refine ⟨?_, ?_, ?_⟩ <;> decide +kernel
/-- R510: register 5, kind 0x20; MR0 and kind 0x0F may not be extended. -/
def extending (n param : Nat) : State := (secP 3 param pktBuf 0).put F.SEC_LOG.entries n
theorem test_secExtend : goes (exec (.secExtend false) (extending 3 0x2005)) (fun t => jobIs t .ok 0 && t.get F.SEC_LOG.entries == 4 && t.readSram (0x0F000000 + 192) 8 == [5#8, 0x20#8, 0#8, 0#8, 3#8, 0#8, 0#8, 0#8] && vget t.sec.mrs 5 == sha384 (List.replicate 96 0#8)) &&
    goes (exec (.secExtend false) (extending 3 0x2000)) (fun t => jobIs t .accessDenied 0) && goes (exec (.secExtend false) (extending 3 0x0F05)) (fun t => jobIs t .accessDenied 0) && goes (exec (.secExtend false) (extending 1024 0x2005)) (fun t => jobIs t .accessDenied 0) = true := by
  decide +kernel
/-- R504: fuses 1 and 2 of the boot counter follow fuse 0, or fuse 2 does not verify; 4 lies beyond the image's version. -/
def advancing (param : Nat) : State := ((secP 5 param 0 0).put F.SEC_SVN.img_svn 3).blow 0x234 1
theorem test_secSvnAdv : goes (exec (.secSvnAdv none) (advancing 3)) (fun t => t.otp 0x234 == 7 && t.get F.SEC_SVN.boot == 3 && jobIs t .ok 0) && goes (exec (.secSvnAdv (some 1)) (advancing 3)) (fun t => t.otp 0x234 == 3 && jobIs t .dataErr 0) &&
    goes (exec (.secSvnAdv none) (advancing 4)) (fun t => t.otp 0x234 == 1 && jobIs t .accessDenied 0) = true := by decide +kernel

/-- A record of action `a` (R507) for a block of serial number 0 and nonce 0. -/
def recordOf (a : Nat) : List Byte := leBytes 8 (0x4B524E45 + 2 ^ 32 + a * 2 ^ 48) ++ List.replicate 4088 0#8
def nonced : State := b0.put F.SEC_STATUS.nonce_valid 1
theorem test_recordOk : nonced.recordOk (recordOf 1) = true ∧ b0.recordOk (recordOf 1) = false ∧ nonced.recordOk (List.replicate 4096 0#8) = false ∧ recAction (recordOf 5) = 5 := by refine ⟨?_, ?_, ?_, ?_⟩ <;> decide +kernel
/-- An enrolment in the first slot, signed with the new owner's key by another implementation: twice the generator of P-384, at 0x080, and the signature at 0x200. -/
def enrolKey : List Byte := beBytes 97 0x408d999057ba3d2d969260045c55b97f089025959a6f434d651d207d19fb96e9e4fe0e86ebe0e64f85b96a9c75295df618e80f1fa5b1b3cedb7bfe8dffd6dba74b275d875bc6cc43e904e505f256ab4255ffd43e94d39e22d61501e700a940e80
def enrolSig : List Byte := beBytes 48 0x77a41d4606ffa1464793c7e5fdc7d98cb9d3910202dcd06bea4f240d3566da6b408bbae5026580d02d7e5c70500c831 ++ beBytes 48 0x6227ce495ce5aef1aa4dff20879c154f1f05555ba9205f1ec645817d9f34d0275f3d53d1fa0fdee0d04335531b56ec56
def enrolRecord : List Byte := leBytes 8 (0x4B524E45 + 2 ^ 32 + 2 ^ 48) ++ List.replicate 0x78 0#8 ++ enrolKey ++ List.replicate (0x180 - 97) 0#8 ++ enrolSig ++ List.replicate (4096 - 0x260) 0#8
/-- A part of a scalar multiplication: `n` further bits of the scalar from the point `r`. -/
def mulOn (q : Point) (k : Nat) (r : Point) : Nat → Point
  | 0 => r
  | n + 1 =>
    let r := mulOn q (k / 2) r n
    let r := pointAdd r r
    if k % 2 = 1 then pointAdd r q else r
theorem pointMul_split (q : Point) (k m n : Nat) : pointMul q k (m + n) = mulOn q k (pointMul q (k / 2 ^ n) m) n := by
  induction n generalizing k with
  | zero => simp [mulOn]
  | succ n ih => rw [← Nat.add_assoc, pointMul, mulOn, ih, Nat.div_div_eq_div_mul, Nat.pow_succ, Nat.mul_comm 2]
theorem enrolG_0 : pointMul p384g 0x15fb09f8266f9a47 64 = some (0xf194e652bd33315d79e5a88a8a4b9281999a2c0f5c03c3f88a04deed4f868ede6fab5150d1cf9b8e7a4fea5236a84fad, 0x4789539de0736e98f26a2cc1d59d3d342d692d8555c73cd51958c2136ce0193defa16ca8a2323d15468f9641055de642) := by decide +kernel
theorem enrolG_1 : mulOn p384g 0x15fb09f8266f9a473d42ef1bfd060495 (some (0xf194e652bd33315d79e5a88a8a4b9281999a2c0f5c03c3f88a04deed4f868ede6fab5150d1cf9b8e7a4fea5236a84fad, 0x4789539de0736e98f26a2cc1d59d3d342d692d8555c73cd51958c2136ce0193defa16ca8a2323d15468f9641055de642)) 64 = some (0xc761e53162757ef727d191f870a2230829c1ad2e3106ffe9bae5106406b9a123aab3dbe88946db5f8163dffca49b813d, 0x2b26aa2ffbe5b33d13114211162c700b0c72b57d46eccc51733c5ba97ffb6ef02e7de4d8fbd9aeaf85ec461d06ff65da) := by decide +kernel
theorem enrolG_2 : mulOn p384g 0x15fb09f8266f9a473d42ef1bfd060495bf055b595159fe39 (some (0xc761e53162757ef727d191f870a2230829c1ad2e3106ffe9bae5106406b9a123aab3dbe88946db5f8163dffca49b813d, 0x2b26aa2ffbe5b33d13114211162c700b0c72b57d46eccc51733c5ba97ffb6ef02e7de4d8fbd9aeaf85ec461d06ff65da)) 64 = some (0xc8f09668445e641dc8a4bf03cff5404f0d299482f7e70bccc808c049ddd13d3cf155b80e980343da54f46b45e1a189cc, 0x41e9eb27e3f9d548f1fd0700751fb1f7165692d4ef3a297a8b9317d8c9cc8a0bc696e0cb7e1b78c50745e2d35838ae05) := by decide +kernel
theorem enrolG_3 : mulOn p384g 0x15fb09f8266f9a473d42ef1bfd060495bf055b595159fe39f48542f2127ec096 (some (0xc8f09668445e641dc8a4bf03cff5404f0d299482f7e70bccc808c049ddd13d3cf155b80e980343da54f46b45e1a189cc, 0x41e9eb27e3f9d548f1fd0700751fb1f7165692d4ef3a297a8b9317d8c9cc8a0bc696e0cb7e1b78c50745e2d35838ae05)) 64 = some (0xe86d3587cbfa4f6858d86fe5e62470b212fc0343d5c1e077453194d05d2224c603f92c7489a6d736bec6410759252164, 0xf4203de4a70a9524886b693e83c6df211fc5b21c290aba9f9fdc91e9e21769e2472df2fe2145ced1f39b8a5568a2c77a) := by decide +kernel
theorem enrolG_4 : mulOn p384g 0x15fb09f8266f9a473d42ef1bfd060495bf055b595159fe39f48542f2127ec0965ad0b1b64912e7ac (some (0xe86d3587cbfa4f6858d86fe5e62470b212fc0343d5c1e077453194d05d2224c603f92c7489a6d736bec6410759252164, 0xf4203de4a70a9524886b693e83c6df211fc5b21c290aba9f9fdc91e9e21769e2472df2fe2145ced1f39b8a5568a2c77a)) 64 = some (0xb68d9ff4c36ab96cd6bbec70b579c9b2b8d403effad04bd6f056de32d7c88794c424c43be413d24f6c68edb405e168ea, 0x5cb72940d3bb8df3326d01a207f41d7fb0b234a7b33b6accc301590916098750aa59d27de9addea9a4fc78612d8108c6) := by decide +kernel
theorem enrolG_5 : mulOn p384g 0x15fb09f8266f9a473d42ef1bfd060495bf055b595159fe39f48542f2127ec0965ad0b1b64912e7acb6697ee530715bf2 (some (0xb68d9ff4c36ab96cd6bbec70b579c9b2b8d403effad04bd6f056de32d7c88794c424c43be413d24f6c68edb405e168ea, 0x5cb72940d3bb8df3326d01a207f41d7fb0b234a7b33b6accc301590916098750aa59d27de9addea9a4fc78612d8108c6)) 64 = some (0xbc2da2c58d2a729c2b999c4328367b78d7b4e08661a5fb0cace9604f39cb1a236a2024d84c1fb498e46134bbb4f960e2, 0xd431a58a7ef7a0c276d3dbb2f3b9b6fb6b0184682c200af41e346033b2bc1e4abc1af0d79a33f056f44bb9e55f4d1d7f) := by decide +kernel
theorem enrolG : pointMul p384g 0x15fb09f8266f9a473d42ef1bfd060495bf055b595159fe39f48542f2127ec0965ad0b1b64912e7acb6697ee530715bf2 384 = some (0xbc2da2c58d2a729c2b999c4328367b78d7b4e08661a5fb0cace9604f39cb1a236a2024d84c1fb498e46134bbb4f960e2, 0xd431a58a7ef7a0c276d3dbb2f3b9b6fb6b0184682c200af41e346033b2bc1e4abc1af0d79a33f056f44bb9e55f4d1d7f) := by
  rw [show pointMul p384g 0x15fb09f8266f9a473d42ef1bfd060495bf055b595159fe39f48542f2127ec0965ad0b1b64912e7acb6697ee530715bf2 384 = _ from pointMul_split p384g 0x15fb09f8266f9a473d42ef1bfd060495bf055b595159fe39f48542f2127ec0965ad0b1b64912e7acb6697ee530715bf2 320 64, show 0x15fb09f8266f9a473d42ef1bfd060495bf055b595159fe39f48542f2127ec0965ad0b1b64912e7acb6697ee530715bf2 / 2 ^ 64 = 0x15fb09f8266f9a473d42ef1bfd060495bf055b595159fe39f48542f2127ec0965ad0b1b64912e7ac by decide +kernel]
  rw [show pointMul p384g 0x15fb09f8266f9a473d42ef1bfd060495bf055b595159fe39f48542f2127ec0965ad0b1b64912e7ac 320 = _ from pointMul_split p384g 0x15fb09f8266f9a473d42ef1bfd060495bf055b595159fe39f48542f2127ec0965ad0b1b64912e7ac 256 64, show 0x15fb09f8266f9a473d42ef1bfd060495bf055b595159fe39f48542f2127ec0965ad0b1b64912e7ac / 2 ^ 64 = 0x15fb09f8266f9a473d42ef1bfd060495bf055b595159fe39f48542f2127ec096 by decide +kernel]
  rw [show pointMul p384g 0x15fb09f8266f9a473d42ef1bfd060495bf055b595159fe39f48542f2127ec096 256 = _ from pointMul_split p384g 0x15fb09f8266f9a473d42ef1bfd060495bf055b595159fe39f48542f2127ec096 192 64, show 0x15fb09f8266f9a473d42ef1bfd060495bf055b595159fe39f48542f2127ec096 / 2 ^ 64 = 0x15fb09f8266f9a473d42ef1bfd060495bf055b595159fe39 by decide +kernel]
  rw [show pointMul p384g 0x15fb09f8266f9a473d42ef1bfd060495bf055b595159fe39 192 = _ from pointMul_split p384g 0x15fb09f8266f9a473d42ef1bfd060495bf055b595159fe39 128 64, show 0x15fb09f8266f9a473d42ef1bfd060495bf055b595159fe39 / 2 ^ 64 = 0x15fb09f8266f9a473d42ef1bfd060495 by decide +kernel]
  rw [show pointMul p384g 0x15fb09f8266f9a473d42ef1bfd060495 128 = _ from pointMul_split p384g 0x15fb09f8266f9a473d42ef1bfd060495 64 64, show 0x15fb09f8266f9a473d42ef1bfd060495 / 2 ^ 64 = 0x15fb09f8266f9a47 by decide +kernel]
  rw [enrolG_0, enrolG_1, enrolG_2, enrolG_3, enrolG_4, enrolG_5]
def enrolPoint : Point := some (0x8d999057ba3d2d969260045c55b97f089025959a6f434d651d207d19fb96e9e4fe0e86ebe0e64f85b96a9c75295df61, 0x8e80f1fa5b1b3cedb7bfe8dffd6dba74b275d875bc6cc43e904e505f256ab4255ffd43e94d39e22d61501e700a940e80)
theorem enrolQ_0 : pointMul enrolPoint 0x75027b03ecc832dc 64 = some (0x9a1edf8cb368bc6c77ad7c01b869e86d607deecfc5e55859b04135eb245fbc572d4a4da8b1f7e9623243f4d3894aaeb3, 0xf5d8776b4a28ffe388323eb672875d9dfd35f4d02bbf4943605f87b9d7c40ec22638d47338bb9f375ddd830725c27dbd) := by decide +kernel
theorem enrolQ_1 : mulOn enrolPoint 0x75027b03ecc832dc615e8872017cfdb5 (some (0x9a1edf8cb368bc6c77ad7c01b869e86d607deecfc5e55859b04135eb245fbc572d4a4da8b1f7e9623243f4d3894aaeb3, 0xf5d8776b4a28ffe388323eb672875d9dfd35f4d02bbf4943605f87b9d7c40ec22638d47338bb9f375ddd830725c27dbd)) 64 = some (0x3878bc06a38afecc94a4efe55f27ed2eb640659ad4291e8b196c2d26da34537c403155f761224cd54fd8dd1d789126, 0xd69ebc130b2af3924a935ec7622650ebc4d2d4ca5bf137ab1c62f2663d30a258efccdb31e953fe9d961106e65725f1ed) := by decide +kernel
theorem enrolQ_2 : mulOn enrolPoint 0x75027b03ecc832dc615e8872017cfdb5207d5253575300e2 (some (0x3878bc06a38afecc94a4efe55f27ed2eb640659ad4291e8b196c2d26da34537c403155f761224cd54fd8dd1d789126, 0xd69ebc130b2af3924a935ec7622650ebc4d2d4ca5bf137ab1c62f2663d30a258efccdb31e953fe9d961106e65725f1ed)) 64 = some (0x9284251d5919a1e941e7c05ee3ec9de90301e5053fdda117a1a0a9c54a894a24f55f8f77072f60d5e14dfa1836ebf351, 0x28cc8e61b5be99adc2b969891a544977df50e3797183628b8ab59e40fdc9144ff9d05ddcd80a058afee48c5c235fa8e5) := by decide +kernel
theorem enrolQ_3 : mulOn enrolPoint 0x75027b03ecc832dc615e8872017cfdb5207d5253575300e2e96f0547f0dc36a4 (some (0x9284251d5919a1e941e7c05ee3ec9de90301e5053fdda117a1a0a9c54a894a24f55f8f77072f60d5e14dfa1836ebf351, 0x28cc8e61b5be99adc2b969891a544977df50e3797183628b8ab59e40fdc9144ff9d05ddcd80a058afee48c5c235fa8e5)) 64 = some (0xadf9e53eeed0fdef482899b0597a937760224c9b149494f8d3adcd0512a519c42d385c56594be63fcaeed47f30c79b79, 0x1e411a0ae179a1d1189d922721b530eefbaa64e02de2c37bbba5f18e7dfca9bdd3655d4f09531141e46c8b61ca831290) := by decide +kernel
theorem enrolQ_4 : mulOn enrolPoint 0x75027b03ecc832dc615e8872017cfdb5207d5253575300e2e96f0547f0dc36a47ea4adfdffcedfe7 (some (0xadf9e53eeed0fdef482899b0597a937760224c9b149494f8d3adcd0512a519c42d385c56594be63fcaeed47f30c79b79, 0x1e411a0ae179a1d1189d922721b530eefbaa64e02de2c37bbba5f18e7dfca9bdd3655d4f09531141e46c8b61ca831290)) 64 = some (0x98b0314a0c7b4d394ff13bc249b440b43c0bd6564fcce426168e7db2a91d26deaa07535ad63db882bf7c70c6f996e327, 0x263aa117e6283ef6c83b8e2bbe198a4e0e2fbb0fdea91b7f2c5571260ecaad54662490695afc3ddbad8bf7d6370f5295) := by decide +kernel
theorem enrolQ_5 : mulOn enrolPoint 0x75027b03ecc832dc615e8872017cfdb5207d5253575300e2e96f0547f0dc36a47ea4adfdffcedfe71b414d42ce29e6c2 (some (0x98b0314a0c7b4d394ff13bc249b440b43c0bd6564fcce426168e7db2a91d26deaa07535ad63db882bf7c70c6f996e327, 0x263aa117e6283ef6c83b8e2bbe198a4e0e2fbb0fdea91b7f2c5571260ecaad54662490695afc3ddbad8bf7d6370f5295)) 64 = some (0xa13dfb48378331e0f99e538c74466041b8e2b2265c1d6cc5fa07529fb39f3b46b84c14c853986ecdbc421b26ff72d740, 0x7f3f666636d8add5d56747148ef17fc3ce5f3acc293c04c122565c597b0fef8ca3b56663664fe597e566248a746e1e4) := by decide +kernel
theorem enrolQ : pointMul enrolPoint 0x75027b03ecc832dc615e8872017cfdb5207d5253575300e2e96f0547f0dc36a47ea4adfdffcedfe71b414d42ce29e6c2 384 = some (0xa13dfb48378331e0f99e538c74466041b8e2b2265c1d6cc5fa07529fb39f3b46b84c14c853986ecdbc421b26ff72d740, 0x7f3f666636d8add5d56747148ef17fc3ce5f3acc293c04c122565c597b0fef8ca3b56663664fe597e566248a746e1e4) := by
  rw [show pointMul enrolPoint 0x75027b03ecc832dc615e8872017cfdb5207d5253575300e2e96f0547f0dc36a47ea4adfdffcedfe71b414d42ce29e6c2 384 = _ from pointMul_split enrolPoint 0x75027b03ecc832dc615e8872017cfdb5207d5253575300e2e96f0547f0dc36a47ea4adfdffcedfe71b414d42ce29e6c2 320 64, show 0x75027b03ecc832dc615e8872017cfdb5207d5253575300e2e96f0547f0dc36a47ea4adfdffcedfe71b414d42ce29e6c2 / 2 ^ 64 = 0x75027b03ecc832dc615e8872017cfdb5207d5253575300e2e96f0547f0dc36a47ea4adfdffcedfe7 by decide +kernel]
  rw [show pointMul enrolPoint 0x75027b03ecc832dc615e8872017cfdb5207d5253575300e2e96f0547f0dc36a47ea4adfdffcedfe7 320 = _ from pointMul_split enrolPoint 0x75027b03ecc832dc615e8872017cfdb5207d5253575300e2e96f0547f0dc36a47ea4adfdffcedfe7 256 64, show 0x75027b03ecc832dc615e8872017cfdb5207d5253575300e2e96f0547f0dc36a47ea4adfdffcedfe7 / 2 ^ 64 = 0x75027b03ecc832dc615e8872017cfdb5207d5253575300e2e96f0547f0dc36a4 by decide +kernel]
  rw [show pointMul enrolPoint 0x75027b03ecc832dc615e8872017cfdb5207d5253575300e2e96f0547f0dc36a4 256 = _ from pointMul_split enrolPoint 0x75027b03ecc832dc615e8872017cfdb5207d5253575300e2e96f0547f0dc36a4 192 64, show 0x75027b03ecc832dc615e8872017cfdb5207d5253575300e2e96f0547f0dc36a4 / 2 ^ 64 = 0x75027b03ecc832dc615e8872017cfdb5207d5253575300e2 by decide +kernel]
  rw [show pointMul enrolPoint 0x75027b03ecc832dc615e8872017cfdb5207d5253575300e2 192 = _ from pointMul_split enrolPoint 0x75027b03ecc832dc615e8872017cfdb5207d5253575300e2 128 64, show 0x75027b03ecc832dc615e8872017cfdb5207d5253575300e2 / 2 ^ 64 = 0x75027b03ecc832dc615e8872017cfdb5 by decide +kernel]
  rw [show pointMul enrolPoint 0x75027b03ecc832dc615e8872017cfdb5 128 = _ from pointMul_split enrolPoint 0x75027b03ecc832dc615e8872017cfdb5 64 64, show 0x75027b03ecc832dc615e8872017cfdb5 / 2 ^ 64 = 0x75027b03ecc832dc by decide +kernel]
  rw [enrolQ_0, enrolQ_1, enrolQ_2, enrolQ_3, enrolQ_4, enrolQ_5]
theorem enrol_signed : ecdsaOk (sliceOf enrolRecord 0x080 97) (sha384 (enrolRecord.take 512)) (sliceOf enrolRecord 0x200 96) = true := by
  have hp : pointOf (sliceOf enrolRecord 0x080 97) = enrolPoint := by decide +kernel
  have hz : beNat (sha384 (enrolRecord.take 512)) = 0x1782e73355d118ac35f78464d71b44bbc5d58df2bb05834f0e23527542ba67495d8c76670532450d7e2dbb007b3e0b2d := by decide +kernel
  have hr : beNat ((sliceOf enrolRecord 0x200 96).take 48) = 0x77a41d4606ffa1464793c7e5fdc7d98cb9d3910202dcd06bea4f240d3566da6b408bbae5026580d02d7e5c70500c831 := by decide +kernel
  have hs : beNat ((sliceOf enrolRecord 0x200 96).drop 48) = 0x6227ce495ce5aef1aa4dff20879c154f1f05555ba9205f1ec645817d9f34d0275f3d53d1fa0fdee0d04335531b56ec56 := by decide +kernel
  have hl : (sliceOf enrolRecord 0x200 96).length = 96 := by decide +kernel
  have h1 : 0x1782e73355d118ac35f78464d71b44bbc5d58df2bb05834f0e23527542ba67495d8c76670532450d7e2dbb007b3e0b2d * invMod p384n 0x6227ce495ce5aef1aa4dff20879c154f1f05555ba9205f1ec645817d9f34d0275f3d53d1fa0fdee0d04335531b56ec56 % p384n = 0x15fb09f8266f9a473d42ef1bfd060495bf055b595159fe39f48542f2127ec0965ad0b1b64912e7acb6697ee530715bf2 := by decide +kernel
  have h2 : 0x77a41d4606ffa1464793c7e5fdc7d98cb9d3910202dcd06bea4f240d3566da6b408bbae5026580d02d7e5c70500c831 * invMod p384n 0x6227ce495ce5aef1aa4dff20879c154f1f05555ba9205f1ec645817d9f34d0275f3d53d1fa0fdee0d04335531b56ec56 % p384n = 0x75027b03ecc832dc615e8872017cfdb5207d5253575300e2e96f0547f0dc36a47ea4adfdffcedfe71b414d42ce29e6c2 := by decide +kernel
  have hc : (96 : Nat) = 96 ∧ 1 ≤ 0x77a41d4606ffa1464793c7e5fdc7d98cb9d3910202dcd06bea4f240d3566da6b408bbae5026580d02d7e5c70500c831 ∧ 0x77a41d4606ffa1464793c7e5fdc7d98cb9d3910202dcd06bea4f240d3566da6b408bbae5026580d02d7e5c70500c831 < p384n ∧ 1 ≤ 0x6227ce495ce5aef1aa4dff20879c154f1f05555ba9205f1ec645817d9f34d0275f3d53d1fa0fdee0d04335531b56ec56 ∧ 0x6227ce495ce5aef1aa4dff20879c154f1f05555ba9205f1ec645817d9f34d0275f3d53d1fa0fdee0d04335531b56ec56 < p384n := by decide +kernel
  simp only [ecdsaOk, hp, hz, hr, hs, hl, hc]
  simp only [enrolPoint, h1, h2, enrolG]
  have hq := enrolQ
  rw [enrolPoint] at hq
  rw [hq]
  decide +kernel
theorem test_enrol_accepted : recAction enrolRecord ≠ 5 ∧ nonced.recordOk enrolRecord = true ∧ nonced.actionOk enrolRecord = true := by
  have a : recAction enrolRecord = 1 := by decide +kernel
  have b : nonced.freeSlot = some (recSlot enrolRecord) := by decide +kernel
  have c : nonced.activeOwner = none := by decide +kernel
  have d : (noAuth enrolRecord && nonced.get F.SEC_STATUS.signer != 2) = true := by decide +kernel
  refine ⟨by rw [a]; decide, by decide +kernel, ?_⟩
  simp only [State.actionOk, a, b, c, enrol_signed, d, beq_self_eq_true, Bool.and_self]
/-- The hashes of the keys that a record of zeros names stand in OTP; where both signatures verify, a debug record is authorised. -/
def keyed : State := nonced.blowWords (otpKey 0) (wordsLe (sha384 (List.replicate 97 0#8)) ++ wordsLe (sha384 (List.replicate 48 0#8)))
theorem keyed_facts : (noNewKey (recordOf 5) && recSlot (recordOf 5) == 0 && !keyed.life 3) = true ∧ keyed.activeOwner = none ∧ keyed.selectKey 0 = some (otpKey 0, 0) ∧
    (sha384 (sliceOf (recordOf 5) 0x160 97) == (keyed.keyHashes (otpKey 0)).1 && sha384 (sliceOf (recordOf 5) 0x1C8 48) == (keyed.keyHashes (otpKey 0)).2) = true := by refine ⟨?_, ?_, ?_, ?_⟩ <;> decide +kernel

theorem test_tap : goes (exec .tapIdcode b0) (fun t => t.sec.tapOut == 0x1B240A5F && t.outbox == [.tap 0x1B240A5F]) && goes (exec .tapNonceRead (b0.setReg R.SEC_NONCE 7 0 1)) (fun t => t.sec.tapOut == 7 * 2 ^ 64) &&
    goes (exec (.tapTokenLoad (List.replicate 4096 0#8)) b0) (fun t => !t.on F.SEC_STATUS.debug_pending) && goes (exec (.tapBypass 0xFF) b0) (fun t => !t.on F.SEC_JTAG.tap_denied) && goes (exec (.tapBypass 0x33) (b0.blow otpLifecycle 1)) (fun t => t.on F.SEC_JTAG.tap_denied) &&
    !goes (exec (.tapBypass 0x33) b0) (fun _ => true) = true := by decide +kernel

/-! ## The error log (R520-R532): the example of a storm -/

/-- The report of landing 46 at `n` times 50 µs after 7.0002 s. -/
def storm (n : Nat) : Report := ⟨0x13, 46, 0, 0x0201, 2, .ok, 9, 7000200000 + 50000 * (n - 1)⟩
def waits (l : List Report) (f : Elog → Elog) : State := { b0 with elog := f { b0.elog with queue := l } }
/-- Entry A with its first `n` reports. -/
def entryA (n : Nat) : LogEntry := { LogEntry.ofReport (storm 1) with lastDt := 50000 * (n - 1), count := n }
theorem test_storm_opens : goes (exec (.errorReport none) (waits [storm 1] id)) (fun t => t.elog.opened == [entryA 1] && t.on F.ELOG_STATUS.first_valid && t.reg R.ELOG_FIRST 0 0 == 7000200000 && t.outbox.length == 1 && t.elog.counts == [(srcOf (storm 1), 1)]) = true := by decide +kernel
theorem test_storm_joins : goes (exec (.errorReport none) (waits [storm 10] fun l => { l with opened := [entryA 9], ms := 7000, counts := [(srcOf (storm 1), 9)] })) (fun t => t.elog.opened == [entryA 10] && (entryA 10).lastDt == 450000 && t.elog.masks == []) = true := by decide +kernel
theorem test_storm_masks : goes (exec (.errorReport none) ((waits [storm 11] fun l => { l with opened := [entryA 10], ms := 7000, counts := [(srcOf (storm 1), 10)] }).put F.ELOG_STATUS.first_valid 1)) (fun t =>
    t.elog.opened == [entryA 10] && t.elog.masks == [⟨srcOf (storm 1), 8000000000, none⟩] && t.get F.ELOG_COUNTS.masked == 1 && t.get F.ELOG_STATUS.head == 1 && t.reg R.ELOG_LATEST 0 3 == 0x00000201_0000000B && t.on F.ELOG_SUM.storm 0 10) = true := by decide +kernel
theorem test_storm_discards : goes (exec (.errorReport none) (waits [storm 12] fun l => { l with opened := [entryA 10], masks := [⟨srcOf (storm 1), 8000000000, none⟩] })) (fun t => t.elog.opened == [entryA 10] && t.get F.ELOG_COUNTS.masked == 1 && t.get F.ELOG_SUM.reports 0 10 == 1 && t.outbox == []) &&
    goes (exec (.errorReport none) (waits [{ storm 12 with btime := 8000000000 }] fun l => { l with masks := [⟨srcOf (storm 1), 8000000000, none⟩] })) (fun t => t.elog.opened.length == 1) = true := by decide +kernel
/-- A report a millisecond after the first, and a 65th entry. -/
theorem test_entries : goes (exec (.errorReport none) ((waits [storm 21] fun l => { l with opened := [entryA 10] }).put F.ELOG_STATUS.first_valid 1)) (fun t => t.elog.opened == [LogEntry.ofReport (storm 21)] && t.get F.ELOG_STATUS.head == 1) &&
    goes (exec (.errorReport none) ((waits [storm 1] fun l => { l with opened := (List.range 64).map fun i => { entryA 1 with source := i } }).put F.ELOG_STATUS.first_valid 1)) (fun t => t.elog.opened.length == 64 && t.get F.ELOG_STATUS.head == 1) &&
    goes (exec (.errorReport (some (storm 1))) b0) (fun t => t.elog.queue == []) && stops (exec (.errorReport none) b0) = true := by decide +kernel
theorem test_entryClose : goes (exec .entryClose (waits [] fun l => { l with opened := [entryA 10] })) (fun t => t.elog.opened == [] && leNat (t.readSram 0x0E000000 32) == (entryA 10).word && t.get F.ELOG_STATUS.head == 1) && stops (exec .entryClose b0) = true := by decide +kernel
/-- The ring has room for one of two. -/
theorem test_elogFlush : goes (exec .elogFlush ((waits [] fun l => { l with opened := [entryA 10, entryA 9] }).put F.ELOG_STATUS.head 4095)) (fun t => t.elog.opened == [] && t.get F.ELOG_STATUS.head == 4096 && t.on F.ELOG_STATUS.overflowed && t.get F.ELOG_COUNTS.overflow == 1) = true := by decide +kernel
theorem test_stormMaskEnd : goes (exec (.stormMaskEnd 0x13 46 0) (waits [] fun l => { l with masks := [⟨srcOf (storm 1), 8000000000, none⟩] })) (fun t => t.elog.masks == []) && stops (exec (.stormMaskEnd 0x13 46 0) b0) = true := by decide +kernel

/-! ## Gauges (R533-R541) -/

/-- The bins of R534 at their bounds. -/
theorem test_bins : [0, 1, 2, 3, 4, 2 ^ 30 - 1, 2 ^ 30, 2 ^ 32].map gaugeBin = [0, 1, 2, 2, 3, 30, 31, 31] := by decide
/-- Gauge 3 is live from 1000 with a period of 1000, on Floor power (a level) or on event source 1; a period from 0 waits. -/
def gauge (src : Nat) (ended : Bool) : State :=
  let s := ((b0.put F.GAUGE_STATUS.live 1 3).put F.GAUGE_STATUS.src_now (src * 2 ^ 12) 3).put F.GAUGE_CFG.enable 1 3
  s.setGauge 3 ⟨GaugeStats.fresh 1000, if ended then some (GaugeStats.fresh 500, 1000) else none, 1000, 2⟩
def live (t : State) : GaugeStats := (vget t.gauges 3).live
theorem test_gaugeSample : goes (exec (.gaugeSample 3 9 1000) (gauge 0x20 true)) (fun t => (live t).count == 1 && (live t).mn == 9 && (live t).mx == 9 && (live t).bins == [(4, 1)]) &&
    goes (exec (.gaugeSample 3 9 999) (gauge 0x20 true)) (fun t => (live t).count == 0 && (vget t.gauges 3).ended.any fun q => q.1.count == 1) && goes (exec (.gaugeSample 3 9 499) (gauge 0x20 true)) (fun t => (live t).late == 1) &&
    goes (exec (.gaugeSample 3 9 999) (gauge 0x20 false)) (fun t => (live t).late == 1) && goes (exec (.gaugeSample 3 9 1000) (gauge 0x04 false)) (fun t => (live t).count == 0) && goes (exec (.gaugeSample 4 9 1000) (gauge 0x20 false)) (fun t => (vget t.gauges 4).live.count == 0) = true := by
  decide +kernel
/-- Of four events of an event source with a decimation of 2, the fourth is a sample. -/
theorem test_gaugeSample_event : goes (exec (.gaugeSample 3 9 1000) (gauge 1 false)) (fun t => (live t).count == 0 && (live t).events == 1) &&
    goes (exec (.gaugeSample 3 9 1000) ((gauge 1 false).setGauge 3 { vget (gauge 1 false).gauges 3 with live := { GaugeStats.fresh 1000 with events := 3 } })) (fun t => (live t).count == 1) = true := by decide +kernel
theorem test_periodBoundary : goes (exec (.periodBoundary 3) (gauge 0x20 true)) (fun t => (live t).start == 2000 && (vget t.gauges 3).ended == some (GaugeStats.fresh 1000, 2000) && t.get F.GAUGE_STATUS.seq 3 == 1 && t.reg R.GAUGE_START 3 == 500) &&
    goes (exec (.periodBoundary 3) ((gauge 0x20 false).put F.GAUGE_STATUS.live 0 3)) (fun t => t.on F.GAUGE_STATUS.live 3 && (vget t.gauges 3).ended == none) && stops (exec (.periodBoundary 3) ((gauge 0x20 true).put F.GAUGE_CFG.enable 0 3)) = true := by decide +kernel
theorem test_gaugeLatch : goes (exec (.gaugeLatch 3) (gauge 0x20 true)) (fun t => t.reg R.GAUGE_END 3 == 1000 && t.get F.GAUGE_MINMAX.min 3 == 0xFFFFFFFF && t.get F.GAUGE_STATUS.seq 3 == 1 && (vget t.gauges 3).ended == none) && stops (exec (.gaugeLatch 3) (gauge 0x20 false)) = true := by decide +kernel
theorem test_gaugeCfgWrite : goes (exec (.gaugeCfgWrite 3 0#64) (gauge 0x20 true)) (fun t => !t.on F.GAUGE_STATUS.live 3 && t.on F.GAUGE_STATUS.partial 3 && t.get F.GAUGE_STATUS.seq 3 == 2) &&
    goes (exec (.gaugeCfgWrite 3 (BitVec.ofNat 64 (1 + 0x20 * 2))) (gauge 1 false)) (fun t => t.get F.GAUGE_STATUS.src_now 3 == 2 ^ 12 && t.get F.GAUGE_CFG.source 3 == 0x20) &&
    goes (exec (.gaugeCfgWrite 4 (BitVec.ofNat 64 (1 + 0x04 * 2))) (gauge 1 false)) (fun t => t.get F.GAUGE_STATUS.src_now 4 == 4 * 2 ^ 12 && t.on F.GAUGE_STATUS.bad_cfg 4) = true := by decide +kernel

/-! ## Pins (R549-R560) -/

/-- The levels of an input: high on inputs 1-6 and the lands of the power, low on the rest. -/
def pins (n : Fin 17) (level : Bool) (f : State → State) : State := f { b0 with pins := { b0.pins with levels := vset b0.pins.levels n level } }
/-- FLOW rises; input 3 falls to its active level; input 5 notes either edge; the same level is no edge. -/
theorem test_inputEdge : goes (exec (.inputEdge 0 true) (pins 0 false id)) (fun t => nbit (t.get F.PIN_IN.active) 0 && nbit (t.get F.PIN_EDGE.edge) 0 && vget t.pins.edges 0 == 1) &&
    goes (exec (.inputEdge 3 false) (pins 3 true fun s => s.put F.PIN_IRQ_EN.enable 8)) (fun t => nbit (t.get F.PIN_EDGE.edge) 3 && t.outbox == [.pinInterrupt 3]) &&
    goes (exec (.inputEdge 3 true) (pins 3 false fun s => (s.put F.PIN_IRQ_EN.enable 8).put F.PIN_IN.active 8)) (fun t => !nbit (t.get F.PIN_IN.active) 3 && !nbit (t.get F.PIN_EDGE.edge) 3 && t.outbox == []) && goes (exec (.inputEdge 5 true) (pins 5 false id)) (fun t => nbit (t.get F.PIN_EDGE.edge) 5) &&
    stops (exec (.inputEdge 0 true) (pins 0 true id)) = true := by decide +kernel
theorem test_inputEdge_deaf : goes (exec (.inputEdge 0 true) (pins 0 false fun s => s.put F.PIN_FAULT.stuck 1)) (fun t => vget t.pins.edges 0 == 0 && nbit (t.get F.PIN_IN.active) 0) && goes (exec (.inputEdge 7 true) (pins 7 false fun s => s.put F.PIN_GPIO.oe 1)) (fun t => t.get F.PIN_EDGE.edge == 0 && vget t.pins.edges 7 == 0) &&
    goes (exec (.inputEdge 15 true) (pins 15 false id)) (fun t => t.on F.PIN_STATUS.reset_n) && goes (exec (.inputEdge 16 true) (pins 16 false id)) (fun t => t.on F.PIN_STATUS.vpm_pg) = true := by decide +kernel
theorem test_chatterWindowEnd : goes (exec .chatterWindowEnd { b0 with pins := { b0.pins with edges := (Vector.replicate 15 1000).set 4 1001 } }) (fun t => t.get F.PIN_FAULT.chatter == 16 && t.pins.edges == Vector.replicate 15 0 && t.elog.queue.length == 1) = true := by decide +kernel
theorem test_inputStuck : goes (exec (.inputStuck 0) ((pins 0 true id).put (F.PIN_HOLD.hold 0) 5)) (fun t => t.get F.PIN_FAULT.stuck == 1 && t.elog.queue.length == 1) && stops (exec (.inputStuck 0) ((pins 0 true id).put (F.PIN_HOLD.hold 0) 0)) = true := by decide +kernel

end Sys2Proof.Tests
end

section
/-! Accesses to registers (R11-R15, R36): where the registers lie, and what a software write and a clearing read do to each bit. -/
namespace Sys2Proof.Machine

/-! ### The place of a register in control space -/

/-- Two registers of a class share no offset of a unit. -/
abbrev Reg.ApartFrom (a b : Reg) : Prop :=
  a.instHi < b.instLo ∨ b.instHi < a.instLo ∨ a.off + 8 * a.count ≤ b.off ∨ b.off + 8 * b.count ≤ a.off

/-- A register lies whole and aligned in the 4 KiB of a unit of its class. -/
abbrev Reg.Within (r : Reg) (c : Nat) : Prop :=
  r.cls = c ∧ r.off % 8 = 0 ∧ r.off + 8 * r.count ≤ 0x1000 ∧ r.instHi < 0x1000

theorem regsOfClass_within (c : Nat) : ∀ r ∈ regsOfClass c, r.Within c := by
  unfold regsOfClass
  split
  case h_17 => simp
  all_goals decide

theorem regsOfClass_apart (c : Nat) : (regsOfClass c).Pairwise Reg.ApartFrom := by
  unfold regsOfClass
  split <;> decide

/-- A register of control space, with a unit and an index that it has. -/
structure Placed (r : Reg) (i j : Nat) : Prop where
  mem : r ∈ regsOfClass r.cls
  lo : r.instLo ≤ i
  hi : i ≤ r.instHi
  idx : j < r.count
  here : regHere r i = true

theorem findReg_of_mem {r : Reg} {l : List Reg} {i j : Nat} (hl : l.Pairwise Reg.ApartFrom) (hr : r ∈ l) (lo : r.instLo ≤ i)
    (hi : i ≤ r.instHi) (hj : j < r.count) : findReg i (r.off + 8 * j) l = some (r, j) := by
  induction l with
  | nil => simp at hr
  | cons a l ih =>
    obtain ⟨ha, hl⟩ := List.pairwise_cons.mp hl
    rcases List.mem_cons.mp hr with rfl | hr
    · have e : (r.off + 8 * j - r.off) / 8 = j := by omega
      rw [findReg, if_pos (by omega), e]
    · have := ha r hr
      rw [findReg, if_neg (by omega), ih hl hr]

/-- A register is found at its own offset. -/
theorem Placed.assigned {r : Reg} {i j : Nat} (h : Placed r i j) : assigned (r.key i j) = some (r, i, j) := by
  obtain ⟨-, -, hoff, hinst⟩ := regsOfClass_within _ r h.mem
  have hi := h.hi
  have hj := h.idx
  have hc : r.key i j / 0x1000000 = r.cls := by unfold Reg.key; omega
  have hn : r.key i j / 0x1000 % 0x1000 = i := by unfold Reg.key; omega
  have ho : r.key i j % 0x1000 = r.off + 8 * j := by unfold Reg.key; omega
  simp [Machine.assigned, regAt, hc, hn, ho, findReg_of_mem (regsOfClass_apart r.cls) h.mem h.lo h.hi h.idx, h.here]

theorem Placed.aligned {r : Reg} {i j : Nat} (h : Placed r i j) : r.key i j % 8 = 0 := by
  obtain ⟨-, ha, -, -⟩ := regsOfClass_within _ r h.mem
  unfold Reg.key; omega

theorem findReg_some {i o : Nat} {l : List Reg} {q : Reg × Nat} (h : findReg i o l = some q) : q.1 ∈ l ∧ i ≤ q.1.instHi := by
  induction l with
  | nil => simp [findReg] at h
  | cons a l ih =>
    rw [findReg] at h
    split at h
    · next hc => cases h; exact ⟨List.mem_cons_self .., hc.2.1⟩
    · exact ⟨List.mem_cons_of_mem _ (ih h).1, (ih h).2⟩

/-- What an offset selects is a register of its class, at one of its instances. -/
theorem assigned_some {off i j : Nat} {r : Reg} (h : assigned off = some (r, i, j)) : r ∈ regsOfClass (off / 0x1000000) ∧ i ≤ r.instHi := by
  obtain ⟨h, -⟩ := Option.filter_eq_some_iff.mp h
  obtain ⟨q, hq, e⟩ := Option.map_eq_some_iff.mp h
  cases e
  exact findReg_some hq

/-! ### Single bits -/

theorem allOnes_testBit (b : Nat) : (0xFFFFFFFFFFFFFFFF : Nat).testBit b = decide (b < 64) := Nat.testBit_two_pow_sub_one 64 b

/-- Taking the bits of a mask out of a word. -/
theorem testBit_and_not {x : Nat} (hx : x < 2 ^ 64) (m b : Nat) : (x &&& (0xFFFFFFFFFFFFFFFF ^^^ m)).testBit b = (x.testBit b && !m.testBit b) := by
  rw [Nat.testBit_and, Nat.testBit_xor, allOnes_testBit]
  by_cases hb : b < 64
  · simp [hb]
  · rw [Nat.testBit_lt_two_pow (Nat.lt_of_lt_of_le hx (Nat.pow_le_pow_right (by decide) (Nat.le_of_not_lt hb)))]; simp

/-- The bits of fields that a write takes. -/
def Reg.takes (r : Reg) (j : Nat) (locked : Bool) (b : Nat) : Bool := (r.rwMask j).testBit b || (r.rwl.testBit b && !locked)

/-- What a software write leaves in each bit (R14, R15). -/
theorem Reg.written_testBit (r : Reg) (j old v : Nat) (locked : Bool) {b : Nat} (hb : b < 64) :
    (r.written j old v locked).testBit b =
      (((if r.takes j locked b then v.testBit b else old.testBit b) && !(v.testBit b && r.w1c.testBit b)) || (v.testBit b && r.w1s.testBit b)) := by
  have ht : (r.rwMask j ||| (if locked then 0 else r.rwl)).testBit b = r.takes j locked b := by
    cases locked <;> simp [Reg.takes]
  simp only [Reg.written, Nat.testBit_or, Nat.testBit_and, Nat.testBit_xor, allOnes_testBit, hb, decide_true, Bool.true_xor] at ht ⊢
  rw [ht]
  cases r.takes j locked b <;> simp

variable (s : State)

theorem State.reg_lt (r : Reg) (i j : Nat) : s.reg r i j < 2 ^ 64 := s.rd_lt _

theorem State.swWrite_testBit (r : Reg) (v i j : Nat) (locked : Bool) {b : Nat} (hb : b < 64) :
    ((s.swWrite r v i j locked).reg r i j).testBit b = (r.written j (s.reg r i j) v locked).testBit b := by
  rw [State.swWrite, State.reg_setReg_same, Nat.testBit_mod_two_pow]; simp [hb]

theorem State.setReg_parts (r : Reg) (v i j : Nat) : OnlyParts [.regs] s (s.setReg r v i j) :=
  (State.setReg_moves (es := fun _ => False) (.refl _) (.refl s)).parts

theorem State.setReg_keys (r : Reg) (v i j : Nat) : OnlyKeys [r.key i j] s (s.setReg r v i j) := fun _ hk =>
  s.rd_setReg_other r v i j ((not_congr List.mem_singleton).mp hk)

/-! ### Clearing reads -/

/-- Every read command with RC fields is the read of its register. -/
theorem exec_of_clearingRead {c : Instr} {r : Reg} {i j : Nat} (h : clearingRead c = some (r, i, j)) : exec c s = .next (s.swRead r i j).1 := by
  unfold clearingRead at h
  split at h <;> cases h <;> rfl

theorem clearingReadsClearRcFieldsAlone : Claim.ClearingReadsClearRcFieldsAlone := by
  intro c r i j s h
  refine ⟨_, exec_of_clearingRead s h, s.setReg_parts _ _ _ _, s.setReg_keys _ _ _ _, fun b => ?_⟩
  have hx : s.reg r i j &&& (0xFFFFFFFFFFFFFFFF ^^^ r.rc) < 2 ^ 64 := Nat.lt_of_le_of_lt Nat.and_le_left (s.reg_lt r i j)
  rw [State.swRead, State.reg_setReg_same, Nat.mod_eq_of_lt hx, testBit_and_not (s.reg_lt r i j)]

/-! ### Writes by offset -/

theorem exec_registerWrite (off : BitVec 32) (v : Word) :
    exec (.registerWrite off v) s = .next (if s.unitCode off.toNat = .ok ∧ off.toNat % 8 = 0 then s.writeControl off.toNat v.toNat else s) := rfl

theorem State.writeControl_of_assigned {off : Nat} {q : Reg × Nat × Nat} (h : assigned off = some q) (v : Nat) :
    s.writeControl off v = s.writeReg q.1 q.2.1 q.2.2 v := by
  rw [State.writeControl, h]

theorem State.writeControl_of_unassigned {off : Nat} (h : assigned off = none) (v : Nat) : s.writeControl off v = s := by
  rw [State.writeControl, h]

theorem State.unitCode_of_not_unitExists {off : Nat} (h : unitExists off = false) : s.unitCode off = .unmapped := by
  rw [State.unitCode, if_pos h]

theorem writesBesideTheRegistersHaveNoEffect : Claim.WritesBesideTheRegistersHaveNoEffect := by
  intro off v s h
  rw [exec_registerWrite]
  rcases h with h | h | h | h
  · simp [h]
  · simp [s.unitCode_of_not_unitExists h]
  · simp [h]
  · simp [s.writeControl_of_unassigned h]

theorem State.onFin_val {n : Nat} (i : Fin n) (f : Fin n → State) : s.onFin i.val f = f i := by
  simp [State.onFin, fin?]

/-- The masks of a register that a write only stores: no command bits, no bit both taken and cleared, no lock outside the links. -/
abbrev Reg.Stores (r : Reg) (c : Nat) : Prop :=
  r.w1s = 0 ∧ r.w1c &&& (r.rw ||| r.rwl) = 0 ∧ (c ≠ 0x20 → r.rwl = 0)

theorem regsOfClass_stores (c : Nat) : ∀ r ∈ regsOfClass c, r ∉ actingRegs → r.Stores c := by
  unfold regsOfClass
  split
  case h_17 => simp
  all_goals decide

/-- Classes with the one unit 0. -/
theorem regsOfClass_one {c : Nat} (hc : c = 0 ∨ c = 3 ∨ c = 5) : ∀ r ∈ regsOfClass c, r.instHi = 0 := by
  rcases hc with rfl | rfl | rfl <;> decide

theorem regsOfClass_frontage : ∀ r ∈ regsOfClass 0x22, r.instHi < 2 := by decide

/-- A write of a register outside `actingRegs` stores and does no more; the lock is that of the links. -/
theorem State.writeReg_of_not_acting {c i j : Nat} {r : Reg} (hr : r ∈ regsOfClass c) (hi : i ≤ r.instHi) (ha : r ∉ actingRegs) (v : Nat) :
    s.writeReg r i j v = s.swWrite r v i j (c == 0x20 && s.on F.AON_BLOCK_ID.lock) := by
  obtain ⟨hcls, -⟩ := regsOfClass_within c r hr
  have one (h : c = 0 ∨ c = 3 ∨ c = 5) : i = 0 := Nat.le_zero.mp (regsOfClass_one h r hr ▸ hi)
  simp only [actingRegs, List.mem_append, List.mem_cons, List.not_mem_nil, or_false, not_or] at ha
  unfold regsOfClass at hr
  unfold State.writeReg
  rw [hcls]
  split at hr
  case h_1 => simp [State.writeAon, ha, one (.inl rfl)]
  case h_2 => simp [ha]
  case h_3 => simp [State.writePwr, ha]
  case h_4 => simp [State.writeThm, ha, one (.inr (.inl rfl))]
  case h_5 => simp [State.writeClk, ha]
  case h_6 => simp [State.writeElog, ha, one (.inr (.inr rfl))]
  case h_7 => simp [ha]
  case h_8 | h_9 | h_11 | h_12 => simp [State.writeColumnUnit, ha]
  case h_10 => simp [State.writeAv, ha]
  case h_13 => simp [State.writePl, ha]
  case h_14 => simp [ha]
  case h_15 =>
    have hp : i < 2 := Nat.lt_of_le_of_lt hi (regsOfClass_frontage r hr)
    simpa [State.writeFr, ha] using s.onFin_val ⟨i, hp⟩ _
  case h_16 => simp [ha]
  case h_17 => simp at hr

/-- The bits that a write takes, for a register that it only stores: the lock is that of the links. -/
theorem takes_eq_taken {c j : Nat} {r : Reg} (h : r.Stores c) (b : Nat) : r.takes j (c == 0x20 && s.on F.AON_BLOCK_ID.lock) b = taken s r j b := by
  obtain ⟨-, -, hl⟩ := h
  by_cases hc : c = 0x20
  · simp [Reg.takes, taken, hc]
  · simp [Reg.takes, taken, hl hc]

theorem Reg.rwMask_testBit {r : Reg} {j b : Nat} (h : (r.rwMask j).testBit b = true) : r.rw.testBit b = true := by
  rw [Reg.rwMask] at h
  split at h
  · next hr =>
    rw [hr.1]
    have hb : b < 64 := Nat.lt_of_not_le fun hb => by
      rw [Nat.testBit_lt_two_pow (Nat.lt_of_lt_of_le (by decide : 0xFFFFFFFFFFFF < 2 ^ 64) (Nat.pow_le_pow_right (by decide) hb))] at h
      exact absurd h (by decide)
    exact (allOnes_testBit b).trans (decide_eq_true hb)
  · exact h

/-- No bit that a write takes is one that it clears. -/
theorem Reg.Stores.w1c_of_taken {c j b : Nat} {r : Reg} (h : r.Stores c) (ht : taken s r j b = true) : r.w1c.testBit b = false := by
  have hb : (r.w1c &&& (r.rw ||| r.rwl)).testBit b = false := by rw [h.2.1, Nat.zero_testBit]
  have hw : (r.rw.testBit b || r.rwl.testBit b) = true := by
    rcases (Bool.or_eq_true _ _).mp ht with hw | hw
    · rw [Reg.rwMask_testBit hw, Bool.true_or]
    · rw [((Bool.and_eq_true _ _).mp hw).1, Bool.or_true]
  simpa [hw] using hb

theorem storingWritesTakeWritableBitsAlone : Claim.StoringWritesTakeWritableBitsAlone := by
  intro off v s r i j ha hu h hr
  obtain ⟨hmem, hi⟩ := assigned_some h
  have hst := regsOfClass_stores _ r hmem hr
  have he : exec (.registerWrite off v) s = .next (s.swWrite r v.toNat i j (off.toNat / 0x1000000 == 0x20 && s.on F.AON_BLOCK_ID.lock)) := by
    rw [exec_registerWrite, if_pos ⟨hu, ha⟩, s.writeControl_of_assigned h, s.writeReg_of_not_acting hmem hi hr]
  refine ⟨_, he, s.setReg_parts _ _ _ _, s.setReg_keys _ _ _ _, fun b hb => ?_⟩
  rw [s.swWrite_testBit _ _ _ _ _ hb, Reg.written_testBit _ _ _ _ _ hb, takes_eq_taken s hst, hst.1, Nat.zero_testBit]
  by_cases ht : taken s r j b = true
  · simp [ht, hst.w1c_of_taken s ht]
  · simp [ht, Bool.and_comm]

/-- A register that is no routing register, at every unit of its class. -/
abbrev Reg.Everywhere (r : Reg) : Prop := r ∈ regsOfClass r.cls ∧ r ≠ R.PL_ROUTE ∧ r ≠ R.PL_ROUTE_NEXT

theorem Reg.Everywhere.placed {r : Reg} (h : r.Everywhere) {i j : Nat} (lo : r.instLo ≤ i) (hi : i ≤ r.instHi) (hj : j < r.count) : Placed r i j :=
  ⟨h.1, lo, hi, hj, by simp [regHere, h.2.1, h.2.2]⟩

/-- A register of one per unit, at a unit. -/
theorem placed_inst {r : Reg} (h : r.Everywhere) {n : Nat} (hn : r.instLo = 0 ∧ r.instHi + 1 = n ∧ r.count = 1) (i : Fin n) : Placed r i.val 0 :=
  h.placed (by omega) (by omega) (by omega)

/-- A register of one per power region or per engine, from number 1 on. -/
theorem placed_succ {r : Reg} (h : r.Everywhere) {n : Nat} (hn : r.instLo = 1 ∧ r.instHi = n ∧ r.count = 1) (i : Fin n) : Placed r (i.val + 1) 0 :=
  h.placed (by omega) (by omega) (by omega)

/-- A register of an array, of the one unit that has it. -/
theorem placed_idx {r : Reg} (h : r.Everywhere) {n : Nat} (hn : r.instLo = r.instHi ∧ r.count = n) (j : Fin n) : Placed r r.instLo j.val :=
  h.placed (by omega) (by omega) (by omega)

/-- The register of each command that is a write of one has its place in control space. -/
theorem placed_of_registerRow {c : Instr} {r : Reg} {i j : Nat} {v : Word} (h : registerRow c = some (r, i, j, v)) : Placed r i j := by
  cases c with
  | aonBlockIdWrite | aonMemoGo | aonLedgerGo | watchdogKick | watchdogEnable | pwrPmbGo | pwrCapWrite | clkStepReq | clkBtimeAdjWrite | elogTailWrite
  | avEpochCommit | plTwinWinWrite | pinFaultClear => cases h; exact Reg.Everywhere.placed (by decide) (by decide) (by decide) (by decide)
  | pwrRgCtlWrite q | pwrRgCeilWrite q | clkPllFailClear q => cases h; exact placed_succ (by decide) (by decide) q
  | gaugeCfgWrite q | gaugePeriodWrite q | engPgcmdGo q | sqCtlWrite q | sqFlushGo q | tollRateWrite q | frRxptrTail q | frTxptrTail q | frTxcapWrite q =>
    cases h; exact placed_inst (by decide) (by decide) q
  | thmSuspectClear q | thmBrokenClear q | avBarCfgWrite q | avFlagSetWrite q | avFlagClrWrite q | plLostClear q =>
    cases h; exact placed_idx (by decide) (by decide) q
  | thmLimWrite n =>
    cases h
    obtain rfl | rfl | rfl : n = 0 ∨ n = 1 ∨ n = 2 := by omega
    all_goals exact Reg.Everywhere.placed (by decide) (by decide) (by decide) (by decide)
  | _ => cases h

/-- `PL_LOST` has no bits that a lock keeps. -/
theorem swWrite_plLost (v j : Nat) (locked : Bool) : s.swWrite R.PL_LOST v 0 j locked = s.swWrite R.PL_LOST v 0 j true := by
  cases locked <;> rfl

/-- An engine whose registers answer is reached by a write. -/
theorem State.engReach_of_unitCode (e : EngineId) (k : Out) (h : s.unitCode (R.ENG_PGCMD.key e.val 0) = .ok) : s.engReach e k = k := by
  have he : unitExists (R.ENG_PGCMD.key e.val 0) = true := by
    cases hx : unitExists (R.ENG_PGCMD.key e.val 0)
    · rw [s.unitCode_of_not_unitExists hx] at h; cases h
    · rfl
  have hc : R.ENG_PGCMD.key e.val 0 / 0x1000000 = 0x10 := by simp only [Reg.key, R.ENG_PGCMD]; omega
  have hi : R.ENG_PGCMD.key e.val 0 / 0x1000 % 0x1000 = e.val := by simp only [Reg.key, R.ENG_PGCMD]; omega
  simp only [State.unitCode, he, hc, hi, engineOf?, e.isLt, dite_true] at h
  obtain ⟨hm, hr⟩ : (s.eng e).mappedOut = false ∧ (s.eng e).inReset = false := by
    by_cases hs : s.get F.AON_STATUS.stage = 0
    · simp [hs] at h
    · cases hm : (s.eng e).mappedOut <;> cases hr : (s.eng e).inReset <;> simp [hs, hm, hr] at h ⊢
  simp [State.engReach, hm, hr]

/-- Each command that is a write of a register is the write of that register. -/
theorem exec_of_registerRow {c : Instr} {r : Reg} {i j : Nat} {v : Word} (h : registerRow c = some (r, i, j, v)) (hu : s.unitCode (r.key i j) = .ok) :
    exec c s = .next (s.writeReg r i j v.toNat) := by
  cases c with
  | aonBlockIdWrite | aonMemoGo | aonLedgerGo | watchdogKick | watchdogEnable | pwrPmbGo | pwrCapWrite | clkStepReq | clkBtimeAdjWrite | elogTailWrite
  | avEpochCommit | plTwinWinWrite | pinFaultClear | avFlagSetWrite | avFlagClrWrite | thmSuspectClear | thmBrokenClear => cases h; rfl
  | pwrRgCtlWrite q => cases h; exact congrArg _ (s.onFin_val q fun q => s.writeRgCtl q v.toNat).symm
  | pwrRgCeilWrite q => cases h; exact congrArg _ (s.onFin_val q fun q => s.writeRgCeil q v.toNat).symm
  | clkPllFailClear q => cases h; exact congrArg _ (s.onFin_val q fun q => s.writePll q v.toNat).symm
  | gaugeCfgWrite q => cases h; exact congrArg _ (s.onFin_val q fun q => s.writeGaugeCfg q v.toNat).symm
  | gaugePeriodWrite q => cases h; exact congrArg _ (s.onFin_val q fun q => s.writeGaugePeriod q v.toNat).symm
  | sqCtlWrite q => cases h; exact congrArg _ (s.onFin_val q fun q => s.writeSqCtl q v.toNat).symm
  | sqFlushGo q => cases h; exact congrArg _ (s.onFin_val q fun q => s.writeSqFlush q v.toNat).symm
  | tollRateWrite q => cases h; exact congrArg _ (s.onFin_val q fun q => s.writeTollRate q v.toNat).symm
  | frRxptrTail q => cases h; exact congrArg _ (s.onFin_val q fun q => s.writeRxPtr q v.toNat).symm
  | frTxptrTail q => cases h; exact congrArg _ (s.onFin_val q fun q => s.writeTxPtr q v.toNat).symm
  | frTxcapWrite q => cases h; exact congrArg _ (s.onFin_val q fun q => s.writeTxcap q v.toNat).symm
  | avBarCfgWrite q => cases h; exact congrArg _ (s.onFin_val q fun q => s.writeBarCfg q v.toNat).symm
  | engPgcmdGo q =>
    cases h
    exact (s.engReach_of_unitCode q _ hu).trans (congrArg _ (s.onFin_val q fun q => s.writePgcmd q v.toNat).symm)
  | plLostClear q => cases h; exact congrArg _ (swWrite_plLost s v.toNat q.val (s.on F.AON_BLOCK_ID.lock)).symm
  | thmLimWrite n =>
    cases h
    obtain rfl | rfl | rfl : n = 0 ∨ n = 1 ∨ n = 2 := by omega
    all_goals rfl
  | _ => cases h

theorem writesByOffsetAreTheCommandsOfTheirRegisters : Claim.WritesByOffsetAreTheCommandsOfTheirRegisters := by
  intro c r i j v off s h ho hu
  have hp := placed_of_registerRow h
  have ha : off.toNat % 8 = 0 := ho ▸ hp.aligned
  rw [exec_registerWrite, if_pos ⟨ho ▸ hu, ha⟩, s.writeControl_of_assigned (ho ▸ hp.assigned), exec_of_registerRow s h hu]

/-- Settles O6: from where the registers lie and what a software write does to each bit. -/
theorem registerAccessesFollowTheirFields : Obligations.RegisterAccessesFollowTheirFields :=
  ⟨clearingReadsClearRcFieldsAlone, writesBesideTheRegistersHaveNoEffect, storingWritesTakeWritableBitsAlone,
    writesByOffsetAreTheCommandsOfTheirRegisters⟩

end Sys2Proof.Machine
end

section
/-! Writes of registers with limits, command bits and acknowledging bits: which fields each of them changes. -/
namespace Sys2Proof.Machine

/-! ### Fields and their registers -/

theorem nbits_eq (x hi lo : Nat) : nbits x hi lo = getBits x lo (hi + 1 - lo) := by
  rw [nbits, Nat.shiftRight_eq_div_pow]; rfl

theorem getBits_zero (x w : Nat) : getBits x 0 w = x % 2 ^ w := by rw [getBits, Nat.pow_zero, Nat.div_one]

theorem nbit_eq (x i : Nat) : nbit x i = (getBits x i 1 == 1) := by rw [nbit, Nat.shiftRight_eq_div_pow]; rfl

theorem atMost_lt (f : Field) (v ceil : Nat) : atMost f v ceil < 2 ^ f.w := Nat.lt_of_le_of_lt (Nat.min_le_left ..) (getBits_lt ..)

section
variable {l : List Holds} {s t : State}

/-- Two fields of one register share no bit. -/
abbrev Field.ApartFrom (g f : Field) : Prop := g.lo + g.w ≤ f.lo ∨ f.lo + f.w ≤ g.lo

/-- A put of a field whose bits are apart from those of the fields before. -/
theorem FieldsBecome.putBits (h : FieldsBecome l s t) (fs : List Field) (hl : ∀ q ∈ l, q.field ∈ fs) {f : Field} {v i j : Nat} (hf : f.fits)
    (hv : v < 2 ^ f.w) (ha : ∀ g ∈ fs, g.fits ∧ g.ApartFrom f) : FieldsBecome (⟨f, i, j, v⟩ :: l) s (t.put f v i j) :=
  h.put hf hv fun q hq => ⟨(ha _ (hl q hq)).1, .inr (ha _ (hl q hq)).2⟩

/-- A put that a condition guards. -/
theorem FieldsBecome.putIf (h : FieldsBecome l s t) (fs : List Field) (hl : ∀ q ∈ l, q.field ∈ fs) {f : Field} {v i j : Nat} (c : Prop) [Decidable c]
    (hf : f.fits) (hv : v < 2 ^ f.w) (ha : ∀ g ∈ fs, g.fits ∧ g.ApartFrom f) :
    FieldsBecome ((if c then [⟨f, i, j, v⟩] else []) ++ l) s (if c then t.put f v i j else t) := by
  split
  · exact h.putBits fs hl hf hv ha
  · exact h

/-- One field is put. -/
theorem State.put_fields (s : State) {f : Field} {v : Nat} (i j : Nat) (hf : f.fits) (hv : v < 2 ^ f.w) : FieldsBecome [⟨f, i, j, v⟩] s (s.put f v i j) :=
  (FieldsBecome.refl s).put hf hv (by simp)

/-- A field whose bits are apart from those named holds what it held. -/
theorem FieldsBecome.get_eq (h : FieldsBecome l s t) (fs : List Field) (hl : ∀ q ∈ l, q.field ∈ fs) {f : Field} (i j : Nat) (hf : f.fits)
    (ha : ∀ g ∈ fs, g.ApartFrom f) : t.get f i j = s.get f i j :=
  h.2 f i j hf fun q hq => .inr (ha _ (hl q hq)).symm

theorem FieldsBecome.on_eq (h : FieldsBecome l s t) (fs : List Field) (hl : ∀ q ∈ l, q.field ∈ fs) {f : Field} (i j : Nat) (hf : f.fits)
    (ha : ∀ g ∈ fs, g.ApartFrom f) : t.on f i j = s.on f i j := by
  rw [State.on, h.get_eq fs hl i j hf ha, State.on]

/-- Such a field may be named with what it held. -/
theorem FieldsBecome.keepBits (h : FieldsBecome l s t) (fs : List Field) (hl : ∀ q ∈ l, q.field ∈ fs) {f : Field} (i j : Nat) (hf : f.fits)
    (ha : ∀ g ∈ fs, g.ApartFrom f) : FieldsBecome (⟨f, i, j, s.get f i j⟩ :: l) s t :=
  h.get_eq fs hl i j hf ha ▸ h.more f i j

theorem State.reg_eq_get (s : State) (r : Reg) (i j : Nat) : s.reg r i j = s.get ⟨r, 0, 64⟩ i j := by
  rw [State.get, getBits_zero, Nat.mod_eq_of_lt (s.rd_lt _)]; rfl

/-- A register in which no field named lies is as it was. -/
theorem FieldsBecome.reg_eq (h : FieldsBecome l s t) {r : Reg} {i j : Nat} (ha : ∀ q ∈ l, r.key i j ≠ q.field.reg.key q.inst q.idx) :
    t.reg r i j = s.reg r i j := by
  rw [State.reg_eq_get, State.reg_eq_get]
  exact h.2 ⟨r, 0, 64⟩ i j (Nat.le_refl 64) fun q hq => .inl (ha q hq)

/-- Registers of one class and unit at different offsets. -/
theorem Reg.key_ne {r q : Reg} (hc : r.cls = q.cls) (ho : r.off ≠ q.off) (i : Nat) : r.key i 0 ≠ q.key i 0 := by
  unfold Reg.key; omega

/-- A register of which a mask of bits is replaced: the fields that make up the mask become their bits of the word written. -/
theorem FieldsBecome.ofMask {r : Reg} {i j v mask : Nat} (fs : List Field) (hk : OnlyKeys [r.key i j] s t)
    (hb : ∀ b, b < 64 → (t.reg r i j).testBit b = if mask.testBit b then v.testBit b else (s.reg r i j).testBit b)
    (hm : ∀ b, b < 64 → mask.testBit b = fs.any fun f => decide (f.lo ≤ b ∧ b < f.lo + f.w)) (hr : ∀ f ∈ fs, f.reg = r ∧ f.fits) :
    FieldsBecome (fs.map fun f => ⟨f, i, j, getBits v f.lo f.w⟩) s t := by
  have bits (g : Field) (hg : g.reg.key i j = r.key i j) (x : Nat) (hx : ∀ b, b < g.w → (t.reg r i j).testBit (g.lo + b) = x.testBit (g.lo + b)) :
      t.get g i j = getBits x g.lo g.w := by
    apply Nat.eq_of_testBit_eq
    intro b
    rw [State.get, hg, getBits_testBit, getBits_testBit]
    by_cases hw : b < g.w
    · rw [show t.rd (r.key i j) = t.reg r i j from rfl, hx b hw]
    · simp [hw]
  constructor
  · intro q hq
    obtain ⟨f, hf, rfl⟩ := List.mem_map.mp hq
    obtain ⟨rfl, hfit⟩ := hr f hf
    refine bits f rfl v fun b hbw => ?_
    have hlt : f.lo + b < 64 := by have : f.lo + f.w ≤ 64 := hfit; omega
    rw [hb _ hlt, if_pos]
    rw [hm _ hlt, List.any_eq_true]
    exact ⟨f, hf, decide_eq_true ⟨Nat.le_add_right .., by omega⟩⟩
  · intro g i' j' hg ha
    by_cases hkey : g.reg.key i' j' = r.key i j
    · apply Nat.eq_of_testBit_eq
      intro b
      rw [State.get, State.get, hkey, getBits_testBit, getBits_testBit]
      by_cases hw : b < g.w
      · have hlt : g.lo + b < 64 := by have : g.lo + g.w ≤ 64 := hg; omega
        have hno : mask.testBit (g.lo + b) = false := by
          rw [hm _ hlt, List.any_eq_false]
          intro f hf hin
          have hin := of_decide_eq_true hin
          rcases ha _ (List.mem_map_of_mem hf) with hn | hn | hn
          · exact hn ((hr f hf).1 ▸ hkey)
          · simp only at hn; omega
          · simp only at hn; omega
        have := hb _ hlt
        rw [hno] at this
        simpa [State.reg] using congrArg (decide (b < g.w) && ·) this
      · simp [hw]
    · simp only [State.get, hk _ ((not_congr List.mem_singleton).mpr hkey)]

end

/-! ### Software writes of whole registers -/

variable (s : State)

/-- A register whose RW fields alone are written, its command bits not stored. -/
theorem State.swFields_fields {r : Reg} (fs : List Field) (hx : r ≠ R.PIN_HOLD) (hw : r.w1c = 0 ∧ r.rw &&& r.w1s = 0)
    (hm : ∀ b, b < 64 → r.rw.testBit b = fs.any fun f => decide (f.lo ≤ b ∧ b < f.lo + f.w)) (hr : ∀ f ∈ fs, f.reg = r ∧ f.fits) (v i j : Nat) :
    FieldsBecome (fs.map fun f => ⟨f, i, j, getBits v f.lo f.w⟩) s (s.swFields r v i j) := by
  refine .ofMask (mask := r.rw) fs (s.setReg_keys _ _ _ _) (fun b hb => ?_) hm hr
  have hn : (r.rw.testBit b && r.w1s.testBit b) = false := by rw [← Nat.testBit_and, hw.2, Nat.zero_testBit]
  have ht : r.takes j true b = r.rw.testBit b := by simp [Reg.takes, Reg.rwMask, hx]
  have hv : (v &&& (0xFFFFFFFFFFFFFFFF ^^^ r.w1s)).testBit b = (v.testBit b && !r.w1s.testBit b) := by
    simp [Nat.testBit_and, Nat.testBit_xor, allOnes_testBit, hb]
  rw [State.swFields, s.swWrite_testBit _ _ _ _ _ hb, Reg.written_testBit _ _ _ _ _ hb, ht, hw.1, Nat.zero_testBit, hv]
  cases hrw : r.rw.testBit b <;> simp_all

/-- A register whose fields a lock keeps: while its lock is 0, a write stores its fields and its lock; afterwards it changes nothing. -/
theorem State.swWrite_locked {r : Reg} (lock : Field) (fs : List Field) (hx : r ≠ R.PIN_HOLD)
    (hw : r.rw = 0 ∧ r.w1c = 0 ∧ lock.reg = r ∧ lock.w = 1 ∧ lock.lo < 64 ∧ r.w1s = 2 ^ lock.lo)
    (hm : ∀ b, b < 64 → (r.rwl ||| r.w1s).testBit b = fs.any fun f => decide (f.lo ≤ b ∧ b < f.lo + f.w)) (hr : ∀ f ∈ fs, f.reg = r ∧ f.fits) (v i j : Nat) :
    FieldsBecome (if s.on lock i j then [] else fs.map fun f => ⟨f, i, j, getBits v f.lo f.w⟩) s (s.swWrite r v i j (s.on lock i j)) := by
  obtain ⟨hrw, hc, rfl, hone, -, hs⟩ := hw
  have hlock : (s.reg lock.reg i j).testBit lock.lo = s.on lock i j := by
    have e : (s.get lock i j).testBit 0 = (s.reg lock.reg i j).testBit lock.lo := by
      rw [State.get, getBits_testBit, hone]; rfl
    have hlt : s.get lock i j < 2 ^ 1 := hone ▸ s.get_lt lock i j
    rw [← e, State.on]
    obtain h | h : s.get lock i j = 0 ∨ s.get lock i j = 1 := by omega
    · rw [h]; rfl
    · rw [h]; rfl
  have hset (b : Nat) : lock.reg.w1s.testBit b = decide (lock.lo = b) := by rw [hs, Nat.testBit_two_pow]
  have ht (locked : Bool) (b : Nat) : lock.reg.takes j locked b = (lock.reg.rwl.testBit b && !locked) := by simp [Reg.takes, Reg.rwMask, hx, hrw]
  cases hon : s.on lock i j
  · refine .ofMask (mask := lock.reg.rwl ||| lock.reg.w1s) fs (s.setReg_keys _ _ _ _) (fun b hb => ?_) hm hr
    rw [s.swWrite_testBit _ _ _ _ _ hb, Reg.written_testBit _ _ _ _ _ hb, ht, hc, Nat.zero_testBit, Nat.testBit_or, hset]
    by_cases hl : lock.lo = b
    · subst hl
      rw [hon] at hlock
      cases lock.reg.rwl.testBit lock.lo <;> simp [hlock]
    · cases lock.reg.rwl.testBit b <;> simp [hl]
  · refine .ofMask (v := v) (mask := 0) [] (s.setReg_keys _ _ _ _) (fun b hb => ?_) (by simp) (by simp)
    rw [s.swWrite_testBit _ _ _ _ _ hb, Reg.written_testBit _ _ _ _ _ hb, ht, hc, Nat.zero_testBit, hset]
    by_cases hl : lock.lo = b
    · subst hl
      rw [hon] at hlock
      simp [hlock]
    · simp [hl]

/-- A register of W1C bits alone: those written as 1 clear. -/
theorem State.reg_swWrite_w1c {r : Reg} (hx : r ≠ R.PIN_HOLD) (hw : r.rw = 0 ∧ r.rwl = 0 ∧ r.w1s = 0) (v i j : Nat) (locked : Bool) :
    (s.swWrite r v i j locked).reg r i j = s.reg r i j &&& (0xFFFFFFFFFFFFFFFF ^^^ (v &&& r.w1c)) := by
  obtain ⟨hrw, hrwl, hs⟩ := hw
  apply Nat.eq_of_testBit_eq
  intro b
  rw [testBit_and_not (s.reg_lt r i j)]
  by_cases hb : b < 64
  · have ht : r.takes j locked b = false := by simp [Reg.takes, Reg.rwMask, hx, hrw, hrwl]
    rw [s.swWrite_testBit _ _ _ _ _ hb, Reg.written_testBit _ _ _ _ _ hb, ht, hs, Nat.zero_testBit, Nat.testBit_and]
    simp
  · have high (x : Nat) (h : x < 2 ^ 64) : x.testBit b = false :=
      Nat.testBit_lt_two_pow (Nat.lt_of_lt_of_le h (Nat.pow_le_pow_right (by decide) (Nat.le_of_not_lt hb)))
    rw [high _ (State.reg_lt _ r i j), high _ (s.reg_lt r i j)]; simp

/-! ### Answers -/

theorem exec_parts {c : Instr} {s t : State} (h : exec c s = .next t) : OnlyParts (partsOf c) s t := (exec_moves c s t h).parts

/-- A command that changes registers alone answers with the fields that it changes. -/
theorem answers_onlyFields {c : Instr} {t : State} {l : List Holds} (he : exec c s = .next t) (hp : partsOf c = [.regs]) (h : FieldsBecome l s t) :
    Answers c s (OnlyFields l s) := ⟨t, he, h, hp ▸ exec_parts he⟩

end Sys2Proof.Machine
end

section
/-! The commands that limit what is stored, act on command bits and acknowledge. -/
namespace Sys2Proof.Machine

variable (s : State)

/-! ### Limited writes -/

/-- A field takes what is written, up to the same field of a ceiling in another register. -/
theorem FieldsBecome.clamp {l : List Holds} {s t : State} (h : FieldsBecome l s t) (fs : List Field) {i : Nat} (hl : ∀ q ∈ l, q.field ∈ fs ∧ q.inst = i ∧ q.idx = 0)
    {f : Field} {c : Reg} (hf : f.fits) (ha : ∀ g ∈ fs, g.fits ∧ g.ApartFrom f ∧ c.cls = g.reg.cls ∧ c.off ≠ g.reg.off) (v : Nat) :
    FieldsBecome (⟨f, i, 0, atMost f v (s.reg c i)⟩ :: l) s (t.put f (atMost f v (t.reg c i)) i) := by
  have hc : t.reg c i = s.reg c i := h.reg_eq fun q hq => by
    obtain ⟨hm, hi, hj⟩ := hl q hq
    rw [hi, hj]
    exact Reg.key_ne (ha _ hm).2.2.1 (ha _ hm).2.2.2 i
  rw [hc]
  exact h.putBits fs (fun q hq => (hl q hq).1) hf (atMost_lt ..) fun g hg => ⟨(ha g hg).1, (ha g hg).2.1⟩

theorem State.writeCap_fields (v : Nat) : FieldsBecome
    [⟨F.PWR_CAP.vmem_a, 0, 0, atMost F.PWR_CAP.vmem_a v (s.reg R.PWR_CEIL)⟩, ⟨F.PWR_CAP.vcore_a, 0, 0, atMost F.PWR_CAP.vcore_a v (s.reg R.PWR_CEIL)⟩,
      ⟨F.PWR_CAP.sust_w, 0, 0, atMost F.PWR_CAP.sust_w v (s.reg R.PWR_CEIL)⟩, ⟨F.PWR_CAP.fast_w, 0, 0, atMost F.PWR_CAP.fast_w v (s.reg R.PWR_CEIL)⟩]
    s (s.writeCap v) :=
  ((((FieldsBecome.refl s).clamp (c := R.PWR_CEIL) [] (by simp) (by decide) (by decide) v).clamp [F.PWR_CAP.fast_w] (by simp) (by decide) (by decide) v).clamp
    [F.PWR_CAP.fast_w, F.PWR_CAP.sust_w] (by simp) (by decide) (by decide) v).clamp [F.PWR_CAP.fast_w, F.PWR_CAP.sust_w, F.PWR_CAP.vcore_a] (by simp) (by decide) (by decide) v

theorem State.writeTxcap_fields (p : FrId) (v : Nat) : FieldsBecome
    [⟨F.FR_TXCAP.raw_dgrams, p.val, 0, atMost F.FR_TXCAP.raw_dgrams v (s.reg R.FR_TXCEIL p.val)⟩,
      ⟨F.FR_TXCAP.raw_bytes, p.val, 0, atMost F.FR_TXCAP.raw_bytes v (s.reg R.FR_TXCEIL p.val)⟩,
      ⟨F.FR_TXCAP.dgrams, p.val, 0, atMost F.FR_TXCAP.dgrams v (s.reg R.FR_TXCEIL p.val)⟩,
      ⟨F.FR_TXCAP.bytes, p.val, 0, atMost F.FR_TXCAP.bytes v (s.reg R.FR_TXCEIL p.val)⟩] s (s.writeTxcap p v) :=
  have h : FieldsBecome [] s { s with front := { s.front with buckets := vset s.front.buckets p (s.refilled p) } } := (FieldsBecome.refl s).same rfl
  (((h.clamp (c := R.FR_TXCEIL) [] (by simp) (by decide) (by decide) v).clamp [F.FR_TXCAP.bytes] (by simp) (by decide) (by decide) v).clamp
    [F.FR_TXCAP.bytes, F.FR_TXCAP.dgrams] (by simp) (by decide) (by decide) v).clamp [F.FR_TXCAP.bytes, F.FR_TXCAP.dgrams, F.FR_TXCAP.raw_bytes] (by simp) (by decide) (by decide) v

theorem State.groupCeiling_eq (r : RegionId) : s.groupCeiling r = 30 * s.get F.PWR_RG_STATUS.in_service (instOf r) := by
  have h : instOf r ≤ 120 := r.isLt
  rw [State.groupCeiling, State.ceilingOf, if_neg (by omega), if_neg (by omega)]

/-- A pair of limits within their registers, apart from each other. -/
theorem State.limPair_spec {start full : Field} (hf : start.fits ∧ full.fits ∧ start.ApartFrom full) (v : Nat) : limitPair start full v s (s.limPair start full v) := by
  have hp : OnlyParts [.regs] s (s.limPair start full v) := (State.limPair_moves (es := fun _ => False) (.refl _) (.refl s)).parts
  by_cases h : atMost start v start.reg.reset < atMost full v full.reg.reset
  · have he : s.limPair start full v = (s.put start (atMost start v start.reg.reset)).put full (atMost full v full.reg.reset) := if_pos h
    rw [he] at hp ⊢
    rw [limitPair, if_pos h]
    exact ⟨(s.put_fields 0 0 hf.1 (atMost_lt start v _)).putBits [start] (by simp) hf.2.1 (atMost_lt full v _) (by simp [hf.1, hf.2.2]), hp⟩
  · have he : s.limPair start full v = s.put F.THM_STATUS.bad_cfg 1 := if_neg h
    rw [he] at hp ⊢
    rw [limitPair, if_neg h]
    exact ⟨s.put_fields 0 0 (by decide) (by decide), hp⟩

/-- Numbers of `w` bits, packed one after the other. -/
def packed (w : Nat) (e : Nat → Nat) (n : Nat) : Nat := (List.range n).foldl (fun x i => x + e i * 2 ^ (w * i)) 0

theorem packed_succ (w : Nat) (e : Nat → Nat) (n : Nat) : packed w e (n + 1) = packed w e n + e n * 2 ^ (w * n) := by
  simp [packed, List.range_succ]

theorem packed_lt {w : Nat} {e : Nat → Nat} (he : ∀ i, e i < 2 ^ w) (n : Nat) : packed w e n < 2 ^ (w * n) := by
  induction n with
  | zero => exact Nat.one_pos
  | succ n ih =>
    calc packed w e (n + 1) = packed w e n + e n * 2 ^ (w * n) := packed_succ w e n
      _ < (e n + 1) * 2 ^ (w * n) := by rw [Nat.succ_mul]; omega
      _ ≤ 2 ^ w * 2 ^ (w * n) := Nat.mul_le_mul_right _ (he n)
      _ = 2 ^ (w * (n + 1)) := by rw [← Nat.pow_add, Nat.mul_succ, Nat.add_comm]

theorem getBits_packed {w : Nat} {e : Nat → Nat} (he : ∀ i, e i < 2 ^ w) {n k : Nat} (hk : k < n) : getBits (packed w e n) (w * k) w = e k := by
  induction n with
  | zero => omega
  | succ n ih =>
    rw [packed_succ, getBits]
    by_cases hkn : k = n
    · rw [hkn, Nat.add_mul_div_right _ _ (Nat.two_pow_pos _), Nat.div_eq_of_lt (packed_lt he n), Nat.zero_add, Nat.mod_eq_of_lt (he n)]
    · obtain ⟨d, hd⟩ := Nat.exists_eq_add_of_lt (show k < n by omega)
      have hsplit : e n * 2 ^ (w * n) = e n * 2 ^ (w * d) * 2 ^ w * 2 ^ (w * k) := by
        have hn : w * n = w * d + (w + w * k) := by rw [hd, Nat.mul_add, Nat.mul_add, Nat.mul_one]; omega
        rw [hn, Nat.pow_add, Nat.pow_add, Nat.mul_assoc, Nat.mul_assoc]
      rw [hsplit, Nat.add_mul_div_right _ _ (Nat.two_pow_pos _), Nat.add_mul_mod_self_right]
      exact ih (by omega)

/-- The rate of a class of packets, in the order of the register. -/
def tollRateField (k : Nat) : Field := ⟨R.TOLL_RATE, 12 * k, 12⟩

/-- The rates of a port as its register holds them. -/
theorem State.writeTollRate_get (p : PortId) (v : Nat) {f : Field} {k : Nat} (hf : f = tollRateField k) (hk : k < 5) :
    (s.writeTollRate p v).get f p.val = atMost f v (s.reg R.TOLL_CEIL p.val) := by
  have hw : s.writeTollRate p v = s.setReg R.TOLL_RATE (packed 12 (fun i => atMost (tollRateField i) v (s.reg R.TOLL_CEIL p.val)) 5) p.val := by
    have hi (i : Nat) : 12 * i + 11 + 1 - 12 * i = 12 := by omega
    simp only [State.writeTollRate, packed, nbits_eq, hi, atMost, tollRateField]
  have hfit : (tollRateField k).lo + (tollRateField k).w ≤ 64 := by simp only [tollRateField]; omega
  rw [hf, hw, State.get, State.setReg]
  refine (congrArg (getBits · _ _) (State.rd_wr_same ..)).trans ?_
  rw [getBits_mod64 _ _ _ hfit]
  exact getBits_packed (w := 12) (fun i => atMost_lt (tollRateField i) v _) hk

theorem limitedWritesStoreNoMoreThanTheirLimits : Claim.LimitedWritesStoreNoMoreThanTheirLimits := by
  intro v s
  refine ⟨?_, fun r => ?_, ?_, ?_, ?_, fun p => ?_, fun p => ?_, ?_, ?_, fun g => ?_⟩
  · exact answers_onlyFields s rfl rfl (s.writeCap_fields v.toNat)
  · refine answers_onlyFields s (t := s.writeRgCeil r v.toNat) rfl rfl ?_
    rw [State.writeRgCeil, nbits_eq, getBits_zero, s.groupCeiling_eq]
    exact s.put_fields _ _ (by decide) (Nat.lt_of_le_of_lt (Nat.min_le_left ..) (Nat.mod_lt _ (by decide)))
  · exact ⟨_, rfl, s.limPair_spec (by decide) _⟩
  · exact ⟨_, rfl, s.limPair_spec (by decide) _⟩
  · exact ⟨_, rfl, _, s.limPair_spec (by decide) _, State.limPair_spec _ (by decide) _⟩
  · refine ⟨_, rfl, exec_parts (c := .tollRateWrite p v) rfl, s.setReg_keys _ _ _ _, ?_⟩
    simp only [List.forall_mem_cons, List.not_mem_nil, false_imp_iff, implies_true, and_true]
    exact ⟨s.writeTollRate_get p _ (k := 0) rfl (by decide), s.writeTollRate_get p _ (k := 1) rfl (by decide), s.writeTollRate_get p _ (k := 2) rfl (by decide),
      s.writeTollRate_get p _ (k := 3) rfl (by decide), s.writeTollRate_get p _ (k := 4) rfl (by decide)⟩
  · exact ⟨_, rfl, exec_parts (c := .frTxcapWrite p v) rfl, s.writeTxcap_fields p v.toNat⟩
  · refine answers_onlyFields s (t := s.writeStepReq v.toNat) rfl rfl ?_
    rw [State.writeStepReq, nbits_eq, getBits_zero]
    exact s.put_fields _ _ (by decide) (Nat.mod_lt _ (by decide))
  · refine answers_onlyFields s (t := s.writeAdj v.toNat) rfl rfl ?_
    have hlt (x : Int) : ofSigned 32 x < 2 ^ 32 := by unfold ofSigned; omega
    have hs : toSigned 32 (nbits v.toNat 31 0) = toSigned 32 v.toNat := by
      rw [nbits_eq, getBits_zero]; simp [toSigned]
    unfold State.writeAdj
    split
    · rw [hs]; exact s.put_fields _ _ (by decide) (hlt _)
    · exact .refl s
  · refine answers_onlyFields s (t := s.writeGaugePeriod g v.toNat) rfl rfl ?_
    exact s.put_fields _ _ (by decide) (Nat.max_lt.mpr ⟨Nat.mod_lt _ (by decide), by decide⟩)

end Sys2Proof.Machine
end

section
/-! The commands that act on the fields written with their command bit: the block ID, the watchdog, the memo and the ledger, the PMBus mailbox and the twin window. -/
namespace Sys2Proof.Machine

variable (s : State)

theorem State.writeBlockId_fields (n : Nat) : FieldsBecome
    (if s.on F.AON_BLOCK_ID.lock then []
      else [⟨F.AON_BLOCK_ID.id, 0, 0, n % 4096⟩, ⟨F.AON_BLOCK_ID.valid, 0, 0, n / 4096 % 2⟩, ⟨F.AON_BLOCK_ID.lock, 0, 0, n / 8192 % 2⟩]) s (s.writeBlockId n) := by
  have h := s.swWrite_locked (r := R.AON_BLOCK_ID) F.AON_BLOCK_ID.lock [F.AON_BLOCK_ID.id, F.AON_BLOCK_ID.valid, F.AON_BLOCK_ID.lock] (by decide) (by decide)
    (by decide) (by decide) n 0 0
  refine h.congr ?_
  split
  · rfl
  · simp [getBits, F.AON_BLOCK_ID.id, F.AON_BLOCK_ID.valid, F.AON_BLOCK_ID.lock]

theorem State.writeTwinWin_fields (n : Nat) : FieldsBecome
    (if s.on F.PL_TWIN_WIN.lock 6 then []
      else [⟨F.PL_TWIN_WIN.base, 6, 0, n % 2 ^ 17⟩, ⟨F.PL_TWIN_WIN.size, 6, 0, n / 2 ^ 17 % 2 ^ 17⟩, ⟨F.PL_TWIN_WIN.lock, 6, 0, n / 2 ^ 34 % 2⟩]) s (s.writeTwinWin n) := by
  have h := s.swWrite_locked (r := R.PL_TWIN_WIN) F.PL_TWIN_WIN.lock [F.PL_TWIN_WIN.base, F.PL_TWIN_WIN.size, F.PL_TWIN_WIN.lock] (by decide) (by decide)
    (by decide) (by decide) n 6 0
  refine h.congr ?_
  split
  · rfl
  · simp [getBits, F.PL_TWIN_WIN.base, F.PL_TWIN_WIN.size, F.PL_TWIN_WIN.lock]

/-- A one-bit field that reads as on holds 1. -/
theorem State.get_of_on {f : Field} {i j : Nat} (h : s.on f i j = true) : s.get f i j = 1 := by simpa [State.on] using h

theorem State.writeWdog_after (v : Word) : watchdogAfter v s (s.writeWdog v.toNat) := by
  have hn : nbits v.toNat 31 0 = v.toNat % 2 ^ 32 := by rw [nbits_eq, getBits_zero]
  have ht : FieldsBecome [⟨F.AON_WDOG.timeout_ms, 0, 0, if s.on F.AON_WDOG.enable then s.get F.AON_WDOG.timeout_ms else max 1 (v.toNat % 2 ^ 32)⟩] s
      (if s.on F.AON_WDOG.enable then s else s.put F.AON_WDOG.timeout_ms (max 1 (nbits v.toNat 31 0))) := by
    split
    · exact (FieldsBecome.refl s).keepBits [] (by simp) 0 0 (by decide) (by simp)
    · rw [hn]
      exact s.put_fields 0 0 (by decide) (Nat.max_lt.mpr ⟨by decide, Nat.mod_lt _ (by decide)⟩)
  refine ⟨?_, exec_parts (c := .watchdogKick v) rfl, ?_⟩
  · unfold State.writeWdog
    refine FieldsBecome.same (t := if nbit v.toNat 32 then _ else _) ?_ (by dsimp only; split <;> rfl)
    split
    · exact ht.putBits [F.AON_WDOG.timeout_ms] (by simp) (by decide) (by decide) (by decide)
    · exact ht.keepBits [F.AON_WDOG.timeout_ms] (by simp) 0 0 (by decide) (by decide)
  · unfold State.writeWdog
    cases s.on F.AON_WDOG.enable <;> cases nbit v.toNat 32 <;> cases nbit v.toNat 33 <;> simp [State.btime]

theorem State.writeMemo_spec (n : Nat) (hn : n < 2 ^ 64) : FieldsBecome
      [⟨F.AON_MEMO.busy, 0, 0, if nbit n 0 then 1 else s.get F.AON_MEMO.busy⟩, ⟨F.AON_MEMO.src, 0, 0, n / 2 ^ 32⟩] s (s.writeMemo n) ∧
    (s.writeMemo n).boot = if nbit n 0 ∧ ¬ s.on F.AON_MEMO.busy then { s.boot with memoSrc := n / 2 ^ 32 } else s.boot := by
  have hsrc : getBits n 32 32 = n / 2 ^ 32 := by rw [getBits]; omega
  have hw : FieldsBecome [⟨F.AON_MEMO.src, 0, 0, n / 2 ^ 32⟩] s (s.swFields R.AON_MEMO n 0) :=
    (s.swFields_fields (r := R.AON_MEMO) [F.AON_MEMO.src] (by decide) (by decide) (by decide) (by decide) n 0 0).congr (by rw [← hsrc]; rfl)
  have hkeep := hw.keepBits [F.AON_MEMO.src] (by simp) (f := F.AON_MEMO.busy) 0 0 (by decide) (by decide)
  have hbusy : (s.swFields R.AON_MEMO n 0).on F.AON_MEMO.busy = s.on F.AON_MEMO.busy := hw.on_eq [F.AON_MEMO.src] (by simp) 0 0 (by decide) (by decide)
  have hgo := hw.1 _ (List.mem_cons_self ..)
  have hboot : (s.swFields R.AON_MEMO n 0).boot = s.boot := State.setReg_boot ..
  by_cases h : nbit n 0 = true ∧ ¬ s.on F.AON_MEMO.busy = true
  · have he : s.writeMemo n = ((s.swFields R.AON_MEMO n 0).put F.AON_MEMO.busy 1).setBoot fun b => { b with memoSrc := ((s.swFields R.AON_MEMO n 0).get F.AON_MEMO.src) } := by
      simp [State.writeMemo, hbusy, h]
    rw [he, if_pos h.1, if_pos h]
    exact ⟨(hw.putBits [F.AON_MEMO.src] (by simp) (by decide) (by decide) (by decide)).same (State.setBoot_regs ..), by simp [hgo, hboot]⟩
  · have he : s.writeMemo n = s.swFields R.AON_MEMO n 0 := by
      rw [State.writeMemo, hbusy, if_neg (by simpa using h)]
    have hb : (if nbit n 0 = true then 1 else s.get F.AON_MEMO.busy) = s.get F.AON_MEMO.busy := by
      split
      · next hg => exact (s.get_of_on (by simpa [hg] using h)).symm
      · rfl
    rw [he, hb, if_neg h]
    exact ⟨hkeep, hboot⟩

theorem State.writeLedger_spec (n : Nat) :
    let go := nbit n 0 ∧ ¬ s.on F.AON_LEDGER.busy
    let denied := s.get F.AON_STATUS.stage < 12 ∨ n / 16 % 256 < 1 ∨ 9 < n / 16 % 256
    FieldsBecome (⟨F.AON_LEDGER.kind, 0, 0, n / 16 % 256⟩ ::
        (if go then (if denied then [⟨F.AON_LEDGER.code, 0, 0, 5⟩] else [⟨F.AON_LEDGER.busy, 0, 0, 1⟩]) else [])) s (s.writeLedger n) ∧
      (s.writeLedger n).boot = if go ∧ ¬ denied then { s.boot with append := (n / 16 % 256, s.reg R.AON_LEDGER_LOC) } else s.boot := by
  intro go denied
  have hw : FieldsBecome [⟨F.AON_LEDGER.kind, 0, 0, n / 16 % 256⟩] s (s.swFields R.AON_LEDGER n 0) :=
    (s.swFields_fields (r := R.AON_LEDGER) [F.AON_LEDGER.kind] (by decide) (by decide) (by decide) (by decide) n 0 0).congr rfl
  have hkind := hw.1 _ (List.mem_cons_self ..)
  have hbusy : (s.swFields R.AON_LEDGER n 0).on F.AON_LEDGER.busy = s.on F.AON_LEDGER.busy :=
    hw.on_eq [F.AON_LEDGER.kind] (by simp) 0 0 (by decide) (by decide)
  have hother {k : Nat} (hk : k ≠ R.AON_LEDGER.key 0 0) : (s.swFields R.AON_LEDGER n 0).rd k = s.rd k := s.rd_setReg_other _ _ _ _ hk
  have hstage : (s.swFields R.AON_LEDGER n 0).get F.AON_STATUS.stage = s.get F.AON_STATUS.stage := by
    simp only [State.get, hother (show F.AON_STATUS.stage.reg.key 0 0 ≠ R.AON_LEDGER.key 0 0 by decide)]
  have hloc : (s.swFields R.AON_LEDGER n 0).reg R.AON_LEDGER_LOC = s.reg R.AON_LEDGER_LOC := hother (by decide)
  have hboot : (s.swFields R.AON_LEDGER n 0).boot = s.boot := State.setReg_boot ..
  have hden : ((s.swFields R.AON_LEDGER n 0).get F.AON_STATUS.stage < 12 ∨ repairKind ((s.swFields R.AON_LEDGER n 0).get F.AON_LEDGER.kind) = false) ↔ denied := by
    rw [hstage, hkind]
    simp only [repairKind, Bool.and_eq_false_iff, decide_eq_false_iff_not, Nat.not_le, denied]
  have hgo : (!nbit n 0 || (s.swFields R.AON_LEDGER n 0).on F.AON_LEDGER.busy) = true ↔ ¬ go := by
    rw [hbusy]
    change _ ↔ ¬ (nbit n 0 = true ∧ ¬ s.on F.AON_LEDGER.busy = true)
    cases nbit n 0 <;> simp
  by_cases h : go
  · by_cases hd : denied
    · have he : s.writeLedger n = (s.swFields R.AON_LEDGER n 0).put F.AON_LEDGER.code 5 := by
        rw [State.writeLedger, if_neg ((not_congr hgo).mpr (Classical.not_not.mpr h)), if_pos (hden.mpr hd)]
      rw [he, if_pos h, if_pos hd, if_neg (fun x => x.2 hd)]
      exact ⟨(hw.putBits [F.AON_LEDGER.kind] (by simp) (by decide) (by decide) (by decide)).perm (.swap ..), by rw [State.put_boot, hboot]⟩
    · have he : s.writeLedger n = ((s.swFields R.AON_LEDGER n 0).put F.AON_LEDGER.busy 1).setBoot fun b =>
          { b with append := ((s.swFields R.AON_LEDGER n 0).get F.AON_LEDGER.kind, (s.swFields R.AON_LEDGER n 0).reg R.AON_LEDGER_LOC) } := by
        rw [State.writeLedger, if_neg ((not_congr hgo).mpr (Classical.not_not.mpr h)), if_neg ((not_congr hden).mpr hd)]
      rw [he, if_pos h, if_neg hd, if_pos ⟨h, hd⟩]
      exact ⟨((hw.putBits [F.AON_LEDGER.kind] (by simp) (by decide) (by decide) (by decide)).perm (.swap ..)).same (State.setBoot_regs ..), by simp [hkind, hloc, hboot]⟩
  · have he : s.writeLedger n = s.swFields R.AON_LEDGER n 0 := by rw [State.writeLedger, if_pos (hgo.mpr h)]
    rw [he, if_neg h, if_neg (fun x => h x.1)]
    exact ⟨hw, hboot⟩

/-- The fields of `PWR_PMB` that a write takes. -/
def pmbFields : List Field := [F.PWR_PMB.cmd, F.PWR_PMB.page, F.PWR_PMB.read, F.PWR_PMB.two, F.PWR_PMB.data]

theorem State.writePmb_spec (n : Nat) :
    let go := nbit n 12 ∧ ¬ s.on F.PWR_PMB.busy
    let allowed := nbit n 10 ∨ n % 256 = 3
    FieldsBecome
        ([⟨F.PWR_PMB.cmd, 0, 0, n % 256⟩, ⟨F.PWR_PMB.page, 0, 0, n / 256 % 4⟩, ⟨F.PWR_PMB.read, 0, 0, n / 1024 % 2⟩, ⟨F.PWR_PMB.two, 0, 0, n / 2048 % 2⟩,
          ⟨F.PWR_PMB.data, 0, 0, n / 2 ^ 32 % 65536⟩] ++
          (if go ∧ allowed then [⟨F.PWR_PMB.busy, 0, 0, 1⟩] else if go then [⟨F.PWR_PMB.code, 0, 0, 5⟩] else [])) s (s.writePmb n) ∧
      (s.writePmb n).power = (if go then { s.power with pmb := (nbit n 10, nbit n 11) } else s.power) ∧
      (s.writePmb n).outbox = s.outbox ++ (if go ∧ allowed then [.pmbus (n / 256 % 4) (n % 256) (nbit n 10) 0] else []) := by
  intro go allowed
  have hw : FieldsBecome [⟨F.PWR_PMB.cmd, 0, 0, n % 256⟩, ⟨F.PWR_PMB.page, 0, 0, n / 256 % 4⟩, ⟨F.PWR_PMB.read, 0, 0, n / 1024 % 2⟩,
      ⟨F.PWR_PMB.two, 0, 0, n / 2048 % 2⟩, ⟨F.PWR_PMB.data, 0, 0, n / 2 ^ 32 % 65536⟩] s (s.swFields R.PWR_PMB n 0) :=
    (s.swFields_fields (r := R.PWR_PMB) pmbFields (by decide) (by decide) (by decide) (by decide) n 0 0).congr
      (by simp [pmbFields, getBits, F.PWR_PMB.cmd, F.PWR_PMB.page, F.PWR_PMB.read, F.PWR_PMB.two, F.PWR_PMB.data])
  have hcmd : (s.swFields R.PWR_PMB n 0).get F.PWR_PMB.cmd = n % 256 := hw.1 ⟨F.PWR_PMB.cmd, 0, 0, _⟩ (by simp)
  have hpage : (s.swFields R.PWR_PMB n 0).get F.PWR_PMB.page = n / 256 % 4 := hw.1 ⟨F.PWR_PMB.page, 0, 0, _⟩ (by simp)
  have hread : (s.swFields R.PWR_PMB n 0).on F.PWR_PMB.read = nbit n 10 := by
    have h : (s.swFields R.PWR_PMB n 0).get F.PWR_PMB.read = n / 1024 % 2 := hw.1 ⟨F.PWR_PMB.read, 0, 0, _⟩ (by simp)
    rw [State.on, h, nbit_eq]; rfl
  have htwo : (s.swFields R.PWR_PMB n 0).on F.PWR_PMB.two = nbit n 11 := by
    have h : (s.swFields R.PWR_PMB n 0).get F.PWR_PMB.two = n / 2048 % 2 := hw.1 ⟨F.PWR_PMB.two, 0, 0, _⟩ (by simp)
    rw [State.on, h, nbit_eq]; rfl
  have hbusy : (s.swFields R.PWR_PMB n 0).on F.PWR_PMB.busy = s.on F.PWR_PMB.busy :=
    hw.on_eq pmbFields (by simp [pmbFields]) 0 0 (by decide) (by decide)
  have hout : (s.swFields R.PWR_PMB n 0).outbox = s.outbox := State.setReg_outbox ..
  have hpow : (s.swFields R.PWR_PMB n 0).power = s.power := State.setReg_power ..
  let u := (s.swFields R.PWR_PMB n 0).setPower fun p => { p with pmb := (nbit n 10, nbit n 11) }
  have hu := hw.same (u := u) (State.setPower_regs ..)
  by_cases h : go
  · by_cases ha : allowed
    · have he : s.writePmb n = (u.put F.PWR_PMB.busy 1).emit (.pmbus (n / 256 % 4) (n % 256) (nbit n 10) 0) := by
        have hp : (nbit n 10 || n % 256 == pmbClearFaults) = true := by simpa [pmbClearFaults, allowed] using ha
        simp [State.writePmb, hbusy, hread, htwo, hcmd, hpage, h.1, h.2, hp, u]
      rw [he, if_pos ⟨h, ha⟩, if_pos h, if_pos ⟨h, ha⟩]
      exact ⟨((hu.putBits pmbFields (by simp [pmbFields]) (by decide) (by decide) (by decide)).perm (List.perm_append_singleton ..).symm).same (State.emit_regs ..),
        by simp [u, hpow], by simp [u, hout]⟩
    · have he : s.writePmb n = u.put F.PWR_PMB.code 5 := by
        have hp : (nbit n 10 || n % 256 == pmbClearFaults) = false := by simpa [pmbClearFaults, allowed] using ha
        simp [State.writePmb, hbusy, hread, htwo, hcmd, h.1, h.2, hp, u]
      rw [he, if_neg (fun x => ha x.2), if_pos h, if_pos h, if_neg (fun x => ha x.2)]
      exact ⟨(hu.putBits pmbFields (by simp [pmbFields]) (by decide) (by decide) (by decide)).perm (List.perm_append_singleton ..).symm,
        by simp [u, hpow], by simp [u, hout]⟩
  · have he : s.writePmb n = s.swFields R.PWR_PMB n 0 := by
      rw [State.writePmb, hbusy, if_neg (by simpa [go] using h)]
    rw [he, if_neg (fun x => h x.1), if_neg h, if_neg h, if_neg (fun x => h x.1)]
    exact ⟨hw, hpow, by rw [hout, List.append_nil]⟩

theorem commandBitsActOnTheFieldsWrittenWithThem : Claim.CommandBitsActOnTheFieldsWrittenWithThem := by
  intro v s n
  obtain ⟨hmemo, hmemoBoot⟩ := s.writeMemo_spec n v.isLt
  obtain ⟨hledger, hledgerBoot⟩ := s.writeLedger_spec n
  obtain ⟨hpmb, hpmbPower, hpmbOut⟩ := s.writePmb_spec n
  exact ⟨answers_onlyFields s rfl rfl (s.writeBlockId_fields n), ⟨_, rfl, s.writeWdog_after v⟩, ⟨_, rfl, s.writeWdog_after v⟩,
    ⟨_, rfl, hmemo, exec_parts (c := .aonMemoGo v) rfl, hmemoBoot⟩, ⟨_, rfl, hledger, exec_parts (c := .aonLedgerGo v) rfl, hledgerBoot⟩,
    ⟨_, rfl, hpmb, exec_parts (c := .pwrPmbGo v) rfl, hpmbPower, hpmbOut⟩, answers_onlyFields s rfl rfl (s.writeTwinWin_fields n)⟩

end Sys2Proof.Machine
end

section
/-! The commands that acknowledge or move a pointer. -/
namespace Sys2Proof.Machine

variable (s : State)

/-! ### Tails of rings -/

theorem nbits_tail (n : Nat) : nbits n 48 32 = n / 2 ^ 32 % 2 ^ 17 := nbits_eq n 48 32

theorem State.writeRxPtr_fields (p : FrId) (n : Nat) : FieldsBecome
    (if tailOk (s.get F.FR_RXRING.size p.val) (s.get F.FR_RXPTR.head p.val) (s.get F.FR_RXPTR.tail p.val) (n / 2 ^ 32 % 2 ^ 17)
      then [⟨F.FR_RXPTR.tail, p.val, 0, n / 2 ^ 32 % 2 ^ 17⟩] else []) s (s.writeRxPtr p n) := by
  rw [State.writeRxPtr, nbits_tail]
  split
  · exact s.put_fields _ _ (by decide) (Nat.mod_lt _ (by decide))
  · exact .refl s

theorem State.writeTxPtr_fields (p : FrId) (n : Nat) : FieldsBecome
    (if tailOk (s.get F.FR_TXRING.size p.val) (s.get F.FR_TXPTR.head p.val) (s.get F.FR_TXPTR.tail p.val) (n / 2 ^ 32 % 2 ^ 17)
      then [⟨F.FR_TXPTR.tail, p.val, 0, n / 2 ^ 32 % 2 ^ 17⟩] else []) s (s.writeTxPtr p n) := by
  rw [State.writeTxPtr, nbits_tail]
  split
  · exact s.put_fields _ _ (by decide) (Nat.mod_lt _ (by decide))
  · exact .refl s

/-- A guarded entry of a list of fields names its field or none. -/
theorem forall_mem_ite {c : Prop} [Decidable c] {q : Holds} {l : List Holds} {P : Holds → Prop} (hq : P q) (hl : ∀ x ∈ l, P x) :
    ∀ x ∈ (if c then [q] else []) ++ l, P x := by
  split
  · simpa [hq] using hl
  · simpa using hl

theorem State.writeElogStatus_fields (n : Nat) : FieldsBecome
    ((if (s.get F.ELOG_STATUS.head + 8192 - n % 8192) % 8192 ≤ 4096 then [⟨F.ELOG_STATUS.tail, 0, 0, n % 8192⟩] else []) ++
      (if nbit n 61 then [⟨F.ELOG_STATUS.irq, 0, 0, 0⟩] else []) ++ (if nbit n 62 then [⟨F.ELOG_STATUS.overflowed, 0, 0, 0⟩] else []) ++
      (if nbit n 63 then [⟨F.ELOG_STATUS.first_valid, 0, 0, 0⟩] else [])) s (s.writeElogStatus n) := by
  have m63 : ∀ q ∈ (if nbit n 63 then [(⟨F.ELOG_STATUS.first_valid, 0, 0, 0⟩ : Holds)] else []) ++ [], q.field ∈ [F.ELOG_STATUS.first_valid] :=
    forall_mem_ite (by simp) (by simp)
  have m62 := forall_mem_ite (c := nbit n 62 = true) (q := ⟨F.ELOG_STATUS.overflowed, 0, 0, 0⟩) (P := fun q => q.field ∈ [F.ELOG_STATUS.overflowed, F.ELOG_STATUS.first_valid])
    (by simp) fun q hq => List.mem_cons_of_mem _ (m63 q hq)
  have m61 := forall_mem_ite (c := nbit n 61 = true) (q := ⟨F.ELOG_STATUS.irq, 0, 0, 0⟩) (P := fun q => q.field ∈ [F.ELOG_STATUS.irq, F.ELOG_STATUS.overflowed, F.ELOG_STATUS.first_valid])
    (by simp) fun q hq => List.mem_cons_of_mem _ (m62 q hq)
  have h := (((FieldsBecome.refl s).putIf [] (by simp) (i := 0) (j := 0) (nbit n 63 = true) (f := F.ELOG_STATUS.first_valid) (v := 0) (by decide) (by decide) (by simp)).putIf
    [F.ELOG_STATUS.first_valid] m63 (i := 0) (j := 0) (nbit n 62 = true) (f := F.ELOG_STATUS.overflowed) (v := 0) (by decide) (by decide) (by decide)).putIf _ m62 (i := 0) (j := 0)
    (nbit n 61 = true) (f := F.ELOG_STATUS.irq) (v := 0) (by decide) (by decide) (by decide)
  have hh := h.get_eq _ m61 (f := F.ELOG_STATUS.head) 0 0 (by decide) (by decide)
  have ht := h.putIf _ m61 (i := 0) (j := 0) ((s.get F.ELOG_STATUS.head + 8192 - n % 8192) % 8192 ≤ 4096) (f := F.ELOG_STATUS.tail) (v := n % 8192) (by decide)
    (Nat.mod_lt _ (by decide)) (by decide)
  rw [State.writeElogStatus, State.writeTail, hh]
  exact ht.congr (by simp only [List.append_assoc, List.append_nil])

/-! ### Acknowledged sensors and inputs -/

/-- The counts of the thermal status leave every other register. -/
theorem State.countSensors_rd {k : Nat} (hk : k ≠ R.THM_STATUS.key 0 0) : s.countSensors.rd k = s.rd k := by
  rw [State.countSensors]
  exact (State.rd_put_other _ F.THM_STATUS.suspect_n _ 0 0 hk).trans (s.rd_put_other F.THM_STATUS.broken_n _ 0 0 hk)

theorem and_allOnes {v : Nat} (hv : v < 2 ^ 64) : v &&& 0xFFFFFFFFFFFFFFFF = v :=
  (Nat.and_two_pow_sub_one_eq_mod v 64).trans (Nat.mod_eq_of_lt hv)

/-- The keys of an array of class 3 are none of its status register. -/
theorem key_ne_thmStatus {r : Reg} (hr : r.cls = 3 ∧ 0x100 ≤ r.off) (j : Nat) : r.key 0 j ≠ R.THM_STATUS.key 0 0 := by
  have : R.THM_STATUS.key 0 0 = 0x3000000 := rfl
  rw [this, Reg.key, hr.1]
  omega

/-- An acknowledging write to an array of sensors clears the bits written as 1, whatever records of the sensors go with them. -/
theorem clearedSensors_reg {r : Reg} (hx : r ≠ R.PIN_HOLD) (hw : r.rw = 0 ∧ r.rwl = 0 ∧ r.w1s = 0) (hc : r.w1c = 0xFFFFFFFFFFFFFFFF)
    (hr : r.cls = 3 ∧ 0x100 ≤ r.off) (i : Nat) {v : Nat} (hv : v < 2 ^ 64) (f : Thermal → Thermal) :
    ((s.swWrite r v 0 i false).setThermal f).countSensors.reg r 0 i = s.reg r 0 i &&& (0xFFFFFFFFFFFFFFFF ^^^ v) := by
  have h := s.reg_swWrite_w1c hx hw v 0 i false
  rw [hc, and_allOnes hv] at h
  have ht (q : State) : (q.setThermal f).countSensors.reg r 0 i = q.reg r 0 i := State.countSensors_rd _ (key_ne_thmStatus hr i)
  rw [ht, h]

/-- What clearing the faults of an input does beside the fault register: its edges count anew, and it shows its level. -/
def State.clearInput (s : State) (v : Nat) (n : PinId) : State :=
  if nbit v n.val ∨ nbit v (n.val + 32) then
    { s with pins := { s.pins with edges := vset s.pins.edges n 0 } }.putBit F.PIN_IN.active n.val (s.inputActive n)
  else s

theorem State.writePinFault_eq (v : Nat) :
    s.writePinFault v = (List.finRange 15).foldl (fun s n => s.clearInput v n) (s.swWrite R.PIN_FAULT v 0 0 false) := rfl

theorem State.clearInput_rd (v : Nat) (n : PinId) {k : Nat} (hk : k ≠ R.PIN_IN.key 0 0) : (s.clearInput v n).rd k = s.rd k := by
  rw [State.clearInput]
  split
  · exact State.rd_put_other _ F.PIN_IN.active _ 0 0 hk
  · rfl

theorem State.clearInput_edges (v : Nat) (n m : PinId) :
    vget (s.clearInput v n).pins.edges m = if m = n ∧ (nbit v n.val ∨ nbit v (n.val + 32)) then 0 else vget s.pins.edges m := by
  rw [State.clearInput]
  split
  · next h =>
    by_cases hm : m = n
    · subst hm
      rw [if_pos ⟨rfl, h⟩]
      exact vget_vset_same ..
    · rw [if_neg fun x => hm x.1]
      exact vget_vset_other _ _ hm
  · next h => rw [if_neg fun x => h x.2]

theorem State.clearInputs_rd (v : Nat) (l : List PinId) {k : Nat} (hk : k ≠ R.PIN_IN.key 0 0) : (l.foldl (fun s n => s.clearInput v n) s).rd k = s.rd k := by
  induction l generalizing s with
  | nil => rfl
  | cons n l ih => exact (ih _).trans (s.clearInput_rd v n hk)

theorem State.clearInputs_edges (v : Nat) (l : List PinId) (m : PinId) :
    vget (l.foldl (fun s n => s.clearInput v n) s).pins.edges m = if m ∈ l ∧ (nbit v m.val ∨ nbit v (m.val + 32)) then 0 else vget s.pins.edges m := by
  induction l generalizing s with
  | nil => simp
  | cons n l ih =>
    rw [List.foldl_cons, ih, s.clearInput_edges]
    by_cases hn : m = n
    · subst hn; by_cases hc : nbit v m.val = true ∨ nbit v (m.val + 32) = true <;> simp [hc]
    · simp [hn]

theorem State.writePll_spec (e : EngineId) (v : Nat) : (nbit v 2 = true → (s.writePll e v).on F.CLK_PLL.fail (e.val + 1) = false) ∧
    (nbit v 2 = false ∨ s.on F.CLK_PLL.fail (e.val + 1) = false → s.writePll e v = s) := by
  by_cases h : (nbit v 2 && s.on F.CLK_PLL.fail (e.val + 1)) = true
  · obtain ⟨hv, hf⟩ := (Bool.and_eq_true _ _).mp h
    refine ⟨fun _ => ?_, fun x => ?_⟩
    · have h1 : FieldsBecome [⟨F.CLK_PLL.state, e.val + 1, 0, 0⟩, ⟨F.CLK_PLL.fail, e.val + 1, 0, 0⟩] s
          ((s.put F.CLK_PLL.fail 0 (e.val + 1)).put F.CLK_PLL.state 0 (e.val + 1)) :=
        (s.put_fields _ _ (by decide) (by decide)).putBits [F.CLK_PLL.fail] (by simp) (by decide) (by decide) (by decide)
      have hoff : ((s.put F.CLK_PLL.fail 0 (e.val + 1)).put F.CLK_PLL.state 0 (e.val + 1)).on F.CLK_PLL.fail (e.val + 1) = false := by
        rw [State.on, h1.1 ⟨F.CLK_PLL.fail, e.val + 1, 0, 0⟩ (by simp)]; rfl
      rw [State.writePll, if_pos h]
      dsimp only
      split
      · rw [State.pllLock, State.count, State.on, State.get_put_of_apart _ (by decide) _ (.inr (by decide)), State.get_put_of_apart _ (by decide) _ (.inr (by decide))]
        exact hoff
      · exact hoff
    · simp [hv, hf] at x
  · rw [State.writePll, if_neg h]
    exact ⟨fun hv => by simpa [hv] using h, fun _ => rfl⟩

theorem acknowledgingWritesClearOrMovePointers : Claim.AcknowledgingWritesClearOrMovePointers := by
  intro v s
  refine ⟨fun i => ?_, fun p => ?_, fun p => ?_, ?_, ?_, fun i => ?_, fun i => ?_, fun e => ?_⟩
  · refine ⟨_, rfl, exec_parts (c := .plLostClear i v) rfl, s.setReg_keys _ _ _ _, fun b => ?_⟩
    rw [s.reg_swWrite_w1c (r := R.PL_LOST) (by decide) (by decide), show R.PL_LOST.w1c = 0xFFFFFFFFFFFFFFFF from rfl, and_allOnes v.isLt,
      testBit_and_not (s.reg_lt ..)]
  · exact answers_onlyFields s rfl rfl (s.writeRxPtr_fields p v.toNat)
  · exact answers_onlyFields s rfl rfl (s.writeTxPtr_fields p v.toNat)
  · exact answers_onlyFields s rfl rfl (s.writeElogStatus_fields v.toNat)
  · refine ⟨_, rfl, exec_parts (c := .pinFaultClear v) rfl, fun k hk => ?_, ?_, fun n => ?_⟩
    · simp only [List.mem_cons, List.not_mem_nil, or_false, not_or] at hk
      rw [s.writePinFault_eq, State.clearInputs_rd _ _ _ hk.2]
      exact s.rd_setReg_other _ _ _ _ hk.1
    · rw [s.writePinFault_eq, State.reg, State.clearInputs_rd _ _ _ (by decide)]
      exact s.reg_swWrite_w1c (r := R.PIN_FAULT) (by decide) (by decide) _ 0 0 false
    · rw [s.writePinFault_eq, State.clearInputs_edges]
      simp only [List.mem_finRange, true_and]
      rfl
  · exact ⟨_, rfl, exec_parts (c := .thmSuspectClear i v) rfl, clearedSensors_reg s (by decide) (by decide) rfl (by decide) i.val v.isLt _⟩
  · exact ⟨_, rfl, exec_parts (c := .thmBrokenClear i v) rfl, clearedSensors_reg s (by decide) (by decide) rfl (by decide) i.val v.isLt _⟩
  · exact ⟨_, rfl, exec_parts (c := .clkPllFailClear e v) rfl, s.writePll_spec e v.toNat⟩

/-- Settles O7: each write, as the fields of registers that it changes. -/
theorem registerWritesLimitCommandAndAcknowledge : Obligations.RegisterWritesLimitCommandAndAcknowledge :=
  ⟨limitedWritesStoreNoMoreThanTheirLimits, commandBitsActOnTheFieldsWrittenWithThem, acknowledgingWritesClearOrMovePointers⟩

end Sys2Proof.Machine
end

section
/-! Bytes of memory, the lengths of what the flash stores, and the seals and appends of the flash (R487, R488, R492-R494). -/
namespace Sys2Proof.Machine

/-! ### Stored bytes -/

section
variable (s : State)

theorem State.setBytes_parts (k : Nat) (b : List Byte) : OnlyParts [.mem] s (s.setBytes k b) :=
  (State.setBytes_moves (es := fun _ => False) (.refl _) (.refl s)).parts

@[simp] theorem State.setBytes_regs (k : Nat) (b : List Byte) : (s.setBytes k b).regs = s.regs := s.setBytes_parts k b .regs (by decide)
@[simp] theorem State.setBytes_net (k : Nat) (b : List Byte) : (s.setBytes k b).net = s.net := s.setBytes_parts k b .net (by decide)
@[simp] theorem State.setBytes_outbox (k : Nat) (b : List Byte) : (s.setBytes k b).outbox = s.outbox := s.setBytes_parts k b .outbox (by decide)
@[simp] theorem State.setBytes_drawn (k : Nat) (b : List Byte) : (s.setBytes k b).drawn = s.drawn := s.setBytes_parts k b .drawn (by decide)

/-- A store leaves every byte outside it. -/
theorem State.byte_setBytes_out {k q : Nat} {b : List Byte} (h : q < k ∨ k + b.length ≤ q) : (s.setBytes k b).byte q = s.byte q := by
  induction b generalizing s k with
  | nil => rfl
  | cons x b ih =>
    rw [List.length_cons] at h
    rw [State.setBytes, ih _ (by omega), State.byte_setByte_other _ _ (by omega)]

theorem State.bytes_length (k n : Nat) : (s.bytes k n).length = n := by simp [State.bytes]

theorem State.bytes_succ (k n : Nat) : s.bytes k (n + 1) = s.byte k :: s.bytes (k + 1) n := by
  simp [State.bytes, List.range_succ_eq_map, Nat.add_comm, Nat.add_left_comm]

/-- Bytes that agree one by one are the same bytes. -/
theorem State.bytes_congr {s t : State} {k n : Nat} (h : ∀ q, k ≤ q → q < k + n → t.byte q = s.byte q) : t.bytes k n = s.bytes k n :=
  List.map_congr_left fun _ hi => h _ (Nat.le_add_right ..) (Nat.add_lt_add_left (List.mem_range.mp hi) k)

/-- What was stored is read back. -/
theorem State.bytes_setBytes (k : Nat) (b : List Byte) : (s.setBytes k b).bytes k b.length = b := by
  induction b generalizing s k with
  | nil => rfl
  | cons x b ih =>
    rw [List.length_cons, State.bytes_succ, State.setBytes, ih, State.byte_setBytes_out _ (.inl (Nat.lt_succ_self k)), State.byte_setByte_same]

theorem State.setBytes_append (k : Nat) (a b : List Byte) : s.setBytes k (a ++ b) = (s.setBytes k a).setBytes (k + a.length) b := by
  induction a generalizing s k with
  | nil => rfl
  | cons x a ih => rw [List.cons_append, State.setBytes, ih, State.setBytes, List.length_cons, Nat.add_assoc, Nat.add_comm 1]

/-- Two parts stored one after the other are each read back. -/
theorem State.bytes_setBytes_append (k : Nat) (a b : List Byte) :
    (s.setBytes k (a ++ b)).bytes k a.length = a ∧ (s.setBytes k (a ++ b)).bytes (k + a.length) b.length = b := by
  rw [State.setBytes_append]
  refine ⟨?_, State.bytes_setBytes _ _ _⟩
  rw [State.bytes_congr (s := s.setBytes k a) fun q _ hq => State.byte_setBytes_out _ (.inl hq), State.bytes_setBytes]

end

theorem Tbl.get_filter {α : Type} (d : Nat → α) (f : Nat × α → Bool) (t : Tbl α) {k : Nat} (h : ∀ v, f (k, v) = true) :
    Tbl.get d (t.filter f) k = Tbl.get d t k := by
  induction t with
  | nil => rfl
  | cons p t ih =>
    obtain ⟨a, v⟩ := p
    by_cases ha : a = k
    · simp [ha, h v, Tbl.get]
    · by_cases hf : f (a, v) = true <;> simp [hf, Tbl.get, ha, ih]

/-- An erase leaves every byte outside its blocks. -/
theorem State.byte_eraseFlash (s : State) {at_ n q : Nat} (h : q < spFlash + at_ ∨ spFlash + at_ + n ≤ q) : (s.eraseFlash at_ n).byte q = s.byte q :=
  Tbl.get_filter _ _ _ fun _ => by simpa using h

/-! ### Lengths -/

theorem leBytes_length (n x : Nat) : (leBytes n x).length = n := by
  induction n generalizing x with
  | zero => rfl
  | succ n ih => rw [leBytes, List.length_cons, ih]

theorem shaRound_length (v : List Word) (kw : Word × Word) : (shaRound v kw).length = v.length := by
  unfold shaRound
  split <;> rfl

theorem shaRounds_length (l : List (Word × Word)) (v : List Word) : (l.foldl shaRound v).length = v.length := by
  induction l generalizing v with
  | nil => rfl
  | cons x l ih => rw [List.foldl_cons, ih, shaRound_length]

theorem shaBlock_length (h : List Word) (b : List Byte) : (shaBlock h b).length = h.length := by
  simp only [shaBlock, List.length_map, List.length_zip, shaRounds_length, Nat.min_self]

theorem shaBlocks_length (l : List (List Byte)) (h : List Word) : (l.foldl shaBlock h).length = h.length := by
  induction l generalizing h with
  | nil => rfl
  | cons x l ih => rw [List.foldl_cons, ih, shaBlock_length]

theorem sha384_length (m : List Byte) : (sha384 m).length = 48 := by
  have h (l : List Word) : (l.flatMap fun x => beBytes 8 x.toNat).length = 8 * l.length := by
    induction l with
    | nil => rfl
    | cons x l ih => rw [List.flatMap_cons, List.length_append, ih, beBytes, List.length_reverse, leBytes_length, List.length_cons]; omega
  rw [sha384, h, List.length_take, shaBlocks_length]
  rfl

theorem hmac384_length (key msg : List Byte) : (hmac384 key msg).length = 48 := sha384_length _

theorem ledgerHead_length (seq kind source action loc boots : Nat) : (ledgerHead seq kind source action loc boots).length = 24 := by
  simp only [ledgerHead, List.length_append, leBytes_length]

theorem State.ledgerMac_length (s : State) (head : List Byte) : (s.ledgerMac head).length = 8 := by
  rw [State.ledgerMac, List.length_take, hmac384_length]; rfl

/-! ### Seals of the memo -/

theorem Code.toNat_lt (c : Code) : c.toNat < 16 := by cases c <;> decide

/-- A seal ends: its code shows, and its engine is free. -/
theorem State.memoDone_fields {s t : State} (h : t.regs = s.regs) (c : Code) :
    FieldsBecome [⟨F.AON_MEMO.code, 0, 0, c.toNat⟩, ⟨F.AON_MEMO.busy, 0, 0, 0⟩] s (t.memoDone c) :=
  ((((FieldsBecome.refl s).same h).putBits [] (by simp) (by decide) (Code.toNat_lt c) (by decide)).putBits [F.AON_MEMO.code] (by simp) (by decide) (by decide)
    (by decide)).perm (.swap ..)

/-- The copy that a seal writes, and its generation (R493). -/
def State.sealCopy (s : State) : Nat := match s.newestMemo with | some c => 1 - c | none => 0
def State.sealGen (s : State) : Nat := match s.newestMemo with | some c => s.memoGen c + 1 | none => 1

/-- The body that a seal writes from the bytes that its go named. -/
def sealedBody (b : List Byte) (gen : Nat) : List Byte := b.take 8 ++ leBytes 8 gen ++ b.drop 16

theorem sealedBody_length {b : List Byte} (h : b.length = memoBody) (gen : Nat) : (sealedBody b gen).length = memoBody := by
  have : memoBody = 68672 := rfl
  simp only [sealedBody, List.length_append, List.length_take, List.length_drop, leBytes_length]
  omega

theorem State.memoKey_eraseFlash (s : State) (at_ n : Nat) : (s.eraseFlash at_ n).memoKey = s.memoKey := rfl

/-- The meaning of the end of a seal whose body is good. -/
theorem exec_memoSealDone {s : State} (ok : Bool) (hb : s.on F.AON_MEMO.busy = true) (hs : inSram s.boot.memoSrc memoBody = true)
    (hf : memoForm (s.readSram s.boot.memoSrc memoBody) = true) :
    exec (.memoSealDone ok) s = .next (
      let body := sealedBody (s.readSram s.boot.memoSrc memoBody) s.sealGen
      let e := s.eraseFlash (memoAt s.sealCopy) 0x100000
      if ok then (e.writeFlash (memoAt s.sealCopy) (body ++ hmac384 s.memoKey body)).memoDone .ok
      else (e.failFlash (memoAt s.sealCopy) (memoBody + 48)).memoDone .dataErr) := by
  change execMemoSealDone ok s = _
  cases hn : s.newestMemo <;> cases ok <;>
    simp [execMemoSealDone, need, hb, hs, hf, hn, State.sealCopy, State.sealGen, sealedBody, State.memoKey_eraseFlash]

theorem failFlash_length (drawn at_ n : Nat) : ((List.range n).map fun i => Config.flashByte drawn (at_ + i)).length = n := by simp

/-- A seal stores within its copy, whatever its read-back gives. -/
theorem State.byte_sealed (s : State) {at_ q : Nat} {b : List Byte} (hb : b.length = memoBody + 48) (h : q < spFlash + at_ ∨ spFlash + at_ + 0x100000 ≤ q) :
    ((s.eraseFlash at_ 0x100000).writeFlash at_ b).byte q = s.byte q := by
  have : memoBody = 68672 := rfl
  rw [State.writeFlash, State.byte_setBytes_out _ (by omega), State.byte_eraseFlash _ h]

@[simp] theorem State.byte_memoDone (s : State) (c : Code) (q : Nat) : (s.memoDone c).byte q = s.byte q := by
  rw [State.memoDone, State.byte_put, State.byte_put]

@[simp] theorem State.bytes_memoDone (s : State) (c : Code) (k n : Nat) : (s.memoDone c).bytes k n = s.bytes k n :=
  State.bytes_congr fun q _ _ => s.byte_memoDone c q

@[simp] theorem State.memoDone_drawn (s : State) (c : Code) : (s.memoDone c).drawn = s.drawn := by
  rw [State.memoDone, State.put_drawn, State.put_drawn]

@[simp] theorem State.byte_draw (s : State) (q : Nat) : s.draw.byte q = s.byte q := rfl

theorem State.failFlash_regs (s : State) (at_ n : Nat) : (s.failFlash at_ n).regs = s.regs := State.setBytes_regs ..

theorem sealsWriteTheFlash (s : State) (hbusy : s.on F.AON_MEMO.busy = true) :
    let src := s.boot.memoSrc
    let b := s.readSram src memoBody
    let ended (c : Code) : List Holds := [⟨F.AON_MEMO.code, 0, 0, c.toNat⟩, ⟨F.AON_MEMO.busy, 0, 0, 0⟩]
    let at_ := spFlash + memoAt s.sealCopy
    (inSram src memoBody = false → ∀ ok, Answers (.memoSealDone ok) s (OnlyFields (ended .unmapped) s)) ∧
    (inSram src memoBody = true → memoForm b = false → ∀ ok, Answers (.memoSealDone ok) s (OnlyFields (ended .dataErr) s)) ∧
    (inSram src memoBody = true → memoForm b = true → ∀ ok, Answers (.memoSealDone ok) s fun t =>
      FieldsBecome (ended (if ok then .ok else .dataErr)) s t ∧ OnlyParts [.regs, .mem, .drawn] s t ∧ (∀ k, ¬ (at_ ≤ k ∧ k < at_ + 0x100000) → t.byte k = s.byte k) ∧
        (ok = true →
          let body := sealedBody b s.sealGen
          t.bytes at_ memoBody = body ∧ t.bytes (at_ + memoBody) 48 = hmac384 s.memoKey body ∧ t.drawn = s.drawn)) := by
  have early (ok : Bool) (c : Code) (he : exec (.memoSealDone ok) s = .next (s.memoDone c)) :
      Answers (.memoSealDone ok) s (OnlyFields [⟨F.AON_MEMO.code, 0, 0, c.toNat⟩, ⟨F.AON_MEMO.busy, 0, 0, 0⟩] s) :=
    ⟨_, he, State.memoDone_fields rfl c, (State.memoDone_moves (es := fun _ => False) (.refl _) (.refl s)).parts⟩
  refine ⟨fun hs ok => early ok .unmapped ?_, fun hs hf ok => early ok .dataErr ?_, fun hs hf ok => ?_⟩
  · change execMemoSealDone ok s = _
    simp [execMemoSealDone, need, hbusy, hs]
  · change execMemoSealDone ok s = _
    simp [execMemoSealDone, need, hbusy, hs, hf]
  · have hlen : (sealedBody (s.readSram s.boot.memoSrc memoBody) s.sealGen).length = memoBody := sealedBody_length (s.bytes_length _ _) _
    have he := exec_memoSealDone ok hbusy hs hf
    cases ok with
    | false =>
      simp only [Bool.false_eq_true, if_false] at he
      refine ⟨_, he, State.memoDone_fields (by rw [State.failFlash_regs]; rfl) .dataErr, exec_parts he, fun k hk => ?_, fun h => by cases h⟩
      rw [State.byte_memoDone, State.failFlash, State.byte_draw]
      exact s.byte_sealed (failFlash_length ..) (by omega)
    | true =>
      simp only [if_true] at he
      refine ⟨_, he, State.memoDone_fields (by rw [State.writeFlash, State.setBytes_regs]; rfl) .ok, exec_parts he, fun k hk => ?_, fun _ => ?_⟩
      · rw [State.byte_memoDone]
        exact s.byte_sealed (by rw [List.length_append, hmac384_length, hlen]) (by omega)
      · obtain ⟨hbody, hmac⟩ := (s.eraseFlash (memoAt s.sealCopy) 0x100000).bytes_setBytes_append (spFlash + memoAt s.sealCopy)
          (sealedBody (s.readSram s.boot.memoSrc memoBody) s.sealGen) (hmac384 s.memoKey (sealedBody (s.readSram s.boot.memoSrc memoBody) s.sealGen))
        rw [hlen] at hbody hmac
        rw [hmac384_length] at hmac
        refine ⟨?_, ?_, ?_⟩
        · rw [State.bytes_memoDone]; exact hbody
        · rw [State.bytes_memoDone]; exact hmac
        · rw [State.memoDone_drawn, State.writeFlash, State.setBytes_drawn]; rfl

/-! ### Appends to the ledger -/

/-- An append ends: its code shows, and its engine is free. -/
theorem State.ledgerDone_fields {s t : State} (h : t.regs = s.regs) (c : Code) :
    FieldsBecome [⟨F.AON_LEDGER.code, 0, 0, c.toNat⟩, ⟨F.AON_LEDGER.busy, 0, 0, 0⟩] s (t.ledgerDone c) :=
  ((((FieldsBecome.refl s).same h).putBits [] (by simp) (by decide) (Code.toNat_lt c) (by decide)).putBits [F.AON_LEDGER.code] (by simp) (by decide) (by decide)
    (by decide)).perm (.swap ..)

/-- The register of appends is the only one that the end of an append changes. -/
theorem State.ledgerDone_rd (s : State) (c : Code) {k : Nat} (hk : k ≠ R.AON_LEDGER.key 0 0) : (s.ledgerDone c).rd k = s.rd k := by
  rw [State.ledgerDone]
  exact (State.rd_put_other _ F.AON_LEDGER.busy _ 0 0 hk).trans (State.rd_put_other _ F.AON_LEDGER.code _ 0 0 hk)

@[simp] theorem State.byte_ledgerDone (s : State) (c : Code) (q : Nat) : (s.ledgerDone c).byte q = s.byte q := by
  rw [State.ledgerDone, State.byte_put, State.byte_put]

@[simp] theorem State.ledgerDone_drawn (s : State) (c : Code) : (s.ledgerDone c).drawn = s.drawn := by
  rw [State.ledgerDone, State.put_drawn, State.put_drawn]

/-- A store leaves every register. -/
theorem State.rd_setBytes (s : State) (k : Nat) (b : List Byte) (q : Nat) : (s.setBytes k b).rd q = s.rd q := by
  rw [State.rd, State.setBytes_regs, State.rd]

/-- The entry that an append writes (R487). -/
def State.ledgerEntry (s : State) : List Byte :=
  let head := ledgerHead (highestSeq s.ledgerEntries + 1) s.boot.append.1 2 1 s.boot.append.2 (s.get F.AON_STATUS.boots)
  head ++ s.ledgerMac head

theorem State.ledgerEntry_length (s : State) : s.ledgerEntry.length = 32 := by
  rw [State.ledgerEntry, List.length_append, ledgerHead_length, State.ledgerMac_length]

/-- An append whose read-back fails: its slot holds free bytes (log entry 41). -/
def State.appendFailed (s : State) (at_ : Nat) : State := (s.failFlash at_ 32).ledgerDone .dataErr

/-- An append that is made. -/
def State.appended (s : State) (at_ : Nat) : State :=
  ((s.writeFlash at_ s.ledgerEntry).put F.AON_LEDGER.seq (highestSeq s.ledgerEntries + 1)).ledgerDone .ok

/-- The meaning of the end of an append for which a slot is erased. -/
theorem exec_ledgerAppendDone {s : State} (ok : Bool) {i : Nat} (hb : s.on F.AON_LEDGER.busy = true) (hi : s.erasedSlot s.activeBank = some i) :
    exec (.ledgerAppendDone ok) s = .next (if ok then s.appended (ledgerBank s.activeBank + 32 * i) else s.appendFailed (ledgerBank s.activeBank + 32 * i)) := by
  change execLedgerAppendDone ok s = _
  cases ok <;> simp [execLedgerAppendDone, need, hb, hi, State.ledgerEntry, State.appended, State.appendFailed]

section
variable (s : State) (at_ : Nat)

theorem State.appendFailed_fields :
    FieldsBecome [⟨F.AON_LEDGER.code, 0, 0, Code.dataErr.toNat⟩, ⟨F.AON_LEDGER.busy, 0, 0, 0⟩] s (s.appendFailed at_) :=
  State.ledgerDone_fields (State.failFlash_regs s at_ 32) .dataErr

theorem State.appendFailed_keys : OnlyKeys [R.AON_LEDGER.key 0 0] s (s.appendFailed at_) := fun k hk => by
  rw [State.appendFailed, State.ledgerDone_rd _ _ ((not_congr List.mem_singleton).mp hk), State.rd, State.failFlash_regs, State.rd]

theorem State.byte_appendFailed {q : Nat} (h : q < spFlash + at_ ∨ spFlash + at_ + 32 ≤ q) : (s.appendFailed at_).byte q = s.byte q := by
  rw [State.appendFailed, State.byte_ledgerDone, State.failFlash, State.byte_draw, State.writeFlash, State.byte_setBytes_out]
  rw [failFlash_length]
  exact h

/-- What an append puts before it ends. -/
theorem State.appended_fields : FieldsBecome [⟨F.AON_LEDGER.code, 0, 0, Code.ok.toNat⟩, ⟨F.AON_LEDGER.busy, 0, 0, 0⟩]
    ((s.writeFlash at_ s.ledgerEntry).put F.AON_LEDGER.seq (highestSeq s.ledgerEntries + 1)) (s.appended at_) :=
  State.ledgerDone_fields rfl .ok

theorem State.appended_seq : (s.appended at_).get F.AON_LEDGER.seq = (highestSeq s.ledgerEntries + 1) % 2 ^ F.AON_LEDGER.seq.w :=
  ((s.appended_fields at_).get_eq [F.AON_LEDGER.code, F.AON_LEDGER.busy] (by simp) 0 0 (by decide) (by decide)).trans
    (State.get_put_same _ F.AON_LEDGER.seq (by decide) _ 0 0)

theorem State.appended_keys : OnlyKeys [R.AON_LEDGER.key 0 0] s (s.appended at_) := fun k hk => by
  have hk := (not_congr List.mem_singleton).mp hk
  rw [State.appended, State.ledgerDone_rd _ _ hk]
  exact (State.rd_put_other _ F.AON_LEDGER.seq _ 0 0 hk).trans (State.rd_setBytes ..)

theorem State.byte_appended (q : Nat) : (s.appended at_).byte q = (s.setBytes (spFlash + at_) s.ledgerEntry).byte q := by
  rw [State.appended, State.byte_ledgerDone, State.byte_put, State.writeFlash]

theorem State.byte_appended_out {q : Nat} (h : q < spFlash + at_ ∨ spFlash + at_ + 32 ≤ q) : (s.appended at_).byte q = s.byte q := by
  rw [State.byte_appended, State.byte_setBytes_out]
  rw [s.ledgerEntry_length]
  exact h

theorem State.bytes_appended : (s.appended at_).bytes (spFlash + at_) 32 = s.ledgerEntry := by
  rw [State.bytes_congr (s := s.setBytes (spFlash + at_) s.ledgerEntry) fun q _ _ => s.byte_appended at_ q]
  have h := s.bytes_setBytes (spFlash + at_) s.ledgerEntry
  rwa [s.ledgerEntry_length] at h

theorem State.appended_drawn : (s.appended at_).drawn = s.drawn := by
  rw [State.appended, State.ledgerDone_drawn, State.put_drawn, State.writeFlash, State.setBytes_drawn]

end

theorem appendsWriteTheLedger (s : State) (hbusy : s.on F.AON_LEDGER.busy = true) :
    let b := s.activeBank
    (s.erasedSlot b = none → ∀ ok, Answers (.ledgerAppendDone ok) s (OnlyFields [⟨F.AON_LEDGER.code, 0, 0, 1⟩, ⟨F.AON_LEDGER.busy, 0, 0, 0⟩] s)) ∧
    ∀ i ok, s.erasedSlot b = some i → Answers (.ledgerAppendDone ok) s fun t =>
      let at_ := spFlash + ledgerBank b + 32 * i
      (∀ k, k < at_ ∨ at_ + 32 ≤ k → t.byte k = s.byte k) ∧ t.get F.AON_LEDGER.busy = 0 ∧ OnlyKeys [R.AON_LEDGER.key 0 0] s t ∧ OnlyParts [.regs, .mem, .drawn] s t ∧
        (ok = false → t.get F.AON_LEDGER.code = 1) ∧
        (ok = true → t.bytes at_ 32 = s.ledgerEntry ∧ t.get F.AON_LEDGER.seq = (highestSeq s.ledgerEntries + 1) % 2 ^ F.AON_LEDGER.seq.w ∧
          t.get F.AON_LEDGER.code = 0 ∧ t.drawn = s.drawn) := by
  refine ⟨fun hn ok => ?_, fun i ok hi => ?_⟩
  · have he : exec (.ledgerAppendDone ok) s = .next (s.ledgerDone .dataErr) := by
      change execLedgerAppendDone ok s = _
      simp [execLedgerAppendDone, need, hbusy, hn]
    exact ⟨_, he, State.ledgerDone_fields rfl .dataErr, (State.ledgerDone_moves (es := fun _ => False) (.refl _) (.refl s)).parts⟩
  · have he := exec_ledgerAppendDone ok hbusy hi
    have hp := exec_parts he
    simp only [Nat.add_assoc spFlash]
    refine ⟨_, he, ?_⟩
    generalize ledgerBank s.activeBank + 32 * i = at_ at *
    cases ok with
    | false =>
      have hf := s.appendFailed_fields at_
      exact ⟨fun k hk => s.byte_appendFailed at_ hk, hf.1 ⟨F.AON_LEDGER.busy, 0, 0, 0⟩ (by simp), s.appendFailed_keys at_, hp,
        fun _ => hf.1 ⟨F.AON_LEDGER.code, 0, 0, Code.dataErr.toNat⟩ (by simp), fun h => by cases h⟩
    | true =>
      have hf := s.appended_fields at_
      exact ⟨fun k hk => s.byte_appended_out at_ hk, hf.1 ⟨F.AON_LEDGER.busy, 0, 0, 0⟩ (by simp), s.appended_keys at_, hp, fun h => (by cases h),
        fun _ => ⟨s.bytes_appended at_, s.appended_seq at_, hf.1 ⟨F.AON_LEDGER.code, 0, 0, Code.ok.toNat⟩ (by simp), s.appended_drawn at_⟩⟩

theorem sealsAndAppendsWriteTheFlash : Claim.SealsAndAppendsWriteTheFlash :=
  fun s => ⟨sealsWriteTheFlash s, appendsWriteTheLedger s⟩

end Sys2Proof.Machine
end

section
/-! Requests that reach the unit that serves them: what answering, serving and parking a request leaves, case by case of the delivery
(R27, R35, R264-R268, R329, R412, R419, R420, R521). -/
namespace Sys2Proof.Machine

/-! ### Answering and serving -/

section
variable (q : State) (r : MemReq)

theorem State.answer_parts (c : Code) (data : List Byte) (d : Nat) : OnlyParts [.regs, .mesh, .outbox] q (q.answer r c data d) :=
  (State.answer_moves (es := fun _ => False) (.refl _) (.refl q)).parts

/-- An answer sends what the address of the request and the requester ask for. -/
theorem State.answer_replied (c : Code) (data : List Byte) (d : Nat) : Replied q r c data (q.answer r c data d) d := by
  obtain ⟨who, id, addr, op, epoch⟩ := r
  unfold Replied answeredBy State.answer
  cases who with
  | core c => rfl
  | remote b => cases unitPort addr.toNat <;> rfl
  | engine g =>
    by_cases hg : q.resetOf g = true
    · simp [State.complete, hg, State.discardFor, State.count]
    · simp [State.complete, hg, State.emit]

/-- What an answer sends depends on the queues of the state and on the resets of its engines alone. -/
theorem Replied.congr {q q' : State} {r : MemReq} {c : Code} {data : List Byte} {t : State} {d : Nat}
    (he : q'.engines = q.engines) (hm : q'.mesh = q.mesh) (ho : q'.outbox = q.outbox) (h : Replied q' r c data t d) : Replied q r c data t d := by
  unfold Replied answeredBy State.resetOf State.eng at *
  rw [he, hm, ho] at h
  exact h

/-- Serving a request reads or stores as the address map says, and answers. -/
theorem State.serve_served : Served q r (q.serve r) := by
  unfold Served State.serve
  cases r.op with
  | read n =>
    have hn : OnlyParts [.regs, .squares, .elog] q (q.noteRead r.addr.toNat n) := (State.noteRead_moves (es := fun _ => False) (.refl _) (.refl q)).parts
    have ha := (q.noteRead r.addr.toNat n).answer_parts r (q.readLocal r.addr.toNat n).1 (q.readLocal r.addr.toNat n).2 0
    exact ⟨Eq.trans (ha .mem (by decide)) (hn .mem (by decide)), Eq.trans (ha .marks (by decide)) (hn .marks (by decide)),
      Replied.congr (q' := q.noteRead r.addr.toNat n) (hn .engines (by decide)) (hn .mesh (by decide)) (hn .outbox (by decide)) (State.answer_replied ..)⟩
  | write b =>
    have hw : OnlyParts [.regs, .mem, .marks, .squares] q (q.writeLocal r.addr.toNat b).1 := (State.writeLocal_moves (es := fun _ => False) (.refl _) (.refl q)).parts
    have ha := (q.writeLocal r.addr.toNat b).1.answer_parts r (q.writeLocal r.addr.toNat b).2 [] 0
    exact ⟨ha .mem (by decide), ha .marks (by decide), ha .squares (by decide),
      Replied.congr (q' := (q.writeLocal r.addr.toNat b).1) (hw .engines (by decide)) (hw .mesh (by decide)) (hw .outbox (by decide)) (State.answer_replied ..)⟩

end

/-! ### Regions that wake -/

section
variable (s : State)

/-- The mark of a waking region leaves the states, the currents and the failures of the regions, and so the load of a segment. -/
theorem State.segment_put_waking (v i : Nat) (r : RegionId) : (s.put F.PWR_RG_STATUS.waking v i).segment r = s.segment r := by
  have hs (q : RegionId) : (s.put F.PWR_RG_STATUS.waking v i).regState q = s.regState q :=
    State.get_put_of_apart s (by decide) v (.inr (by decide))
  have hc (q : RegionId) : (s.put F.PWR_RG_STATUS.waking v i).get F.PWR_RG_STATUS.current (instOf q) = s.get F.PWR_RG_STATUS.current (instOf q) :=
    State.get_put_of_apart s (by decide) v (.inr (by decide))
  unfold State.segment
  simp only [hs, hc]

theorem State.startTurn_eq (r : RegionId) : s.startTurn r = s.setRegion r { s.region r with
    phase := if s.segment r < 612 then .closing false (s.clock.ticks + 2000) else .waiting } := by
  unfold State.startTurn State.closeGates segmentLimit
  split <;> rfl

/-- A region that may wake shows waking, and takes its turn in the column. -/
theorem wake_of_mayWake {r : RegionId} (h : (s.regState r = 1 ∨ s.regState r = 2) ∧ (s.region r).phase = .none ∧ s.pllBars r = false) :
    s.wake r = (s.put F.PWR_RG_STATUS.waking 1 (instOf r)).setRegion r { s.region r with phase := turnOf s r } := by
  have ht := (s.put F.PWR_RG_STATUS.waking 1 (instOf r)).startTurn_eq r
  rw [State.segment_put_waking] at ht
  unfold State.wake turnOf
  rw [if_pos h]
  by_cases hq : ((columnRegions r).any fun q => (s.region q).phase.holdsTurn) = true
  · rw [if_pos hq]
    exact if_pos hq
  · rw [if_neg hq]
    exact (if_neg hq).trans ht

theorem State.wake_wakes (r : RegionId) : Wakes r s (s.wake r) := by
  unfold Wakes
  by_cases h : (s.regState r = 1 ∨ s.regState r = 2) ∧ (s.region r).phase = .none ∧ s.pllBars r = false
  · rw [if_pos h, wake_of_mayWake s h]
    exact ⟨(State.get_setRegion ..).trans (s.get_put_same F.PWR_RG_STATUS.waking (by decide) 1 (instOf r) 0),
      fun q hq => vget_vset_other _ _ hq, vget_vset_same _ _ _⟩
  · rw [if_neg h, State.wake, if_neg h]
    exact ⟨rfl, rfl⟩

end

/-! ### Deliveries -/

/-- A state with other packets in its mesh and other accesses on its links. -/
def State.withPackets (s : State) (mesh : List MeshPkt) (net : Net) : State := { s with mesh := mesh, net := net }

section
variable (s : State) (mesh : List MeshPkt) (net : Net)

theorem State.withPackets_moves {ps : List Part} (hp : Parts [.mesh, .net] ps) : Moves ps (fun _ => False) s (s.withPackets mesh net) :=
  ⟨.refl _, .refl _, .refl _, .refl _, .refl _, .refl _, .refl _, .refl _, id, List.prefix_refl _, Nat.le_refl _, rfl,
    fun p hn => by
      cases p
      case mesh => exact absurd (hp.m rfl) hn
      case net => exact absurd (hp.m rfl) hn
      all_goals exact rfl, fun _ _ => rfl⟩

/-! What the packets of the mesh do not bear on. -/

@[simp] theorem State.eng_withPackets (e : EngineId) : (s.withPackets mesh net).eng e = s.eng e := rfl
@[simp] theorem State.on_withPackets (f : Field) (i j : Nat) : (s.withPackets mesh net).on f i j = s.on f i j := rfl
@[simp] theorem State.target_withPackets (a n : Nat) : (s.withPackets mesh net).target a n = s.target a n := rfl
@[simp] theorem State.resetOf_withPackets (e : EngineId) : (s.withPackets mesh net).resetOf e = s.resetOf e := rfl
@[simp] theorem State.regionOn_withPackets (e : EngineId) : (s.withPackets mesh net).regionOn e = s.regionOn e := rfl
@[simp] theorem State.squareOn_withPackets (k : SquareId) : (s.withPackets mesh net).squareOn k = s.squareOn k := rfl
@[simp] theorem State.engineLinked_withPackets (e : EngineId) : (s.withPackets mesh net).engineLinked e = s.engineLinked e := rfl
@[simp] theorem State.landingLinked_withPackets (e : EngineId) : (s.withPackets mesh net).landingLinked e = s.landingLinked e := rfl
@[simp] theorem State.deliverCheck_withPackets (k : SquareId) (r : MemReq) (x : Target) : (s.withPackets mesh net).deliverCheck k r x = s.deliverCheck k r x := rfl

/-! What a delivery ends with. -/

variable (k : SquareId) (r : MemReq)

theorem State.answer_withPackets (c : Code) (d : Nat) : Replied (s.withPackets mesh net) r c [] ((s.withPackets mesh net).answer r c [] d) d ∧
    OnlyParts [.mesh, .net, .regs, .outbox] s ((s.withPackets mesh net).answer r c [] d) :=
  ⟨State.answer_replied .., (State.answer_moves ⟨by decide⟩ (s.withPackets_moves mesh net ⟨by decide⟩)).parts⟩

variable {s} in
theorem State.serve_from {q : State} (hq : Moves (.net :: servedParts) (fun _ => False) s q) :
    Served q r (q.serve r) ∧ OnlyParts (.net :: servedParts) s (q.serve r) :=
  ⟨q.serve_served r, (State.serve_moves ⟨by decide⟩ hq).parts⟩

theorem State.park_withPackets (g : RegionId) : Parked k r g s ((s.withPackets mesh net).park k r g) := by
  have hw := (State.wake_moves (es := fun _ => False) (r := g) (.refl _) (.refl (s.withPackets mesh net))).parts
  exact ⟨congrArg (· ++ _) (hw .parked (by decide)), (s.withPackets mesh net).wake_wakes g,
    (State.park_moves ⟨by decide⟩ (s.withPackets_moves mesh net ⟨by decide⟩)).parts⟩

theorem State.withEpoch_proceed {u : State} {x : Target} (h : u.deliverCheck k r x = .proceed) (go : Option State) : u.withEpoch k r x go = go := by
  rw [State.withEpoch, h]

theorem State.withEpoch_skew {u : State} {x : Target} {a : Nat} (h : u.deliverCheck k r x = .skew a) (go : Option State) :
    u.withEpoch k r x go = some (u.answer r .epochSkew [] a) := by
  rw [State.withEpoch, h]

/-! An access of one sector at a home square that is on: a hit is served from its line, a write of the whole sector takes a line, and the rest goes to the bank. -/

variable (u : State) (e : EngineId)

theorem State.squareDram_hit (h : (u.lineOf k (physKey r.addr.toNat / 64)).isSome = true) :
    u.squareDram k e r [] = (u.touch k (physKey r.addr.toNat / 64)).serve r := by
  obtain ⟨l, hl⟩ := Option.isSome_iff_exists.mp h
  simp [State.squareDram, hl]

theorem State.squareDram_miss (hl : u.lineOf k (physKey r.addr.toNat / 64) = none) (hc : u.allocClass k r.who (reqWrites r) e (reqBank r) = none) :
    u.squareDram k e r [] = u.toLanding e r false := by
  simp [State.squareDram, hl, hc]

theorem State.squareDram_alloc {c : LineClass} (hl : u.lineOf k (physKey r.addr.toNat / 64) = none)
    (hc : u.allocClass k r.who (reqWrites r) e (reqBank r) = some c) :
    u.squareDram k e r [] = if wholeSector r then (u.allocate k (physKey r.addr.toNat / 64) c true).serve r
      else (u.setSq k { u.sq k with fills := (u.sq k).fills ++ [⟨r, physKey r.addr.toNat / 64, c⟩] }).toLanding e r true := by
  simp [State.squareDram, hl, hc]

end

section
variable {s t : State} {mesh : List MeshPkt} {net : Net} {k : SquareId} {r : MemReq}

/-- A request that its router delivers reaches the unit of its target. -/
theorem State.deliverRequest_delivered (h : (s.withPackets mesh net).deliverRequest k r = some t) : Delivered k r s (s.withPackets mesh net) t := by
  have hs := s.withPackets_moves mesh net (ps := .net :: servedParts) ⟨by decide⟩
  refine ⟨fun ht => ?_, fun o ht => ?_, fun e ht => ?_, fun q ht => ?_, fun e ht => ?_⟩
  · simp only [State.deliverRequest, State.target_withPackets, ht, Option.some.injEq] at h
    exact h ▸ s.answer_withPackets ..
  · simp only [State.deliverRequest, State.target_withPackets, ht, Option.some.injEq] at h
    exact h ▸ s.answer_withPackets ..
  · simp only [State.deliverRequest, State.target_withPackets, ht] at h
    refine ⟨fun hm => ?_, fun hm hr => ?_, fun hm hr x hx => ?_, fun hm hr hx => ⟨fun ho => ?_, fun ho => ?_⟩⟩
    · simp [hm] at h
      exact h ▸ s.answer_withPackets ..
    · simp [hm, State.resetOf, hr] at h
      exact h ▸ s.answer_withPackets ..
    · simp [hm, State.resetOf, hr, State.withEpoch_skew, hx] at h
      exact h.2 ▸ s.answer_withPackets ..
    · simp [hm, State.resetOf, hr, State.withEpoch_proceed, hx, ho] at h
      exact h.2 ▸ State.serve_from r hs
    · simp [hm, State.resetOf, hr, State.withEpoch_proceed, hx, ho] at h
      exact h.2 ▸ s.park_withPackets ..
  · simp only [State.deliverRequest, State.target_withPackets, ht] at h
    refine ⟨fun hm => ?_, fun hm x hx => ?_, fun hm hx => ⟨fun ho => ?_, fun ho => ?_⟩⟩
    · simp [hm] at h
      exact h ▸ s.answer_withPackets ..
    · simp [hm, State.withEpoch_skew, hx] at h
      exact h ▸ s.answer_withPackets ..
    · simp [hm, State.withEpoch_proceed, hx, ho] at h
      exact h.2 ▸ State.serve_from r hs
    · simp [hm, State.withEpoch_proceed, hx, ho] at h
      exact h.2 ▸ s.park_withPackets ..
  · simp only [State.deliverRequest, State.target_withPackets, ht] at h
    refine ⟨fun hm => ?_, fun hm x hx => ?_, fun hm hx => ⟨fun ho => ?_, fun ho h1 => ?_⟩⟩
    · simp [hm] at h
      exact h ▸ s.answer_withPackets ..
    · simp [hm, State.withEpoch_skew, hx] at h
      exact h.2 ▸ s.answer_withPackets ..
    · simp [hm, State.withEpoch_proceed, hx, ho] at h
      exact h.2 ▸ s.park_withPackets ..
    · simp [hm, State.withEpoch_proceed, hx, ho, h1] at h
      obtain ⟨-, -, rfl⟩ := h
      refine ⟨fun hl => ?_, fun hl hc => ?_, fun c hl hc hw => ?_, fun c hl hc hw => ?_⟩
      · rw [State.squareDram_hit _ _ (s.withPackets mesh net) _ hl]
        exact State.serve_from r (State.touch_moves ⟨by decide⟩ hs)
      · rw [State.squareDram_miss _ _ (s.withPackets mesh net) _ hl hc]
        have hu := s.withPackets_moves mesh net (ps := [.mesh, .net, .squares, .landq]) ⟨by decide⟩
        exact ⟨⟨rfl, rfl, (State.toLanding_moves ⟨by decide⟩ hu).parts⟩, rfl⟩
      · rw [State.squareDram_alloc _ _ (s.withPackets mesh net) _ hl hc, if_pos hw]
        exact State.serve_from r (State.allocate_moves ⟨by decide⟩ hs)
      · rw [State.squareDram_alloc _ _ (s.withPackets mesh net) _ hl hc, hw, if_neg Bool.false_ne_true]
        have hu := s.withPackets_moves mesh net (ps := [.mesh, .net, .squares, .landq]) ⟨by decide⟩
        exact ⟨⟨rfl, rfl, (State.toLanding_moves ⟨by decide⟩ (State.setSq_moves ⟨by decide⟩ hu)).parts⟩, vget_vset_same _ _ _⟩

end

end Sys2Proof.Machine
end

section
/-! Accesses of the control cores: to another block, to control space, to a memory, and to the Floor SRAM of the cores' own space
(R11-R13, R28, R33, R35, R38, R380, R510, R528). -/
namespace Sys2Proof.Machine

/-! ### An access by its target -/

/-- The state in which a core's access has its number. -/
def State.numbered (s : State) : State := s.withPackets s.mesh { s.net with nextAccess := s.net.nextAccess + 1 }

theorem State.numbered_eq (s : State) : { s with net := { s.net with nextAccess := s.net.nextAccess + 1 } } = s.numbered := rfl

theorem exec_controlCoreAccess (c : CoreId) (sp : CoreSpace) (addr : Word) (op : MemOp) (s : State) :
    exec (.controlCoreAccess c sp addr op) s = execControlCoreAccess c sp addr op s := rfl

theorem exec_packetOriginate (who : Requester) (addr : Word) (op : MemOp) (ep : Option Epoch) (s : State) :
    exec (.packetOriginate who addr op ep) s = execPacketOriginate who addr op ep s := rfl

section
variable (s : State) {c : CoreId} {addr : Word} {op : MemOp} (hc : vget s.boot.coresOff c = false) (hn : 1 ≤ op.size)
include hc hn

theorem exec_coreAccess_remote (hl : s.isLocal addr.toNat = false) :
    exec (.controlCoreAccess c .global addr op) s = exec (.packetOriginate (.core c) addr op none) s := by
  rw [exec_controlCoreAccess, exec_packetOriginate]
  simp [execControlCoreAccess, need, hc, hn, hl]

variable (hl : s.isLocal addr.toNat = true)
include hl

theorem exec_coreAccess_none (ht : s.target addr.toNat op.size = none) :
    exec (.controlCoreAccess c .global addr op) s = .next (s.numbered.complete (.core c) s.net.nextAccess .unmapped 0 []) := by
  have ht' : s.numbered.target addr.toNat op.size = none := ht
  rw [exec_controlCoreAccess]
  simp [execControlCoreAccess, need, hc, hn, hl, State.numbered_eq, ht']

theorem exec_coreAccess_control {off : Nat} (ht : s.target addr.toNat op.size = some (.control off)) :
    exec (.controlCoreAccess c .global addr op) s = .next (s.numbered.controlAccess c s.net.nextAccess off op) := by
  have ht' : s.numbered.target addr.toNat op.size = some (.control off) := ht
  rw [exec_controlCoreAccess]
  simp [execControlCoreAccess, need, hc, hn, hl, State.numbered_eq, ht']

/-- An access to a memory goes to its router, once the block is up. -/
theorem exec_coreAccess_memory {m : Target} {k : SquareId} (ht : s.target addr.toNat op.size = some m) (hk : m.router = some k) :
    exec (.controlCoreAccess c .global addr op) s =
      if s.get F.AON_STATUS.stage = 0 then .next (s.numbered.complete (.core c) s.net.nextAccess .targetReset 0 [])
      else needSome (s.numbered.deliverRequest k ⟨.core c, s.net.nextAccess, addr, op, none⟩) "the access waits for its unit" .next := by
  have ht' : s.numbered.target addr.toNat op.size = some m := ht
  have hs : s.numbered.get F.AON_STATUS.stage = s.get F.AON_STATUS.stage := rfl
  rw [exec_controlCoreAccess]
  cases m with
  | control off => cases hk
  | core e => simp [execControlCoreAccess, need, hc, hn, hl, State.numbered_eq, ht', hk, hs]
  | window q => simp [execControlCoreAccess, need, hc, hn, hl, State.numbered_eq, ht', hk, hs]
  | dram e => simp [execControlCoreAccess, need, hc, hn, hl, State.numbered_eq, ht', hk, hs]

omit hl in
theorem exec_coreAccess_own (parity : Bool) :
    exec (.controlCoreAccess c (.own parity) addr op) s = .next (s.numbered.ownAccess c s.net.nextAccess addr.toNat op parity) := by
  rw [exec_controlCoreAccess]
  simp [execControlCoreAccess, need, hc, hn, State.numbered_eq]

end

/-! ### Control space -/

theorem leBytes_zero (n : Nat) : leBytes n 0 = List.replicate n 0 := by
  induction n with
  | zero => rfl
  | succ n ih => rw [leBytes, Nat.zero_div, ih]; rfl

theorem leNat_lt (b : List Byte) : leNat b < 256 ^ b.length := by
  induction b with
  | nil => exact Nat.one_pos
  | cons x b ih =>
    have := x.isLt
    rw [leNat, List.length_cons, Nat.pow_succ]
    omega

theorem lastInstance_le {c n : Nat} (h : lastInstance c = some n) : c ≤ 0x30 := by
  unfold lastInstance at h
  split at h
  case h_17 => cases h
  all_goals decide

/-- The units of control space lie below 2^32 (R36). -/
theorem lt_of_unitExists {off : Nat} (h : unitExists off = true) : off < 2 ^ 32 := by
  unfold unitExists at h
  cases hi : lastInstance (off / 0x1000000) with
  | none => rw [hi] at h; cases h
  | some n =>
    have := lastInstance_le hi
    omega

section
variable (u : State) (c : CoreId) (id off : Nat) (op : MemOp)

theorem State.unitExists_of_unitCode {u : State} {off : Nat} (h : u.unitCode off = .ok) : unitExists off = true := by
  cases hx : unitExists off with
  | true => rfl
  | false =>
    rw [u.unitCode_of_not_unitExists hx] at h
    cases h

theorem State.controlAccess_misplaced (h : off % 8 ≠ 0 ∨ op.size ≠ 8) : u.controlAccess c id off op = u.complete (.core c) id .accessDenied 0 [] := by
  simp only [State.controlAccess, if_pos h]

variable {off} (ho : off % 8 = 0)
include ho

theorem State.controlAccess_absent (hn : op.size = 8) (h : u.unitCode off ≠ .ok) :
    u.controlAccess c id off op = u.complete (.core c) id (u.unitCode off) 0 [] := by
  simp [State.controlAccess, ho, hn, h]

theorem State.controlAccess_read (h : u.unitCode off = .ok) :
    u.controlAccess c id off (.read 8) = (u.readControl off).1.complete (.core c) id .ok 0 (leBytes 8 (u.readControl off).2) := by
  simp [State.controlAccess, MemOp.size, ho, h]

theorem State.controlAccess_write {b : List Byte} (hb : b.length = 8) (h : u.unitCode off = .ok) :
    u.controlAccess c id off (.write b) = (u.writeControl off (leNat b)).complete (.core c) id .ok 0 [] := by
  simp [State.controlAccess, MemOp.size, ho, hb, h]

end

theorem placed_btime : Placed R.CLK_BTIME 0 0 := ⟨by decide, by decide, by decide, by decide, by decide⟩

section
variable {u : State} {off : Nat}

theorem State.readControl_unassigned (h : assigned off = none) : u.readControl off = (u, 0) := by
  rw [State.readControl, h]

theorem State.readControl_assigned {r : Reg} {i j : Nat} (h : assigned off = some (r, i, j)) (hb : r ≠ R.CLK_BTIME) (hv : r ≠ R.PWR_RG_VMIN) :
    u.readControl off = u.swRead r i j := by
  simp [State.readControl, h, hb, hv]

theorem State.readControl_btime : u.readControl (R.CLK_BTIME.key 0 0) = (u, u.btime) := by
  simp [State.readControl, placed_btime.assigned]

end

/-! ### Memories -/

/-- The queue of a bank is free to take an access of one sector at a home square that is on and fills no line of that sector. -/
theorem State.heldSpan_of_oneSector {s : State} {r : MemReq} {e : EngineId} (h1 : oneSector r = true)
    (ht : s.target r.addr.toNat r.op.size = some (.dram e)) (hf : ∀ f ∈ (s.sq (columnOf e)).fills, f.sector ≠ physKey r.addr.toNat / 64)
    (ho : s.squareOn (columnOf e) = true) : s.heldSpan r.who r.addr.toNat r.op.size = false := by
  have ha := r.addr.isLt
  simp only [oneSector, Bool.and_eq_true, decide_eq_true_eq] at h1
  obtain ⟨hn, h64⟩ := h1
  have hone : sectorsOf r.addr.toNat r.op.size = [(r.addr.toNat, r.op.size)] := by
    have hm : min (r.addr.toNat + r.op.size) (r.addr.toNat / 64 * 64 + 64) = r.addr.toNat + r.op.size := by omega
    rw [sectorsOf, if_neg (by omega), show (r.addr.toNat % 64 + r.op.size + 63) / 64 = 1 by omega]
    simp [hm, Nat.mod_eq_of_lt ha]
  have hfill : ((s.sq (columnOf e)).fills.any fun f => f.sector == physKey r.addr.toNat / 64) = false := by
    simpa using hf
  simp [State.heldSpan, hone, State.heldAccess, ht, hfill, ho]

/-- A core's request that finds its unit linked and free is delivered. -/
theorem State.deliverRequest_isSome {u : State} {k : SquareId} {r : MemReq} {m : Target} (ht : u.target r.addr.toNat r.op.size = some m)
    (hk : m.router = some k) (hep : r.epoch = none) (hcore : ∀ e, m = .core e → u.engineLinked e = true)
    (hwin : ∀ q, m = .window q → u.on F.SQ_CTL.busy q.val = false)
    (hdram : ∀ e, m = .dram e → u.landingLinked e = true ∧ (∀ f ∈ (u.sq k).fills, f.sector ≠ physKey r.addr.toNat / 64) ∧ oneSector r = true) :
    (u.deliverRequest k r).isSome = true := by
  have hp (x : Target) : u.deliverCheck k r x = .proceed := by rw [State.deliverCheck, hep]
  cases m with
  | control off => cases hk
  | core e =>
    simp only [State.deliverRequest, ht, hcore e rfl, State.withEpoch_proceed _ _ (hp _), Bool.not_true, Bool.false_eq_true, if_false]
    split
    · rfl
    · split <;> rfl
  | window q =>
    simp only [State.deliverRequest, ht, hwin q rfl, State.withEpoch_proceed _ _ (hp _), Bool.false_eq_true, if_false]
    split <;> rfl
  | dram e =>
    obtain ⟨hl, hf, h1⟩ := hdram e rfl
    cases hk
    have hh (ho : u.squareOn (columnOf e) = true) := State.heldSpan_of_oneSector h1 ht hf ho
    simp only [State.deliverRequest, ht, hl, h1, State.withEpoch_proceed _ _ (hp _), Bool.not_true, Bool.false_eq_true, if_false, if_true]
    split
    · rfl
    · split
      · rfl
      · rename_i ho
        rw [hh (by simpa using ho)]
        rfl

/-! ### The Floor SRAM of a core's own space -/

section
variable (u : State) (c : CoreId) (id a : Nat) (parity : Bool)

theorem State.ownAccess_outside {op : MemOp} (h : inSram a op.size = false) : u.ownAccess c id a op parity = u.complete (.core c) id .unmapped 0 [] := by
  simp only [State.ownAccess, if_pos h]

theorem State.ownAccess_read {n : Nat} (h : inSram a n = true) : u.ownAccess c id a (.read n) parity =
    u.complete (.core c) id (if parity then .dataErr else .ok) 0 (if parity then [] else u.bytes (spSram + a) n) := by
  cases parity <;> simp [State.ownAccess, MemOp.size, h, State.readSram]

theorem State.ownAccess_denied {b : List Byte} (h : inSram a b.length = true) (hr : sramReadOnly a b.length = true) :
    u.ownAccess c id a (.write b) parity = u.complete (.core c) id .accessDenied 0 [] := by
  simp [State.ownAccess, MemOp.size, h, hr]

theorem State.ownAccess_write {b : List Byte} (h : inSram a b.length = true) (hr : sramReadOnly a b.length = false) :
    u.ownAccess c id a (.write b) parity = (u.setBytes (spSram + a) b).complete (.core c) id .ok 0 [] := by
  simp [State.ownAccess, MemOp.size, h, hr, State.writeSram]

end

/-! ### The accesses -/

theorem State.numbered_moves {ps : List Part} (s : State) (hp : Parts [.net] ps) : Moves ps (fun _ => False) s s.numbered :=
  ⟨.refl _, .refl _, .refl _, .refl _, .refl _, .refl _, .refl _, .refl _, id, List.prefix_refl _, Nat.le_refl _, rfl,
    fun p hn => by
      cases p
      case net => exact absurd (hp.m rfl) hn
      all_goals exact rfl, fun _ _ => rfl⟩

/-- A register that an access of a core changes, and the reply that follows, change nothing else. -/
theorem State.setReg_replied (s : State) (r : Reg) {v : Nat} (hv : v < 2 ^ 64) (i j : Nat) (o : Output) :
    let t := (s.numbered.setReg r v i j).emit o
    t.outbox = s.outbox ++ [o] ∧ t.reg r i j = v ∧ OnlyKeys [r.key i j] s t ∧ t.net = s.numbered.net ∧ OnlyParts [.regs, .net, .outbox] s t :=
  ⟨(State.emit_outbox ..).trans (congrArg (· ++ [o]) (s.numbered.setReg_outbox r v i j)),
    (State.reg_emit ..).trans ((s.numbered.reg_setReg_same r v i j).trans (Nat.mod_eq_of_lt hv)), s.numbered.setReg_keys r v i j,
    (State.emit_net ..).trans (s.numbered.setReg_net r v i j),
    (State.emit_moves ⟨by decide⟩ (State.setReg_moves ⟨by decide⟩ (s.numbered_moves ⟨by decide⟩))).parts⟩

theorem coresAccessControlSpaceAndMemory : Claim.CoresAccessControlSpaceAndMemory := by
  intro c addr op s hc hn
  refine ⟨exec_coreAccess_remote s hc hn, exec_coreAccess_none s hc hn, fun off hl ht => ?_, fun m k hl ht hk => ?_, fun parity => ?_⟩
  · have he := exec_coreAccess_control s hc hn hl ht
    refine ⟨fun h => ?_, fun ho h8 h => ?_, fun ho hop h ha => ?_, fun r i j ho hop h ha hb hv => ?_, fun ho hop h => ?_, fun b ho hop h8 h => ?_⟩
    · exact he.trans (congrArg _ (State.controlAccess_misplaced _ _ _ _ _ h))
    · exact he.trans (congrArg _ (State.controlAccess_absent _ _ _ _ ho h8 h))
    · subst hop
      rw [he, State.controlAccess_read s.numbered _ _ ho h, State.readControl_unassigned ha, leBytes_zero]
      rfl
    · subst hop
      rw [State.controlAccess_read s.numbered _ _ ho h, State.readControl_assigned ha hb hv] at he
      exact ⟨_, he, s.setReg_replied r (Nat.lt_of_le_of_lt Nat.and_le_left (s.reg_lt r i j)) i j _⟩
    · have h' : s.numbered.unitCode off = .ok := h
      subst hop ho
      rw [he, State.controlAccess_read s.numbered _ _ placed_btime.aligned h', State.readControl_btime]
      rfl
    · subst hop
      have ho32 := lt_of_unitExists (State.unitExists_of_unitCode h)
      have hb64 : leNat b < 2 ^ 64 := by simpa [h8] using leNat_lt b
      rw [State.controlAccess_write s.numbered _ _ ho h8 h] at he
      refine ⟨_, he, _, ?_, rfl⟩
      rw [exec_registerWrite, BitVec.toNat_ofNat, BitVec.toNat_ofNat, Nat.mod_eq_of_lt ho32, Nat.mod_eq_of_lt hb64]
      exact congrArg _ (if_pos ⟨h, ho⟩)
  · have he := exec_coreAccess_memory s hc hn hl ht hk
    refine ⟨fun h0 => he.trans (if_pos h0), fun h0 hcore hwin hdram => ?_⟩
    obtain ⟨t, h⟩ := Option.isSome_iff_exists.mp
      (State.deliverRequest_isSome (u := s.numbered) (r := ⟨.core c, s.net.nextAccess, addr, op, none⟩) ht hk rfl hcore hwin hdram)
    rw [if_neg h0, h] at he
    exact ⟨t, he, State.deliverRequest_delivered h⟩
  · have he := exec_coreAccess_own s hc hn (addr := addr) parity
    refine ⟨fun h => he.trans (congrArg _ (State.ownAccess_outside _ _ _ _ _ h)), fun h => ⟨fun n hop => ?_, fun b hop hr => ?_, fun b hop hr => ?_⟩⟩
    · subst hop
      exact he.trans (congrArg _ (State.ownAccess_read _ _ _ _ _ h))
    · subst hop
      exact he.trans (congrArg _ (State.ownAccess_denied _ _ _ _ _ h hr))
    · subst hop
      rw [State.ownAccess_write _ _ _ _ _ h hr] at he
      exact ⟨_, he, s.numbered.bytes_setBytes _ b, fun k hk => s.numbered.byte_setBytes_out hk,
        congrArg (· ++ _) (s.numbered.setBytes_outbox _ b), s.numbered.setBytes_net _ b,
        (State.emit_moves ⟨by decide⟩ (State.setBytes_moves ⟨by decide⟩ (s.numbered_moves ⟨by decide⟩))).parts⟩

/-- Settles O38: each access of a core by its target, and the flash's seals and appends. -/
theorem coresAccessTheBlockAndTheFlash : Obligations.CoresAccessTheBlockAndTheFlash :=
  ⟨coresAccessControlSpaceAndMemory, sealsAndAppendsWriteTheFlash⟩

end Sys2Proof.Machine
end
